-- ==== Sys2Proof/Word.lean ====
section
/-!
DEFINITION. The word types of the ZL9 and the sparse table `Tab` (a list of key and value pairs, keys rising) in
which registers files, scratchpads and other addressed storage are held. A key that is not listed reads as the
table's default, which the reader names.
-/

namespace Sys2Proof

/-- One byte (R7). -/
abbrev Byte := BitVec 8
/-- A scalar register, a port of 64 bits, a memory word (R185). -/
abbrev Word := BitVec 64
/-- A vector register, a ring position of slots 2 to 7 (R185). -/
abbrev Vec := BitVec 1024

/-- A sparse table: keys strictly rising, no entry equal to the default it is read with. -/
structure Tab (α : Type) where
  cells : List (Nat × α) := []
deriving DecidableEq, Repr, Inhabited

/-- The value at key `k`, or the default. -/
def cellGet {α : Type} : List (Nat × α) → α → Nat → α
  | [], d, _ => d
  | (j, v) :: r, d, k => if j = k then v else cellGet r d k

/-- Put `v` at key `k`, keeping the keys rising. -/
def cellPut {α : Type} : List (Nat × α) → Nat → α → List (Nat × α)
  | [], k, v => [(k, v)]
  | (j, w) :: r, k, v =>
    if k < j then (k, v) :: (j, w) :: r
    else if k = j then (k, v) :: r
    else (j, w) :: cellPut r k v

/-- Remove key `k`. -/
def cellDrop {α : Type} (l : List (Nat × α)) (k : Nat) : List (Nat × α) :=
  l.filter (fun c => c.1 != k)

/-- Keys strictly rising, every key at or above `lo`. -/
def cellRising {α : Type} : List (Nat × α) → Nat → Bool
  | [], _ => true
  | (j, _) :: r, lo => decide (lo ≤ j) && cellRising r (j + 1)

def Tab.empty {α : Type} : Tab α := { cells := [] }

def Tab.get {α : Type} (t : Tab α) (d : α) (k : Nat) : α := cellGet t.cells d k

/-- Write a key; writing the default removes the entry, so that equal contents are equal data. -/
def Tab.put {α : Type} [DecidableEq α] (t : Tab α) (d : α) (k : Nat) (v : α) : Tab α :=
  if v = d then { cells := cellDrop t.cells k } else { cells := cellPut t.cells k v }

/-- Write a key without comparing with a default. -/
def Tab.set {α : Type} (t : Tab α) (k : Nat) (v : α) : Tab α := { cells := cellPut t.cells k v }

def Tab.drop {α : Type} (t : Tab α) (k : Nat) : Tab α := { cells := cellDrop t.cells k }

def Tab.find? {α : Type} (t : Tab α) (k : Nat) : Option α :=
  (t.cells.find? (fun c => c.1 == k)).map (·.2)

def Tab.rising {α : Type} (t : Tab α) : Bool := cellRising t.cells 0

/-- Bits [hi:lo] of a word, as a number (R7). -/
def bits {w : Nat} (x : BitVec w) (hi lo : Nat) : Nat := (x.toNat >>> lo) % 2 ^ (hi + 1 - lo)

/-- Bit `i` of a word. -/
def bit {w : Nat} (x : BitVec w) (i : Nat) : Bool := x.getLsbD i

/-- A number placed at bit `lo`, for building words field by field. -/
def fld (n lo : Nat) : Nat := n <<< lo

/-- A number of `n` bits read as two's complement. -/
def signed (n x : Nat) : Int := if x % 2 ^ n < 2 ^ (n - 1) then ((x % 2 ^ n : Nat) : Int) else ((x % 2 ^ n : Nat) : Int) - (2 ^ n : Nat)

/-- An integer reduced modulo 2^n. -/
def wrap (n : Nat) (x : Int) : Nat := (x % ((2 ^ n : Nat) : Int)).toNat

/-- The numbers `lo, lo + 1, …`, `n` of them. -/
def upto (lo n : Nat) : List Nat := (List.range n).map (lo + ·)

/-- Little-endian bytes of a number (R7). -/
def leBytes : Nat → Nat → List Byte
  | 0, _ => []
  | n + 1, x => BitVec.ofNat 8 x :: leBytes n (x / 256)

/-- The number whose little-endian bytes these are (R7). -/
def ofLeBytes : List Byte → Nat
  | [] => 0
  | b :: r => b.toNat + 256 * ofLeBytes r

/-- Replace the element at an index of a list; an index beyond its end changes nothing. -/
def listSet {α : Type} : List α → Nat → α → List α
  | [], _, _ => []
  | _ :: r, 0, v => v :: r
  | a :: r, n + 1, v => a :: listSet r n v

end Sys2Proof
end

