-- ==== Sys2Proof/Machine/Codec.lean ====
section
/-!
DEFINITION. The FPC code (R309, R310), its index entries (R117) and the 2:4 metadata (R118).
-/

namespace Sys2Proof.Machine

/-! ### Encoding -/

/-- Whether a 32-bit word is the sign extension of its low `n` bits. -/
def fitsSigned (n w : Nat) : Bool := wrap 32 (signed n w) == w

/-- Code of a non-zero word: prefix, payload and payload bits; the shortest, lowest prefix among equals (R310). -/
def fpcCode (w : Nat) : Nat × Nat × Nat :=
  if fitsSigned 4 w then (1, w % 16, 4)
  else if fitsSigned 8 w then (2, w % 256, 8)
  else if w = w % 256 * 0x01010101 then (6, w % 256, 8)
  else if fitsSigned 16 w then (3, w % 65536, 16)
  else if w % 65536 = 0 then (4, w / 65536, 16)
  else if wrap 16 (signed 8 w) = w % 65536 ∧ wrap 16 (signed 8 (w / 65536)) = w / 65536 then (5, w % 256 + w / 65536 % 256 * 256, 16)
  else (7, w, 32)

/-- A stream being written: its bits and their number. -/
structure BitOut where
  val : Nat
  len : Nat

def BitOut.put (b : BitOut) (n v : Nat) : BitOut := { val := b.val + v <<< b.len, len := b.len + n }

/-- Zero words at the head of a list, at most 8. -/
def zeroRun : Nat → List Nat → Nat
  | n + 1, 0 :: r => zeroRun n r + 1
  | _, _ => 0

/-- Encode the words of one 128-byte block. -/
def fpcBlock : Nat → List Nat → BitOut → BitOut
  | 0, _, b => b
  | _, [], b => b
  | f + 1, w :: r, b =>
    if w = 0 then
      let n := zeroRun 8 (w :: r)
      fpcBlock f ((w :: r).drop n) ((b.put 3 0).put 3 (n - 1))
    else
      let c := fpcCode w
      fpcBlock f r ((b.put 3 c.1).put c.2.2 c.2.1)

def wordsOf : Nat → List Byte → List Nat
  | 0, _ => []
  | n + 1, l => ofLeBytes (l.take 4) :: wordsOf n (l.drop 4)

def fpcBlocks : Nat → List Nat → BitOut → BitOut
  | 0, _, b => b
  | n + 1, l, b => fpcBlocks n (l.drop 32) (fpcBlock 32 (l.take 32) b)

/-- A compressed chunk: its index entry's zero and raw bits and its stored bytes (R310). -/
structure FpcOut where
  zero : Bool
  raw : Bool
  data : List Byte

def fpcEncode (chunk : List Byte) : FpcOut :=
  if chunk.all (· == 0) then { zero := true, raw := false, data := [] }
  else
    let b := fpcBlocks 32 (wordsOf 1024 chunk) { val := 0, len := 0 }
    let l := (b.len + 127) / 128 * 16
    if 4096 ≤ l then { zero := false, raw := true, data := chunk } else { zero := false, raw := false, data := leBytes l b.val }

/-- An index entry, Table 5.10. -/
def fpcEntry (o : FpcOut) (off : Nat) : Nat := fld (if o.zero then 1 else 0) 57 + fld (if o.raw then 1 else 0) 56 + fld o.data.length 40 + off % 2 ^ 40

/-! ### Decoding -/

def entryZero (e : Nat) : Bool := e / 2 ^ 57 % 2 == 1
def entryRaw (e : Nat) : Bool := e / 2 ^ 56 % 2 == 1
def entryLength (e : Nat) : Nat := e / 2 ^ 40 % 2 ^ 16
def entryOffset (e : Nat) : Nat := e % 2 ^ 40

/-- An index entry that keeps the rules of R117. -/
def entryOk (e : Nat) : Bool :=
  e / 2 ^ 58 == 0 && decide (entryLength e ≤ 4096) && entryOffset e % 16 == 0 &&
    (!entryZero e || entryLength e == 0) && (!entryRaw e || entryLength e == 4096)

def payloadBits (p : Nat) : Nat := if p = 0 then 3 else if p = 1 then 4 else if p = 2 ∨ p = 6 then 8 else if p = 7 then 32 else 16

/-- The word of a code other than a zero run. -/
def fpcWord (p a : Nat) : Nat :=
  if p = 1 then wrap 32 (signed 4 a)
  else if p = 2 then wrap 32 (signed 8 a)
  else if p = 3 then wrap 32 (signed 16 a)
  else if p = 4 then a * 65536
  else if p = 5 then wrap 16 (signed 8 a) + wrap 16 (signed 8 (a / 256)) * 65536
  else if p = 6 then a % 256 * 0x01010101
  else a

/-- Decode the words of one block from bit `pos`: the words and the next bit, or none on a decode error. -/
def fpcReadBlock (stream limit : Nat) : Nat → Nat → Nat → List Nat → Option (List Nat × Nat)
  | 0, left, pos, acc => if left = 0 then some (acc.reverse, pos) else none
  | f + 1, left, pos, acc =>
    if left = 0 then some (acc.reverse, pos)
    else
      let p := stream / 2 ^ pos % 8
      let n := payloadBits p
      if limit < pos + 3 + n then none
      else
        let a := stream / 2 ^ (pos + 3) % 2 ^ n
        if p = 0 then
          if left < a + 1 then none else fpcReadBlock stream limit f (left - (a + 1)) (pos + 3 + n) (List.replicate (a + 1) 0 ++ acc)
        else fpcReadBlock stream limit f (left - 1) (pos + 3 + n) (fpcWord p a :: acc)

/-- Decode 32 blocks: each block's words and code bits. -/
def fpcReadBlocks (stream limit : Nat) : Nat → Nat → Option (List (List Nat × Nat))
  | 0, pos => if stream / 2 ^ pos = 0 then some [] else none
  | n + 1, pos =>
    match fpcReadBlock stream limit 32 32 pos [] with
    | none => none
    | some (w, next) => (fpcReadBlocks stream limit n next).map fun r => (w, next - pos) :: r

def bytesOfWords : List Nat → List Byte
  | [] => []
  | w :: r => leBytes 4 w ++ bytesOfWords r

/-- Blocks of raw data, 128 bytes of code each. -/
def rawBlocks : Nat → List Byte → List (List Byte × Nat)
  | 0, _ => []
  | n + 1, d => (d.take 128, 1024) :: rawBlocks n (d.drop 128)

/-- A chunk's 32 blocks with their code bits, or none on a decode error (R310). -/
def fpcDecode (e : Nat) (data : List Byte) : Option (List (List Byte × Nat)) :=
  if entryOk e = false then none
  else if entryZero e then some (List.replicate 32 (List.replicate 128 0, 0))
  else if entryRaw e then some (rawBlocks 32 data)
  else (fpcReadBlocks (ofLeBytes data) (8 * data.length) 32 0).map fun l => l.map fun x => (bytesOfWords x.1, x.2)

/-! ### 2:4 sparsity -/

/-- The four elements of a group from its nibble and its two kept elements; none if the nibble breaks R118. -/
def sparseGroup (nibble a b : Nat) : Option (List Nat) :=
  let i := nibble % 4
  let j := nibble / 4 % 4
  if i < j then some ((List.range 4).map fun p => if p = i then a else if p = j then b else 0) else none

end Sys2Proof.Machine
end

