-- ==== Sys2Proof/Syntax.lean ====
section
/-!
DEFINITION. The abstract syntax of the ZL9: one constructor per row of the table of operations and events. A row
with a move word is one move of a bundle that writes a trigger port; the unit is named by the bus (R184), so a move
holds its bus. A row of an address slot or a bank command holds the fields of its encoding. A row that is an event
holds what identifies it: which core, operation, packet or register write it is about.
-/

namespace Sys2Proof

/-- A move into a scalar, memory, engine or control trigger, or into a register (R172, R173). -/
structure Mv where
  /-- the bus the move travels on -/
  bus : Fin 8
  /-- the source port, Table 8.13 -/
  src : BitVec 11
  /-- modifier bit 1: `dx.out` is read without being popped -/
  keep : Bool
deriving DecidableEq, Repr

/-- A move into a vector or SF trigger (R173). -/
structure Vm where
  bus : Fin 8
  src : BitVec 11
  /-- the width: 0 = 1,024, 1 = 512, 2 = 256 bits -/
  w : BitVec 2
deriving DecidableEq, Repr

/-- The fields of a bank multiply command that BMAC, BMACT and BMACQ share (Table 5.6). -/
structure Mac where
  xb : BitVec 2
  wfmt : BitVec 5
  afmt : BitVec 2
  sc : Bool
  sxb : BitVec 2
  e8 : BitVec 8
  nr1 : BitVec 6
  k1 : BitVec 8
  koff : BitVec 6
  row : BitVec 18
deriving DecidableEq, Repr

/-- What a shard run was resolved with (R66): the run's number at its requester, its first coordinate, and the base and
strides of its box. Table 21.4 gives these no bits; log entry 30. -/
structure RunGeom where
  id : Nat
  first : List Nat
  tbase : Nat
  tst : List Nat
deriving DecidableEq, Repr

/-- A flit that a link brings, with the stream that its slot tells: a circuit, a sprayed packet's path, or 0, the link's own
(log entry 40); and what a HEAD's packet carries beside its header: a shard run's resolution (log entry 30) and the issuer's
gathering (log entry 43). -/
structure InFlit where
  stream : Nat
  bits : BitVec 512
  run : Option RunGeom
  gath : Nat
deriving DecidableEq, Repr

/-- A fabric packet: the header of Table 21.4 and its payload (R373, R380). -/
structure Packet where
  op : BitVec 4
  timetabled : Bool
  circ : BitVec 8
  dst : BitVec 15
  src : BitVec 15
  pasid : BitVec 20
  len1 : BitVec 12
  fseq : BitVec 32
  va : BitVec 57
  mapver : BitVec 32
  tid : BitVec 12
  swcore : BitVec 9
  sw : BitVec 19
  swv : Bool
  aop : BitVec 4
  w32 : Bool
  operand : BitVec 64
  cmp : BitVec 64
  data : List Byte
  /-- the resolution of a shard run, beside the header -/
  run : Option RunGeom
  /-- the issuer's gathering, of a timetabled packet, beside the header (log entry 43) -/
  gath : Nat
deriving DecidableEq, Repr

/-- An agent that can wait for a page that is migrating, or for a copy-on-write duplication (R47, R48). -/
inductive Waiter where
  /-- a frozen core -/
  | core (c : Nat)
  /-- an engine operation of a core, by its number -/
  | op (c id : Nat)
  /-- a bank engine -/
  | bank (e : Nat)
  /-- a walk of a translation agent for no core's bundle or engine: 0 to 3 a die's, for a remote request or a pulled S0; 4
  the hub's -/
  | walk (agent pasid va : Nat)
deriving DecidableEq, Repr

/-- The steps of the ZL9, one constructor per row of the table. -/
inductive Instr where
  /-- BUNDLE_ISSUE: A core issues its next bundle once no freeze condition holds: static checks, ring shift, tests, moves, triggers and next-PC choice, in that order. (R183) -/
  | bundleIssue 
  /-- LATE_RESULT_ARRIVAL: Data of a late peer or global load, xlt walk, atomic or ard arrives and ends the freeze of the bundle in which it falls due. (R218) -/
  | lateResultArrival (core tag : Nat)
  /-- XLT_WALK_COMPLETE: The page walk of an xlt finishes; the handle is installed when the result falls due, or a translation fault is raised before the due or next mark bundle. (R38) -/
  | xltWalkComplete (core tag : Nat)
  /-- PUBLISH_ENTRY_PERFORM: A publish-buffer entry is performed at its home as one write of its masked bytes, at some instant before the bounding events. (R125) -/
  | publishEntryPerform (core granule : Nat)
  /-- PHASE_BARRIER_COMPLETE: Once every member of the scope has arrived and published, the phase completes and the frozen phase bundles issue. (R131) -/
  | phaseBarrierComplete (core : Nat)
  /-- WATCHDOG_EXPIRY: The watchdog runs out and the core faults WATCHDOG subcode 1 at the next bundle boundary, ending any freeze. (R236) -/
  | watchdogExpiry (core : Nat)
  /-- MOVE: A move reads its source and writes a register, operand latch or configuration port, converting to the destination width. (R172) -/
  | move (m : Mv) (dst : BitVec 11)
  /-- SA_ADD: Scalar A + B, latency 1. (R244) -/
  | saAdd (m : Mv)
  /-- SA_SUB: Scalar A - B, latency 1. (R244) -/
  | saSub (m : Mv)
  /-- SA_MUL: Low 64 bits of A × B, latency 3. (R244) -/
  | saMul (m : Mv)
  /-- SA_MULH: High 64 bits of the signed product, latency 3. (R244) -/
  | saMulh (m : Mv)
  /-- SA_MULHU: High 64 bits of the unsigned product, latency 3. (R244) -/
  | saMulhu (m : Mv)
  /-- SA_DIV: Signed division truncated toward zero, latency 12, IDZ or IOV as Table 9.7. (R208) -/
  | saDiv (m : Mv)
  /-- SA_DIVU: Unsigned division, latency 12. (R208) -/
  | saDivu (m : Mv)
  /-- SA_REM: Signed remainder with the sign of A, latency 12. (R208) -/
  | saRem (m : Mv)
  /-- SA_REMU: Unsigned remainder, latency 12. (R208) -/
  | saRemu (m : Mv)
  /-- SA_AND: A AND B. (R244) -/
  | saAnd (m : Mv)
  /-- SA_OR: A OR B. (R244) -/
  | saOr (m : Mv)
  /-- SA_XOR: A XOR B. (R244) -/
  | saXor (m : Mv)
  /-- SA_ANDN: A AND NOT B. (R244) -/
  | saAndn (m : Mv)
  /-- SA_SHL: A shifted left by B[5:0]. (R245) -/
  | saShl (m : Mv)
  /-- SA_SHR: A shifted right by B[5:0], zeros in. (R245) -/
  | saShr (m : Mv)
  /-- SA_SAR: A shifted right by B[5:0], sign in. (R245) -/
  | saSar (m : Mv)
  /-- SA_ROTL: A rotated left by B[5:0]. (R245) -/
  | saRotl (m : Mv)
  /-- SA_MIN: Signed minimum. (R244) -/
  | saMin (m : Mv)
  /-- SA_MAX: Signed maximum. (R244) -/
  | saMax (m : Mv)
  /-- SA_MINU: Unsigned minimum. (R244) -/
  | saMinu (m : Mv)
  /-- SA_MAXU: Unsigned maximum. (R244) -/
  | saMaxu (m : Mv)
  /-- SA_SEQ: 1 if A = B, else 0. (R244) -/
  | saSeq (m : Mv)
  /-- SA_SNE: 1 if A ≠ B, else 0. (R244) -/
  | saSne (m : Mv)
  /-- SA_SLT: 1 if A < B signed. (R244) -/
  | saSlt (m : Mv)
  /-- SA_SLTU: 1 if A < B unsigned. (R244) -/
  | saSltu (m : Mv)
  /-- SA_SLE: 1 if A ≤ B signed. (R244) -/
  | saSle (m : Mv)
  /-- SA_SLEU: 1 if A ≤ B unsigned. (R244) -/
  | saSleu (m : Mv)
  /-- SA_SEL: A if C ≠ 0, else B. (R244) -/
  | saSel (m : Mv)
  /-- SA_PASS: Delivers B. (R244) -/
  | saPass (m : Mv)
  /-- SA_CLZ: Leading zeros of B. (R244) -/
  | saClz (m : Mv)
  /-- SA_CTZ: Trailing zeros of B. (R244) -/
  | saCtz (m : Mv)
  /-- SA_POPC: Set bits of B. (R244) -/
  | saPopc (m : Mv)
  /-- SA_SEXT8: B[7:0] sign-extended. (R244) -/
  | saSext8 (m : Mv)
  /-- SA_SEXT16: B[15:0] sign-extended. (R244) -/
  | saSext16 (m : Mv)
  /-- SA_SEXT32: B[31:0] sign-extended. (R244) -/
  | saSext32 (m : Mv)
  /-- SA_ZEXT8: B[7:0] zero-extended. (R244) -/
  | saZext8 (m : Mv)
  /-- SA_ZEXT16: B[15:0] zero-extended. (R244) -/
  | saZext16 (m : Mv)
  /-- SA_ZEXT32: B[31:0] zero-extended. (R244) -/
  | saZext32 (m : Mv)
  /-- SA_BSWAP: Bytes of B reversed. (R244) -/
  | saBswap (m : Mv)
  /-- SA_MADD: A × B + C, low 64 bits, latency 3. (R244) -/
  | saMadd (m : Mv)
  /-- SA_FADD_D: FP64 A + B, latency 4. (R246) -/
  | saFaddD (m : Mv)
  /-- SA_FSUB_D: FP64 A - B. (R246) -/
  | saFsubD (m : Mv)
  /-- SA_FMUL_D: FP64 A × B. (R246) -/
  | saFmulD (m : Mv)
  /-- SA_FMADD_D: FP64 A × B + C with one rounding. (R246) -/
  | saFmaddD (m : Mv)
  /-- SA_FDIV_D: FP64 A ÷ B, latency 14. (R246) -/
  | saFdivD (m : Mv)
  /-- SA_FMIN_D: FP64 minimum by R194. (R246) -/
  | saFminD (m : Mv)
  /-- SA_FMAX_D: FP64 maximum by R194. (R246) -/
  | saFmaxD (m : Mv)
  /-- SA_FEQ_D: 1 if A = B as FP64. (R246) -/
  | saFeqD (m : Mv)
  /-- SA_FLT_D: 1 if A < B as FP64. (R246) -/
  | saFltD (m : Mv)
  /-- SA_FLE_D: 1 if A ≤ B as FP64. (R246) -/
  | saFleD (m : Mv)
  /-- SA_CVT_DI: INT64 B to FP64 under C's rounding mode. (R247) -/
  | saCvtDi (m : Mv)
  /-- SA_CVT_ID: FP64 B to INT64, clamping out-of-range values with NV. (R247) -/
  | saCvtId (m : Mv)
  /-- SA_CVT_SD: FP64 B to FP32 under C's mode and saturation. (R247) -/
  | saCvtSd (m : Mv)
  /-- SA_CVT_DS: FP32 B[31:0] to FP64, exact. (R247) -/
  | saCvtDs (m : Mv)
  /-- VA_ADD: Element-wise add. (R249) -/
  | vaAdd (m : Vm)
  /-- VA_SUB: Element-wise subtract. (R249) -/
  | vaSub (m : Vm)
  /-- VA_MUL: Element-wise multiply. (R249) -/
  | vaMul (m : Vm)
  /-- VA_FMA: Element-wise a × b + c with one rounding. (R249) -/
  | vaFma (m : Vm)
  /-- VA_FMS: Element-wise a × b - c with one rounding. (R249) -/
  | vaFms (m : Vm)
  /-- VA_MIN: Element-wise minimum. (R249) -/
  | vaMin (m : Vm)
  /-- VA_MAX: Element-wise maximum. (R249) -/
  | vaMax (m : Vm)
  /-- VA_ABS: Element-wise absolute value. (R249) -/
  | vaAbs (m : Vm)
  /-- VA_NEG: Element-wise negation. (R249) -/
  | vaNeg (m : Vm)
  /-- VA_AND: Bitwise AND over W bits. (R250) -/
  | vaAnd (m : Vm)
  /-- VA_OR: Bitwise OR over W bits. (R250) -/
  | vaOr (m : Vm)
  /-- VA_XOR: Bitwise XOR over W bits. (R250) -/
  | vaXor (m : Vm)
  /-- VA_SHL: Lane-wise shift left. (R250) -/
  | vaShl (m : Vm)
  /-- VA_SHR: Lane-wise logical shift right. (R250) -/
  | vaShr (m : Vm)
  /-- VA_SAR: Lane-wise arithmetic shift right. (R250) -/
  | vaSar (m : Vm)
  /-- VA_CMPEQ: Lane all ones where A = B. (R250) -/
  | vaCmpeq (m : Vm)
  /-- VA_CMPLT: Lane all ones where A < B. (R250) -/
  | vaCmplt (m : Vm)
  /-- VA_CMPLE: Lane all ones where A ≤ B. (R250) -/
  | vaCmple (m : Vm)
  /-- VA_SEL: Lane from A where C is non-zero, else from B. (R250) -/
  | vaSel (m : Vm)
  /-- VA_CVT: Converts elements from type to otype. (R251) -/
  | vaCvt (m : Vm)
  /-- VA_SCALE: Multiplies each lane by 2^k. (R252) -/
  | vaScale (m : Vm)
  /-- VA_QUANT: Divides by block scales and converts to the narrow otype. (R253) -/
  | vaQuant (m : Vm)
  /-- VA_DEQUANT: Expands narrow elements times block scales. (R253) -/
  | vaDequant (m : Vm)
  /-- VA_AMAX: Largest magnitude of the lanes. (R254) -/
  | vaAmax (m : Vm)
  /-- VA_RSUM: Exact sum of the lanes, rounded once. (R254) -/
  | vaRsum (m : Vm)
  /-- VA_RMAX: Maximum of the lanes. (R254) -/
  | vaRmax (m : Vm)
  /-- VA_RMIN: Minimum of the lanes. (R254) -/
  | vaRmin (m : Vm)
  /-- VA_DOT: Grouped dot products into 32-bit lanes plus C. (R255) -/
  | vaDot (m : Vm)
  /-- VA_BCAST: Broadcasts lane k of B. (R256) -/
  | vaBcast (m : Vm)
  /-- VA_PERM: Permutes B and C lanes by indices in A. (R256) -/
  | vaPerm (m : Vm)
  /-- VA_ZIP: Interleaves lanes of A and B. (R256) -/
  | vaZip (m : Vm)
  /-- VA_UNZIP: De-interleaves lanes of B. (R256) -/
  | vaUnzip (m : Vm)
  /-- VA_SLIDE: Slides the B:C sequence by s lanes. (R256) -/
  | vaSlide (m : Vm)
  /-- VA_PACK: Converts A then B lanes to the half-width otype. (R257) -/
  | vaPack (m : Vm)
  /-- VA_UNPACK_LO: Widens the low narrow elements of B. (R257) -/
  | vaUnpackLo (m : Vm)
  /-- VA_UNPACK_HI: Widens the high narrow elements of B. (R257) -/
  | vaUnpackHi (m : Vm)
  /-- VA_CLAMP: min(max(b, a), c) per lane. (R249) -/
  | vaClamp (m : Vm)
  /-- VA_ROUND: Rounds each lane to an integral value. (R252) -/
  | vaRound (m : Vm)
  /-- VA_MOV: Copies W bits of B. (R250) -/
  | vaMov (m : Vm)
  /-- SF_EXP: e^b per lane. (R261) -/
  | sfExp (m : Vm)
  /-- SF_EXP2: 2^b per lane. (R261) -/
  | sfExp2 (m : Vm)
  /-- SF_LN: Natural logarithm per lane. (R261) -/
  | sfLn (m : Vm)
  /-- SF_LOG2: Base-2 logarithm per lane. (R261) -/
  | sfLog2 (m : Vm)
  /-- SF_RCP: Correctly rounded reciprocal. (R261) -/
  | sfRcp (m : Vm)
  /-- SF_RSQRT: Reciprocal square root within 1 ulp. (R261) -/
  | sfRsqrt (m : Vm)
  /-- SF_SQRT: Correctly rounded square root. (R261) -/
  | sfSqrt (m : Vm)
  /-- SF_DIV: Correctly rounded a ÷ b. (R261) -/
  | sfDiv (m : Vm)
  /-- SF_SIN: Sine per lane, latency 12. (R261) -/
  | sfSin (m : Vm)
  /-- SF_COS: Cosine per lane. (R261) -/
  | sfCos (m : Vm)
  /-- SF_TANH: Hyperbolic tangent per lane. (R261) -/
  | sfTanh (m : Vm)
  /-- SF_SIGMOID: Logistic sigmoid per lane. (R261) -/
  | sfSigmoid (m : Vm)
  /-- SF_GELU: GELU per lane. (R261) -/
  | sfGelu (m : Vm)
  /-- SF_SILU: SiLU per lane. (R261) -/
  | sfSilu (m : Vm)
  /-- SF_ERF: Error function per lane. (R261) -/
  | sfErf (m : Vm)
  /-- SF_SOFTPLUS: ln(1 + e^b) per lane. (R261) -/
  | sfSoftplus (m : Vm)
  /-- M_LDV: Loads 128 bytes at the token in B. (R265) -/
  | mLdv (m : Mv)
  /-- M_LDVH: Loads 64 bytes. (R265) -/
  | mLdvh (m : Mv)
  /-- M_LDVQ: Loads 32 bytes. (R265) -/
  | mLdvq (m : Mv)
  /-- M_LD64: Loads 8 bytes. (R265) -/
  | mLd64 (m : Mv)
  /-- M_LD32: Loads 4 bytes sign-extended. (R265) -/
  | mLd32 (m : Mv)
  /-- M_LD32U: Loads 4 bytes zero-extended. (R265) -/
  | mLd32u (m : Mv)
  /-- M_LD16: Loads 2 bytes sign-extended. (R265) -/
  | mLd16 (m : Mv)
  /-- M_LD16U: Loads 2 bytes zero-extended. (R265) -/
  | mLd16u (m : Mv)
  /-- M_LD8: Loads 1 byte sign-extended. (R265) -/
  | mLd8 (m : Mv)
  /-- M_LD8U: Loads 1 byte zero-extended. (R265) -/
  | mLd8u (m : Mv)
  /-- M_STV: Gates a 128-byte store. (R268) -/
  | mStv (m : Mv)
  /-- M_STVH: Gates a 64-byte store. (R268) -/
  | mStvh (m : Mv)
  /-- M_STVQ: Gates a 32-byte store. (R268) -/
  | mStvq (m : Mv)
  /-- M_ST64: Gates an 8-byte store. (R268) -/
  | mSt64 (m : Mv)
  /-- M_ST32: Gates a 4-byte store. (R268) -/
  | mSt32 (m : Mv)
  /-- M_ST16: Gates a 2-byte store. (R268) -/
  | mSt16 (m : Mv)
  /-- M_ST8: Gates a 1-byte store. (R268) -/
  | mSt8 (m : Mv)
  /-- M_XLT: Walks the page of a virtual address into a handle; the token falls due after 24. (R37) -/
  | mXlt (m : Mv)
  /-- M_HREL: Releases a handle at issue, shadowing gated stores through it. (R40) -/
  | mHrel (m : Mv)
  /-- M_TLOOK: Looks up a key in the tag table, returning a slot or miss code. (R75) -/
  | mTlook (m : Mv)
  /-- M_TINS: Installs a key at a way of its set. (R77) -/
  | mTins (m : Mv)
  /-- M_TDEL: Deletes a key, or a slot by number. (R78) -/
  | mTdel (m : Mv)
  /-- M_SWPOST: Gated post of a sync-word target, matched at commit. (R84) -/
  | mSwpost (m : Mv)
  /-- M_SWADD: Gated addition of n bytes to a sync word, matched at commit. (R85) -/
  | mSwadd (m : Mv)
  /-- M_SWRD: Reads a sync word with the core's own gated posts applied. (R85) -/
  | mSwrd (m : Mv)
  /-- M_SWWAIT: Mark that waits until the sync word's generation reaches B. (R86) -/
  | mSwwait (m : Mv)
  /-- M_JWAIT: Mark that waits until a join counter reaches B. (R93) -/
  | mJwait (m : Mv)
  /-- M_JSET: Gated write of a join counter at commit. (R94) -/
  | mJset (m : Mv)
  /-- M_AADD: Atomic add, returning the old word. (R271) -/
  | mAadd (m : Mv)
  /-- M_AMAX: Atomic signed maximum. (R271) -/
  | mAmax (m : Mv)
  /-- M_AMAXF: Atomic FP32 maxNum. (R271) -/
  | mAmaxf (m : Mv)
  /-- M_AMIN: Atomic signed minimum. (R271) -/
  | mAmin (m : Mv)
  /-- M_AXCHG: Atomic exchange. (R271) -/
  | mAxchg (m : Mv)
  /-- M_ACAS: Atomic compare-and-swap against cmp. (R271) -/
  | mAcas (m : Mv)
  /-- M_AAND: Atomic AND. (R271) -/
  | mAand (m : Mv)
  /-- M_AOR: Atomic OR. (R271) -/
  | mAor (m : Mv)
  /-- M_PHASE: Mark that commits, arrives at the scope's barrier, publishes and freezes until the barrier completes. (R130) -/
  | mPhase (m : Mv)
  /-- M_XFENCE: Gated fence that drains earlier publish-buffer entries at commit. (R138) -/
  | mXfence (m : Mv)
  /-- M_ARD: Atomic read of a word in its home order. (R271) -/
  | mArd (m : Mv)
  /-- ME_MM: Gated C += A·B. (R286) -/
  | meMm (m : Mv)
  /-- ME_MMZ: Gated C := A·B. (R286) -/
  | meMmz (m : Mv)
  /-- ME_MMT: Gated TERN × INT8 on the sign-select lanes. (R286) -/
  | meMmt (m : Mv)
  /-- ME_MMQ: Gated multiply with a trellis-decoded B operand. (R286) -/
  | meMmq (m : Mv)
  /-- ME_KLATCH: Gated fill of a stationary latch. (R280) -/
  | meKlatch (m : Mv)
  /-- ME_TZERO: Gated zeroing of tile t. (R281) -/
  | meTzero (m : Mv)
  /-- ME_TROW: Direct write of a vector register into tile row r. (R289) -/
  | meTrow (m : Mv)
  /-- ME_TCOL: Direct write of a vector register into tile column r. (R289) -/
  | meTcol (m : Mv)
  /-- ME_TROWR: Direct read of tile row r, due after 10. (R289) -/
  | meTrowr (m : Mv)
  /-- ME_TCOLR: Direct read of tile column r, due after 10. (R289) -/
  | meTcolr (m : Mv)
  /-- ME_TSHAPE: Mark that waits for released ME work, then changes the tile shape and undefines every tile. (R290) -/
  | meTshape (m : Mv)
  /-- ME_TLOAD: Gated load of a tile from scratchpad rows. (R287) -/
  | meTload (m : Mv)
  /-- ME_TSTORE: Gated store of a tile to local scratchpad. (R287) -/
  | meTstore (m : Mv)
  /-- ME_TCVT: Gated conversion of a tile with block scales into scratchpad. (R287) -/
  | meTcvt (m : Mv)
  /-- ME_TADD: Gated element-wise tile addition. (R288) -/
  | meTadd (m : Mv)
  /-- ME_TSCALE: Gated scaling of an FP tile. (R288) -/
  | meTscale (m : Mv)
  /-- ME_TAMAX: Gated fold of a tile's largest magnitude into a global word by amaxf. (R288) -/
  | meTamax (m : Mv)
  /-- ME_FOLLOW_ON: After a copy lands, the CE places its follow-on block's operation in the ME queue once room exists. (R294) -/
  | meFollowOn (core op : Nat)
  /-- CE_COPY: Gated strided copy of N elements. (R302) -/
  | ceCopy (m : Mv)
  /-- CE_GATHER: Gated gather through an index list. (R303) -/
  | ceGather (m : Mv)
  /-- CE_SCATTER: Gated scatter through an index list. (R303) -/
  | ceScatter (m : Mv)
  /-- CE_TGET: Gated fetch of a TID coordinate region into local scratchpad. (R304) -/
  | ceTget (m : Mv)
  /-- CE_TSEND: Gated write of local bytes into a TID coordinate region. (R304) -/
  | ceTsend (m : Mv)
  /-- CE_FILL: Gated fill of a pattern over the destination. (R302) -/
  | ceFill (m : Mv)
  /-- CE_MCAST: Gated multicast to the members of a mask, each counted independently. (R305) -/
  | ceMcast (m : Mv)
  /-- CE_SFILL: Gated expansion of a 2:4-sparse region. (R306) -/
  | ceSfill (m : Mv)
  /-- CE_DFILL: Gated expansion of FPC chunks. (R307) -/
  | ceDfill (m : Mv)
  /-- CE_CPUT: Gated compression of chunks with index entries. (R307) -/
  | ceCput (m : Mv)
  /-- CE_CANCEL: Gated cancel of earlier or the oldest CE operations, acting at release. (R311) -/
  | ceCancel (m : Mv)
  /-- CE_GRANULE_LAND: A CE transfer granule is performed at its homes and its arrival is counted at the sync word. (R301) -/
  | ceGranuleLand (core op : Nat)
  /-- DX_OPEN: Gated opening of a decoder stream of a TID into the FIFO. (R315) -/
  | dxOpen (m : Mv)
  /-- DX_CLOSE: Gated end of the oldest open stream, discarding its entries. (R316) -/
  | dxClose (m : Mv)
  /-- FC_ENC: Gated FPC compression of a 4 KiB chunk. (R319) -/
  | fcEnc (m : Mv)
  /-- FC_DEC: Gated FPC decompression of a chunk. (R319) -/
  | fcDec (m : Mv)
  /-- TD_WIN: Direct decode of one trellis window, due after 6. (R320) -/
  | tdWin (m : Mv)
  /-- TD_BLK: Gated decode of a trellis block into FIFO entries. (R320) -/
  | tdBlk (m : Mv)
  /-- VE_RUN: Gated Viterbi encoding of n trellis blocks. (R321) -/
  | veRun (m : Mv)
  /-- VE_STAT: Gated write of the latest run's block count and metric. (R322) -/
  | veStat (m : Mv)
  /-- DX_ENTRY_DELIVER: A stream or td.blk entry enters the FIFO when room exists, counting 128 bytes at its word. (R315) -/
  | dxEntryDeliver (core op : Nat)
  /-- BK_GO: Gated start of a bank list on every selected engine, forking at release. (R105) -/
  | bkGo (m : Mv)
  /-- BK_STOP: Gated stop of every list of this core at release. (R105) -/
  | bkStop (m : Mv)
  /-- CU_LP_PUSH: Pushes a loop of count iterations ending at cu.lend. (R227) -/
  | cuLpPush (m : Mv)
  /-- CU_LP_POP: Pops the top loop entry. (R229) -/
  | cuLpPop (m : Mv)
  /-- CU_JUMP: Sets the next PC to B[10:0]. (R231) -/
  | cuJump (m : Mv)
  /-- CU_CALL: Pushes the return address and jumps. (R232) -/
  | cuCall (m : Mv)
  /-- CU_TRAP: Raises TRAP with code B[15:0]. (R233) -/
  | cuTrap (m : Mv)
  /-- CU_BRK: Debug halt after the bundle, or BREAK fault without a debugger. (R234) -/
  | cuBrk (m : Mv)
  /-- CU_HALT: Mark that commits the gate, stops issue and reports the exit status. (R235) -/
  | cuHalt (m : Mv)
  /-- CU_WDOG: Arms or disarms the watchdog. (R236) -/
  | cuWdog (m : Mv)
  /-- LEND: Address slot: iterates or pops the top loop on fall-through, or sets LOOPMISS. (R228) -/
  | lend (d : BitVec 3)
  /-- SBASE: Address slot: sets a stream's base from a scalar. (R238) -/
  | sbase (a : BitVec 3) (s : BitVec 6)
  /-- SSTR: Address slot: sets a stream stride from a scalar. (R238) -/
  | sstr (a : BitVec 3) (l : BitVec 2) (s : BitVec 6)
  /-- SSTRI: Address slot: sets a stream stride from an immediate. (R238) -/
  | sstri (a : BitVec 3) (l : BitVec 2) (imm : BitVec 13)
  /-- SSPACE: Address slot: sets a stream's space kind and index. (R238) -/
  | sspace (a : BitVec 3) (kind : BitVec 2) (idx : BitVec 5)
  /-- SWLEV: Address slot: sets a stream's walk base level. (R238) -/
  | swlev (a : BitVec 3) (b : BitVec 3)
  /-- SRST: Address slot: resets a stream to local base 0. (R238) -/
  | srst (a : BitVec 3)
  /-- BANK_LIST_START: A selected bank engine starts a queued list, zeroing its buffers and reading header and commands once. (R107) -/
  | bankListStart (engine : Nat)
  /-- BLOAD: Bank command: loads 256 bytes into an activation buffer. (R112) -/
  | bload (xb : BitVec 2) (src : Bool) (off : BitVec 40)
  /-- BMAC: Bank command: multiplies weight rows by the activation vector into acc. (R110) -/
  | bmac (p : Mac)
  /-- BMACT: Bank command: ternary weights times INT8 activations. (R110) -/
  | bmact (p : Mac)
  /-- BMACQ: Bank command: trellis-decoded weights times activations. (R110) -/
  | bmacq (tq : Bool) (shift : BitVec 2) (p : Mac)
  /-- BSCALE: Bank command: scales acc lanes. (R112) -/
  | bscale (perlane : Bool) (xb : BitVec 2) (factor : BitVec 32)
  /-- BSTORE: Bank command: writes acc lanes to global memory. (R112) -/
  | bstore (ofmt : Bool) (n1 : BitVec 6) (off : BitVec 40)
  /-- BSEND: Bank command: writes acc lanes to a core's scratchpad with an optional arrival. (R112) -/
  | bsend (ofmt : Bool) (n1 : BitVec 6) (coreid : BitVec 9) (off : BitVec 19) (sw : BitVec 15) (swv : Bool)
  /-- BZERO: Bank command: clears buffers and acc. (R112) -/
  | bzero (acc : Bool) (mask : BitVec 4)
  /-- BJOIN: Bank command: performs earlier writes and adds 1 to a join counter. (R112) -/
  | bjoin (j : BitVec 4)
  /-- BFENCE: Bank command: orders earlier writes before later reads. (R112) -/
  | bfence 
  /-- BRED: Bank command: waits for partner c XOR d and adds its acc. (R112) -/
  | bred (d : BitVec 6)
  /-- BSYNC: Bank command: waits for the issuer's sync word generation. (R112) -/
  | bsync (sw : BitVec 19) (gen : BitVec 16)
  /-- BEND: Bank command: ends the list on this engine. (R112) -/
  | bend 
  /-- BANK_WAIT_RELEASE: A bank engine waiting in BRED, BSYNC or on a non-resident member continues once its condition holds. (R114) -/
  | bankWaitRelease (engine : Nat)
  /-- BANK_LIST_COMPLETE: Once every selected engine has ended the list, it adds 1 to counter j, with an error if not ended by BEND. (R108) -/
  | bankListComplete (core op : Nat)
  /-- ENGINE_OP_COMPLETE: An engine operation completes after all writes and arrivals and adds 1 to its join counter. (R89) -/
  | engineOpComplete (core op : Nat)
  /-- ENGINE_OP_RESUME: The policy core resumes a parked engine operation from its recorded progress. (R353) -/
  | engineOpResume (core slot : Nat)
  /-- ENGINE_OP_CANCEL: The policy core cancels a parked operation, which counts its join with an error. (R353) -/
  | engineOpCancel (core slot : Nat)
  /-- CORE_FAULT_RESUME: The policy core clears slot 0 and the core issues from the rolled-back point. (R353) -/
  | coreFaultResume (core : Nat)
  /-- KILL_GATHERING: The gathering is killed: gate discarded, buffer performed, engines cancelled, colophon written. (R353) -/
  | killGathering (gath : Nat)
  /-- SHOOTDOWN_GO: Writing go to a translation-control block starts a REVOKE or REFRESH shoot-down, or rejects it. (R43) -/
  | shootdownGo (policy : Bool) (lo hi ctl : Word)
  /-- SHOOTDOWN_AGENT_ACK: A translation agent finishes dropping, updating handles and draining, and acknowledges; the hub sets done after all five. (R44) -/
  | shootdownAgentAck (agent : Nat)
  /-- MIGRATING_REWALK: A walk waiting on migrating re-walks from the root every 1 µs. (R47) -/
  | migratingRewalk (w : Waiter)
  /-- MIGRATING_TIMEOUT: A migrating wait still unfinished after 10 ms faults TRANSLATE_FAULT subcode 10. (R47) -/
  | migratingTimeout (w : Waiter)
  /-- COW_DUPLICATE: The agent meeting the first write under cow duplicates the page and refreshes, then the frozen write proceeds. (R49) -/
  | cowDuplicate (w : Waiter)
  /-- PASID_TEARDOWN: On process end or unbind the command processor ends contexts, drains queues and revokes the PASID. (R50) -/
  | pasidTeardown (pasid : Nat)
  /-- FETCHER_TRANSLATION_RETURN: A queue fetcher translation returns; for a DRAINING block it is discarded and outst drops by 1. (R333) -/
  | fetcherTranslationReturn (slot : Nat)
  /-- ATS_INVALIDATION: A host ATS invalidation is carried out as a REVOKE and completed after done. (R52) -/
  | atsInvalidation (pasid : Nat) (lo hi : Word)
  /-- RUN_RECEIVE: A target decides a run's ownership by version: serves, holds, or answers SHARD_MOVED. (R66) -/
  | runReceive (p : Packet)
  /-- SHARD_HOLD_REREAD: A held run's target re-reads its entry every 1 µs and decides again. (R66) -/
  | shardHoldReread (k : Nat)
  /-- SHARD_HOLD_TIMEOUT: A run held 100 µs is answered SHARD_MOVED. (R66) -/
  | shardHoldTimeout (k : Nat)
  /-- SHARD_MOVED_RECEIVE: A requester receiving SHARD_MOVED drops the TID, re-reads and retries the run. (R67) -/
  | shardMovedReceive (core op : Nat) (version : BitVec 32)
  /-- SHARD_REQUESTER_REREAD: A requester with an older version re-reads its entry every 1 µs. (R67) -/
  | shardRequesterReread (core op : Nat)
  /-- SHARD_REQUESTER_TIMEOUT: After 100 µs still older, the requester raises SHARD_MISS subcode 3. (R67) -/
  | shardRequesterTimeout (core op : Nat)
  /-- ECC_UNCORRECTABLE: An uncorrectable granule error is reported and the reading gathering is killed. (R99) -/
  | eccUncorrectable (granule gath : Nat)
  /-- HBM_MAP_EFFECT: A new interleave map takes effect once in-flight accesses to the stack are performed. (R102) -/
  | hbmMapEffect (stack : Nat)
  /-- FOLIO_PULL_COMPLETE: A pull's data arrives; on digest match the folio becomes PRESENT and clean, otherwise PULL_FAIL subcode 2. (R359) -/
  | folioPullComplete (core folio : Nat)
  /-- PULL_TIMEOUT: A location silent for 20 µs fails the pull with PULL_FAIL subcode 1. (R359) -/
  | pullTimeout (core folio : Nat)
  /-- FOLIO_PUSH_COMPLETE: A push finishes writing and rewrites the map entry, or fails and kills the owner with PUSH_FAIL. (R360) -/
  | folioPushComplete (core folio : Nat) (err : Nat)
  /-- BACKGROUND_PUSH: The hub starts pushing a dirty OWED folio by itself. (R360) -/
  | backgroundPush (core folio : Nat)
  /-- PREEMPT_REQUEST: A pre-emption request rolls every member back, drains, stops engines, halts and saves the eager blocks. (R361) -/
  | preemptRequest (gath : Nat)
  /-- CONTEXT_RESTORE: A saved member is restored: eager blocks written, map states set, engines re-queued, core released. (R363) -/
  | contextRestore (gath : Nat) (on : List Nat)
  /-- DEBUG_ATTACH: A debugger attaches to a core through the management region. (R364) -/
  | debugAttach (core : Nat)
  /-- DEBUG_HALT: An external halt stops the core at the next bundle boundary without rollback. (R364) -/
  | debugHalt (core : Nat)
  /-- SINGLE_STEP: A halted core issues exactly one bundle and halts again. (R364) -/
  | singleStep (core : Nat)
  /-- DEBUG_RESUME: A debug-halted core resumes issue. (R364) -/
  | debugResume (core : Nat)
  /-- NOTIFY_WRITE: A notify register write is accepted within the window, updating wr, or rejected and counted. (R334) -/
  | notifyWrite (aperture queue : Nat) (v : BitVec 32)
  /-- PACKET_FETCH: The command processor reads the slot at rd and, if valid, clears it and advances rd. (R334) -/
  | packetFetch (slot : Nat)
  /-- LAUNCH_PACKET: A LAUNCH packet checks and loads the kernel, presets state and picks a release tick. (R329) -/
  | launchPacket (id : Nat)
  /-- JOB_PACKET: A JOB packet runs instances [0, expected) through the distributors. (R338) -/
  | jobPacket (id : Nat)
  /-- GRAPH_PACKET: A GRAPH packet starts one branch at its entry node. (R343) -/
  | graphPacket (id : Nat)
  /-- COPY_PACKET: A COPY packet copies bytes from a source VA to a destination VA. (R336) -/
  | copyPacket (id : Nat)
  /-- SIGNAL_PACKET: A SIGNAL packet atomically adds v to a signal word. (R336) -/
  | signalPacket (id : Nat)
  /-- WAIT_PACKET: A WAIT packet completes when the signal word, signed, is at most v. (R336) -/
  | waitPacket (id : Nat)
  /-- ENERGY_PACKET: An ENERGY packet sets the queue's energy cap per window. (R336) -/
  | energyPacket (id : Nat)
  /-- CHECKPOINT_PACKET: A CHECKPOINT packet snapshots shards copy-on-write and starts the copier. (R388) -/
  | checkpointPacket (id : Nat)
  /-- BARRIER_PACKET: A BARRIER packet completes when every earlier packet of the queue has. (R336) -/
  | barrierPacket (id : Nat)
  /-- GATHERING_PLACE: A waiting gathering is placed once enough free cores exist and energy admits it. (R328) -/
  | gatheringPlace (gath : Nat) (on : List Nat)
  /-- GATHERING_RELEASE: Every member issues bundle 0 when its die's fabric time counter reaches T. (R329) -/
  | gatheringRelease (gath : Nat)
  /-- TICK_LAUNCH_TIMEOUT: A tick launch without every READY by T is aborted or killed within 1 ms after T. (R330) -/
  | tickLaunchTimeout (gath : Nat)
  /-- QUEUE_AGING: A head packet waiting each further 1 ms raises its queue's current priority by one. (R337) -/
  | queueAging (slot : Nat)
  /-- INSTANCE_COMPLETE: Once all members halted and released engine operations completed, buffers are performed, the colophon written and the signal decremented. (R146) -/
  | instanceComplete (gath : Nat)
  /-- BLOCK_HANDOUT: The master distributor writes a block-table entry and hands up to 64 indices to a die with free cores. (R339) -/
  | blockHandout (job die : Nat)
  /-- BLOCK_REPORT: A die reports a completed block; the master adds to completed and may complete the job. (R339) -/
  | blockReport (job k : Nat)
  /-- DIE_FENCE: A fenced die's blocks are voided and re-issued by a newly elected master. (R339) -/
  | dieFence (die : Nat)
  /-- KERNEL_NODE: The walker prepares the JCB, runs the JOB body and continues at a and b. (R343) -/
  | kernelNode (graph branch : Nat)
  /-- COND_NODE: The walker reads the condition word and continues at a or b. (R343) -/
  | condNode (graph branch : Nat)
  /-- WHILE_NODE: The walker enters the body, exits, or ends with WHILE_LIMIT. (R343) -/
  | whileNode (graph branch : Nat)
  /-- JOIN_NODE: The walker counts an arrival and continues at a when count is reached. (R343) -/
  | joinNode (graph branch : Nat)
  /-- END_NODE: The branch ends; the graph completes when no branch is left. (R343) -/
  | endNode (graph branch : Nat)
  /-- ENERGY_WINDOW_END: At each 1 ms window end measured energy is reconciled against estimates. (R344) -/
  | energyWindowEnd 
  /-- ENERGY_PACING: When measured energy reaches the budget, freeze cycles are inserted until the window ends. (R344) -/
  | energyPacing (on : Bool)
  /-- PASID_BIND: Firmware command binding a PASID to a page-table root and tensor table. (R393) -/
  | pasidBind (pasid root table : Word)
  /-- QCB_CREATE: Firmware command creating a queue control block in the hash table. (R332) -/
  | qcbCreate (pasid queue m ring prio ecap : Word)
  /-- QCB_DESTROY: Firmware command moving a QCB to DRAINING. (R333) -/
  | qcbDestroy (pasid queue : Word)
  /-- HBM_MAP: Firmware command rewriting a stack's 16 region registers. (R101) -/
  | hbmMap (stack va : Word)
  /-- SLOT_TABLE: Firmware command loading a router's slot table with an activation time. (R376) -/
  | slotTable (router va time : Word)
  /-- SLOT_TABLE_ACTIVATE: A new slot-table set takes effect on every router at the activation counter value. (R376) -/
  | slotTableActivate 
  /-- CIRCUIT: Firmware command writing a circuit-table entry. (R377) -/
  | circuit (circ va : Word)
  /-- NOTIFY_BIND: Firmware command binding a notify aperture to a PASID. (R385) -/
  | notifyBind (aperture pasid : Word)
  /-- SLICE_BIND: Firmware command binding a BAR4 slice to a PASID and VA base. (R385) -/
  | sliceBind (slice pasid base : Word)
  /-- WINDOW: Firmware command binding a remote window base to a PASID. (R383) -/
  | window (pasid base : Word)
  /-- IDENTITY: Firmware command writing a signed measurement over a nonce. (R393) -/
  | identity (va : Word)
  /-- FABRIC_MEMBERS: Firmware command writing the fabric membership and scale-up domain tables. (R23) -/
  | fabricMembers (members domain : Word)
  /-- CHECKPOINT_PAGE_COPY: The copier streams a shard page to the NV module, clearing cow and migrating. (R388) -/
  | checkpointPageCopy 
  /-- MANIFEST_COMMIT: The manifest is written, read back and verified, making the generation VALID and decrementing dsig. (R389) -/
  | manifestCommit (ok : Bool)
  /-- POWER_LOSS: Power is lost; hold-up finishes acknowledged NV writes and an unfinished generation is discarded. (R116) -/
  | powerLoss 
  /-- BRING_UP: After reset self-test, queues run on passed dies at 0.6 GHz with restricted features. (R394) -/
  | bringUp (status : Word)
  /-- FULL_SERVICE: The module reaches full service and the bring-up restrictions lift. (R394) -/
  | fullService 
  /-- FLIT_RECEIVE: A flit arrives on a port; CRC is checked, reserved types discarded, and data, VOID or HEAD handled. (R373) -/
  | flitReceive (port : Nat) (flit : InFlit)
  /-- LREQ: A link repair request makes the sender return supplements, resend the flit, or answer LOST. (R374) -/
  | lreq (port lseq n : Nat)
  /-- SUPP: Parity supplements arrive and the receiver attempts Reed–Solomon recovery. (R374) -/
  | supp (port lseq : Nat) (part : Nat) (parity : BitVec 128)
  /-- LOST: A LOST flit takes a lost flit's place; the target ends the packet with an ERR arrival. (R379) -/
  | lost (port lseq : Nat)
  /-- LINK_RETRAIN: After three failed resends the link retrains and undelivered flits are lost. (R374) -/
  | linkRetrain (port : Nat)
  /-- FLIT_RETENTION_EXPIRY: A sent flit older than 32 µs is no longer held by the sender. (R374) -/
  | flitRetentionExpiry (port lseq : Nat)
  /-- CIRCUIT_SLOT_INJECT: In a circuit's injection slot the next flit of a timetabled transfer leaves, or VOID. (R378) -/
  | circuitSlotInject (circ : Nat)
  /-- FABRIC_WRITE: A WRITE packet is accepted once by the flow window, its granules performed and a SACK returned. (R381) -/
  | fabricWrite (p : Packet)
  /-- FABRIC_READ: A READ is served once and answered by RDATA kept until acknowledged. (R382) -/
  | fabricRead (p : Packet)
  /-- RDATA: Read data returns to the requester in the reverse flow. (R382) -/
  | rdata (p : Packet)
  /-- ATOMIC: A remote atomic is applied once and answered by ARESP. (R382) -/
  | atomic (p : Packet)
  /-- ARESP: An atomic response returns the old value to the requester. (R382) -/
  | aresp (p : Packet)
  /-- SACK: A SACK releases and counts every packet its base and bitmap cover. (R381) -/
  | sack (p : Packet)
  /-- MOVED: A MOVED packet carries SHARD_MOVED with the target's version back to the requester. (R380) -/
  | moved (p : Packet)
  /-- NAK: A NAK carries a fault code and subcode with which the requester parks its operation. (R380) -/
  | nak (p : Packet)
  /-- FABRIC_BARRIER: A BARRIER packet carries a FABRIC-scope phase arrival between modules. (R383) -/
  | fabricBarrier (p : Packet)
  /-- READY: A READY packet tells a module that a peer of a tick launch has finished step 3. (R330) -/
  | ready (p : Packet)
  /-- SPRAY_RETRANSMIT_TIMER: A packet unacknowledged for 20 µs is resent on another path; a fifth expiry parks with FABRIC_UNREACHABLE. (R381) -/
  | sprayRetransmitTimer (dst fseq : Nat)
  /-- HOST_BAR4_ACCESS: A host access through a BAR4 slice reaches device memory under the bound PASID's tables. (R385) -/
  | hostBar4Access (off len : Nat) (write : Option (List Byte))
  /-- LINK_RETRAIN_DONE: A retraining Novver link finishes training and carries flits in its slots again. (R374) -/
  | linkRetrainDone (port : Nat)
  /-- ENERGY_ALLOWANCE_WRITE: The board lowers or restores the energy allowance through the management region, taking effect at the next window. (R395) -/
  | energyAllowanceWrite (v : Nat)
  /-- POWER_GATING: A core is power-gated, which clears every handle, or leaves that state. (R36) -/
  | powerGating (core : Nat) (on : Bool)
  /-- HOST_LINK_UNCORRECTABLE_ERROR: AER detects an uncorrectable host-link error and reports it to the policy core. (R384) -/
  | hostLinkUncorrectableError (code : Nat)
deriving DecidableEq, Repr

end Sys2Proof
end

