-- ==== Sys2Proof/WellFormed.lean ====
section
/-!
DEFINITION. Which instructions are well formed: the port map of Tables 8.11 and 8.13 to 8.15, the address slot of
Table 8.9, and for an event the ranges of the cores, engines and slots it names.
-/

namespace Sys2Proof

/-- A move as the bundle holds it (Table 8.2), with the bus of its position. -/
structure MoveWord where
  bus : Fin 8
  src : BitVec 11
  dst : BitVec 11
  mod : BitVec 2
deriving DecidableEq, Repr

/-- A destination in the ranges of Table 8.15 of one bus unit or engine group: lowest port and number of ports. -/
def inRange (p lo n : Nat) : Bool := decide (lo ≤ p) && decide (p < lo + n)

/-- Source ports of Table 8.13. -/
def srcListed (p : Nat) : Bool :=
  inRange p 0x000 0x0BC || inRange p 0x0C0 0x17 || inRange p 0x0E0 0x19

/-- Registers of Table 8.14. -/
def isScalarReg (p : Nat) : Bool := inRange p 0x000 64
def isVectorReg (p : Nat) : Bool := inRange p 0x040 64
def isPredReg (p : Nat) : Bool := inRange p 0x0C0 16

/-- Operand latches, mode latches and configuration ports of Table 8.14. -/
def isLatch (p : Nat) : Bool :=
  inRange p 0x100 0x15 || inRange p 0x120 0x14 || inRange p 0x140 3

def isRegisterDst (p : Nat) : Bool := isScalarReg p || isVectorReg p || isPredReg p || isLatch p

/-- Trigger ports of Table 8.15. -/
def isSaTrig (p : Nat) : Bool := inRange p 0x200 0x36
def isVaTrig (p : Nat) : Bool := inRange p 0x280 0x27
def isSfTrig (p : Nat) : Bool := inRange p 0x300 0x10
def isMemTrig (p : Nat) : Bool := inRange p 0x340 0x27
def isMeTrig (p : Nat) : Bool := inRange p 0x380 0x11
def isCeTrig (p : Nat) : Bool := inRange p 0x3A0 0x0B
def isXuTrig (p : Nat) : Bool := inRange p 0x3B0 8
def isBkTrig (p : Nat) : Bool := inRange p 0x3C0 2
def isCuTrig (p : Nat) : Bool := inRange p 0x3E0 8

def isEngineTrig (p : Nat) : Bool := isMeTrig p || isCeTrig p || isXuTrig p || isBkTrig p

def isTrigger (p : Nat) : Bool :=
  isSaTrig p || isVaTrig p || isSfTrig p || isMemTrig p || isEngineTrig p || isCuTrig p

def dstListed (p : Nat) : Bool := isRegisterDst p || isTrigger p

/-- A destination whose modifier is a width (Table 8.3). -/
def hasWidth (p : Nat) : Bool := isVaTrig p || isSfTrig p

/-- Reachability, Table 8.11. -/
def reaches (bus p : Nat) : Bool :=
  if isScalarReg p || isPredReg p then bus ≤ 1 || 5 ≤ bus
  else if isVectorReg p then 2 ≤ bus
  else if p = 0x100 ∨ p = 0x113 then bus = 0 || 5 ≤ bus
  else if p = 0x101 ∨ p = 0x114 then bus = 1 || 5 ≤ bus
  else if inRange p 0x102 9 then 2 ≤ bus
  else if inRange p 0x10B 8 then 5 ≤ bus
  else if inRange p 0x120 0x14 || isEngineTrig p then 6 ≤ bus
  else if inRange p 0x140 3 || isCuTrig p then bus = 0
  else if isSaTrig p then bus ≤ 1
  else if isVaTrig p then 2 ≤ bus && bus ≤ 4
  else if isSfTrig p then bus = 5
  else if isMemTrig p then 6 ≤ bus
  else false

/-- A move that passes the checks of Table 8.16 that concern it alone. -/
def MoveWord.wf (m : MoveWord) : Bool :=
  srcListed m.src.toNat && dstListed m.dst.toNat && reaches m.bus.val m.dst.toNat &&
    (if hasWidth m.dst.toNat then m.mod != 3 else !m.mod.getLsbD 0 && (!m.mod.getLsbD 1 || m.src == 0x0B8))

def ofMv (m : Mv) (dst : BitVec 11) : MoveWord :=
  { bus := m.bus, src := m.src, dst := dst, mod := BitVec.ofBool m.keep ++ 0#1 }

def ofVm (m : Vm) (dst : BitVec 11) : MoveWord := { bus := m.bus, src := m.src, dst := dst, mod := m.w }

/-- The move word of an instruction that is one move, with its trigger port of Table 8.15. -/
def Instr.moveWord : Instr → Option MoveWord
  | .bundleIssue => none
  | .lateResultArrival _ _ => none
  | .xltWalkComplete _ _ => none
  | .publishEntryPerform _ _ => none
  | .phaseBarrierComplete _ => none
  | .watchdogExpiry _ => none
  | .move m dst => some (ofMv m dst)
  | .saAdd m => some (ofMv m 0x200)
  | .saSub m => some (ofMv m 0x201)
  | .saMul m => some (ofMv m 0x202)
  | .saMulh m => some (ofMv m 0x203)
  | .saMulhu m => some (ofMv m 0x204)
  | .saDiv m => some (ofMv m 0x205)
  | .saDivu m => some (ofMv m 0x206)
  | .saRem m => some (ofMv m 0x207)
  | .saRemu m => some (ofMv m 0x208)
  | .saAnd m => some (ofMv m 0x209)
  | .saOr m => some (ofMv m 0x20A)
  | .saXor m => some (ofMv m 0x20B)
  | .saAndn m => some (ofMv m 0x20C)
  | .saShl m => some (ofMv m 0x20D)
  | .saShr m => some (ofMv m 0x20E)
  | .saSar m => some (ofMv m 0x20F)
  | .saRotl m => some (ofMv m 0x210)
  | .saMin m => some (ofMv m 0x211)
  | .saMax m => some (ofMv m 0x212)
  | .saMinu m => some (ofMv m 0x213)
  | .saMaxu m => some (ofMv m 0x214)
  | .saSeq m => some (ofMv m 0x215)
  | .saSne m => some (ofMv m 0x216)
  | .saSlt m => some (ofMv m 0x217)
  | .saSltu m => some (ofMv m 0x218)
  | .saSle m => some (ofMv m 0x219)
  | .saSleu m => some (ofMv m 0x21A)
  | .saSel m => some (ofMv m 0x21B)
  | .saPass m => some (ofMv m 0x21C)
  | .saClz m => some (ofMv m 0x21D)
  | .saCtz m => some (ofMv m 0x21E)
  | .saPopc m => some (ofMv m 0x21F)
  | .saSext8 m => some (ofMv m 0x220)
  | .saSext16 m => some (ofMv m 0x221)
  | .saSext32 m => some (ofMv m 0x222)
  | .saZext8 m => some (ofMv m 0x223)
  | .saZext16 m => some (ofMv m 0x224)
  | .saZext32 m => some (ofMv m 0x225)
  | .saBswap m => some (ofMv m 0x226)
  | .saMadd m => some (ofMv m 0x227)
  | .saFaddD m => some (ofMv m 0x228)
  | .saFsubD m => some (ofMv m 0x229)
  | .saFmulD m => some (ofMv m 0x22A)
  | .saFmaddD m => some (ofMv m 0x22B)
  | .saFdivD m => some (ofMv m 0x22C)
  | .saFminD m => some (ofMv m 0x22D)
  | .saFmaxD m => some (ofMv m 0x22E)
  | .saFeqD m => some (ofMv m 0x22F)
  | .saFltD m => some (ofMv m 0x230)
  | .saFleD m => some (ofMv m 0x231)
  | .saCvtDi m => some (ofMv m 0x232)
  | .saCvtId m => some (ofMv m 0x233)
  | .saCvtSd m => some (ofMv m 0x234)
  | .saCvtDs m => some (ofMv m 0x235)
  | .vaAdd m => some (ofVm m 0x280)
  | .vaSub m => some (ofVm m 0x281)
  | .vaMul m => some (ofVm m 0x282)
  | .vaFma m => some (ofVm m 0x283)
  | .vaFms m => some (ofVm m 0x284)
  | .vaMin m => some (ofVm m 0x285)
  | .vaMax m => some (ofVm m 0x286)
  | .vaAbs m => some (ofVm m 0x287)
  | .vaNeg m => some (ofVm m 0x288)
  | .vaAnd m => some (ofVm m 0x289)
  | .vaOr m => some (ofVm m 0x28A)
  | .vaXor m => some (ofVm m 0x28B)
  | .vaShl m => some (ofVm m 0x28C)
  | .vaShr m => some (ofVm m 0x28D)
  | .vaSar m => some (ofVm m 0x28E)
  | .vaCmpeq m => some (ofVm m 0x28F)
  | .vaCmplt m => some (ofVm m 0x290)
  | .vaCmple m => some (ofVm m 0x291)
  | .vaSel m => some (ofVm m 0x292)
  | .vaCvt m => some (ofVm m 0x293)
  | .vaScale m => some (ofVm m 0x294)
  | .vaQuant m => some (ofVm m 0x295)
  | .vaDequant m => some (ofVm m 0x296)
  | .vaAmax m => some (ofVm m 0x297)
  | .vaRsum m => some (ofVm m 0x298)
  | .vaRmax m => some (ofVm m 0x299)
  | .vaRmin m => some (ofVm m 0x29A)
  | .vaDot m => some (ofVm m 0x29B)
  | .vaBcast m => some (ofVm m 0x29C)
  | .vaPerm m => some (ofVm m 0x29D)
  | .vaZip m => some (ofVm m 0x29E)
  | .vaUnzip m => some (ofVm m 0x29F)
  | .vaSlide m => some (ofVm m 0x2A0)
  | .vaPack m => some (ofVm m 0x2A1)
  | .vaUnpackLo m => some (ofVm m 0x2A2)
  | .vaUnpackHi m => some (ofVm m 0x2A3)
  | .vaClamp m => some (ofVm m 0x2A4)
  | .vaRound m => some (ofVm m 0x2A5)
  | .vaMov m => some (ofVm m 0x2A6)
  | .sfExp m => some (ofVm m 0x300)
  | .sfExp2 m => some (ofVm m 0x301)
  | .sfLn m => some (ofVm m 0x302)
  | .sfLog2 m => some (ofVm m 0x303)
  | .sfRcp m => some (ofVm m 0x304)
  | .sfRsqrt m => some (ofVm m 0x305)
  | .sfSqrt m => some (ofVm m 0x306)
  | .sfDiv m => some (ofVm m 0x307)
  | .sfSin m => some (ofVm m 0x308)
  | .sfCos m => some (ofVm m 0x309)
  | .sfTanh m => some (ofVm m 0x30A)
  | .sfSigmoid m => some (ofVm m 0x30B)
  | .sfGelu m => some (ofVm m 0x30C)
  | .sfSilu m => some (ofVm m 0x30D)
  | .sfErf m => some (ofVm m 0x30E)
  | .sfSoftplus m => some (ofVm m 0x30F)
  | .mLdv m => some (ofMv m 0x340)
  | .mLdvh m => some (ofMv m 0x341)
  | .mLdvq m => some (ofMv m 0x342)
  | .mLd64 m => some (ofMv m 0x343)
  | .mLd32 m => some (ofMv m 0x344)
  | .mLd32u m => some (ofMv m 0x345)
  | .mLd16 m => some (ofMv m 0x346)
  | .mLd16u m => some (ofMv m 0x347)
  | .mLd8 m => some (ofMv m 0x348)
  | .mLd8u m => some (ofMv m 0x349)
  | .mStv m => some (ofMv m 0x34A)
  | .mStvh m => some (ofMv m 0x34B)
  | .mStvq m => some (ofMv m 0x34C)
  | .mSt64 m => some (ofMv m 0x34D)
  | .mSt32 m => some (ofMv m 0x34E)
  | .mSt16 m => some (ofMv m 0x34F)
  | .mSt8 m => some (ofMv m 0x350)
  | .mXlt m => some (ofMv m 0x351)
  | .mHrel m => some (ofMv m 0x352)
  | .mTlook m => some (ofMv m 0x353)
  | .mTins m => some (ofMv m 0x354)
  | .mTdel m => some (ofMv m 0x355)
  | .mSwpost m => some (ofMv m 0x356)
  | .mSwadd m => some (ofMv m 0x357)
  | .mSwrd m => some (ofMv m 0x358)
  | .mSwwait m => some (ofMv m 0x359)
  | .mJwait m => some (ofMv m 0x35A)
  | .mJset m => some (ofMv m 0x35B)
  | .mAadd m => some (ofMv m 0x35C)
  | .mAmax m => some (ofMv m 0x35D)
  | .mAmaxf m => some (ofMv m 0x35E)
  | .mAmin m => some (ofMv m 0x35F)
  | .mAxchg m => some (ofMv m 0x360)
  | .mAcas m => some (ofMv m 0x361)
  | .mAand m => some (ofMv m 0x362)
  | .mAor m => some (ofMv m 0x363)
  | .mPhase m => some (ofMv m 0x364)
  | .mXfence m => some (ofMv m 0x365)
  | .mArd m => some (ofMv m 0x366)
  | .meMm m => some (ofMv m 0x380)
  | .meMmz m => some (ofMv m 0x381)
  | .meMmt m => some (ofMv m 0x382)
  | .meMmq m => some (ofMv m 0x383)
  | .meKlatch m => some (ofMv m 0x384)
  | .meTzero m => some (ofMv m 0x385)
  | .meTrow m => some (ofMv m 0x386)
  | .meTcol m => some (ofMv m 0x387)
  | .meTrowr m => some (ofMv m 0x388)
  | .meTcolr m => some (ofMv m 0x389)
  | .meTshape m => some (ofMv m 0x38A)
  | .meTload m => some (ofMv m 0x38B)
  | .meTstore m => some (ofMv m 0x38C)
  | .meTcvt m => some (ofMv m 0x38D)
  | .meTadd m => some (ofMv m 0x38E)
  | .meTscale m => some (ofMv m 0x38F)
  | .meTamax m => some (ofMv m 0x390)
  | .meFollowOn _ _ => none
  | .ceCopy m => some (ofMv m 0x3A0)
  | .ceGather m => some (ofMv m 0x3A1)
  | .ceScatter m => some (ofMv m 0x3A2)
  | .ceTget m => some (ofMv m 0x3A3)
  | .ceTsend m => some (ofMv m 0x3A4)
  | .ceFill m => some (ofMv m 0x3A5)
  | .ceMcast m => some (ofMv m 0x3A6)
  | .ceSfill m => some (ofMv m 0x3A7)
  | .ceDfill m => some (ofMv m 0x3A8)
  | .ceCput m => some (ofMv m 0x3A9)
  | .ceCancel m => some (ofMv m 0x3AA)
  | .ceGranuleLand _ _ => none
  | .dxOpen m => some (ofMv m 0x3B0)
  | .dxClose m => some (ofMv m 0x3B1)
  | .fcEnc m => some (ofMv m 0x3B2)
  | .fcDec m => some (ofMv m 0x3B3)
  | .tdWin m => some (ofMv m 0x3B4)
  | .tdBlk m => some (ofMv m 0x3B5)
  | .veRun m => some (ofMv m 0x3B6)
  | .veStat m => some (ofMv m 0x3B7)
  | .dxEntryDeliver _ _ => none
  | .bkGo m => some (ofMv m 0x3C0)
  | .bkStop m => some (ofMv m 0x3C1)
  | .cuLpPush m => some (ofMv m 0x3E0)
  | .cuLpPop m => some (ofMv m 0x3E1)
  | .cuJump m => some (ofMv m 0x3E2)
  | .cuCall m => some (ofMv m 0x3E3)
  | .cuTrap m => some (ofMv m 0x3E4)
  | .cuBrk m => some (ofMv m 0x3E5)
  | .cuHalt m => some (ofMv m 0x3E6)
  | .cuWdog m => some (ofMv m 0x3E7)
  | .lend _ => none
  | .sbase _ _ => none
  | .sstr _ _ _ => none
  | .sstri _ _ _ => none
  | .sspace _ _ _ => none
  | .swlev _ _ => none
  | .srst _ => none
  | .bankListStart _ => none
  | .bload _ _ _ => none
  | .bmac _ => none
  | .bmact _ => none
  | .bmacq _ _ _ => none
  | .bscale _ _ _ => none
  | .bstore _ _ _ => none
  | .bsend _ _ _ _ _ _ => none
  | .bzero _ _ => none
  | .bjoin _ => none
  | .bfence => none
  | .bred _ => none
  | .bsync _ _ => none
  | .bend => none
  | .bankWaitRelease _ => none
  | .bankListComplete _ _ => none
  | .engineOpComplete _ _ => none
  | .engineOpResume _ _ => none
  | .engineOpCancel _ _ => none
  | .coreFaultResume _ => none
  | .killGathering _ => none
  | .shootdownGo _ _ _ _ => none
  | .shootdownAgentAck _ => none
  | .migratingRewalk _ => none
  | .migratingTimeout _ => none
  | .cowDuplicate _ => none
  | .pasidTeardown _ => none
  | .fetcherTranslationReturn _ => none
  | .atsInvalidation _ _ _ => none
  | .runReceive _ => none
  | .shardHoldReread _ => none
  | .shardHoldTimeout _ => none
  | .shardMovedReceive _ _ _ => none
  | .shardRequesterReread _ _ => none
  | .shardRequesterTimeout _ _ => none
  | .eccUncorrectable _ _ => none
  | .hbmMapEffect _ => none
  | .folioPullComplete _ _ => none
  | .pullTimeout _ _ => none
  | .folioPushComplete _ _ _ => none
  | .backgroundPush _ _ => none
  | .preemptRequest _ => none
  | .contextRestore _ _ => none
  | .debugAttach _ => none
  | .debugHalt _ => none
  | .singleStep _ => none
  | .debugResume _ => none
  | .notifyWrite _ _ _ => none
  | .packetFetch _ => none
  | .launchPacket _ => none
  | .jobPacket _ => none
  | .graphPacket _ => none
  | .copyPacket _ => none
  | .signalPacket _ => none
  | .waitPacket _ => none
  | .energyPacket _ => none
  | .checkpointPacket _ => none
  | .barrierPacket _ => none
  | .gatheringPlace _ _ => none
  | .gatheringRelease _ => none
  | .tickLaunchTimeout _ => none
  | .queueAging _ => none
  | .instanceComplete _ => none
  | .blockHandout _ _ => none
  | .blockReport _ _ => none
  | .dieFence _ => none
  | .kernelNode _ _ => none
  | .condNode _ _ => none
  | .whileNode _ _ => none
  | .joinNode _ _ => none
  | .endNode _ _ => none
  | .energyWindowEnd => none
  | .energyPacing _ => none
  | .pasidBind _ _ _ => none
  | .qcbCreate _ _ _ _ _ _ => none
  | .qcbDestroy _ _ => none
  | .hbmMap _ _ => none
  | .slotTable _ _ _ => none
  | .slotTableActivate => none
  | .circuit _ _ => none
  | .notifyBind _ _ => none
  | .sliceBind _ _ _ => none
  | .window _ _ => none
  | .identity _ => none
  | .fabricMembers _ _ => none
  | .checkpointPageCopy => none
  | .manifestCommit _ => none
  | .powerLoss => none
  | .bringUp _ => none
  | .fullService => none
  | .flitReceive _ _ => none
  | .lreq _ _ _ => none
  | .supp _ _ _ _ => none
  | .lost _ _ => none
  | .linkRetrain _ => none
  | .flitRetentionExpiry _ _ => none
  | .circuitSlotInject _ => none
  | .fabricWrite _ => none
  | .fabricRead _ => none
  | .rdata _ => none
  | .atomic _ => none
  | .aresp _ => none
  | .sack _ => none
  | .moved _ => none
  | .nak _ => none
  | .fabricBarrier _ => none
  | .ready _ => none
  | .sprayRetransmitTimer _ _ => none
  | .hostBar4Access _ _ _ => none
  | .linkRetrainDone _ => none
  | .energyAllowanceWrite _ => none
  | .powerGating _ _ => none
  | .hostLinkUncorrectableError _ => none

/-- Cores are 0 to 383 and bank engines 0 to 511 (R25, R98). -/
def Waiter.wf : Waiter → Bool
  | .core c => decide (c < 384)
  | .op c _ => decide (c < 384)
  | .bank e => decide (e < 512)
  | .walk agent pasid _ => decide (agent < 5) && decide (pasid < 2 ^ 20)

/-- Ranges of the fields of an instruction that is not a move. -/
def Instr.fieldsOk : Instr → Bool
  | .bundleIssue => true
  | .lateResultArrival core _ => decide (core < 384)
  | .xltWalkComplete core _ => decide (core < 384)
  | .publishEntryPerform core _ => decide (core < 384)
  | .phaseBarrierComplete core => decide (core < 384)
  | .watchdogExpiry core => decide (core < 384)
  | .move _ _ => true
  | .saAdd _ => true
  | .saSub _ => true
  | .saMul _ => true
  | .saMulh _ => true
  | .saMulhu _ => true
  | .saDiv _ => true
  | .saDivu _ => true
  | .saRem _ => true
  | .saRemu _ => true
  | .saAnd _ => true
  | .saOr _ => true
  | .saXor _ => true
  | .saAndn _ => true
  | .saShl _ => true
  | .saShr _ => true
  | .saSar _ => true
  | .saRotl _ => true
  | .saMin _ => true
  | .saMax _ => true
  | .saMinu _ => true
  | .saMaxu _ => true
  | .saSeq _ => true
  | .saSne _ => true
  | .saSlt _ => true
  | .saSltu _ => true
  | .saSle _ => true
  | .saSleu _ => true
  | .saSel _ => true
  | .saPass _ => true
  | .saClz _ => true
  | .saCtz _ => true
  | .saPopc _ => true
  | .saSext8 _ => true
  | .saSext16 _ => true
  | .saSext32 _ => true
  | .saZext8 _ => true
  | .saZext16 _ => true
  | .saZext32 _ => true
  | .saBswap _ => true
  | .saMadd _ => true
  | .saFaddD _ => true
  | .saFsubD _ => true
  | .saFmulD _ => true
  | .saFmaddD _ => true
  | .saFdivD _ => true
  | .saFminD _ => true
  | .saFmaxD _ => true
  | .saFeqD _ => true
  | .saFltD _ => true
  | .saFleD _ => true
  | .saCvtDi _ => true
  | .saCvtId _ => true
  | .saCvtSd _ => true
  | .saCvtDs _ => true
  | .vaAdd _ => true
  | .vaSub _ => true
  | .vaMul _ => true
  | .vaFma _ => true
  | .vaFms _ => true
  | .vaMin _ => true
  | .vaMax _ => true
  | .vaAbs _ => true
  | .vaNeg _ => true
  | .vaAnd _ => true
  | .vaOr _ => true
  | .vaXor _ => true
  | .vaShl _ => true
  | .vaShr _ => true
  | .vaSar _ => true
  | .vaCmpeq _ => true
  | .vaCmplt _ => true
  | .vaCmple _ => true
  | .vaSel _ => true
  | .vaCvt _ => true
  | .vaScale _ => true
  | .vaQuant _ => true
  | .vaDequant _ => true
  | .vaAmax _ => true
  | .vaRsum _ => true
  | .vaRmax _ => true
  | .vaRmin _ => true
  | .vaDot _ => true
  | .vaBcast _ => true
  | .vaPerm _ => true
  | .vaZip _ => true
  | .vaUnzip _ => true
  | .vaSlide _ => true
  | .vaPack _ => true
  | .vaUnpackLo _ => true
  | .vaUnpackHi _ => true
  | .vaClamp _ => true
  | .vaRound _ => true
  | .vaMov _ => true
  | .sfExp _ => true
  | .sfExp2 _ => true
  | .sfLn _ => true
  | .sfLog2 _ => true
  | .sfRcp _ => true
  | .sfRsqrt _ => true
  | .sfSqrt _ => true
  | .sfDiv _ => true
  | .sfSin _ => true
  | .sfCos _ => true
  | .sfTanh _ => true
  | .sfSigmoid _ => true
  | .sfGelu _ => true
  | .sfSilu _ => true
  | .sfErf _ => true
  | .sfSoftplus _ => true
  | .mLdv _ => true
  | .mLdvh _ => true
  | .mLdvq _ => true
  | .mLd64 _ => true
  | .mLd32 _ => true
  | .mLd32u _ => true
  | .mLd16 _ => true
  | .mLd16u _ => true
  | .mLd8 _ => true
  | .mLd8u _ => true
  | .mStv _ => true
  | .mStvh _ => true
  | .mStvq _ => true
  | .mSt64 _ => true
  | .mSt32 _ => true
  | .mSt16 _ => true
  | .mSt8 _ => true
  | .mXlt _ => true
  | .mHrel _ => true
  | .mTlook _ => true
  | .mTins _ => true
  | .mTdel _ => true
  | .mSwpost _ => true
  | .mSwadd _ => true
  | .mSwrd _ => true
  | .mSwwait _ => true
  | .mJwait _ => true
  | .mJset _ => true
  | .mAadd _ => true
  | .mAmax _ => true
  | .mAmaxf _ => true
  | .mAmin _ => true
  | .mAxchg _ => true
  | .mAcas _ => true
  | .mAand _ => true
  | .mAor _ => true
  | .mPhase _ => true
  | .mXfence _ => true
  | .mArd _ => true
  | .meMm _ => true
  | .meMmz _ => true
  | .meMmt _ => true
  | .meMmq _ => true
  | .meKlatch _ => true
  | .meTzero _ => true
  | .meTrow _ => true
  | .meTcol _ => true
  | .meTrowr _ => true
  | .meTcolr _ => true
  | .meTshape _ => true
  | .meTload _ => true
  | .meTstore _ => true
  | .meTcvt _ => true
  | .meTadd _ => true
  | .meTscale _ => true
  | .meTamax _ => true
  | .meFollowOn core _ => decide (core < 384)
  | .ceCopy _ => true
  | .ceGather _ => true
  | .ceScatter _ => true
  | .ceTget _ => true
  | .ceTsend _ => true
  | .ceFill _ => true
  | .ceMcast _ => true
  | .ceSfill _ => true
  | .ceDfill _ => true
  | .ceCput _ => true
  | .ceCancel _ => true
  | .ceGranuleLand core _ => decide (core < 384)
  | .dxOpen _ => true
  | .dxClose _ => true
  | .fcEnc _ => true
  | .fcDec _ => true
  | .tdWin _ => true
  | .tdBlk _ => true
  | .veRun _ => true
  | .veStat _ => true
  | .dxEntryDeliver core _ => decide (core < 384)
  | .bkGo _ => true
  | .bkStop _ => true
  | .cuLpPush _ => true
  | .cuLpPop _ => true
  | .cuJump _ => true
  | .cuCall _ => true
  | .cuTrap _ => true
  | .cuBrk _ => true
  | .cuHalt _ => true
  | .cuWdog _ => true
  | .lend d => decide (1 ≤ d.toNat) && decide (d.toNat ≤ 6)
  | .sbase _ _ => true
  | .sstr _ _ _ => true
  | .sstri _ _ _ => true
  | .sspace _ kind idx => kind != 3 && (kind != 0 || idx == 0) && (kind != 1 || decide (idx.toNat < 12))
  | .swlev _ b => decide (b.toNat ≤ 5)
  | .srst _ => true
  | .bankListStart engine => decide (engine < 512)
  | .bload _ _ _ => true
  | .bmac _ => true
  | .bmact _ => true
  | .bmacq _ _ p => p.wfmt == 0
  | .bscale _ _ _ => true
  | .bstore _ _ _ => true
  | .bsend _ _ _ _ _ _ => true
  | .bzero _ _ => true
  | .bjoin _ => true
  | .bfence => true
  | .bred _ => true
  | .bsync _ _ => true
  | .bend => true
  | .bankWaitRelease engine => decide (engine < 512)
  | .bankListComplete core _ => decide (core < 384)
  | .engineOpComplete core _ => decide (core < 384)
  | .engineOpResume core slot => decide (core < 384) && decide (slot < 24)
  | .engineOpCancel core slot => decide (core < 384) && decide (slot < 24)
  | .coreFaultResume core => decide (core < 384)
  | .killGathering _ => true
  | .shootdownGo _ _ _ _ => true
  | .shootdownAgentAck agent => decide (agent < 5)
  | .migratingRewalk w => w.wf
  | .migratingTimeout w => w.wf
  | .cowDuplicate w => w.wf
  | .pasidTeardown pasid => decide (pasid < 2 ^ 20)
  | .fetcherTranslationReturn slot => decide (slot < 4096)
  | .atsInvalidation pasid _ _ => decide (pasid < 2 ^ 20)
  | .runReceive _ => true
  | .shardHoldReread _ => true
  | .shardHoldTimeout _ => true
  | .shardMovedReceive core _ _ => decide (core < 384)
  | .shardRequesterReread core _ => decide (core < 384)
  | .shardRequesterTimeout core _ => decide (core < 384)
  | .eccUncorrectable _ _ => true
  | .hbmMapEffect stack => decide (stack < 8)
  | .folioPullComplete core folio => decide (core < 384) && decide (folio < 141)
  | .pullTimeout core folio => decide (core < 384) && decide (folio < 141)
  | .folioPushComplete core folio _ => decide (core < 384) && decide (folio < 141)
  | .backgroundPush core folio => decide (core < 384) && decide (folio < 141)
  | .preemptRequest _ => true
  | .contextRestore _ on => on.all fun c => decide (c < 384)
  | .debugAttach core => decide (core < 384)
  | .debugHalt core => decide (core < 384)
  | .singleStep core => decide (core < 384)
  | .debugResume core => decide (core < 384)
  | .notifyWrite aperture _ _ => decide (aperture < 4096)
  | .packetFetch slot => decide (slot < 4096)
  | .launchPacket _ => true
  | .jobPacket _ => true
  | .graphPacket _ => true
  | .copyPacket _ => true
  | .signalPacket _ => true
  | .waitPacket _ => true
  | .energyPacket _ => true
  | .checkpointPacket _ => true
  | .barrierPacket _ => true
  | .gatheringPlace _ on => on.all fun c => decide (c < 384)
  | .gatheringRelease _ => true
  | .tickLaunchTimeout _ => true
  | .queueAging slot => decide (slot < 4096)
  | .instanceComplete _ => true
  | .blockHandout _ die => decide (die < 4)
  | .blockReport _ _ => true
  | .dieFence die => decide (die < 4)
  | .kernelNode _ _ => true
  | .condNode _ _ => true
  | .whileNode _ _ => true
  | .joinNode _ _ => true
  | .endNode _ _ => true
  | .energyWindowEnd => true
  | .energyPacing _ => true
  | .pasidBind _ _ _ => true
  | .qcbCreate _ _ _ _ _ _ => true
  | .qcbDestroy _ _ => true
  | .hbmMap _ _ => true
  | .slotTable _ _ _ => true
  | .slotTableActivate => true
  | .circuit _ _ => true
  | .notifyBind _ _ => true
  | .sliceBind _ _ _ => true
  | .window _ _ => true
  | .identity _ => true
  | .fabricMembers _ _ => true
  | .checkpointPageCopy => true
  | .manifestCommit _ => true
  | .powerLoss => true
  | .bringUp _ => true
  | .fullService => true
  | .flitReceive port _ => decide (port < 18)
  | .lreq port _ _ => decide (port < 18)
  | .supp port _ _ _ => decide (port < 18)
  | .lost port _ => decide (port < 18)
  | .linkRetrain port => decide (port < 18)
  | .flitRetentionExpiry port _ => decide (port < 18)
  | .circuitSlotInject circ => decide (0 < circ) && decide (circ < 256)
  | .fabricWrite _ => true
  | .fabricRead _ => true
  | .rdata _ => true
  | .atomic _ => true
  | .aresp _ => true
  | .sack _ => true
  | .moved _ => true
  | .nak _ => true
  | .fabricBarrier _ => true
  | .ready _ => true
  | .sprayRetransmitTimer _ _ => true
  | .hostBar4Access _ _ _ => true
  | .linkRetrainDone port => decide (port < 18)
  | .energyAllowanceWrite _ => true
  | .powerGating core _ => decide (core < 384)
  | .hostLinkUncorrectableError _ => true

/-- A move names a register, or its own trigger port. -/
def Instr.isMove : Instr → Bool
  | .move _ dst => isRegisterDst dst.toNat
  | _ => true

/-- Well-formed instructions. -/
def Instr.wf (i : Instr) : Bool :=
  i.fieldsOk && i.isMove && (match i.moveWord with | some m => m.wf | none => true)

end Sys2Proof
end

