-- ==== Sys2Proof/Decode.lean ====
section
/-!
DEFINITION. Decoding and encoding: moves (Tables 8.2, 8.15), the address slot (Table 8.9), bundles with the static
checks of Table 8.16, and bank commands (Table 5.6). Each decoder is total and rejects by the subcode the manual
names.
-/

namespace Sys2Proof

/-! ### Moves -/

/-- The triggers of each unit in the order of Table 8.15. -/
def saOps : List (Mv → Instr) :=
  [.saAdd, .saSub, .saMul, .saMulh, .saMulhu, .saDiv, .saDivu, .saRem, .saRemu, .saAnd, .saOr, .saXor, .saAndn,
   .saShl, .saShr, .saSar, .saRotl, .saMin, .saMax, .saMinu, .saMaxu, .saSeq, .saSne, .saSlt, .saSltu, .saSle,
   .saSleu, .saSel, .saPass, .saClz, .saCtz, .saPopc, .saSext8, .saSext16, .saSext32, .saZext8, .saZext16, .saZext32,
   .saBswap, .saMadd, .saFaddD, .saFsubD, .saFmulD, .saFmaddD, .saFdivD, .saFminD, .saFmaxD, .saFeqD, .saFltD,
   .saFleD, .saCvtDi, .saCvtId, .saCvtSd, .saCvtDs]

def vaOps : List (Vm → Instr) :=
  [.vaAdd, .vaSub, .vaMul, .vaFma, .vaFms, .vaMin, .vaMax, .vaAbs, .vaNeg, .vaAnd, .vaOr, .vaXor, .vaShl, .vaShr,
   .vaSar, .vaCmpeq, .vaCmplt, .vaCmple, .vaSel, .vaCvt, .vaScale, .vaQuant, .vaDequant, .vaAmax, .vaRsum, .vaRmax,
   .vaRmin, .vaDot, .vaBcast, .vaPerm, .vaZip, .vaUnzip, .vaSlide, .vaPack, .vaUnpackLo, .vaUnpackHi, .vaClamp,
   .vaRound, .vaMov]

def sfOps : List (Vm → Instr) :=
  [.sfExp, .sfExp2, .sfLn, .sfLog2, .sfRcp, .sfRsqrt, .sfSqrt, .sfDiv, .sfSin, .sfCos, .sfTanh, .sfSigmoid, .sfGelu,
   .sfSilu, .sfErf, .sfSoftplus]

def memOps : List (Mv → Instr) :=
  [.mLdv, .mLdvh, .mLdvq, .mLd64, .mLd32, .mLd32u, .mLd16, .mLd16u, .mLd8, .mLd8u, .mStv, .mStvh, .mStvq, .mSt64,
   .mSt32, .mSt16, .mSt8, .mXlt, .mHrel, .mTlook, .mTins, .mTdel, .mSwpost, .mSwadd, .mSwrd, .mSwwait, .mJwait,
   .mJset, .mAadd, .mAmax, .mAmaxf, .mAmin, .mAxchg, .mAcas, .mAand, .mAor, .mPhase, .mXfence, .mArd]

def meOps : List (Mv → Instr) :=
  [.meMm, .meMmz, .meMmt, .meMmq, .meKlatch, .meTzero, .meTrow, .meTcol, .meTrowr, .meTcolr, .meTshape, .meTload,
   .meTstore, .meTcvt, .meTadd, .meTscale, .meTamax]

def ceOps : List (Mv → Instr) :=
  [.ceCopy, .ceGather, .ceScatter, .ceTget, .ceTsend, .ceFill, .ceMcast, .ceSfill, .ceDfill, .ceCput, .ceCancel]

def xuOps : List (Mv → Instr) :=
  [.dxOpen, .dxClose, .fcEnc, .fcDec, .tdWin, .tdBlk, .veRun, .veStat]

def bkOps : List (Mv → Instr) :=
  [.bkGo, .bkStop]

def cuOps : List (Mv → Instr) :=
  [.cuLpPush, .cuLpPop, .cuJump, .cuCall, .cuTrap, .cuBrk, .cuHalt, .cuWdog]

def opAt {α : Type} (l : List (α → Instr)) (k : Nat) (a : α) : Option Instr := (l[k]?).map (fun f => f a)

/-- A move that passes the checks on its own: the instruction it is (R184, R187). -/
def decodeMove (m : MoveWord) : Option Instr :=
  let p := m.dst.toNat
  let mv : Mv := { bus := m.bus, src := m.src, keep := m.mod.getLsbD 1 }
  let vm : Vm := { bus := m.bus, src := m.src, w := m.mod }
  if !m.wf then none
  else if isRegisterDst p then some (.move mv m.dst)
  else if isSaTrig p then opAt saOps (p - 0x200) mv
  else if isVaTrig p then opAt vaOps (p - 0x280) vm
  else if isSfTrig p then opAt sfOps (p - 0x300) vm
  else if isMemTrig p then opAt memOps (p - 0x340) mv
  else if isMeTrig p then opAt meOps (p - 0x380) mv
  else if isCeTrig p then opAt ceOps (p - 0x3A0) mv
  else if isXuTrig p then opAt xuOps (p - 0x3B0) mv
  else if isBkTrig p then opAt bkOps (p - 0x3C0) mv
  else opAt cuOps (p - 0x3E0) mv

/-- The 24 bits of a move, Table 8.2. -/
def MoveWord.word (m : MoveWord) : BitVec 24 := m.src ++ m.dst ++ m.mod

/-- The move that a 24-bit word is on a bus. -/
def moveOfWord (bus : Fin 8) (w : BitVec 24) : MoveWord :=
  { bus := bus, src := w.extractLsb' 13 11, dst := w.extractLsb' 2 11, mod := w.extractLsb' 0 2 }

/-! ### The address slot -/

/-- The subcode with which a valid address slot fails, Table 8.16. -/
def slotFault (w : BitVec 24) : Option Nat :=
  let aop := bits w 23 20
  let lo := bits w 14 0
  let low3 := bits w 2 0
  let idx := bits w 4 0
  let kind := bits w 6 5
  if aop = 0 then (if bits w 19 0 = 0 then none else some 2)
  else if aop = 1 then
    if bits w 19 3 ≠ 0 then some 2 else if low3 = 0 ∨ low3 = 7 then some 11 else none
  else if aop = 2 then (if bits w 16 6 = 0 then none else some 2)
  else if aop = 3 then (if bits w 14 6 = 0 then none else some 2)
  else if aop = 4 then (if bits w 14 13 = 0 then none else some 2)
  else if aop = 5 then
    if bits w 16 7 ≠ 0 ∨ (kind = 0 ∧ idx ≠ 0) then some 2
    else if kind = 3 ∨ (kind = 1 ∧ 12 ≤ idx) then some 11
    else none
  else if aop = 6 then
    if bits w 16 3 ≠ 0 then some 2 else if 6 ≤ low3 then some 11 else none
  else if aop = 7 then (if bits w 16 15 = 0 ∧ lo = 0 then none else some 2)
  else some 8

/-- The instruction of an address slot; a slot with aop 0, or one that fails its checks, holds none. -/
def decodeSlot (w : BitVec 24) : Option Instr :=
  if (slotFault w).isSome then none
  else
    match bits w 23 20 with
    | 1 => some (.lend (w.extractLsb' 0 3))
    | 2 => some (.sbase (w.extractLsb' 17 3) (w.extractLsb' 0 6))
    | 3 => some (.sstr (w.extractLsb' 17 3) (w.extractLsb' 15 2) (w.extractLsb' 0 6))
    | 4 => some (.sstri (w.extractLsb' 17 3) (w.extractLsb' 15 2) (w.extractLsb' 0 13))
    | 5 => some (.sspace (w.extractLsb' 17 3) (w.extractLsb' 5 2) (w.extractLsb' 0 5))
    | 6 => some (.swlev (w.extractLsb' 17 3) (w.extractLsb' 0 3))
    | 7 => some (.srst (w.extractLsb' 17 3))
    | _ => none

/-! ### Bundles -/

/-- A leaf, Table 8.8. -/
structure Leaf where
  target : Nat
  pop : Nat
deriving DecidableEq, Repr

/-- A test, Table 8.7. -/
structure Test where
  inv : Bool
  kind : Nat
  idx : Nat
deriving DecidableEq, Repr

/-- A control tree, Table 8.6. -/
structure Tree where
  fork : Bool
  tests : List Test
  leaves : List Leaf
deriving DecidableEq, Repr

/-- A present move of a bundle and its leaf mask, or the address slot (place 8). -/
structure Slot where
  place : Nat
  instr : Instr
  mask : Nat
deriving DecidableEq, Repr

/-- A bundle that passes the static checks (Table 8.1). -/
structure Bundle where
  mark : Bool
  slots : List Slot
  adr : Option Slot
  tree : Option Tree
  lits : List Nat
deriving DecidableEq, Repr

def bField (b : BitVec 512) (hi lo : Nat) : Nat := bits b hi lo

def bFormat (b : BitVec 512) : Nat := bits b 3 0
def bPresent (b : BitVec 512) (k : Nat) : Bool := bit b (4 + k)
def bAv (b : BitVec 512) : Bool := bit b 12
def bMark (b : BitVec 512) : Bool := bit b 13
def bCtl (b : BitVec 512) : Bool := bit b 15
def bMove (b : BitVec 512) (k : Nat) : BitVec 24 := b.extractLsb' (16 + 24 * k) 24
def bMask (b : BitVec 512) (k : Nat) : Nat := bits b (300 + 5 * k) (296 + 5 * k)
def bSlot (b : BitVec 512) : BitVec 24 := b.extractLsb' 208 24
def bSlotMask (b : BitVec 512) : Nat := bits b 340 336
def bControl (b : BitVec 512) : BitVec 64 := b.extractLsb' 232 64
def bLit (b : BitVec 512) (n : Nat) : Nat := bits b (383 + 32 * n) (352 + 32 * n)

/-- Control field, Table 8.6. -/
def cFork (c : BitVec 64) : Bool := bit c 2
def cTests (c : BitVec 64) : Nat := bits c 1 0 + 1
def cTest (c : BitVec 64) (i : Nat) : Nat := bits c (11 + 8 * i) (4 + 8 * i)
def cLeaf (c : BitVec 64) (i : Nat) : Nat := bits c (40 + 5 * i) (36 + 5 * i)

/-- A FORK with one test has no shape (R179). -/
def cShapeless (c : BitVec 64) : Bool := cFork c && cTests c == 1

/-- Leaves of the shape, Table 8.9a. -/
def cLeaves (c : BitVec 64) : Nat := if cShapeless c then 0 else cTests c + 1

def fixedBus (k : Nat) : Fin 8 := ⟨k % 8, Nat.mod_lt k (by decide)⟩

def bMoveWord (b : BitVec 512) (k : Nat) : MoveWord := moveOfWord (fixedBus k) (bMove b k)

def bSrc (b : BitVec 512) (k : Nat) : Nat := (bMoveWord b k).src.toNat
def bDst (b : BitVec 512) (k : Nat) : Nat := (bMoveWord b k).dst.toNat

/-- Mask bits that count: those of leaves the shape has; with C = 0 every present move executes (R174). -/
def bMaskUsed (b : BitVec 512) (k : Nat) : Nat :=
  if bCtl b then bMask b k % 2 ^ cLeaves (bControl b) else 1

/-- The engine a trigger belongs to, for subcode 6: ME, CE, DX, FC, TD, VE, BK. -/
def engineOf (p : Nat) : Nat :=
  if isMeTrig p then 1 else if isCeTrig p then 2 else if inRange p 0x3B0 2 then 3 else if inRange p 0x3B2 2 then 4
  else if inRange p 0x3B4 2 then 5 else if inRange p 0x3B6 2 then 6 else if isBkTrig p then 7 else 0

/-- Two moves that subcode 6 forbids together. A trigger of SA to M1 is its own bus's, so two buses never share one. -/
def sameTarget (p q : Nat) : Bool :=
  (p == q && (isRegisterDst p || isCuTrig p)) || (engineOf p != 0 && engineOf p == engineOf q)

def bConflict (b : BitVec 512) (i j : Nat) : Bool :=
  decide (i < j) && bPresent b i && bPresent b j && sameTarget (bDst b i) (bDst b j) && bMaskUsed b i &&& bMaskUsed b j != 0

/-- Bits of the lane pool that a vector trigger move asks for (R189); that the reserved width 11 asks for none is the model's
choice (log entry 65). -/
def bWidth (b : BitVec 512) (k : Nat) : Nat :=
  if bPresent b k && isVaTrig (bDst b k) then
    match bits (bMove b k) 1 0 with
    | 0 => 1024
    | 1 => 512
    | 2 => 256
    | _ => 0
  else 0

def bWidthTo (b : BitVec 512) (k : Nat) : Nat := ((List.range (k + 1)).map (bWidth b)).sum

def firstMove (f : Nat → Bool) : Option Nat := (List.range 8).find? f

/-- The part at fault: the lowest move, else the address slot, else the control field, else the bundle. R188 orders moves alone;
that they come before the slot, and the slot before the fields, is the model's choice (log entry 65). -/
def partAt (move : Nat → Bool) (slot ctl whole : Bool) : Option Nat :=
  match firstMove move with
  | some k => some k
  | none => if slot then some 8 else if ctl then some 9 else if whole then some 15 else none

/-- Reserved bits of the control field, of tests and of leaves outside the shape. -/
def ctlReserved (b : BitVec 512) : Bool :=
  let c := bControl b
  if bCtl b then
    bit c 3 || bits c 63 61 != 0 ||
      (!cShapeless c && ((upto (cTests c) (4 - cTests c)).any (fun i => cTest c i != 0) ||
        (upto (cLeaves c) (5 - cLeaves c)).any (fun i => cLeaf c i != 0)))
  else c != 0

def ctlBadValue (b : BitVec 512) : Bool :=
  let c := bControl b
  bCtl b && !cShapeless c &&
    ((List.range (cTests c)).any (fun i => (bits (BitVec.ofNat 8 (cTest c i)) 6 5 == 0 || bits (BitVec.ofNat 8 (cTest c i)) 6 5 == 3) && decide (16 ≤ cTest c i % 32)) ||
      (List.range (cLeaves c)).any (fun i => cLeaf c i / 4 == 7))

/-- A leaf other than fall-through in the shape (subcode 9). -/
def ctlJumps (b : BitVec 512) : Bool :=
  bCtl b && (List.range (cLeaves (bControl b))).any (fun i => cLeaf (bControl b) i / 4 != 5)

/-- A CU trigger on a bus other than 0. -/
def bStrayCu (b : BitVec 512) (k : Nat) : Bool := bPresent b k && decide (0 < k) && isCuTrig (bDst b k)

/-- Conditions of Table 8.16, subcode `n`: the part at fault if the condition holds. -/
def bFault (b : BitVec 512) (n : Nat) : Option Nat :=
  let pr := bPresent b
  let dst := bDst b
  let src := bSrc b
  let slot := fun k => bAv b && slotFault (bSlot b) == some k
  match n with
  | 1 => if bFormat b = 0 then none else some 15
  | 2 =>
    partAt
      (fun k => if pr k then !hasWidth (dst k) && bit (bMove b k) 0 else bMove b k != 0 || bMask b k != 0)
      (slot 2 || (!bAv b && (bSlot b != 0 || bSlotMask b != 0)))
      (ctlReserved b)
      (bit b 14 || bits b 351 341 != 0)
  | 3 => firstMove fun k => pr k && (!(srcListed (src k) || dstListed (src k)) || !(srcListed (dst k) || dstListed (dst k)))
  | 4 => firstMove fun k => pr k && (!srcListed (src k) || !dstListed (dst k))
  | 5 => firstMove fun k => pr k && !reaches k (dst k)
  | 6 => firstMove fun i => (List.range 8).any fun j => bConflict b i j
  | 7 => firstMove fun k => decide (2048 < bWidthTo b k)
  | 8 => if slot 8 then some 8 else none
  | 9 => firstMove fun k => bStrayCu b k || (pr k && (dst k == 0x3E2 || dst k == 0x3E3) && ctlJumps b)
  | 10 => if bCtl b && cShapeless (bControl b) then some 9 else none
  | 11 =>
    partAt
      (fun k => pr k && (if hasWidth (dst k) then bits (bMove b k) 1 0 == 3 else bit (bMove b k) 1 && src k != 0x0B8))
      (slot 11) (ctlBadValue b) false
  | _ => none

/-- Static checks (R188): subcode and part at fault. Of the moves that meet subcode 9 the lowest is named, whichever of its two
conditions each meets. -/
def checkBundle (b : BitVec 512) : Option (Nat × Nat) :=
  if bFormat b ≠ 0 then some (1, 15)
  else
    match firstMove (bStrayCu b) with
    | some _ => (bFault b 9).map fun w => (9, w)
    | none => (upto 2 10).findSome? fun n => (bFault b n).map fun w => (n, w)

def decodeTest (t : Nat) : Test := { inv := decide (128 ≤ t % 256), kind := t / 32 % 4, idx := t % 32 }
def decodeLeaf (l : Nat) : Leaf := { target := l / 4 % 8, pop := l % 4 }

def decodeTree (c : BitVec 64) : Tree :=
  { fork := cFork c, tests := (List.range (cTests c)).map (fun i => decodeTest (cTest c i)),
    leaves := (List.range (cLeaves c)).map (fun i => decodeLeaf (cLeaf c i)) }

/-- The parts of a bundle, without its checks. -/
def bundleParts (b : BitVec 512) : Bundle :=
  { mark := bMark b,
    slots := (List.range 8).filterMap fun k =>
      if bPresent b k then (decodeMove (bMoveWord b k)).map fun i => { place := k, instr := i, mask := bMask b k } else none,
    adr := if bAv b then (decodeSlot (bSlot b)).map fun i => { place := 8, instr := i, mask := bSlotMask b } else none,
    tree := if bCtl b then some (decodeTree (bControl b)) else none,
    lits := (List.range 5).map (bLit b) }

/-- Decode a bundle, or reject it with its subcode and the part at fault. -/
def decodeBundle (b : BitVec 512) : Except (Nat × Nat) Bundle :=
  match checkBundle b with
  | some f => .error f
  | none => .ok (bundleParts b)

/-- The bundle that holds one move (place 0 to 7) or an address slot (place 8) and nothing else. -/
def oneSlotBundle (place : Nat) (w : BitVec 24) : BitVec 512 :=
  if place < 8 then BitVec.ofNat 512 (2 ^ (4 + place) + w.toNat * 2 ^ (16 + 24 * place))
  else BitVec.ofNat 512 (2 ^ 12 + w.toNat * 2 ^ 208)

/-! ### Bank commands -/

/-- The fields of a multiply command. -/
def macOfWord (w : BitVec 64) (wfmt : BitVec 5) : Mac :=
  { xb := w.extractLsb' 56 2, wfmt := wfmt, afmt := w.extractLsb' 49 2, sc := bit w 48, sxb := w.extractLsb' 46 2,
    e8 := w.extractLsb' 38 8, nr1 := w.extractLsb' 32 6, k1 := w.extractLsb' 24 8, koff := w.extractLsb' 18 6, row := w.extractLsb' 0 18 }

/-- Decode a command word (Table 5.6): the command, or ENGINE_ERROR subcode 1 (reserved opcode) or 2 (a reserved bit set). -/
def decodeBank (w : BitVec 64) : Except Nat Instr :=
  let zero := fun hi lo => bits w hi lo == 0
  let need := fun (c : Bool) (i : Instr) => if c then Except.ok i else Except.error 2
  match bits w 63 58 with
  | 0x01 => need (zero 54 40) (.bload (w.extractLsb' 56 2) (bit w 55) (w.extractLsb' 0 40))
  | 0x02 => .ok (.bmac (macOfWord w (w.extractLsb' 51 5)))
  | 0x03 => .ok (.bmact (macOfWord w (w.extractLsb' 51 5)))
  | 0x04 => need (zero 52 51) (.bmacq (bit w 55) (w.extractLsb' 53 2) (macOfWord w 0))
  | 0x05 => need (zero 57 36 && zero 32 32) (.bscale (bit w 35) (w.extractLsb' 33 2) (w.extractLsb' 0 32))
  | 0x06 => need (zero 56 54 && zero 47 40) (.bstore (bit w 57) (w.extractLsb' 48 6) (w.extractLsb' 0 40))
  | 0x07 => need (zero 7 1)
      (.bsend (bit w 57) (w.extractLsb' 51 6) (w.extractLsb' 42 9) (w.extractLsb' 23 19) (w.extractLsb' 8 15) (bit w 0))
  | 0x08 => need (zero 57 5) (.bzero (bit w 4) (w.extractLsb' 0 4))
  | 0x09 => need (zero 57 4) (.bjoin (w.extractLsb' 0 4))
  | 0x0A => need (zero 57 0) .bfence
  | 0x0B => need (zero 51 0) (.bred (w.extractLsb' 52 6))
  | 0x0C => need (zero 57 35) (.bsync (w.extractLsb' 16 19) (w.extractLsb' 0 16))
  | 0x3F => need (zero 57 0) .bend
  | _ => .error 1

/-! ### Encoding -/

/-- The words of an instruction: a move or an address slot with its place in the bundle, or a bank command. -/
inductive Encoding where
  | slot (place : Nat) (w : BitVec 24)
  | bank (w : BitVec 64)
deriving DecidableEq, Repr

/-- Address-slot words, Table 8.9. -/
def encodeSlot : Instr → Option (BitVec 24)
  | .lend d => some (0x1#4 ++ 0#17 ++ d)
  | .sbase a s => some (0x2#4 ++ a ++ 0#11 ++ s)
  | .sstr a l s => some (0x3#4 ++ a ++ l ++ 0#9 ++ s)
  | .sstri a l imm => some (0x4#4 ++ a ++ l ++ 0#2 ++ imm)
  | .sspace a kind idx => some (0x5#4 ++ a ++ 0#10 ++ kind ++ idx)
  | .swlev a b => some (0x6#4 ++ a ++ 0#14 ++ b)
  | .srst a => some (0x7#4 ++ a ++ 0#17)
  | _ => none

/-- The low 49 bits that the multiply commands share. -/
def macLow (p : Mac) : BitVec 49 :=
  BitVec.ofBool p.sc ++ p.sxb ++ p.e8 ++ p.nr1 ++ p.k1 ++ p.koff ++ p.row

/-- Bank command words, Table 5.6. -/
def encodeBank : Instr → Option (BitVec 64)
  | .bload xb src off => some (0x01#6 ++ xb ++ BitVec.ofBool src ++ 0#15 ++ off)
  | .bmac p => some (0x02#6 ++ p.xb ++ p.wfmt ++ p.afmt ++ macLow p)
  | .bmact p => some (0x03#6 ++ p.xb ++ p.wfmt ++ p.afmt ++ macLow p)
  | .bmacq tq shift p => some (0x04#6 ++ p.xb ++ BitVec.ofBool tq ++ shift ++ 0#2 ++ p.afmt ++ macLow p)
  | .bscale perlane xb factor => some (0x05#6 ++ 0#22 ++ BitVec.ofBool perlane ++ xb ++ 0#1 ++ factor)
  | .bstore ofmt n1 off => some (0x06#6 ++ BitVec.ofBool ofmt ++ 0#3 ++ n1 ++ 0#8 ++ off)
  | .bsend ofmt n1 coreid off sw swv => some (0x07#6 ++ BitVec.ofBool ofmt ++ n1 ++ coreid ++ off ++ sw ++ 0#7 ++ BitVec.ofBool swv)
  | .bzero acc mask => some (0x08#6 ++ 0#53 ++ BitVec.ofBool acc ++ mask)
  | .bjoin j => some (0x09#6 ++ 0#54 ++ j)
  | .bfence => some (0x0A#6 ++ 0#58)
  | .bred d => some (0x0B#6 ++ d ++ 0#52)
  | .bsync sw gen => some (0x0C#6 ++ 0#23 ++ sw ++ gen)
  | .bend => some (0x3F#6 ++ 0#58)
  | _ => none

/-- The words of an instruction; an event has none. -/
def encode (i : Instr) : Option Encoding :=
  match i.moveWord with
  | some m => some (.slot m.bus.val m.word)
  | none =>
    match encodeSlot i with
    | some w => some (.slot 8 w)
    | none => (encodeBank i).map .bank

/-- The instruction of encoded words. -/
def decode : Encoding → Option Instr
  | .slot place w => if place < 8 then decodeMove (moveOfWord (fixedBus place) w) else decodeSlot w
  | .bank w => match decodeBank w with | .ok i => some i | .error _ => none

/-- The lowest bus that reaches a destination (Table 8.11). -/
def lowestBus (dst : Nat) : Nat := ((List.range 8).find? fun k => reaches k dst).getD 0

/-- Where a 24-bit word of the table stands in a bundle: an address-slot word in the slot, a move on the lowest bus
that reaches its destination. The words of `lend 1` to `lend 6` are also moves of q0.0: the slot is taken. -/
def wordPlace (w : BitVec 24) : Nat :=
  if (decodeSlot w).isSome then 8 else lowestBus (bits w 12 2)

/-- The instruction read from a word as the opcode table numbers its bits. -/
def decodeTableWord (nbits w : Nat) : Option Instr :=
  if nbits = 24 then decode (.slot (wordPlace (BitVec.ofNat 24 w)) (BitVec.ofNat 24 w))
  else if nbits = 64 then decode (.bank (BitVec.ofNat 64 w))
  else if nbits = 512 then (match decodeBundle (BitVec.ofNat 512 w) with | .ok _ => some .bundleIssue | .error _ => none)
  else none

end Sys2Proof
end

