-- ==== Sys2Proof/Machine/Flags.lean ====
section
/-!
DEFINITION. The sticky flags of `fstat` (R209, Table 9.8).
-/

namespace Sys2Proof.Machine

/-- inexact -/
def flagNX : Word := 0x001
/-- underflow -/
def flagUF : Word := 0x002
/-- overflow -/
def flagOF : Word := 0x004
/-- division by zero, logarithm of zero -/
def flagDZ : Word := 0x008
/-- invalid -/
def flagNV : Word := 0x010
/-- saturation changed a value -/
def flagSAT : Word := 0x020
/-- a `lend` was ignored -/
def flagLOOPMISS : Word := 0x040
/-- integer division by zero -/
def flagIDZ : Word := 0x080
/-- most negative divided by -1 -/
def flagIOV : Word := 0x100
/-- TERN code 10 was read -/
def flagTQW : Word := 0x200
/-- a stream ended on a decode error -/
def flagDECERR : Word := 0x400

/-- Set a flag if a condition holds. -/
def flagIf (c : Bool) (f : Word) : Word := if c then f else 0

/-- A write to destination 0x141 clears every flag whose bit is set in the value; reserved bits stay 0 (R209). -/
def fstatClear (fstat value : Word) : Word := fstat &&& ~~~ value &&& 0x7FF

/-- Flags that fall due are added (R210). -/
def fstatRaise (fstat flags : Word) : Word := fstat ||| (flags &&& 0x7FF)

end Sys2Proof.Machine
end

