-- ==== Sys2Proof/Machine/Keccak.lean ====
section
/-!
DEFINITION. SHAKE256 (the stochastic-rounding draw of R203, the folio digest of R356, the shard digest of R388) and
the CRC-32 of a flit (R373).
-/

namespace Sys2Proof.Machine

/-- The lane at (x, y) of a Keccak state, 25 lanes in order x + 5y. -/
def lane (a : List Word) (k : Nat) : Word := a.getD k 0

/-- The parity of column `x`, `x` taken modulo 5. -/
def parity (a : List Word) (x : Nat) : Word :=
  [0, 5, 10, 15, 20].foldl (fun p y => p ^^^ lane a (x % 5 + y)) 0

/-- The theta step: each lane takes the parities of the two columns beside its own. -/
def theta (a : List Word) : List Word :=
  let p := (List.range 5).map (parity a)
  (List.range 25).map fun k => lane a k ^^^ lane p ((k + 4) % 5) ^^^ (lane p ((k + 1) % 5)).rotateLeft 1

/-- The rho and pi steps as one walk of the 24 lanes off the origin: from the lane `k` = (x, y) the walk goes on to
(y, 2x + 3y), which takes the lane of `k` turned by the `t`-th triangular number. -/
def rhoPi : Nat → Nat → Nat → List Word → List Word → List Word
  | 0, _, _, _, b => b
  | n + 1, t, k, a, b =>
    let next := k / 5 + 5 * ((2 * (k % 5) + 3 * (k / 5)) % 5)
    rhoPi n (t + 1) next a (b.set next ((lane a k).rotateLeft (t * (t + 1) / 2 % 64)))

/-- The chi step, row by row. -/
def chi (b : List Word) : List Word :=
  (List.range 25).map fun k =>
    let row := k - k % 5
    lane b k ^^^ (lane b (row + (k + 2) % 5) &&& ~~~ lane b (row + (k + 1) % 5))

/-- One step of the register whose bits are the iota constants (x⁸ + x⁶ + x⁵ + x⁴ + 1). -/
def iotaStep (r : Nat) : Nat := if r < 128 then 2 * r else (2 * r) % 256 ^^^ 0x71

/-- The constant that the register gives a round, bit 2ʲ - 1 from its `j`-th step, and the register after it. -/
def iotaWord : Nat → Nat → Nat → Nat × Nat
  | 0, _, r => (0, r)
  | n + 1, j, r =>
    let (w, r') := iotaWord n (j + 1) (iotaStep r)
    (r % 2 * 2 ^ (2 ^ j - 1) + w, r')

/-- One round of Keccak-f[1600] but for its iota step's constant, which `c` is. -/
def keccakRound (a : List Word) (c : Word) : List Word :=
  let t := theta a
  let e := chi (rhoPi 24 1 1 t t)
  e.set 0 (lane e 0 ^^^ c)

/-- `n` rounds, the register of the constants at `r`. -/
def keccakRounds : Nat → Nat → List Word → List Word
  | 0, _, a => a
  | n + 1, r, a =>
    let (w, r') := iotaWord 7 0 r
    keccakRounds n r' (keccakRound a (BitVec.ofNat 64 w))

def keccakF (a : List Word) : List Word := keccakRounds 24 1 a

/-- Eight bytes as a lane. -/
def bytesToLane (b : List Byte) : Word := BitVec.ofNat 64 (ofLeBytes (b.take 8))

/-- Xor one 136-byte block into the state and permute. -/
def absorb (a : List Word) (blk : List Byte) : List Word :=
  keccakF ((List.range 25).map fun k => if k < 17 then lane a k ^^^ bytesToLane (blk.drop (8 * k)) else lane a k)

/-- Absorb `n` blocks. -/
def absorbBlocks : Nat → List Word → List Byte → List Word
  | 0, a, _ => a
  | n + 1, a, m => absorbBlocks n (absorb a (m.take 136)) (m.drop 136)

/-- The padding of SHAKE256: 0x1F, zeros, and 0x80 in the last byte of the block. -/
def shakePad (len : Nat) : List Byte :=
  let z := 136 - len % 136
  if z = 1 then [0x9F] else (0x1F : Byte) :: (List.replicate (z - 2) 0 ++ [0x80])

/-- The first `n ≤ 136` bytes of SHAKE256 over a message. -/
def shake256 (msg : List Byte) (n : Nat) : List Byte :=
  let a := absorbBlocks (msg.length / 136 + 1) (List.replicate 25 0) (msg ++ shakePad msg.length)
  ((a.take 17).flatMap fun w => leBytes 8 w.toNat).take n

/-- The 32-bit digest of a folio: the first four output bytes, little-endian (R356). -/
def digest32 (msg : List Byte) : BitVec 32 := BitVec.ofNat 32 (ofLeBytes (shake256 msg 4))

/-- One bit step of the reflected CRC-32. -/
def crcBits : Nat → BitVec 32 → BitVec 32
  | 0, c => c
  | n + 1, c => crcBits n (if c.getLsbD 0 then (c >>> 1) ^^^ 0xEDB88320 else c >>> 1)

/-- CRC-32 with polynomial 0x04C1_1DB7, initial value all ones and final inversion, over bytes in order (R373), each
byte taken from its least significant bit. -/
def crc32 (b : List Byte) : BitVec 32 :=
  ~~~ b.foldl (fun c x => crcBits 8 (c ^^^ x.setWidth 32)) 0xFFFFFFFF

end Sys2Proof.Machine
end

