-- ==== Sys2Proof/Config.lean ====
section
/-!
DEFINITION. What the ZL9 fixes for every run, and the FREE VALUES: values the manual leaves open. A free value is an
opaque constant with no body, so that no proof can lean on a particular value of it (assumption log).
-/

namespace Sys2Proof.Config

/-- A byte of an HBM region whose map changed under HBM_MAP (R102): undefined until written. Log entry 7. -/
opaque freeByte : Nat → Nat → Byte

/-- Code (bits 23-16) and subcode (bits 15-0) that state an uncorrectable error of a granule, in a colophon (R99) or a NAK
(R65): Table 18.2 lists none. Log entry 53. -/
opaque eccFault : Nat → BitVec 24

/-- What a read of an unused physical address returns (R97 gives no effect). Log entry 8. -/
opaque holeByte : Nat → Byte

/-- Which of the FP32 values within the bound of Table 12.2 a special function delivers, by trigger port and operand
(R262): for the same operand bits every ZL9 delivers the same bits. Log entry 9. -/
opaque sfApprox : Nat → Nat → Nat

/-- From which operand on, in the order of the FP32 values, a non-decreasing special function delivers at least the FP32
value with this pattern, where the bound leaves the choice (R262). Log entry 9. -/
opaque sfThreshold : Nat → Nat → Int

/-- The element (low 8 bits) and flags (above) that `pack` gives for a scale format as otype, by type, otype and element:
R257 admits the width, and R251 states no conversion to a scale. Log entry 54. -/
opaque packScale : Nat → Nat → Nat → BitVec 14

/-- The ML-DSA-65 signature under the module identity key (R389, R393): FIPS 204, which R389 names, makes it 3,309 bytes
long. Log entry 10. -/
opaque signature : List Byte → BitVec 26472

/-- The measurement of ROM and loaded extensions (IDENTITY, R393). Log entry 10. -/
opaque measurement : Bool → List Byte

/-- The 4,096 bytes as which a register, latch or rings folio is saved: the manual gives no layout (R355). Log entry 6. -/
opaque folioImage : Nat → Nat → List Byte

/-- The energy, in µJ, that the counters measure for a window or a finished gathering (R344, Table 16.9): the manual gives
no energy per operation. Log entry 11. -/
opaque energyOf : Nat → Nat

/-- The µJ that a core has consumed (the `energy` port, R185), by core, gathering, reading and issue count. Log entry 11. -/
opaque coreEnergy : Nat → Nat → Nat → Nat → BitVec 64

/-- Whether the policy extension's signature verifies at boot (R392). Log entry 10. -/
opaque extensionOk : Bool

/-- The module count that a tick launch's packet names (R330): no word of Table 16.5 holds it. Log entry 28. -/
opaque launchModules : List Word → Nat

/-- The page, in 64 KiB, at which the loader places an image that names no address (R398). Log entry 63. -/
opaque loadPage : Nat → Nat

/-- The metric of a `ve.run` whose quotient is not a number (R322 states none). Log entry 12. -/
opaque freeWord : Nat → Word

/-- Cores per quire, quires per die, dies (R1, R25). -/
def coresPerQuire : Nat := 12
def quiresPerDie : Nat := 8
def dies : Nat := 4
def cores : Nat := 384
/-- Scratchpad bytes of a core (R12). -/
def scratchBytes : Nat := 0x50000
/-- Bundles of instruction memory (R13). -/
def bundles : Nat := 2048
/-- Store-gate entries of a region (R269). -/
def gateEntries : Nat := 48
/-- Publish-buffer granules (R126). -/
def publishGranules : Nat := 64
/-- Translation-cache entries of a die (R35). -/
def cacheEntries : Nat := 16384
/-- The energy budget of a window, in µJ (R344). -/
def windowBudget : Nat := 2800000

end Sys2Proof.Config
end

