-- ==== Sys2Proof/Machine/State.lean ====
section
/-!
DEFINITION. The state of one ZL9 module as plain data: the cores with all the state of Table 1.2, the bank engines,
the memories, the translation agents, the command processor, the fabric end points and the firmware's tables; the
two reasons a step can stop; and `State.reset`.
-/

namespace Sys2Proof.Machine

/-- A value on a bus or in an operand latch: its bits, and whether it is of vector class (R175). A scalar-class value
stands in bits [63:0]. -/
structure Val where
  bits : Vec
  vector : Bool
deriving DecidableEq, Repr

/-- A handle register, Table 2.7. -/
structure Handle where
  vpn : BitVec 41
  frame : BitVec 36
  kind : BitVec 4
  size : BitVec 4
  valid : Bool
  stale : Bool
  cow : Bool
  ld : Bool
  st : Bool
  /-- perm bit 53, named `at` in Table 2.7 -/
  amo : Bool
deriving DecidableEq, Repr

def Handle.zero : Handle :=
  { vpn := 0, frame := 0, kind := 0, size := 0, valid := false, stale := false, cow := false, ld := false, st := false, amo := false }

/-- A stream, Table 10.5. -/
structure Stream where
  base : BitVec 40
  st0 : BitVec 40
  st1 : BitVec 40
  st2 : BitVec 40
  st3 : BitVec 40
  b : BitVec 3
  kind : BitVec 2
  index : BitVec 5
deriving DecidableEq, Repr

def Stream.zero : Stream := { base := 0, st0 := 0, st1 := 0, st2 := 0, st3 := 0, b := 0, kind := 0, index := 0 }

/-- A loop-stack entry, Table 10.2. -/
structure Loop where
  count : BitVec 32
  idx : BitVec 32
  start : BitVec 11
  stop : BitVec 11
deriving DecidableEq, Repr

/-- An operand ring: four positions, each empty or a value (R220). -/
structure Ring where
  d0 : Option Vec
  d1 : Option Vec
  d2 : Option Vec
  d3 : Option Vec
deriving DecidableEq, Repr

def Ring.empty : Ring := { d0 := none, d1 := none, d2 := none, d3 := none }

/-- A place in global memory: device or host physical byte address (R97). -/
structure Place where
  host : Bool
  addr : Nat
deriving DecidableEq, Repr

/-- What a result still due is waiting for (R127, R141, R37). -/
inductive Req where
  /-- nothing: the value is known -/
  | none
  /-- a load at its home: place, bytes, and the width to sign-extend from (0: zero-extend) -/
  | load (p : Place) (size sx : Nat)
  /-- a peer load: core, offset, bytes, sign width -/
  | peer (core off size sx : Nat)
  /-- an atomic or `ard` at its home: port, word bytes, operand, compare value -/
  | atomic (p : Place) (port size : Nat) (b cmp : Word)
  /-- a page walk: virtual address and handle number -/
  | xlt (va : Word) (h : Nat)
deriving DecidableEq, Repr

/-- A fault: code, subcode, the part of the bundle at fault, and the addr, detail and aux words (R354). -/
structure CFault where
  code : Nat
  sub : Nat
  whereAt : Nat
  addr : Nat
  detail : Nat
  aux : Nat
deriving DecidableEq, Repr

/-- A result still due (R220). -/
structure Due where
  tag : Nat
  bus : Nat
  port : Nat
  dueAt : Nat
  val : Option Vec
  flags : Word
  req : Req
  /-- the handle an `xlt` installs when it falls due (R38) -/
  inst : Option (Nat × Handle)
  /-- the fault of an `xlt` walk, raised before the due or the next mark bundle (R38) -/
  bad : Option CFault
  bundle : Nat
  count : Nat
  /-- marks and observations before its issue: they order loads (R127) -/
  epoch : Nat
  /-- virtual address of the 64 KiB page that a load or atomic through a handle goes to (R44) -/
  page : Nat
deriving DecidableEq, Repr

/-- An operation on the tag table (R77, R78), as it stands while its folio is pulled: key, size and way, or a slot. -/
inductive TagOp where
  | install (key z way : Nat)
  | delete (key z : Nat)
  | clear (slot : Nat)
deriving DecidableEq, Repr

/-- The state of a core that the mark snapshot holds (Table 18.1). -/
structure Arch where
  pc : BitVec 11
  count : Nat
  /-- outermost level first -/
  loops : List Loop
  /-- latest call first -/
  calls : List (BitVec 11)
  lend : Word
  jcmp : Word
  fstat : Word
  rings : Tab Ring
  /-- result ports, keyed by source port 0x0B0-0x0B7, 0x0B9, 0x0BA -/
  res : Tab Vec
  due : List Due
  s : Tab Word
  p : Tab Bool
  v : Tab Vec
  /-- operand latches, keyed by destination port -/
  lat : Tab Val
  /-- mode latches, `.bind` and engine configuration ports, keyed by destination port -/
  cfg : Tab Word
  handles : Tab Handle
  streams : Tab Stream
  tags : Tab Word
  /-- operations on tag folios that are not PRESENT, which act on them when they are (R77, R78, Table 12.11) -/
  tagOps : List TagOp
deriving DecidableEq, Repr, Inhabited

/-- Kernel entry (R216, R222, R226, R36, R237, R240, R399). -/
def Arch.entry : Arch :=
  { pc := 0, count := 0, loops := [], calls := [], lend := 0, jcmp := 0, fstat := 0, rings := .empty, res := .empty, due := [],
    s := .empty, p := .empty, v := .empty, lat := .empty, cfg := .empty, handles := .empty, streams := .empty, tags := .empty, tagOps := [] }

/-- A gated memory store: to the scratchpad (`h = none`) or through a handle, with the shadow an `hrel` leaves (R40). -/
structure Store where
  h : Option Nat
  off : Nat
  data : List Byte
  shadow : Option Handle
  /-- issue count of the bundle that stored -/
  count : Nat
deriving DecidableEq, Repr

/-- Where a request goes: a node, the address there, and for a shard run what it was resolved with (R63). -/
structure Dest where
  node : Nat
  va : Nat
  tid : Nat
  mapver : Nat
  geom : Option RunGeom
  /-- sent after a SHARD_MOVED (R67) -/
  retried : Bool
deriving DecidableEq, Repr

/-- A request that an engine operation, or the hub, has sent to another module, and its answer. -/
structure Run where
  dest : Dest
  /-- place of a write among the unit's writes -/
  nth : Nat
  fseq : Nat
  len : Nat
  write : Bool
  /-- data of a write -/
  data : List Byte
  answer : Option (List Byte)
deriving DecidableEq, Repr

/-- A request of the hub to another module, for a PASID, with the fault that a NAK answered. -/
structure HubRun where
  pasid : Nat
  run : Run
  nak : Option (Nat × Nat)
deriving DecidableEq, Repr

/-- An element of the unit in progress as it was resolved (R62, R63): it is resolved again only if its run is moved. -/
structure Resolved where
  tid : Nat
  coords : List Nat
  shard : Nat
  /-- the node of the box; none where the tensor has no shards -/
  node : Option Nat
  va : Nat
  el : Nat
  mapver : Nat
  /-- none where the tensor has no shards -/
  geom : Option RunGeom
  /-- resolved again after a SHARD_MOVED (R67) -/
  retried : Bool
  /-- the boxes of its map, lower and upper bounds, up to the one that it falls into -/
  boxes : List (List Nat × List Nat)
deriving DecidableEq, Repr

/-- A run that a SHARD_MOVED answered: the version it carried, and the run's elements resolved so far (R67). The elements with
which a later unit goes on are told by the boxes that the run was resolved with. -/
structure Lost where
  dest : Dest
  version : Nat
  coords : List (List Nat)
  boxes : List (List Nat × List Nat)
deriving DecidableEq, Repr

/-- An element of an ME operand: its bits (or its window) and its block scale. -/
structure Elt where
  raw : Nat
  scale : Nat
  zero : Bool
deriving DecidableEq, Repr

/-- The state of an engine operation (R297, R282, R313). -/
inductive OpState where
  | queued
  | running
  /-- parked on an engine fault, record in this endpaper slot -/
  | parked (slot : Nat)
  /-- completed: a copy whose follow-on block has not been placed yet (R294), or an operation whose entries stand in the
  decoder FIFO (R318) -/
  | follow
deriving DecidableEq, Repr

/-- An engine operation: what its trigger copied, and its progress. -/
structure Op where
  id : Nat
  /-- trigger port, Table 8.15 -/
  port : Nat
  b : Word
  /-- configuration ports copied at issue -/
  cfg : Tab Word
  j : Nat
  bundle : Nat
  count : Nat
  mv : Nat
  /-- tile shape at issue (R285) -/
  shape : Nat
  /-- transfer granules, k-groups, rows, blocks, chunks or entries done -/
  prog : Nat
  st : OpState
  /-- remote runs of the granule in progress -/
  runs : List Run
  /-- members of an `mcast` that failed, with cause code and subcode (R144) -/
  failed : List (Nat × Nat × Nat)
  /-- the error its count will carry (code, subcode) -/
  err : Option (Nat × Nat)
  /-- waiting for a migrating page (R47) -/
  waiting : Bool
  /-- the unit's runs that are to be resolved again, latest first (R67) -/
  moved : List Lost
  /-- the unit's elements, as resolved -/
  memo : List Resolved
  /-- the latest element resolved, with whose run the next may go on (R63) -/
  lastRun : Option Resolved
  /-- rows that the shadow ME operation has fetched ahead: unit, operand and rows (R283) -/
  fetched : List (Nat × Nat × List (List Elt))
  /-- entries of this stream delivered so far, which are not counted a second time (R318) -/
  counted : Nat
  /-- the folios it has touched and waits for, with their cores (Table 18.9) -/
  want : List (Nat × Nat)
  /-- granules of an `mcast` that members whose folios are not PRESENT still have to take: member number, core, offset,
  bytes (R144) -/
  late : List (Nat × Nat × Nat × List Byte)
  /-- words 0x00 and 0x38 of the follow-on block that it came from (R294) -/
  block : Option (Word × Word)
  /-- granules of an `mcast` that have landed and are not counted yet: member number, core, bytes (R144) -/
  taken : List (Nat × Nat × Nat) := []
  /-- chunks that a `cput` has read, and what it has still to write of them, in walk order: address and bytes (R307) -/
  packed : Nat × List (Nat × List Byte) := (0, [])
  /-- its join is counted: what is left of it is a follow-on's block to place, or entries in the decoder FIFO -/
  joined : Bool := false
deriving DecidableEq, Repr

/-- A store-gate entry (R124). -/
inductive Gated where
  | store (x : Store)
  | swpost (off : Nat) (b : Word)
  | swadd (off n : Nat)
  | jset (j : Nat) (v : BitVec 32)
  | xfence
  | engine (op : Op)
deriving DecidableEq, Repr

/-- A publish-buffer entry: a 32-byte granule with its masked bytes, keyed 0-31 (R125). -/
structure Pub where
  place : Place
  data : Tab Byte
  /-- virtual addresses of the 64 KiB pages through which it was stored (R44) -/
  pages : List Nat
deriving DecidableEq, Repr

/-- A bank list of a core (R106, R108). -/
structure BankList where
  id : Nat
  off : Nat
  mask : Word
  /-- HBM stack, 0 to 7 -/
  stack : Nat
  j : Nat
  bundle : Nat
  count : Nat
  mv : Nat
  pasid : Nat
  /-- engines that have not ended the list -/
  left : Word
  started : Bool
  detached : Bool
  /-- it has ended, and has been counted, while its member was saved: the engine block keeps it with its error (R108) -/
  counted : Bool
  /-- error of the count (code, subcode) -/
  err : Option (Nat × Nat)
  /-- engines parked on a fault, and the record's slot -/
  parked : Word
  slot : Option Nat
  /-- `coreid` of each member of the gathering at release (R108) -/
  targets : List (Nat × Nat)
  gath : Nat
  rank : Nat
  /-- header and command words as they stood at release (R107) -/
  image : List Byte
deriving DecidableEq, Repr

/-- A stationary latch (R280): the rows' elements, each with its block scale, as they stand encoded in the source. -/
structure KLatch where
  fmt : Nat
  scfmt : Nat
  tqshift : Nat
  tscale : BitVec 32
  k : Nat
  rows : List (List Elt)
deriving DecidableEq, Repr

/-- An entry of the decoder FIFO and the number of the operation it belongs to (R316). -/
structure Entry where
  bits : Vec
  op : Nat
deriving DecidableEq, Repr

/-- A fault record, Table 18.3. -/
structure Record where
  code : Nat
  sub : Nat
  cls : Nat
  coreid : Nat
  whereAt : Nat
  bundle : Nat
  count : Nat
  port : Nat
  j : Nat
  progress : Nat
  mark : Nat
  addr : Nat
  detail : Nat
  aux : Nat
  time : Nat
  gathid : Nat
  ctxid : Nat
  /-- the operation or list the record is about -/
  op : Nat
deriving DecidableEq, Repr

/-- Presence of a folio (R358). -/
inductive Presence where
  | present
  | owed
  | absent
  | inFlight
deriving DecidableEq, Repr

structure FolioState where
  pres : Presence
  dirty : Bool
deriving DecidableEq, Repr

/-- The registers and rings, and the latch, that image bytes stand for which this module has not pushed: the manual gives no
layout (log entry 6). -/
opaque unknownArch : List Byte → Arch
opaque unknownLatch : List Byte → Option KLatch

/-- What a folio of Table 18.6 holds. -/
inductive Folio where
  | code (t : Tab (BitVec 512)) (fill : BitVec 512)
  | s0 (a : Arch)
  | s1 (a : Arch)
  | vec (t : Tab Vec)
  | tile (t : Tab Byte) (defs : Tab Bool)
  /-- a whole latch, in the first of its two folios; the second adds nothing -/
  | latch (k : Option KLatch)
  | tags (t : Tab Word)
  | scratch (t : Tab Byte)
deriving DecidableEq, Repr

/-- A location of a folio (Table 18.7). -/
structure Loc where
  kind : Nat
  node : Nat
  addr : Nat
deriving DecidableEq, Repr

/-- An image-map entry (Table 18.7). -/
structure MapEntry where
  addr : Nat
  digest : BitVec 32
  kind : Nat
  node : Nat
  core : Nat
deriving DecidableEq, Repr

def MapEntry.zero : MapEntry := { addr := 0, digest := 0, kind := 0, node := 0, core := 0 }

/-- A folio that a core still holds for a context that was pre-empted there (R358, OWED). -/
structure Held where
  gath : Nat
  rank : Nat
  folio : Nat
  data : Folio
  dirty : Bool
  /-- names the free bytes of its image (log entry 6) -/
  stamp : Nat
  /-- its push has started (R360) -/
  pushing : Bool
deriving DecidableEq, Repr

/-- A folio that this module has pushed, and the bytes that stand for it. -/
structure Kept where
  gath : Nat
  rank : Nat
  folio : Nat
  bytes : List Byte
  data : Folio
deriving DecidableEq, Repr

/-- The endpaper of a member (Table 18.5). -/
structure Endpaper where
  seqblk : Nat
  engblk : Nat
  ibase : Nat
  ikind : Nat
  inode : Nat
  gen : Nat
  /-- core at the last save -/
  coreid : Nat
  /-- 0 RUNNING, 1 SAVED, 2 FAULTED, 3 DEAD -/
  state : Nat
  /-- the policy core has set ibase, ikind and inode (R355) -/
  chosen : Bool
  map : Tab MapEntry
  /-- fault-record slots in use -/
  slots : Tab (Option Record)
deriving DecidableEq, Repr

def Endpaper.zero : Endpaper :=
  { seqblk := 0, engblk := 0, ibase := 0, ikind := 0, inode := 0, gen := 0, coreid := 0, state := 0, chosen := false, map := .empty, slots := .empty }

/-- Whether a core runs a member, and how (R329, R351, R235, R361). -/
inductive RunState where
  /-- no member -/
  | off
  /-- loaded, waiting for the release tick -/
  | loaded
  | running
  | faulted
  | halted
deriving DecidableEq, Repr

/-- Why the bundle at pc is frozen (Table 10.1). -/
inductive Freeze where
  | none
  | late
  | folio
  /-- a folio of another core, whose scratchpad the bundle reads (R20) -/
  | peer
  | queue
  | swwait
  | jwait
  | phase
  | xlt
  | stale
  | cow
  | dx
  | pacing
deriving DecidableEq, Repr

/-- Who the core works for (R185, R328). -/
structure Member where
  gath : Nat
  size : Nat
  rank : Nat
  jobidx : Nat
  ctx : Nat
  pasid : Nat
  /-- virtual address of the kernel image's bundles, and their number (R358) -/
  image : Nat
  bundles : Nat
deriving DecidableEq, Repr

def Member.zero : Member := { gath := 0, size := 0, rank := 0, jobidx := 0, ctx := 0, pasid := 0, image := 0, bundles := 0 }

/-- A core (R13). -/
structure Core where
  arch : Arch
  snap : Arch
  /-- the bundle at pc is a mark that has committed and taken its snapshot, and waits -/
  marked : Bool
  /-- scope of the barrier arrival that has not completed -/
  arrived : Option Nat
  /-- the barrier of the snapshot's phase bundle has completed (R133) -/
  phaseDone : Bool
  gate : List Gated
  pub : List Pub
  imem : Tab (BitVec 512)
  fill : BitVec 512
  scratch : Tab Byte
  tiles : Tab Byte
  defined : Tab Bool
  shape : Nat
  klatch : Tab (Option KLatch)
  joins : Tab (BitVec 32)
  ceStat : Word
  ops : List Op
  lists : List BankList
  fifo : List Entry
  /-- entries popped since the mark, oldest first (R318) -/
  popped : List Entry
  veDone : BitVec 32
  veMetric : Word
  /-- TID cache, most recently used first (R64) -/
  tids : List (Nat × List Byte)
  /-- shard runs' requests that no answer has come for: node, sequence number and TID, whatever became of the operation (R64) -/
  asked : List (Nat × Nat × Nat)
  /-- remaining µs of the watchdog (R236) -/
  wdog : Option Nat
  /-- marks, join and sync-word observations so far (R127) -/
  epoch : Nat
  /-- a pre-emption has stopped issue and waits for the engines to reach a granule boundary (R361) -/
  stopping : Bool
  /-- the folio, as core × 141 + number, that the bundle at pc waited for when a pre-emption stopped it, the part that waited, and its bundle and issue
  count: a pull failure found then is recorded (Table 18.11) -/
  stalled : Option (Nat × Nat × Nat × Nat)
  /-- which reading of the `energy` port comes next: rollbacks and departures so far (log entry 11) -/
  energy : Nat
  run : RunState
  exit : BitVec 32
  debugger : Bool
  debugHalt : Bool
  stepping : Bool
  powerGated : Bool
  paced : Bool
  freeze : Freeze
  /-- the folio, or the virtual address of the migrating or copy-on-write page, that the bundle at pc waits for (R47,
  R48, R358) -/
  waitVa : Option Nat
  /-- the part of the bundle at pc that waits, as a record names it (R354) -/
  waitAt : Nat
  folios : Tab FolioState
  held : List Held
  ep : Endpaper
  member : Member
deriving DecidableEq, Repr

/-- At kernel entry every folio but the instruction folios is PRESENT and dirty (R358). -/
def folioEntry (f : Nat) : FolioState := { pres := .present, dirty := decide (32 ≤ f) }

/-- A core before any kernel. -/
def Core.idle : Core :=
  { arch := .entry, snap := .entry, marked := false, arrived := none, phaseDone := false, gate := [], pub := [], imem := .empty, fill := 0,
    scratch := .empty, tiles := .empty, defined := .empty, shape := 0, klatch := .empty, joins := .empty, ceStat := 0, ops := [], lists := [],
    fifo := [], popped := [], veDone := 0, veMetric := 0, tids := [], asked := [], wdog := none, epoch := 0, stopping := false, stalled := none, energy := 0, run := .off, exit := 0, debugger := false,
    debugHalt := false, stepping := false, powerGated := false, paced := false, freeze := .none, waitVa := none, waitAt := 15, folios := .empty, held := [],
    ep := .zero, member := .zero }

/-- What a bank engine waits for (R108, R112, R358). -/
inductive BankWait where
  | none
  | bred
  | bsync
  | member
  | folio (core folio : Nat)
  | parked
  /-- a page that migrates, or, of a write, is to be duplicated -/
  | migrating (va : Nat) (write : Bool)
deriving DecidableEq, Repr

/-- A pending write of a bank engine, not yet performed (R114). -/
structure BankWrite where
  place : Place
  /-- virtual address of the 64 KiB page it was stored through (R44) -/
  page : Nat
  data : List Byte
deriving DecidableEq, Repr

/-- A bank engine (R104). -/
structure Bank where
  /-- xb0-xb3, 256 bytes each, keyed 256 × xb + byte -/
  xb : Tab Byte
  /-- acc lanes, FP32 patterns -/
  acc : Tab (BitVec 32)
  /-- the list being run: issuing core and list number -/
  list : Option (Nat × Nat)
  hdr : List Word
  cmds : List Word
  /-- index of the next command -/
  idx : Nat
  /-- acc as it stood on arrival at a BRED (R112) -/
  offer : Tab (BitVec 32)
  /-- (command index, partner mask) of BRED exchanges served -/
  arrived : Option Nat
  wait : BankWait
  writes : List BankWrite
  /-- lists queued: issuing core and list number, in arrival order (R107) -/
  queue : List (Nat × Nat)
deriving DecidableEq, Repr

def Bank.idle : Bank :=
  { xb := .empty, acc := .empty, list := none, hdr := [], cmds := [], idx := 0, offer := .empty, arrived := none, wait := .none, writes := [], queue := [] }

/-- A range of HBM whose map changed (R102): every byte of it not written since is undefined. -/
structure Scram where
  lo : Nat
  hi : Nat
  stamp : Nat
deriving DecidableEq, Repr

/-- Physical memory (Table 5.1): the cells written, and the ranges whose map changed. -/
structure Memory where
  cells : List Host.Cell
  scram : List Scram
deriving DecidableEq, Repr

/-- A PASID's binding (R27, R50, R53). -/
structure PasidBinding where
  root : Option Nat
  table : Nat
  tearing : Bool
deriving DecidableEq, Repr

def PasidBinding.none : PasidBinding := { root := Option.none, table := 0, tearing := false }

/-- A translation-cache entry of a die's agent (0-3) or of the hub (4) (R35, R44). -/
structure CacheEntry where
  agent : Nat
  pasid : Nat
  /-- first virtual address of the page -/
  base : Nat
  leaf : Word
  /-- a walk of the try in progress has faulted on it: it no longer serves, and goes with the try (R35) -/
  faulted : Bool := false
deriving DecidableEq, Repr

/-- A translation-control block (Table 2.9). -/
structure ControlBlock where
  lo : Word
  hi : Word
  ctl : Word
  err : Nat
  done : Bool
  busy : Bool
deriving DecidableEq, Repr

def ControlBlock.zero : ControlBlock := { lo := 0, hi := 0, ctl := 0, err := 0, done := false, busy := false }

/-- A shoot-down (R42): for a block's request `block` is its number; a shoot-down of the device itself has none. -/
structure Shoot where
  pasid : Nat
  all : Bool
  lo : Nat
  hi : Nat
  refresh : Bool
  block : Option Nat
  /-- the host's range, for an ATS invalidation (R52) -/
  ats : Option (Nat × Nat)
  /-- step 4 of a teardown of the PASID (R50) -/
  tear : Bool
  acked : List Nat
deriving DecidableEq, Repr

/-- A shard run held at this module as target (R66). -/
structure HeldRun where
  p : Packet
  /-- the core and operation of a run of this module itself -/
  own : Option (Nat × Nat)
deriving DecidableEq, Repr

/-- A queue control block (Table 16.2). -/
structure Qcb where
  state : Nat
  prio : Nat
  cur : Nat
  pasid : Nat
  queue : Nat
  m : Nat
  ring : Nat
  rd : Nat
  wr : Nat
  outst : Nat
  rej : Nat
  ecap : Nat
  /-- fetching stopped at a slot without valid, until the next notify (R334) -/
  stopped : Bool
  /-- round-robin stamp of the latest launch (R337) -/
  turn : Nat
  /-- energy debited to this queue in the window (R344) -/
  used : Nat
deriving DecidableEq, Repr

def Qcb.free : Qcb :=
  { state := 0, prio := 0, cur := 0, pasid := 0, queue := 0, m := 0, ring := 0, rd := 0, wr := 0, outst := 0, rej := 0, ecap := 0, stopped := false, turn := 0, used := 0 }

/-- A packet fetched from a queue and not yet completed (R334, R337). -/
structure QPacket where
  id : Nat
  slot : Nat
  pasid : Nat
  /-- header and body, eight words -/
  words : List Word
  /-- launched: running, waiting only for its work -/
  started : Bool
deriving DecidableEq, Repr

/-- The state of a gathering (R328 to R330). -/
inductive GathState where
  | waiting
  | loaded
  | running
  | saved
  | ended
deriving DecidableEq, Repr

/-- What a gathering completes: a packet, or a block of a job. -/
structure Owner where
  packet : Option Nat
  job : Option Nat
  block : Nat
deriving DecidableEq, Repr

/-- A gathering (R326, R328). -/
structure Gath where
  id : Nat
  state : GathState
  pasid : Nat
  ctx : Nat
  image : Nat
  n : Nat
  /-- cores by rank -/
  on : List Nat
  jobidx : Nat
  tick : Nat
  span : Bool
  /-- how many modules a tick launch names (R330) -/
  count : Nat
  /-- modules that it may span; from its release on, those whose READY it holds -/
  modules : List Nat
  estimate : Nat
  admitted : Bool
  owner : Owner
  args : List Byte
  jcb : Nat
  colophon : Nat
  flags : Nat
  /-- FABRIC-scope arrivals of other modules: module and number -/
  fabric : List (Nat × Nat)
  phases : Nat
deriving DecidableEq, Repr

/-- A block of a job (R339): its entry in the block table, its die, first index and instances, how many instances have
been started, and how many have ended. -/
structure Block where
  entry : Nat
  die : Nat
  first : Nat
  n : Nat
  started : Nat
  ended : Nat
deriving DecidableEq, Repr

/-- A job (R338). -/
structure Job where
  id : Nat
  pasid : Nat
  ctx : Nat
  jcb : Nat
  image : Nat
  /-- cores of an instance -/
  n : Nat
  args : List Byte
  estimate : Nat
  /-- what it completes: a packet, or a branch of a graph -/
  packet : Option Nat
  graph : Option (Nat × Nat)
  /-- next free entry of the block table -/
  entries : Nat
  blocks : List Block
  /-- ranges of voided entries, to be handed out again: first index and instances (R339) -/
  redo : List (Nat × Nat)
  flags : Nat
  /-- exit statuses other than 0: instance, rank, status -/
  exits : List (Nat × Nat × BitVec 32)
deriving DecidableEq, Repr

/-- A graph in execution (R343): its branches by number, each at a node. -/
structure Graph where
  id : Nat
  pasid : Nat
  packet : Nat
  colophon : Nat
  branches : List (Nat × Nat)
  /-- instances completed, flags and exit statuses of the jobs that have ended -/
  done : Nat
  flags : Nat
  exits : List (Nat × Nat × BitVec 32)
deriving DecidableEq, Repr

/-- The budget unit (R344, R395). -/
structure Budget where
  allowance : Nat
  nextAllowance : Nat
  left : Nat
  debt : Nat
  window : Nat
  empty : Bool
  pacing : Bool
deriving DecidableEq, Repr

/-- A saved member: the eager blocks and folio 0 (R357, R361); its map and records are in its endpaper. -/
structure Saved where
  gath : Nat
  rank : Nat
  member : Member
  coreid : Nat
  arch : Arch
  phaseDone : Bool
  shape : Nat
  joins : Tab (BitVec 32)
  ceStat : Word
  wdog : Option Nat
  ops : List Op
  lists : List BankList
  folio0 : Tab Byte
  veDone : BitVec 32
  veMetric : Word
  faulted : Bool
  halted : Bool
  exit : BitVec 32
  ep : Endpaper
  /-- folios whose pull was IN_FLIGHT at the halt and finishes after it, on core `coreid` (R361) -/
  pulls : List Nat
deriving DecidableEq, Repr

/-- One end of a flow (R381, R382): what this module sends to a node and receives from it. -/
structure Flow where
  seq : Nat
  /-- unacknowledged packets: packet, times sent, owning core and operation -/
  unacked : List (Packet × Nat × Nat × Nat)
  base : Nat
  bitmap : BitVec 64
deriving DecidableEq, Repr

def Flow.zero : Flow := { seq := 0, unacked := [], base := 0, bitmap := 0 }

/-- A circuit-table entry (R377). -/
structure Circuit where
  slots : BitVec 256
  target : Nat
  valid : Bool
deriving DecidableEq, Repr

def Circuit.none : Circuit := { slots := 0, target := 0, valid := false }

/-- A damaged flit in recovery (Table 21.2): how far it has got. -/
structure Damaged where
  lseq : Nat
  /-- as it came, with the stream that its slot belongs to -/
  flit : InFlit
  /-- the slot in which it came -/
  slot : Nat
  waitNo : Nat
  parity : Option (BitVec 128)
  /-- failed resends -/
  resends : Nat
deriving DecidableEq, Repr

/-- A packet being assembled (R373), from its HEAD: its payload bytes so far; whether a flit was lost, and the bytes that
came or were lost from there on (R379); the bytes whose granules have been performed. -/
structure Assembly where
  head : Packet
  got : List Byte
  broken : Bool
  skipped : Nat
  landed : Nat
deriving DecidableEq, Repr

/-- A place in a stream's reorder buffer (R378). -/
inductive LaneItem where
  /-- the damaged flit of this number -/
  | waits (lseq : Nat)
  /-- a flit, or LOST in its place (R379), and the slot in which it came, whose table routes it (R376) -/
  | got (f : InFlit) (slot : Nat)
deriving DecidableEq, Repr

/-- What a port holds of a stream of flits, one circuit's or one sprayed packet's: its reorder buffer, empty or from a damaged
flit on, and the packet being assembled. -/
structure Lane where
  items : List LaneItem
  part : Option Assembly
  /-- DATA flits still to come of a timetabled packet that the router passes on -/
  passing : Nat
  /-- slots in which flits of the stream have come that the router passes on: the circuit's own (R378) -/
  slots : List Nat := []
deriving DecidableEq, Repr

def Lane.empty : Lane := { items := [], part := none, passing := 0, slots := [] }

/-- One port's link (R374). -/
structure Link where
  txSeq : Nat
  /-- flits sent in the last 32 µs -/
  kept : List (Nat × BitVec 512)
  rxSeq : Nat
  damaged : List Damaged
  lanes : Tab Lane
  retraining : Bool
  /-- link control and resends (marked) that wait for a FREE or guard slot -/
  queue : List (Bool × BitVec 512)
  /-- flits that came on this port and are to be passed on, each with the slot in which it came and its stream (R373, R376) -/
  transit : List (Nat × Nat × BitVec 512)
  /-- the time of the latest flit sent: one flit a slot -/
  slotAt : Option Nat
  /-- flits this port has sent, latest last -/
  out : List (BitVec 512)
deriving DecidableEq, Repr

def Link.zero : Link := { txSeq := 0, kept := [], rxSeq := 0, damaged := [], lanes := .empty, retraining := false, queue := [], transit := [], slotAt := none, out := [] }

/-- A timetabled packet waiting for its circuit's injection slots (R378): flits still to send, owning core and operation. -/
structure Timetabled where
  circ : Nat
  core : Nat
  op : Nat
  p : Packet
  flits : List (BitVec 512)
deriving DecidableEq, Repr

/-- What a checkpoint with cut = 1 keeps of the control state, as its extra shard's bytes stand for it (R390, log entry 42). -/
structure Control where
  saved : List Saved
  gaths : List Gath
  qcbs : Tab Qcb
deriving DecidableEq, Repr

/-- A manifest slot of the NV module (R389). -/
structure Manifest where
  gen : Nat
  /-- the third of the module's space that holds its shards (log entry 42) -/
  area : Nat
  /-- 0 EMPTY, 1 VALID, 2 SUPERSEDED, 3 invalid content -/
  state : Nat
  /-- per shard: VA, length, NV offset, digest -/
  shards : List (Nat × Nat × Nat × List Byte)
  control : Option Control
deriving DecidableEq, Repr

def Manifest.empty : Manifest := { gen := 0, area := 0, state := 0, shards := [], control := none }

/-- A checkpoint in progress (R388). -/
structure Checkpoint where
  gen : Nat
  area : Nat
  pasid : Nat
  /-- VA, length, NV offset of each data shard -/
  shards : List (Nat × Nat × Nat)
  /-- length of the extra shard, which stands first -/
  extra : Nat
  control : Option Control
  /-- pages still to copy: virtual address, bytes -/
  pages : List (Nat × Nat)
  dsig : Nat
  colophon : Nat
  /-- 0 WRITING, 1 MANIFEST -/
  stage : Nat
  /-- the copier has set migrating in the leaf of the page that it reads, and waits for another module's bytes -/
  copying : Bool := false
deriving DecidableEq, Repr

/-- What the policy core is told of. -/
inductive Report where
  /-- an uncorrectable error of a 32-byte granule: stack, pseudo-channel and pcl, where it lies in HBM (R99) -/
  | ecc (granule : Nat) (home : Option (Nat × Nat × Nat))
  /-- an uncorrectable error of the host link (AER, R384) -/
  | link (code : Nat)
deriving DecidableEq, Repr

/-- The host's answer to an ATS translation request for a 64 KiB frame of a PASID (R384). -/
structure AtsAnswer where
  frame : Nat
  read : Bool
  write : Bool
deriving DecidableEq, Repr

/-- A global image (R157): its bytes and, unless the loader chooses it, its address; of a graph without `va=`, the offsets of the
address fields to relocate, and of the entry node (R398). -/
structure GlobalImage where
  bytes : List Byte
  va : Option Nat
  fields : List Nat
  entry : Nat
deriving DecidableEq, Repr

/-- What the host link brings to the host. -/
inductive HostMsg where
  /-- the address of a loaded image's entry node (R398) -/
  | loaded (va : Nat)
  /-- the completion of a read (R147) -/
  | data (d : List Byte)
  /-- an ATS invalidation completion: PASID and range (R52) -/
  | invalidated (pasid lo hi : Nat)
  /-- an interrupt for a management event (R384) -/
  | interrupt
  /-- the debugger of a core is told of a pre-emption (R364) -/
  | preempted (core : Nat)
deriving DecidableEq, Repr

/-- What the host does at the management region, and the answers of its ATS; the opcode table has no row for these. -/
inductive HostAct where
  /-- write the status word of control block 0 or 1, or (2) of the mailbox: `done` is W1C (R8, R43, R393) -/
  | status (unit : Nat) (v : Word)
  /-- write go with an op that Table 22.5 does not list -/
  | unknownCommand (op : Nat) (args : List Word)
  /-- write word `i` of the mailbox, op (with go) or an argument (Table 22.4) -/
  | mail (i : Nat) (v : Word)
  /-- read word `w` of a control block 0 or 1, or (2) of the mailbox -/
  | readBlock (unit w : Nat)
  /-- read word `w` of the queue control block in a slot (R331) -/
  | readQcb (slot w : Nat)
  /-- read a management counter -/
  | readCounter (n : Nat)
  /-- read region register 16 × stack + region (R101) -/
  | readRegion (k : Nat)
  /-- read the status word (R394) -/
  | readStatus
  /-- read `n` bytes of the NV module through the management region (Table 1.1, R388) -/
  | readNv (off n : Nat)
  /-- load a global image for a PASID (R157, R398) -/
  | load (pasid : Nat) (image : GlobalImage)
  /-- from now on the host's ATS answers this for a frame of a PASID -/
  | ats (pasid frame : Nat) (answer : Option AtsAnswer)
deriving DecidableEq, Repr

/-- What the policy core writes into a member's endpaper (R355, R368). -/
inductive PolicyAct where
  /-- ikind, inode and ibase of the member of rank `rank` -/
  | image (gath rank kind node base : Nat)
  /-- a map entry -/
  | entry (gath rank folio : Nat) (e : MapEntry)
deriving DecidableEq, Repr

/-- Which agent moves next. -/
inductive Act where
  /-- core `c` issues its next bundle -/
  | core (c : Nat)
  /-- bank engine `e` runs its next command -/
  | bank (e : Nat)
  /-- engine operation `id` of core `c` makes one unit of progress -/
  | eng (c id : Nat)
  /-- an event of the table happens -/
  | ev (i : Instr)
  /-- the fabric time counter advances by `n` (R375) -/
  | time (n : Nat)
  /-- the firmware goes on with the command that runs (R393) -/
  | firmware
  /-- a read of a stack corrects a soft error (R99) -/
  | softError (stack : Nat)
  | host (a : HostAct)
  | policy (a : PolicyAct)
deriving DecidableEq, Repr

/-- The module. -/
structure State where
  /-- which steps happen next, oldest first: the interleaving the manual leaves open, as data (log entry 1) -/
  agenda : List Act
  /-- the core whose bundle issues -/
  cur : Nat
  /-- the bank engine whose command runs -/
  eng : Nat
  /-- counter for tags and free values -/
  fresh : Nat
  module : Nat
  cores : Tab Core
  banks : Tab Bank
  mem : Memory
  host : Memory
  ecc : List Nat
  counters : Tab Nat
  regions : Tab Word
  newRegions : Tab (List Word)
  pasids : Tab PasidBinding
  caches : List CacheEntry
  blocks : Tab ControlBlock
  shoots : List Shoot
  /-- free frames, keyed 4 × PASID + size code (R49) -/
  pools : Tab (List Nat)
  /-- old frames of duplicated pages: page of a PASID, and its leaf before (R49) -/
  snapFrames : List (Nat × Word)
  /-- walks that have waited 10 ms for migrating: agent, PASID and 64 KiB page (R47) -/
  timedOut : List (Nat × Nat × Nat)
  /-- the host's ATS, keyed 2^36 × PASID + frame -/
  ats : Tab (Option AtsAnswer)
  runs : List HeldRun
  /-- runs decided at this module: requester's node, run, and the version of a SHARD_MOVED (R66) -/
  decided : List (Nat × Nat × Option Nat)
  /-- requests of the hub to other modules -/
  hubRuns : List HubRun
  /-- entries that the dies' agents have cached as targets: die, PASID, TID (R65) -/
  targets : List (Nat × Nat × Nat × List Byte)
  qcbs : Tab Qcb
  packets : List QPacket
  gaths : List Gath
  jobs : List Job
  graphs : List Graph
  /-- READY messages held: gathering and module (R330) -/
  readies : List (Nat × Nat)
  deadDies : List Nat
  budget : Budget
  saved : List Saved
  /-- what the bytes of pushed folios stand for, where the manual gives no layout; latest first -/
  vault : List Kept
  savePasid : Nat
  time : Nat
  members : List Nat
  domain : List Nat
  flows : Tab Flow
  circuits : Tab Circuit
  timetabled : List Timetabled
  /-- timetabled packets that have come whole and wait for a page or for the folio of their word -/
  landing : List Assembly
  slotTabs : Tab (List (BitVec 128))
  slotNext : Tab (List (BitVec 128))
  slotTime : Nat
  links : Tab Link
  apertures : Tab (Option Nat)
  slices : Tab (Option (Nat × Nat))
  windows : Tab (Option Nat)
  mailbox : Tab Word
  /-- op and arguments of the firmware command that runs (R393) -/
  command : Option (Nat × List Word)
  status : Word
  manifests : Tab Manifest
  checkpoint : Option Checkpoint
  policyLoaded : Bool
  /-- packets this module has sent, latest last: what the wires carry to other modules -/
  tx : List Packet
  /-- what the policy core has been told of, latest last -/
  reports : List Report
  /-- what the host link has brought to the host, latest last -/
  hostOut : List HostMsg
deriving DecidableEq, Repr

/-- Reasons the machine stops. -/
inductive Fault where
  /-- `step` raises it: the agenda names a step that is not well formed, for example a core beyond 383. Safe: no such
  step exists in the device. -/
  | illFormed
deriving DecidableEq, Repr

/-- Reasons an instruction has no meaning. -/
inductive Refusal where
  /-- an arm of `exec` raises it: the instruction is not modelled. Safe: nothing follows from it. -/
  | notModelled (mnemonic : String)
deriving DecidableEq, Repr

/-- Region register at reset: region 0 maps the whole stack INTERLEAVED (Table 5.2). -/
def regionReset (k : Nat) : Word := if k % 16 = 0 then 0x1FFC00 else 0

/-- The machine right after reset. -/
def State.reset : State :=
  { agenda := [], cur := 0, eng := 0, fresh := 0, module := 0, cores := .empty, banks := .empty, mem := { cells := [], scram := [] },
    host := { cells := [], scram := [] }, ecc := [], counters := .empty, regions := .empty, newRegions := .empty, pasids := .empty, caches := [],
    blocks := .empty, shoots := [], pools := .empty, snapFrames := [], timedOut := [], ats := .empty, runs := [], decided := [], hubRuns := [], targets := [], qcbs := .empty, packets := [], gaths := [],
    jobs := [], graphs := [], readies := [], deadDies := [], budget := { allowance := Config.windowBudget, nextAllowance := Config.windowBudget, left := Config.windowBudget, debt := 0, window := 0, empty := true, pacing := false },
    saved := [], vault := [], savePasid := 0, time := 0, members := [0], domain := [0], flows := .empty, circuits := .empty, timetabled := [], landing := [],
    slotTabs := .empty, slotNext := .empty, slotTime := 0, links := .empty, apertures := .empty, slices := .empty, windows := .empty,
    mailbox := .empty, command := none, status := 0, manifests := .empty, checkpoint := none, policyLoaded := false, tx := [], reports := [], hostOut := [] }

end Sys2Proof.Machine
end

