-- ==== Sys2Proof/Machine/Ops.lean ====
section
/-!
DEFINITION. The named operations over the state: the stops a bundle can meet, cores and their registers, memory at its
homes, the scratchpad, presence, fault records, taking a core fault (rollback) and the return from one, and the
parking of engine operations.
-/

namespace Sys2Proof.Machine

/-- Why a bundle, or one operation of it, does not go on: it faults, or it freezes before issue (R218, R351). -/
inductive Stop where
  | fault (f : CFault)
  /-- a fault whose record names an earlier bundle and its issue count: an unfinished `xlt`'s (R38) -/
  | faultAt (f : CFault) (bundle count : Nat)
  /-- freeze, with the folio or the virtual address waited for, and the part of the bundle that waits -/
  | freeze (why : Freeze) (arg whereAt : Nat)
  /-- one of the others, met behind walks that stand in the state (R29, R35) -/
  | behind (s : State) (e : Stop)
deriving DecidableEq, Repr

/-- What stops, without the state behind which it was met. -/
def Stop.bare : Stop → Stop
  | .behind _ e => e.bare
  | e => e

/-- The result of an operation that can stop. -/
abbrev Res (α : Type) := Except Stop α

def CFault.mk' (code sub whereAt : Nat) (addr : Nat) : CFault :=
  { code := code, sub := sub, whereAt := whereAt, addr := addr, detail := 0, aux := 0 }

/-- Name the part of the bundle that freezes, where nothing has named it. -/
def Stop.atPart (w : Nat) : Stop → Stop
  | .freeze why arg at' => .freeze why arg (if at' = 15 then w else at')
  | .behind s e => .behind s (e.atPart w)
  | e => e

def atPart {α : Type} (w : Nat) (x : Res α) : Res α := x.mapError (Stop.atPart w)

/-- What follows work that stands in `s`: a stop in it is met behind that work. -/
def upon {α : Type} (s : State) (x : Res α) : Res α := x.mapError (Stop.behind s)

/-- A fault with no address. -/
def stop (code sub whereAt : Nat) : Stop := .fault (CFault.mk' code sub whereAt 0)
def stopAt (code sub whereAt addr : Nat) : Stop := .fault (CFault.mk' code sub whereAt addr)

/-! ### Fault codes, Table 18.2 -/

def cIllegalBundle : Nat := 0x01
def cLoopOverflow : Nat := 0x04
def cLoopUnderflow : Nat := 0x05
def cCallOverflow : Nat := 0x06
def cRegionOverflow : Nat := 0x07
def cTranslate : Nat := 0x10
def cPermission : Nat := 0x11
def cHandleInvalid : Nat := 0x12
def cHandleRange : Nat := 0x13
def cTidInvalid : Nat := 0x14
def cShardMiss : Nat := 0x15
def cIllegalAddress : Nat := 0x16
def cIllegalMode : Nat := 0x17
def cTileUnconfigured : Nat := 0x20
def cOperandFault : Nat := 0x21
def cPullFail : Nat := 0x30
def cPushFail : Nat := 0x31
def cUnreachable : Nat := 0x40
def cTrap : Nat := 0x50
def cBreak : Nat := 0x51
def cWatchdog : Nat := 0x52
def cEngineError : Nat := 0x60

/-! ### Cores -/

def State.core (s : State) (c : Nat) : Core := s.cores.get .idle c

def State.setCore (s : State) (c : Nat) (k : Core) : State := { s with cores := s.cores.set c k }

def State.modCore (s : State) (c : Nat) (f : Core → Core) : State := s.setCore c (f (s.core c))

def State.modArch (s : State) (c : Nat) (f : Arch → Arch) : State := s.modCore c fun k => { k with arch := f k.arch }

/-- Die and quire of a core (R25). -/
def dieOf (c : Nat) : Nat := c / 96
def quireOf (c : Nat) : Nat := c / 12

/-- This module's fabric node of a die (R23). -/
def State.node (s : State) (die : Nat) : Nat := s.module * 4 + die

/-- A core that runs a member of gathering `g`. -/
def Core.runs (k : Core) (g : Nat) : Bool := k.run != .off && k.member.gath == g

/-- The cores of this module that run members of a gathering. -/
def State.membersOf (s : State) (g : Nat) : List Nat := (List.range Config.cores).filter fun c => (s.core c).runs g

/-! ### Registers -/

def Arch.setS (a : Arch) (n : Nat) (v : Word) : Arch := { a with s := a.s.put 0 n v }
def Arch.setP (a : Arch) (n : Nat) (v : Bool) : Arch := { a with p := a.p.put false n v }
def Arch.setV (a : Arch) (n : Nat) (v : Vec) : Arch := { a with v := a.v.put 0 n v }

def Val.zero : Val := { bits := 0, vector := false }
def Val.scalar (x : Word) : Val := { bits := x.setWidth 1024, vector := false }
def Val.vec (x : Vec) : Val := { bits := x, vector := true }

/-- Bits [63:0]. -/
def Val.lo (v : Val) : Word := v.bits.setWidth 64

/-- What a mode latch, `.bind` or configuration port holds at kernel entry (R239 to R241). -/
def cfgReset (p : Nat) : Word :=
  if p = 0x104 ∨ p = 0x107 ∨ p = 0x10A ∨ p = 0x10C then 0x90009 else if p = 0x10F ∨ p = 0x112 then 8 else 0

def Arch.latch (a : Arch) (p : Nat) : Val := a.lat.get .zero p
def Arch.config (a : Arch) (p : Nat) : Word := a.cfg.get (cfgReset p) p
def Arch.handle (a : Arch) (h : Nat) : Handle := a.handles.get .zero h
def Arch.stream (a : Arch) (n : Nat) : Stream := a.streams.get .zero n
def Arch.ring (a : Arch) (k : Nat) : Ring := a.rings.get .empty k
def Arch.result (a : Arch) (p : Nat) : Vec := a.res.get 0 p

def Arch.setLatch (a : Arch) (p : Nat) (v : Val) : Arch := { a with lat := a.lat.put .zero p v }
def Arch.setConfig (a : Arch) (p : Nat) (v : Word) : Arch := { a with cfg := a.cfg.put (cfgReset p) p v }
def Arch.setHandle (a : Arch) (n : Nat) (h : Handle) : Arch := { a with handles := a.handles.put .zero n h }
def Arch.setStream (a : Arch) (n : Nat) (x : Stream) : Arch := { a with streams := a.streams.put .zero n x }

/-- Add flags (R210). -/
def Arch.raise (a : Arch) (f : Word) : Arch := { a with fstat := fstatRaise a.fstat f }

def Core.join (k : Core) (j : Nat) : BitVec 32 := k.joins.get 0 j
def Core.setJoin (k : Core) (j : Nat) (v : BitVec 32) : Core := { k with joins := k.joins.put 0 j v }

/-! ### Memory at its homes (R97, R120) -/

def Memory.stampAt (m : Memory) (a : Nat) : Option Nat :=
  (m.scram.find? fun r => decide (r.lo ≤ a) && decide (a < r.hi)).map (·.stamp)

/-- What an address that nothing has written reads as (log entries 2 and 7). -/
def Memory.blank (m : Memory) (a : Nat) : Byte :=
  match m.stampAt a with
  | some t => Config.freeByte t a
  | none => 0

def Memory.read (m : Memory) (a : Nat) : Byte := cellGet m.cells (m.blank a) a

def Memory.write (m : Memory) (a : Nat) (b : Byte) : Memory :=
  if b = m.blank a then { m with cells := cellDrop m.cells a } else { m with cells := cellPut m.cells a b }

/-- The canonical form: addresses strictly rising, no cell equal to what its address reads as unlisted. -/
abbrev Memory.wf (m : Memory) : Prop := (cellRising m.cells 0 && m.cells.all fun c => c.2 != m.blank c.1) = true

/-- Both memories of a state are in canonical form. -/
def State.MemOk (s : State) : Prop := s.mem.wf ∧ s.host.wf

/-- The map of a range changed: its bytes are undefined until written (R102). -/
def Memory.scramble (m : Memory) (lo hi stamp : Nat) : Memory :=
  { cells := m.cells.filter fun c => decide (c.1 < lo) || decide (hi ≤ c.1), scram := { lo := lo, hi := hi, stamp := stamp } :: m.scram }

/-- Whether a memory kind's frame range of Table 5.1 holds the address. -/
def kindHolds (kind a : Nat) : Bool :=
  if kind = 0 ∨ kind = 1 then decide (a < 0x8000000000)
  else if kind = 2 then decide (0x10000000000 ≤ a) && decide (a < 0x20000000000)
  else if kind = 5 then decide (0x20000000000 ≤ a) && decide (a < 0x28000000000)
  else true

/-- A device address inside HBM, the second tier or the NV module. -/
def physMapped (a : Nat) : Bool := kindHolds 0 a || kindHolds 2 a || kindHolds 5 a

def State.byteAt (s : State) (p : Place) : Byte :=
  if p.host then s.host.read p.addr else if physMapped p.addr then s.mem.read p.addr else Config.holeByte p.addr

def Place.add (p : Place) (n : Nat) : Place := { p with addr := p.addr + n }

def State.readAt (s : State) (p : Place) (n : Nat) : List Byte := (List.range n).map fun i => s.byteAt (p.add i)

def State.read64 (s : State) (p : Place) : Word := BitVec.ofNat 64 (ofLeBytes (s.readAt p 8))
def State.read32 (s : State) (p : Place) : BitVec 32 := BitVec.ofNat 32 (ofLeBytes (s.readAt p 4))

/-- Write one byte at its home; a write to an unused physical address reaches no place (log entry 8). -/
def State.writeByte (s : State) (p : Place) (b : Byte) : State :=
  if p.host then { s with host := s.host.write p.addr b }
  else if physMapped p.addr then { s with mem := s.mem.write p.addr b }
  else s

def writeBytesFrom (p : Place) : List Byte → State → State
  | [], s => s
  | b :: r, s => writeBytesFrom (p.add 1) r (s.writeByte p b)

/-- Granules wholly inside [a, a + n): a write over a whole granule clears its ECC error (R99). -/
def eccAfter (ecc : List Nat) (a n : Nat) : List Nat := ecc.filter fun g => !(decide (a ≤ 32 * g) && decide (32 * g + 32 ≤ a + n))

def State.writeAt (s : State) (p : Place) (d : List Byte) : State :=
  let t := writeBytesFrom p d s
  if p.host then t else { t with ecc := eccAfter t.ecc p.addr d.length }

def State.write64 (s : State) (p : Place) (v : Word) : State := s.writeAt p (leBytes 8 v.toNat)
def State.write32 (s : State) (p : Place) (v : BitVec 32) : State := s.writeAt p (leBytes 4 v.toNat)

/-- Write masked bytes: pairs of an offset and a byte. -/
def writeMasked (p : Place) : List (Nat × Byte) → State → State
  | [], s => s
  | (o, b) :: r, s => writeMasked p r (s.writeByte (p.add o) b)

/-! ### Scratchpad (R18) -/

def Core.spad (k : Core) (off : Nat) : Byte := k.scratch.get 0 off

def Core.spadRead (k : Core) (off n : Nat) : List Byte := (List.range n).map fun i => k.spad (off + i)

def tabWrite (t : Tab Byte) (off : Nat) : List Byte → Tab Byte
  | [] => t
  | b :: r => tabWrite (t.put 0 off b) (off + 1) r

/-- Image folio number of a scratchpad offset (Table 18.6); folio 0 of the scratchpad is eager and has none. -/
def spadFolio (off : Nat) : Option Nat := if off < 0x1000 then none else some (61 + off / 0x1000)

/-- Folios of a scratchpad range. -/
def spadFolios (off n : Nat) : List Nat :=
  if n = 0 then [] else ((upto (off / 0x1000) ((off + n - 1) / 0x1000 - off / 0x1000 + 1)).filterMap fun f => if f = 0 then none else some (61 + f))

def Core.folio (k : Core) (f : Nat) : FolioState := k.folios.get (folioEntry f) f

def Core.setFolio (k : Core) (f : Nat) (x : FolioState) : Core := { k with folios := k.folios.set f x }

/-- A write sets the dirty bit (R358). -/
def Core.dirty (k : Core) (f : Nat) : Core :=
  if (k.folio f).dirty then k else k.setFolio f { (k.folio f) with dirty := true }

def Core.dirtyAll (k : Core) : List Nat → Core
  | [] => k
  | f :: r => (k.dirty f).dirtyAll r

def Core.spadWrite (k : Core) (off : Nat) (d : List Byte) : Core :=
  ({ k with scratch := tabWrite k.scratch off d }).dirtyAll (spadFolios off d.length)

def Core.spad64 (k : Core) (off : Nat) : Word := BitVec.ofNat 64 (ofLeBytes (k.spadRead off 8))
def Core.spad32 (k : Core) (off : Nat) : BitVec 32 := BitVec.ofNat 32 (ofLeBytes (k.spadRead off 4))

/-! ### Presence (R358) -/

/-- A core's own touch of a folio: the bundle freezes until it is PRESENT (Table 10.1). -/
def needFolio (k : Core) (f : Nat) : Res Unit :=
  match (k.folio f).pres with
  | .present => .ok ()
  | _ => .error (.freeze .folio f 15)

def needFolios (k : Core) : List Nat → Res Unit
  | [] => .ok ()
  | f :: r => (needFolio k f).bind fun _ => needFolios k r

/-- The touch of Table 18.9: an ABSENT folio starts a pull, an OWED one a push or a drop and then a pull. -/
def Core.touch (k : Core) (f : Nat) : Core :=
  match (k.folio f).pres with
  | .absent => k.setFolio f { pres := .inFlight, dirty := false }
  | .owed =>
    { (k.setFolio f { pres := .inFlight, dirty := false }) with
      held := (k.held.filter fun x => x.folio != f || x.dirty).map fun x => if x.folio = f then { x with pushing := true } else x }
  | _ => k

def Core.allPresent (k : Core) (fs : List Nat) : Bool := fs.all fun f => (k.folio f).pres == .present

def Core.touchAll (k : Core) : List Nat → Core
  | [] => k
  | f :: r => (k.touch f).touchAll r

/-! ### Fault records (R354) -/

def Record.zero : Record :=
  { code := 0, sub := 0, cls := 0, coreid := 0, whereAt := 0, bundle := 0, count := 0, port := 0, j := 0, progress := 0, mark := 0,
    addr := 0, detail := 0, aux := 0, time := 0, gathid := 0, ctxid := 0, op := 0 }

def Core.setSlot (k : Core) (n : Nat) (r : Option Record) : Core := { k with ep := { k.ep with slots := k.ep.slots.set n r } }
def Core.slot (k : Core) (n : Nat) : Option Record := k.ep.slots.get none n

/-- Whether an operation or a list is parked in a slot; an `mcast` takes the next slot too. -/
def Core.parkedIn (k : Core) (n : Nat) : Bool :=
  (k.ops.any fun o => o.st == .parked n || (o.port == 0x3A6 && decide (0 < n) && o.st == .parked (n - 1))) || k.lists.any fun l => l.slot == some n

/-- First free slot of 1 to 23 (R351). With none free, the record of an operation that has completed makes room. -/
def Core.freeSlot (k : Core) : Nat :=
  match (upto 1 23).find? fun n => (k.slot n).isNone with
  | some n => n
  | none => ((upto 1 23).find? fun n => !k.parkedIn n).getD 23

/-- First of two free consecutive slots, for an `mcast` (R353). -/
def Core.freePair (k : Core) : Nat :=
  match (upto 1 22).find? fun n => (k.slot n).isNone && (k.slot (n + 1)).isNone with
  | some n => n
  | none => ((upto 1 22).find? fun n => !k.parkedIn n && !k.parkedIn (n + 1)).getD 22

/-- The eight words of a record in memory, Table 18.3. -/
def Record.words (r : Record) : List Nat :=
  [fld r.code 56 + fld (r.sub % 2 ^ 16) 40 + fld r.cls 38 + fld r.coreid 29 + fld r.whereAt 12 + fld 1 11 + r.bundle,
   r.count,
   fld r.port 48 + fld r.j 44 + fld (r.progress % 2 ^ 33) 11 + r.mark,
   r.addr, r.detail, r.aux, r.time, fld r.gathid 32 + r.ctxid % 2 ^ 32]

/-! ### Taking a core fault, and the return from one -/

/-- Rollback (R350): the gate is discarded, the snapshot restored, popped DX entries go back to the head of the FIFO,
and an arrival at a barrier that has not completed is withdrawn. The mark's own commit is done. -/
def Core.rollback (k : Core) : Core :=
  { k with
    arch := k.snap, gate := [], fifo := k.popped ++ k.fifo, popped := [], marked := true, freeze := .none, waitVa := none, arrived := none,
    energy := k.energy + 1 }

/-- The record of a core fault (class 0): the faulting bundle and count, and the mark at which issue resumes. -/
def coreRecord (s : State) (c : Nat) (k : Core) (f : CFault) (bundle count : Nat) : Record :=
  { code := f.code, sub := f.sub, cls := 0, coreid := c, whereAt := f.whereAt, bundle := bundle, count := count, port := 0, j := 0, progress := 0,
    mark := k.snap.pc.toNat, addr := f.addr, detail := f.detail, aux := f.aux, time := s.time, gathid := k.member.gath, ctxid := k.member.ctx, op := 0 }

/-- The state word of the core's endpaper (Table 18.5). -/
def Core.epState (k : Core) (n : Nat) : Core := { k with ep := { k.ep with state := n } }

/-- A member that rolls back while it has arrived at a FABRIC barrier withdraws its module's arrival; a BARRIER packet that
has left stays sent (R133, log entry 28). -/
def withdrawFabric (s : State) (c : Nat) : State :=
  if (s.core c).arrived = some 4 then
    { s with gaths := s.gaths.map fun x => if x.id = (s.core c).member.gath then { x with fabric := x.fabric.filter fun a => a != (s.module, x.phases) } else x }
  else s

/-- Take a core fault (R350, R351): roll back, write slot 0, stop issuing in state FAULTED. -/
def takeFault (s : State) (c : Nat) (f : CFault) (bundle count : Nat) : State :=
  let k := s.core c
  (withdrawFabric s c).setCore c { (k.rollback.setSlot 0 (some (coreRecord s c k f bundle count))).epState 2 with run := .faulted }

/-- A fault at the bundle the core is about to issue. -/
def takeCoreFault (s : State) (c : Nat) (f : CFault) : State :=
  takeFault s c f (s.core c).arch.pc.toNat (s.core c).arch.count

/-- Freeze before issue (R217): nothing advances; an absent folio is pulled, at the core that holds it, and what is waited for is
named. -/
def takeFreeze (s : State) (c : Nat) (why : Freeze) (arg w : Nat) : State :=
  let s := if why = .peer then s.modCore (arg / 141) fun k => k.touch (arg % 141) else s
  s.modCore c fun k =>
    let k := if why = .folio then k.touch arg else k
    { k with freeze := why, waitAt := w, waitVa := if why = .stale ∨ why = .cow ∨ why = .xlt ∨ why = .folio ∨ why = .peer then some arg else none }

/-! ### Translation caches (R35) -/

def leafSize (e : Word) : Nat := bits e 11 8

/-- Bytes of a page by its size code (Table 2.3). -/
def pageBytes (size : Nat) : Nat := if size = 3 then 0x40000000 else if size = 2 then 0x200000 else 0x10000

def cacheDropPage (l : List CacheEntry) (agent pasid va : Nat) : List CacheEntry :=
  l.filter fun x => !(x.agent == agent && x.pasid == pasid && decide (x.base ≤ va) && decide (va < x.base + pageBytes (leafSize x.leaf)))

/-- First virtual address of a handle's page; the vpn is sign-extended from VA bit 56. -/
def Handle.va (h : Handle) : Nat := let v := h.vpn.toNat * 0x10000; if v < 2 ^ 56 then v else v + (2 ^ 64 - 2 ^ 57)

/-- A walk of a try has faulted on a cached leaf: it serves no more, and goes when the try is over (R35). -/
def markFaulted (s : State) (agent pasid va : Nat) : State :=
  { s with caches := s.caches.map fun x =>
      if x.agent = agent ∧ x.pasid = pasid ∧ x.base ≤ va ∧ va < x.base + pageBytes (leafSize x.leaf) then { x with faulted := true } else x }

/-- A die's cache drops a leaf that a walk has faulted on (R35). -/
def dropFaulted (s : State) (agent pasid va : Nat) : State := { s with caches := cacheDropPage s.caches agent pasid va }

/-- The policy core's resume after a core fault (R353): slot 0 is cleared and the core issues from the rolled-back
point. REGION_OVERFLOW is never resumed (R349). -/
def resumeCore (s : State) (c : Nat) : State :=
  let k := s.core c
  match k.slot 0 with
  | some r => if k.run = .faulted ∧ r.code ≠ cRegionOverflow then s.setCore c { (k.setSlot 0 none).epState 0 with run := .running } else s
  | none => s

/-! ### Results still due (R220) -/

/-- Result port of a bus (Table 8.13): sa va vb vc sf m0 m1, with SB on bus 1. -/
def busResult (bus : Nat) : Nat := 0x0B0 + bus

def Arch.addDue (a : Arch) (d : Due) : Arch := { a with due := a.due ++ [d] }

/-- A result that is known at issue, with the flags it sets when it falls due (R210). -/
def knownDue (a : Arch) (bus port lat : Nat) (v : Vec) (flags : Word) : Due :=
  { tag := 0, bus := bus, port := port, dueAt := a.count + lat, val := some v, flags := flags, req := .none, inst := none, bad := none,
    bundle := a.pc.toNat, count := a.count, epoch := 0, page := 0 }

/-- Deliver a known result after `lat` issued bundles. -/
def deliver (s : State) (c bus port lat : Nat) (v : Vec) (flags : Word) : State :=
  s.modArch c fun a => a.addDue (knownDue a bus port lat v flags)

/-! ### Engine operations -/

def Core.op? (k : Core) (id : Nat) : Option Op := k.ops.find? fun o => o.id == id

def Core.setOp (k : Core) (o : Op) : Core := { k with ops := k.ops.map fun x => if x.id = o.id then o else x }

def Core.dropOp (k : Core) (id : Nat) : Core := { k with ops := k.ops.filter fun x => x.id != id }

def Core.list? (k : Core) (id : Nat) : Option BankList := k.lists.find? fun l => l.id == id

def Core.setList (k : Core) (l : BankList) : Core := { k with lists := k.lists.map fun x => if x.id = l.id then l else x }

/-- Add 1 to a join counter, modulo 2^32 (R89). -/
def Core.countJoin (k : Core) (j : Nat) : Core := k.setJoin j (k.join j + 1)

/-- The record of an engine fault (class 1). -/
def opRecord (s : State) (c : Nat) (k : Core) (o : Op) (f : CFault) : Record :=
  { code := f.code, sub := f.sub, cls := 1, coreid := c, whereAt := o.mv, bundle := o.bundle, count := o.count, port := o.port, j := o.j,
    progress := o.prog, mark := 0, addr := f.addr, detail := f.detail, aux := f.aux, time := s.time, gathid := k.member.gath, ctxid := k.member.ctx, op := o.id }

/-- Failed members of an `mcast`, 12 bits per die (Table 18.4). -/
def mcastMask (failed : List (Nat × Nat × Nat)) : Nat := (List.range 48).foldl (fun m i => if failed.any (fun f => f.1 == i) then m + 2 ^ i else m) 0

/-- Word `w` of the continuation slot's cause bytes (Table 18.4). -/
def mcastWord (failed : List (Nat × Nat × Nat)) (w : Nat) : Nat :=
  ofLeBytes ((List.range 8).map fun i => match failed.find? fun f => f.1 == 8 * w + i with | some f => BitVec.ofNat 8 f.2.1 | none => 0)

/-- Continuation slot of an `mcast` record (class 3). -/
def mcastContinuation (s : State) (c : Nat) (k : Core) (o : Op) (f : CFault) : Record :=
  let w := mcastWord o.failed
  { opRecord s c k o f with
    cls := 3, count := w 0, port := w 1 / 2 ^ 48, j := w 1 / 2 ^ 44 % 16, progress := w 1 / 2 ^ 11 % 2 ^ 33, mark := w 1 % 2 ^ 11, addr := w 2, detail := w 3, aux := w 4, time := w 5 }

/-- Write the record of an engine operation: the first free slot of 1 to 23, or two consecutive ones for an `mcast`
(R351, R353), whose words are those of its own row of Table 18.4 whatever its cause (R305). DEDUCED (log entry 64). -/
def recordOp (s : State) (c : Nat) (o : Op) (f : CFault) : State × Nat :=
  let k := s.core c
  if o.port = 0x3A6 then
    let n := k.freePair
    let r := { opRecord s c k o f with addr := 0, detail := 0, aux := mcastMask o.failed }
    (s.setCore c ((k.setSlot n (some r)).setSlot (n + 1) (some (mcastContinuation s c k o f))), n)
  else (s.setCore c (k.setSlot k.freeSlot (some (opRecord s c k o f))), k.freeSlot)

/-- The record of a decode error (R89, R308): its progress field names the group, chunk or entry at fault. -/
def noteDecodeError (s : State) (c : Nat) (o : Op) (place : Nat) : State :=
  (recordOp s c { o with prog := place } (CFault.mk' cEngineError 38 15 0)).1

def Op.isParked (o : Op) : Bool := match o.st with | .parked _ => true | _ => false

/-- An ME operation: also what a follow-on block describes, whatever its port field names (R294). -/
def Op.isMe (o : Op) : Bool := isMeTrig o.port || o.block.isSome

/-- The engine of an operation, numbered as `engineOf` numbers them. -/
def Op.engine (o : Op) : Nat := if o.isMe then 1 else engineOf o.port

/-- Older operations of the same engine that are still in its queue. -/
def Core.olderOps (k : Core) (o : Op) : List Op := (k.ops.takeWhile fun x => x.id != o.id).filter fun x => x.engine == o.engine

/-- An ME operation that parks fetches its group again after a resume (R292). -/
def Op.forget (o : Op) : Op := if o.isMe && o.port != 0x390 then { o with runs := [], memo := [], fetched := [] } else o

/-- A latch is undefined from here on: its two folios hold nothing that was saved before (R280). -/
def Core.loseLatch (k : Core) (n : Nat) : Core :=
  (({ k with klatch := k.klatch.set n none }).setFolio (52 + 2 * n) { pres := .present, dirty := true }).setFolio (53 + 2 * n) { pres := .present, dirty := true }

/-- Park one engine operation on a fault (R351). A `klatch` leaves its latch undefined (R280), which an older operation does not
see (R283): of one that is parked before its turn the latch is lost when it runs, or is cancelled. -/
def parkOp (s : State) (c : Nat) (o : Op) (f : CFault) : State :=
  let r := recordOp s c o f
  r.1.modCore c fun k =>
    let k := if o.port = 0x384 ∧ k.olderOps o = [] then k.loseLatch (bits o.b 1 0) else k
    k.setOp { o.forget with st := .parked r.2, waiting := false, want := [] }

end Sys2Proof.Machine
end

