-- ==== Sys2Proof/Machine/Flit.lean ====
section
/-!
DEFINITION. Flits (R373, R380): the packet header of Table 21.4, the flits of a packet, and the Reed-Solomon
code of link recovery (R374).
-/

namespace Sys2Proof.Machine

/-! ### Flits (Table 21.1) -/

def fIdle : Nat := 0
def fHead : Nat := 1
def fData : Nat := 2
def fVoid : Nat := 3
def fSupp : Nat := 4
def fLreq : Nat := 5
def fLost : Nat := 6

def flitType (f : BitVec 512) : Nat := bits f 479 476
def flitLseq (f : BitVec 512) : Nat := bits f 475 464
def flitBody (f : BitVec 512) : BitVec 448 := f.extractLsb' 0 448
def flitCrc (f : BitVec 512) : Nat := bits f 511 480

/-- Bytes 0-59. -/
def flitCovered (f : BitVec 512) : List Byte := leBytes 60 f.toNat

def crcOk (f : BitVec 512) : Bool := (crc32 (flitCovered f)).toNat == flitCrc f

def mkFlit (type lseq : Nat) (body : BitVec 448) : BitVec 512 :=
  let low := body.toNat + fld (lseq % 4096) 464 + fld type 476
  BitVec.ofNat 512 (low + fld (crc32 (leBytes 60 low)).toNat 480)

/-! ### Headers (Table 21.4) -/

def headerBody (p : Packet) : BitVec 448 :=
  BitVec.ofNat 448
    (fld p.operand.toNat 142 + fld p.cmp.toNat 78 + fld p.aop.toNat 207 + fld (if p.w32 then 1 else 0) 206 + fld p.swcore.toNat 231 + fld p.sw.toNat 212 +
     fld (if p.swv then 1 else 0) 211 + fld p.tid.toNat 240 + fld p.mapver.toNat 252 + fld p.va.toNat 284 + fld p.fseq.toNat 341 + fld p.len1.toNat 373 +
     fld p.pasid.toNat 385 + fld p.src.toNat 405 + fld p.dst.toNat 420 + fld p.circ.toNat 435 + fld (if p.timetabled then 1 else 0) 443 + fld p.op.toNat 444)

def packetOfHeader (b : BitVec 448) : Packet :=
  { op := b.extractLsb' 444 4, timetabled := bit b 443, circ := b.extractLsb' 435 8, dst := b.extractLsb' 420 15, src := b.extractLsb' 405 15,
    pasid := b.extractLsb' 385 20, len1 := b.extractLsb' 373 12, fseq := b.extractLsb' 341 32, va := b.extractLsb' 284 57, mapver := b.extractLsb' 252 32,
    tid := b.extractLsb' 240 12, swcore := b.extractLsb' 231 9, sw := b.extractLsb' 212 19, swv := bit b 211, aop := b.extractLsb' 207 4, w32 := bit b 206,
    operand := b.extractLsb' 142 64, cmp := b.extractLsb' 78 64, data := [], run := none, gath := 0 }

def Packet.len (p : Packet) : Nat := p.len1.toNat + 1

/-- Packets that carry payload: WRITE and RDATA. -/
def hasPayload (op : BitVec 4) : Bool := op == 1 || op == 3

/-- The payload in 56-byte bodies, the last one zero-padded. -/
def dataFlits : Nat → List Byte → List (BitVec 512)
  | 0, _ => []
  | n + 1, d => mkFlit fData 0 (BitVec.ofNat 448 (ofLeBytes (d.take 56))) :: dataFlits n (d.drop 56)

/-- The flits of a packet, link sequence numbers not yet given. -/
def packetFlits (p : Packet) : List (BitVec 512) :=
  mkFlit fHead 0 (headerBody p) :: (if hasPayload p.op then dataFlits ((p.data.length + 55) / 56) p.data else [])

/-- Number a flit as its link does. -/
def numberFlit (f : BitVec 512) (lseq : Nat) : BitVec 512 := mkFlit (flitType f) lseq (flitBody f)

/-! ### Reed-Solomon (R374) -/

/-- Product in GF(2^8) modulo x^8 + x^4 + x^3 + x^2 + 1, a bit of `b` at a time. -/
def gfMulLoop : Nat → Nat → Nat → Nat → Nat
  | 0, _, _, r => r
  | n + 1, a, b, r => gfMulLoop n (Nat.xor (2 * a) (a / 128 * 0x11D)) (b / 2) (Nat.xor r (b % 2 * a))

def gfMul (a b : Nat) : Nat := gfMulLoop 8 a b 0

def gfPow : Nat → Nat → Nat
  | _, 0 => 1
  | a, n + 1 => gfMul a (gfPow a n)

/-- Product of the squares a^2, a^4, … of a. -/
def gfSquares : Nat → Nat → Nat → Nat
  | 0, _, r => r
  | n + 1, a, r => let b := gfMul a a; gfSquares n b (gfMul r b)

/-- Inverse: a^254, the product of a^2 to a^128. -/
def gfInv (a : Nat) : Nat := gfSquares 7 a 1

def polyScale (c : Nat) (p : List Nat) : List Nat := p.map (gfMul c)

def polyAdd : List Nat → List Nat → List Nat
  | [], q => q
  | p, [] => p
  | a :: p, b :: q => Nat.xor a b :: polyAdd p q

/-- Product of polynomials, lowest coefficient first. -/
def polyMul : List Nat → List Nat → List Nat
  | [], _ => []
  | a :: p, q => polyAdd (polyScale a q) (0 :: polyMul p q)

/-- Generator of 32 roots α^0 to α^31. -/
def rsGenerator : List Nat := (List.range 32).foldl (fun g i => polyMul g [gfPow 2 i, 1]) [1]

/-- Divide out one leading coefficient: `rem` is the remainder register of 32 coefficients, highest first. -/
def rsStep (g : List Nat) (rem : List Nat) (b : Nat) : List Nat :=
  let fb := Nat.xor b (rem.headD 0)
  polyAdd (rem.drop 1 ++ [0]) (polyScale fb g)

/-- The 32 parity bytes of a 64-byte message, first byte the highest coefficient. -/
def rsParity (msg : List Byte) : List Byte :=
  let g := (rsGenerator.take 32).reverse
  (msg.foldl (fun r b => rsStep g r b.toNat) (List.replicate 32 0)).map (BitVec.ofNat 8)

/-- Value of a codeword (highest coefficient first) at a point. -/
def rsEval (w : List Nat) (x : Nat) : Nat := w.foldl (fun a c => Nat.xor (gfMul a x) c) 0

def rsSyndromes (w : List Nat) : List Nat := (List.range 32).map fun i => rsEval w (gfPow 2 i)

/-- Berlekamp-Massey over the syndromes from an erasure locator: locator, previous, length, shift, discrepancy. -/
def rsMassey (syn : List Nat) : Nat → Nat → List Nat → List Nat → Nat → Nat → Nat → List Nat
  | 0, _, c, _, _, _, _ => c
  | f + 1, n, c, b, l, m, d0 =>
    let d := ((List.range (l + 1)).foldl (fun a i => Nat.xor a (gfMul (c.getD i 0) (syn.getD (n - i) 0))) 0)
    if d = 0 then rsMassey syn f (n + 1) c b l (m + 1) d0
    else
      let t := polyAdd c (List.replicate m 0 ++ polyScale (gfMul d (gfInv d0)) b)
      if 2 * l ≤ n then rsMassey syn f (n + 1) t c (n + 1 - l) 1 d else rsMassey syn f (n + 1) t b l (m + 1) d0

def polyEval (p : List Nat) (x : Nat) : Nat := p.foldr (fun c a => Nat.xor c (gfMul a x)) 0

/-- Modified syndromes with the erased positions divided out (Forney), positions counted from the last byte. -/
def rsErase (pos : List Nat) : List Nat := pos.foldl (fun p i => polyMul p [1, gfPow 2 i]) [1]

/-- Correct a 96-byte word whose positions `pos` (powers of α) are erased. -/
def rsCorrect (w : List Nat) (pos : List Nat) : List Nat :=
  let syn := rsSyndromes w
  let era := rsErase pos
  let mod := (polyMul syn era).take 32
  let k := pos.length
  let loc := rsMassey (mod.drop k) (32 - k) 0 [1] [1] 0 1 1
  let full := polyMul loc era
  let omega := (polyMul syn full).take 32
  let deriv := (List.range full.length).map fun i => if i % 2 = 0 then full.getD (i + 1) 0 else 0
  let n := w.length
  (List.range n).map fun j =>
    let i := n - 1 - j
    let x := gfPow 2 i
    let xi := gfInv x
    let v := w.getD j 0
    if polyEval full xi = 0 then
      let den := polyEval deriv xi
      if den = 0 then v else Nat.xor v (gfMul x (gfMul (polyEval omega xi) (gfInv den)))
    else v

/-- Decode the 64 flit bytes with parity bytes 0-15 and, if they have come, 16-31; missing ones are erasures. -/
def rsDecode (flit : List Byte) (lo : List Byte) (hi : Option (List Byte)) : List Byte :=
  let w := flit.map (·.toNat) ++ lo.map (·.toNat) ++ (match hi with | some h => h.map (·.toNat) | none => List.replicate 16 0)
  let pos := match hi with | some _ => [] | none => List.range 16
  ((rsCorrect w pos).take 64).map (BitVec.ofNat 8)

end Sys2Proof.Machine
end

