-- ==== Sys2Proof/Machine/Formats.lean ====
section
/-!
DEFINITION. Number formats and exact arithmetic (spec/09): element formats, exact values, Round, Sat, the stochastic
draw, the group sums of the matrix engine and the trellis windows. Every computation is exact on integers and narrows
once at its end.
-/

namespace Sys2Proof.Machine

/-- An exact finite value: (-1)^neg × n / d × 2^e. Zero keeps its sign. -/
structure Ex where
  neg : Bool
  n : Nat
  d : Nat
  e : Int
deriving DecidableEq, Repr

/-- A value of a format: NaN, an infinity or a finite value. -/
inductive Num where
  | nan
  | inf (neg : Bool)
  | fin (x : Ex)
deriving DecidableEq, Repr

/-- A result with the flags it sets. -/
structure Flagged (α : Type) where
  val : α
  flags : Word
deriving Repr

def Num.zero : Num := .fin { neg := false, n := 0, d := 1, e := 0 }

def Num.ofInt (x : Int) : Num := .fin { neg := decide (x < 0), n := x.natAbs, d := 1, e := 0 }

def Num.ofDyadic (neg : Bool) (m : Nat) (e : Int) : Num := .fin { neg := neg, n := m, d := 1, e := e }

/-- A floating format of Table 9.2. -/
structure FloatFmt where
  width : Nat
  expBits : Nat
  fracBits : Nat
  bias : Int
  /-- largest finite value, maxM × 2^maxE -/
  maxM : Nat
  maxE : Int
  hasInf : Bool
  /-- canonical NaN; 0 for the format that has none -/
  nan : Nat
  hasNan : Bool
deriving DecidableEq, Repr

def fp64 : FloatFmt := { width := 64, expBits := 11, fracBits := 52, bias := 1023, maxM := 2 ^ 53 - 1, maxE := 971, hasInf := true, nan := 0x7FF8000000000000, hasNan := true }
def fp32 : FloatFmt := { width := 32, expBits := 8, fracBits := 23, bias := 127, maxM := 2 ^ 24 - 1, maxE := 104, hasInf := true, nan := 0x7FC00000, hasNan := true }
def bf16 : FloatFmt := { width := 16, expBits := 8, fracBits := 7, bias := 127, maxM := 255, maxE := 120, hasInf := true, nan := 0x7FC0, hasNan := true }
def fp16 : FloatFmt := { width := 16, expBits := 5, fracBits := 10, bias := 15, maxM := 2047, maxE := 5, hasInf := true, nan := 0x7E00, hasNan := true }
def e4m3 : FloatFmt := { width := 8, expBits := 4, fracBits := 3, bias := 7, maxM := 14, maxE := 5, hasInf := false, nan := 0x7F, hasNan := true }
def e5m2 : FloatFmt := { width := 8, expBits := 5, fracBits := 2, bias := 15, maxM := 7, maxE := 13, hasInf := true, nan := 0x7E, hasNan := true }
def e2m1 : FloatFmt := { width := 4, expBits := 2, fracBits := 1, bias := 1, maxM := 3, maxE := 1, hasInf := false, nan := 0, hasNan := false }

/-- Format codes, Table 9.1. -/
def cInt8 : Nat := 0x00
def cUint8 : Nat := 0x01
def cInt16 : Nat := 0x02
def cUint16 : Nat := 0x03
def cInt32 : Nat := 0x04
def cUint32 : Nat := 0x05
def cInt64 : Nat := 0x06
def cInt4 : Nat := 0x07
def cFp64 : Nat := 0x08
def cFp32 : Nat := 0x09
def cBf16 : Nat := 0x0A
def cFp16 : Nat := 0x0B
def cE4m3 : Nat := 0x0C
def cE5m2 : Nat := 0x0D
def cE2m1 : Nat := 0x0E
def cTern : Nat := 0x0F
def cTqg : Nat := 0x10
def cTqt : Nat := 0x11
def cX34 : Nat := 0x12
def cE8m0 : Nat := 0x13
def cUe4m3 : Nat := 0x14

/-- A code that is X34 or reserved (R192). -/
def badCode (c : Nat) : Bool := c == cX34 || decide (cUe4m3 < c)

/-- The floating format of a code. -/
def floatFmt (c : Nat) : Option FloatFmt :=
  if c = cFp64 then some fp64 else if c = cFp32 then some fp32 else if c = cBf16 then some bf16 else if c = cFp16 then some fp16
  else if c = cE4m3 then some e4m3 else if c = cE5m2 then some e5m2 else if c = cE2m1 then some e2m1 else none

/-- Bits of an element, Table 9.1; 0 for the trellis formats, which have no fixed width. -/
def fmtBits (c : Nat) : Nat :=
  if c = cInt8 ∨ c = cUint8 ∨ c = cE4m3 ∨ c = cE5m2 ∨ c = cE8m0 ∨ c = cUe4m3 then 8
  else if c = cInt16 ∨ c = cUint16 ∨ c = cBf16 ∨ c = cFp16 then 16
  else if c = cInt32 ∨ c = cUint32 ∨ c = cFp32 then 32
  else if c = cInt64 ∨ c = cFp64 then 64
  else if c = cInt4 ∨ c = cE2m1 then 4
  else if c = cTern then 2
  else 0

def isFloat (c : Nat) : Bool := (floatFmt c).isSome
/-- Integer codes with a sign. -/
def isSignedInt (c : Nat) : Bool := c == cInt8 || c == cInt16 || c == cInt32 || c == cInt64 || c == cInt4
def isUnsignedInt (c : Nat) : Bool := c == cUint8 || c == cUint16 || c == cUint32
def isInt (c : Nat) : Bool := isSignedInt c || isUnsignedInt c

/-- The value of a floating pattern (R193, R194). -/
def FloatFmt.decode (f : FloatFmt) (x : Nat) : Num :=
  let neg := (x >>> (f.width - 1)) % 2 == 1
  let ex := (x >>> f.fracBits) % 2 ^ f.expBits
  let fr := x % 2 ^ f.fracBits
  let top := 2 ^ f.expBits - 1
  if f.hasInf && ex == top then (if fr = 0 then .inf neg else .nan)
  else if f.hasNan && !f.hasInf && ex == top && fr == 2 ^ f.fracBits - 1 then .nan
  else if ex = 0 then .ofDyadic neg fr (1 - f.bias - f.fracBits)
  else .ofDyadic neg (2 ^ f.fracBits + fr) ((ex : Int) - f.bias - f.fracBits)

/-- A TERN code (R196). -/
def ternValue (x : Nat) : Int := if x % 4 = 1 then 1 else if x % 4 = 3 then -1 else 0

/-- A scale byte under E8M0 (`ue = false`) or UE4M3 (R197). -/
def scaleValue (ue : Bool) (x : Nat) : Num :=
  let x := x % 256
  if ue then (if x ≥ 0x7F then .nan else e4m3.decode x)
  else (if x = 0xFF then .nan else .ofDyadic false 1 ((x : Int) - 127))

/-- The value of an element of a fixed-width format. -/
def elemValue (c x : Nat) : Num :=
  match floatFmt c with
  | some f => f.decode x
  | none =>
    if c = cTern then .ofInt (ternValue x)
    else if c = cE8m0 then scaleValue false x
    else if c = cUe4m3 then scaleValue true x
    else if isSignedInt c then .ofInt (signed (fmtBits c) x)
    else .ofInt ((x % 2 ^ fmtBits c : Nat) : Int)

/-! ### Exact operations -/

def Ex.isZero (x : Ex) : Bool := x.n == 0

/-- Numerator scaled to exponent `e ≤ x.e`. -/
def Ex.at (x : Ex) (e : Int) : Nat := x.n <<< (x.e - e).toNat

def Ex.neg' (x : Ex) : Ex := { x with neg := !x.neg }

/-- The sign of an exact zero sum of two values (R201): kept when both are zeros of one sign, else -0 only under RDN. -/
def zeroSign (a b : Bool) (bothZero : Bool) (rm : Nat) : Bool := if bothZero && a == b then a else rm == 3

def Ex.add (x y : Ex) (rm : Nat) : Ex :=
  let e := min x.e y.e
  let a : Int := ((x.at e * y.d : Nat) : Int)
  let b : Int := ((y.at e * x.d : Nat) : Int)
  let s := (if x.neg then -a else a) + (if y.neg then -b else b)
  { neg := if s = 0 then zeroSign x.neg y.neg (x.isZero && y.isZero) rm else decide (s < 0), n := s.natAbs, d := x.d * y.d, e := e }

def Ex.mul (x y : Ex) : Ex := { neg := x.neg != y.neg, n := x.n * y.n, d := x.d * y.d, e := x.e + y.e }

/-- Quotient by a non-zero value. -/
def Ex.div (x y : Ex) : Ex := { neg := x.neg != y.neg, n := x.n * y.d, d := x.d * y.n, e := x.e - y.e }

/-- Compare exact values: -1, 0 or 1; zeros of both signs are equal. -/
def Ex.cmp (x y : Ex) : Int :=
  let e := min x.e y.e
  let a : Int := ((x.at e * y.d : Nat) : Int)
  let b : Int := ((y.at e * x.d : Nat) : Int)
  let s := (if x.neg then -a else a) - (if y.neg then -b else b)
  if s < 0 then -1 else if s = 0 then 0 else 1

def Num.neg : Num → Num
  | .nan => .nan
  | .inf s => .inf (!s)
  | .fin x => .fin x.neg'

def Num.isNan : Num → Bool
  | .nan => true
  | _ => false

def Num.isInf : Num → Bool
  | .inf _ => true
  | _ => false

def Num.isZero : Num → Bool
  | .fin x => x.isZero
  | _ => false

def Num.signBit : Num → Bool
  | .nan => false
  | .inf s => s
  | .fin x => x.neg

/-- A sum: ∞ - ∞ is NaN and invalid (R246). -/
def Num.add (a b : Num) (rm : Nat) : Flagged Num :=
  match a, b with
  | .nan, _ => ⟨.nan, 0⟩
  | _, .nan => ⟨.nan, 0⟩
  | .inf s, .inf t => if s = t then ⟨.inf s, 0⟩ else ⟨.nan, flagNV⟩
  | .inf s, .fin _ => ⟨.inf s, 0⟩
  | .fin _, .inf t => ⟨.inf t, 0⟩
  | .fin x, .fin y => ⟨.fin (x.add y rm), 0⟩

/-- A product: 0 × ∞ is NaN and invalid (R246). -/
def Num.mul (a b : Num) : Flagged Num :=
  match a, b with
  | .nan, _ => ⟨.nan, 0⟩
  | _, .nan => ⟨.nan, 0⟩
  | .inf s, .inf t => ⟨.inf (s != t), 0⟩
  | .inf s, .fin y => if y.isZero then ⟨.nan, flagNV⟩ else ⟨.inf (s != y.neg), 0⟩
  | .fin x, .inf t => if x.isZero then ⟨.nan, flagNV⟩ else ⟨.inf (x.neg != t), 0⟩
  | .fin x, .fin y => ⟨.fin (x.mul y), 0⟩

/-- A quotient (R246): a finite non-zero value by zero gives ∞ and DZ; 0 ÷ 0 and ∞ ÷ ∞ are invalid. -/
def Num.div (a b : Num) : Flagged Num :=
  match a, b with
  | .nan, _ => ⟨.nan, 0⟩
  | _, .nan => ⟨.nan, 0⟩
  | .inf _, .inf _ => ⟨.nan, flagNV⟩
  | .inf s, .fin y => ⟨.inf (s != y.neg), 0⟩
  | .fin x, .inf t => ⟨.fin { neg := x.neg != t, n := 0, d := 1, e := 0 }, 0⟩
  | .fin x, .fin y =>
    if y.isZero then (if x.isZero then ⟨.nan, flagNV⟩ else ⟨.inf (x.neg != y.neg), flagDZ⟩) else ⟨.fin (x.div y), 0⟩

/-- A × B + C, exact; infinities of the product count as in a sum (R246). -/
def Num.fma (a b c : Num) (rm : Nat) : Flagged Num :=
  if a.isNan || b.isNan || c.isNan then ⟨.nan, 0⟩
  else
    let p := a.mul b
    let s := p.val.add c rm
    ⟨s.val, p.flags ||| s.flags⟩

/-- Order of two values that are not NaN: -1, 0 or 1. -/
def Num.cmp (a b : Num) : Int :=
  match a, b with
  | .inf s, .inf t => if s = t then 0 else if s then -1 else 1
  | .inf s, _ => if s then -1 else 1
  | _, .inf t => if t then 1 else -1
  | .fin x, .fin y => x.cmp y
  | _, _ => 0

/-! ### Rounding -/

/-- floor(log2 (n / d)) for n, d > 0. -/
def floorLog2 (n d : Nat) : Int :=
  let l : Int := (n.log2 : Int) - (d.log2 : Int)
  let ge := if l ≥ 0 then decide (d <<< l.toNat ≤ n) else decide (d ≤ n <<< (-l).toNat)
  if ge then l else l - 1

/-- floor(log2 |x|) for x ≠ 0. -/
def Ex.log2 (x : Ex) : Int := floorLog2 x.n x.d + x.e

/-- |x| / 2^q as quotient, remainder and divisor. -/
def Ex.scaled (x : Ex) (q : Int) : Nat × Nat × Nat :=
  let num := x.n <<< (x.e - q).toNat
  let den := x.d <<< (q - x.e).toNat
  (num / den, num % den, den)

/-- Round a magnitude up from its floor? Modes of R201: 0 RNE, 1 RTZ, 2 RUP, 3 RDN. -/
def roundsUp (rm : Nat) (neg : Bool) (k r den : Nat) : Bool :=
  if rm = 0 then decide (den < 2 * r) || (decide (2 * r = den) && decide (k % 2 = 1))
  else if rm = 1 then false
  else if rm = 2 then decide (r ≠ 0) && !neg
  else decide (r ≠ 0) && neg

/-- Pack sign, integer significand `k` and quantum exponent `q` into a format (k within its precision). -/
def FloatFmt.pack (f : FloatFmt) (neg : Bool) (k : Nat) (q : Int) : Nat :=
  let s := if neg then 2 ^ (f.width - 1) else 0
  let k' := if k = 2 ^ (f.fracBits + 1) then 2 ^ f.fracBits else k
  let q' := if k = 2 ^ (f.fracBits + 1) then q + 1 else q
  if k' < 2 ^ f.fracBits then s + k'
  else s + (q' + f.fracBits + f.bias).toNat * 2 ^ f.fracBits + (k' - 2 ^ f.fracBits)

def FloatFmt.largest (f : FloatFmt) (neg : Bool) : Nat :=
  (if neg then 2 ^ (f.width - 1) else 0) + (f.maxE + f.fracBits + f.bias).toNat * 2 ^ f.fracBits + (f.maxM - 2 ^ f.fracBits)

def FloatFmt.infinity (f : FloatFmt) (neg : Bool) : Nat :=
  (if neg then 2 ^ (f.width - 1) else 0) + (2 ^ f.expBits - 1) * 2 ^ f.fracBits

/-- What an overflow delivers (Table 9.6). -/
def FloatFmt.overflow (f : FloatFmt) (neg : Bool) (rm : Nat) (sat : Bool) : Flagged Nat :=
  if f.hasInf then
    if sat then ⟨f.largest neg, flagOF ||| flagNX ||| flagSAT⟩
    else
      let toInf := rm = 0 ∨ (rm = 2 ∧ neg = false) ∨ (rm = 3 ∧ neg = true)
      ⟨if toInf then f.infinity neg else f.largest neg, flagOF ||| flagNX⟩
  else if f.hasNan then
    if sat then ⟨f.largest neg, flagOF ||| flagNX ||| flagSAT⟩ else ⟨f.nan, flagOF ||| flagNX⟩
  else ⟨f.largest neg, flagOF ||| flagNX ||| flagSAT⟩

/-- What an infinite value delivers (Table 9.6). -/
def FloatFmt.ofInf (f : FloatFmt) (neg : Bool) (sat : Bool) : Flagged Nat :=
  if f.hasInf then (if sat then ⟨f.largest neg, flagSAT⟩ else ⟨f.infinity neg, 0⟩)
  else if f.hasNan then (if sat then ⟨f.largest neg, flagSAT⟩ else ⟨f.nan, flagNV⟩)
  else ⟨f.largest neg, flagSAT⟩

/-- What a NaN delivers (Table 9.6). -/
def FloatFmt.ofNan (f : FloatFmt) : Flagged Nat := if f.hasNan then ⟨f.nan, 0⟩ else ⟨0, flagNV⟩

/-- The quantum exponent of a value: precision of the format, subnormal spacing below the smallest normal. -/
def FloatFmt.quantum (f : FloatFmt) (x : Ex) : Int := max (x.log2 - f.fracBits) (1 - f.bias - f.fracBits)

def FloatFmt.tooLarge (f : FloatFmt) (k : Nat) (q : Int) : Bool :=
  let e := min q f.maxE
  decide (f.maxM <<< (f.maxE - e).toNat < k <<< (q - e).toNat)

/-- Round(fmt, x, rm) of a finite value (R201). -/
def FloatFmt.roundEx (f : FloatFmt) (x : Ex) (rm : Nat) (sat : Bool) : Flagged Nat :=
  if x.n = 0 then ⟨if x.neg then 2 ^ (f.width - 1) else 0, 0⟩
  else
    let q := f.quantum x
    let (k, r, den) := x.scaled q
    let k' := if roundsUp rm x.neg k r den then k + 1 else k
    if f.tooLarge k' q then f.overflow x.neg rm sat
    else
      let tiny := decide (x.log2 < 1 - f.bias)
      ⟨f.pack x.neg k' q, flagIf (decide (r ≠ 0)) flagNX ||| flagIf (decide (r ≠ 0) && tiny) flagUF⟩

/-- Deliver a value in a format under Table 9.6. -/
def FloatFmt.out (f : FloatFmt) (x : Num) (rm : Nat) (sat : Bool) : Flagged Nat :=
  match x with
  | .nan => f.ofNan
  | .inf s => f.ofInf s sat
  | .fin x => f.roundEx x rm sat

/-- The 32-bit random number of R203. -/
def drawRnd (seed unit lane count : Nat) : Nat :=
  ofLeBytes (shake256 (leBytes 4 seed ++ leBytes 1 unit ++ [0] ++ leBytes 2 lane ++ leBytes 8 count) 4)

/-- Stochastic rounding of a finite value with the draw `rnd` (R203). -/
def FloatFmt.roundStoch (f : FloatFmt) (x : Ex) (rnd : Nat) (sat : Bool) : Flagged Nat :=
  if x.n = 0 then ⟨if x.neg then 2 ^ (f.width - 1) else 0, 0⟩
  else
    let q := f.quantum x
    let (k, r, den) := x.scaled q
    -- fraction of the way from a to b, the neighbours around x with a < b
    let frac := if x.neg then den - r else r
    let d := frac * 2 ^ 32 / den
    let toB := decide (rnd < d)
    let k' := if r = 0 then k else if toB = x.neg then k else k + 1
    if f.tooLarge k' q then f.overflow x.neg 0 sat
    else
      let tiny := decide (x.log2 < 1 - f.bias)
      ⟨f.pack x.neg k' q, flagIf (decide (r ≠ 0)) flagNX ||| flagIf (decide (r ≠ 0) && tiny) flagUF⟩

def FloatFmt.outStoch (f : FloatFmt) (x : Num) (rnd : Nat) (sat : Bool) : Flagged Nat :=
  match x with
  | .nan => f.ofNan
  | .inf s => f.ofInf s sat
  | .fin x => f.roundStoch x rnd sat

/-- The formats that round stochastically (R203). -/
def stochFmt (c : Nat) : Bool := c == cBf16 || c == cFp16 || c == cE4m3 || c == cE5m2 || c == cE2m1

/-- An exact value rounded to an integer under a mode; the flag says inexact. -/
def Ex.toInt (x : Ex) (rm : Nat) : Int × Bool :=
  let (k, r, den) := x.scaled 0
  let k' := if roundsUp rm x.neg k r den then k + 1 else k
  (if x.neg then -(k' : Int) else (k' : Int), decide (r ≠ 0))

/-- Smallest and largest value of an integer format. -/
def intMin (c : Nat) : Int := if isSignedInt c then -((2 ^ (fmtBits c - 1) : Nat) : Int) else 0
def intMax (c : Nat) : Int := if isSignedInt c then ((2 ^ (fmtBits c - 1) : Nat) : Int) - 1 else ((2 ^ fmtBits c : Nat) : Int) - 1

/-- An exact integer fitted to an integer format: saturated with SAT, or wrapped (R202, R208, R249). -/
def fitInt (c : Nat) (x : Int) (sat : Bool) : Flagged Nat :=
  if sat then
    if x < intMin c then ⟨wrap (fmtBits c) (intMin c), flagSAT⟩
    else if intMax c < x then ⟨wrap (fmtBits c) (intMax c), flagSAT⟩
    else ⟨wrap (fmtBits c) x, 0⟩
  else ⟨wrap (fmtBits c) x, 0⟩

/-- Float to integer (Table 9.7): out of range clamps with NV, NaN gives 0 with NV. -/
def toIntFmt (c : Nat) (x : Num) (rm : Nat) : Flagged Nat :=
  match x with
  | .nan => ⟨0, flagNV⟩
  | .inf s => ⟨wrap (fmtBits c) (if s then intMin c else intMax c), flagNV⟩
  | .fin x =>
    let (k, nx) := x.toInt rm
    if k < intMin c then ⟨wrap (fmtBits c) (intMin c), flagNV⟩
    else if intMax c < k then ⟨wrap (fmtBits c) (intMax c), flagNV⟩
    else ⟨wrap (fmtBits c) k, flagIf nx flagNX⟩

/-- Minimum or maximum of R194: NaN ignored unless both are, -0 below +0. `true` selects the first operand. -/
def minMaxFirst (isMax : Bool) (a b : Num) : Bool :=
  if a.isNan then false
  else if b.isNan then true
  else
    let c := a.cmp b
    if c = 0 then (if isMax then !a.signBit || b.signBit else a.signBit || !b.signBit)
    else if isMax then decide (0 < c) else decide (c < 0)

/-! ### Square roots -/

/-- Integer square root by bits: largest r with r² ≤ n, `k` bits of result. -/
def isqrtBits : Nat → Nat → Nat → Nat
  | 0, _, r => r
  | k + 1, n, r => isqrtBits k n (if (r + 2 ^ k) * (r + 2 ^ k) ≤ n then r + 2 ^ k else r)

def isqrt (n : Nat) : Nat := isqrtBits (n.log2 / 2 + 1) n 0

/-- A dyadic value that rounds as the square root of a positive dyadic value does: 64 further bits and a sticky bit. -/
def Ex.sqrt (x : Ex) : Ex :=
  let odd := x.e % 2
  let n := x.n <<< (odd.toNat + 128)
  let r := isqrt n
  let sticky := if r * r = n then 0 else 1
  { neg := false, n := 2 * r + sticky, d := 1, e := (x.e - odd) / 2 - 65 }

/-! ### X34 and the group sums -/

/-- A value rounded RNE to 24 significant bits, exponents unbounded (ToX34, R200). -/
def Ex.to24 (x : Ex) : Ex :=
  if x.n = 0 then { x with d := 1, e := 0 }
  else
    let q := x.log2 - 23
    let (k, r, den) := x.scaled q
    { neg := x.neg, n := if roundsUp 0 x.neg k r den then k + 1 else k, d := 1, e := q }

/-- ToX34: element, block scale and tensor scale (R200). Rows of its table are applied in order. -/
def toX34 (elem scale tscale : Num) : Num :=
  if elem.isNan || scale.isNan || tscale.isNan then .nan
  else if (elem.isInf || tscale.isInf) && (elem.isZero || scale.isZero || tscale.isZero) then .nan
  else
    match (elem.mul scale).val with
    | .nan => .nan
    | p =>
      match (p.mul tscale).val with
      | .fin x => .fin x.to24
      | y => y

/-- Truncate toward zero to a multiple of 2^q, as a signed multiple (R204). -/
def Ex.truncTo (x : Ex) (q : Int) : Int :=
  let k := (x.scaled q).1
  if x.neg then -(k : Int) else (k : Int)

def exOf : Num → Option Ex
  | .fin x => some x
  | _ => none

/-- Exact sum of finite values at quantum `q`, truncating each (R204). -/
def truncSum (l : List Ex) (q : Int) : Int := l.foldl (fun s x => s + x.truncTo q) 0

def maxLog2 : List Ex → Option Int
  | [] => none
  | x :: r =>
    let m := maxLog2 r
    if x.n = 0 then m
    else match m with
      | none => some x.log2
      | some k => some (max x.log2 k)

/-- GroupSum of R204 (`bitsKept` 48, FP32) and R205 (112, FP64): the accumulator and the products of one group. -/
def groupSum (f : FloatFmt) (bitsKept : Int) (p : List Num) : Nat :=
  let pos := p.any fun x => x.isInf && !x.signBit
  let neg := p.any fun x => x.isInf && x.signBit
  if p.any Num.isNan || (pos && neg) then f.nan
  else if pos then f.infinity false
  else if neg then f.infinity true
  else
    let xs := p.filterMap exOf
    if xs.all (fun x => x.n == 0 && x.neg) then 2 ^ (f.width - 1)
    else
      match maxLog2 xs with
      | none => 0
      | some e =>
        let q := e - bitsKept
        let s := truncSum xs q
        (f.roundEx { neg := decide (s < 0), n := s.natAbs, d := 1, e := q } 0 false).val

/-- An exact sum with the special values of R204: NaN, infinities, all -0. `nanFlag` says whether the NaN came from
operands that were not NaN (R254). -/
def exactSum (p : List Num) (rm : Nat) : Flagged Num :=
  let pos := p.any fun x => x.isInf && !x.signBit
  let neg := p.any fun x => x.isInf && x.signBit
  if p.any Num.isNan then ⟨.nan, 0⟩
  else if pos && neg then ⟨.nan, flagNV⟩
  else if pos then ⟨.inf false, 0⟩
  else if neg then ⟨.inf true, 0⟩
  else
    match p.filterMap exOf with
    | [] => ⟨.zero, 0⟩
    | x :: r =>
      let allNegZero := (x :: r).all (fun y => y.n == 0 && y.neg)
      let s := r.foldl (fun a y => a.add y rm) x
      ⟨.fin (if s.n = 0 then { s with neg := allNegZero || (rm == 3 && !((x :: r).all fun y => y.n == 0 && !y.neg)) } else s), 0⟩

/-! ### The trellis formats (R211 to R213) -/

/-- Bits of a 256-weight block for shift pattern 0 (1), 1 (1-2), 2 (2) (R58). -/
def trellisBits (shift : Nat) : Nat := if shift = 0 then 256 else if shift = 1 then 384 else 512

/-- Where window `i` starts. -/
def trellisPos (shift i : Nat) : Nat := if shift = 0 then i else if shift = 1 then i + i / 2 else 2 * i

/-- Bit `n` of a block's bytes. -/
def bytesBit (b : List Byte) (n : Nat) : Bool := (b.getD (n / 8) 0).getLsbD (n % 8)

/-- The window of weight `i`, tail-biting. -/
def trellisWindow (b : List Byte) (shift i : Nat) : Nat :=
  let lb := trellisBits shift
  (List.range 12).foldl (fun w j => w + (if bytesBit b ((trellisPos shift i + j) % lb) then 2 ^ j else 0)) 0

def trellisHash (w : Nat) : Nat := (w * 2741 + 1573) % 4096

/-- t of TQT (R212). -/
def tqtValue (w : Nat) : Int := let h := trellisHash w; if h < 1365 then -1 else if h < 2731 then 0 else 1

/-- g of TQG (R212). -/
def tqgValue (w : Nat) : Int := let h := trellisHash w; 2 * ((h / 256 + h / 16 % 16 + h % 16 : Nat) : Int) - 45

/-- The unscaled trellis value: t, or g × 2^-4. -/
def trellisValue (tqt : Bool) (w : Nat) : Num :=
  if tqt then .ofInt (tqtValue w)
  else let g := tqgValue w; .ofDyadic (decide (g < 0)) g.natAbs (-4)

end Sys2Proof.Machine
end

