-- ==== Sys2Proof/Machine/Engine.lean ====
section
/-!
DEFINITION. Engine operations in general: queues (Table 10.1), what a trigger copies (R297), release at a mark (R124),
completion on a join counter (R89), `ce.stat` (R312), the cancel, stop and close that act at release, and the outcome
of a parked operation (R353).
-/

namespace Sys2Proof.Machine

/-- Queue places of an engine, numbered as `engineOf` numbers them (Table 10.1). -/
def queueLimit (e : Nat) : Nat := if e = 2 then 4 else if e = 1 then 2 else if e = 7 then 8 else 1

/-- Triggers that take no queue place: ce.cancel, dx.close, bk.stop. -/
def takesPlace (port : Nat) : Bool := port != 0x3AA && port != 0x3B1 && port != 0x3C1

def gatedOps (k : Core) : List Op := k.gate.filterMap fun g => match g with | .engine o => some o | _ => none

/-- Operations of an engine gated in the current region. -/
def gatedCount (k : Core) (e : Nat) : Nat := ((gatedOps k).filter fun o => engineOf o.port == e && takesPlace o.port).length

/-- Operations of an engine released and not completed, parked ones included. -/
def releasedCount (k : Core) (e : Nat) : Nat :=
  (k.ops.filter fun o => o.engine == e && !o.joined).length + if e = 7 then k.lists.length else 0

/-- The freeze or fault of an engine trigger whose queue is full (R218, R219). -/
def needPlace (k : Core) (port bus : Nat) : Res Unit :=
  let e := engineOf port
  if takesPlace port = false then .ok ()
  else if gatedCount k e + releasedCount k e < queueLimit e then .ok ()
  else if queueLimit e ≤ gatedCount k e then .error (stop cRegionOverflow 2 bus)
  else .error (.freeze .queue 0 15)

/-- The operation a trigger copies (R297, R277): its ports, operand B, bundle, issue count and move. -/
def newOp (k : Core) (port : Nat) (b : Word) (j bus : Nat) : Op :=
  { id := 0, port := port, b := b, cfg := k.arch.cfg, j := j, bundle := k.arch.pc.toNat, count := k.arch.count, mv := bus, shape := k.shape, prog := 0,
    st := .queued, runs := [], failed := [], err := none, waiting := false, moved := [], memo := [], lastRun := none, fetched := [], counted := 0, want := [], late := [], block := none }

/-- A copied configuration port. -/
def Op.port' (o : Op) (p : Nat) : Word := o.cfg.get (cfgReset p) p

/-! ### Errors of completed operations -/

/-- `ce.stat` bits that an error sets (Table 14.5). -/
def ceStatError (stat : Word) (j emask code sub : Nat) : Word :=
  BitVec.ofNat 64 (fld j 44 + fld (emask % 4096) 32 + fld code 24 + fld (sub % 256) 16 + 1) ||| (stat &&& 0x6)

/-- Members of the issuer's die that an `mcast` failed at. -/
def failMask (c : Nat) (failed : List (Nat × Nat × Nat)) : Nat :=
  (List.range 12).foldl (fun m i => if failed.any (fun f => f.1 == dieOf c * 12 + i) then m + 2 ^ i else m) 0

/-- Count an operation's join, with its error in `ce.stat` if it is a CE operation, and remove it (R89, R312). -/
def finishOp (s : State) (c : Nat) (o : Op) (err : Option (Nat × Nat)) : State :=
  s.modCore c fun k =>
    let k := (k.dropOp o.id).countJoin o.j
    match err with
    | some (code, sub) => if isCeTrig o.port then { k with ceStat := ceStatError k.ceStat o.j (failMask c o.failed) code sub } else k
    | none => k

/-- Operations whose entries go into the decoder FIFO. -/
def isFifoOp (port : Nat) : Bool := port == 0x3B0 || port == 0x3B5

/-- A FIFO operation that has undelivered entries: one that has not completed, or one to be fetched again (R316, R318). -/
def Op.owes (o : Op) : Bool := isFifoOp o.port && (!o.joined || decide (o.prog < o.counted))

/-- Free the record of a parked operation. -/
def unpark (k : Core) (o : Op) : Core :=
  match o.st with
  | .parked n =>
    let k := k.setSlot n none
    if o.port = 0x3A6 then k.setSlot (n + 1) none else k
  | _ => k

/-! ### Commands that act at release -/

/-- A cancelled operation. The granule whose requests it has issued is finished before it completes, and what members of an `mcast`
have still to take; one that it was parked in, or has sent no write of, is not. -/
def Op.cancelled (o : Op) : Op :=
  { o with
    st := (match o.st with | .parked _ => .queued | _ => if o.runs.any (·.write) then .running else .queued), err := some (cEngineError, 39), waiting := false,
    want := [] }

/-- `ce.cancel` (R311). What the named operations have already sent is performed and counted before they complete. -/
def releaseCancel (s : State) (c : Nat) (o : Op) : State :=
  s.modCore c fun k =>
    let k := if bit o.b 2 then { k with ceStat := k.ceStat &&& 0x6 } else k
    let scope := bits o.b 1 0
    if 2 ≤ scope then { k with ceStat := ceStatError k.ceStat o.j 0 cEngineError 32 }
    else
      let named := (k.ops.filter fun x => isCeTrig x.port && !x.joined).take (if scope = 1 then 1 else k.ops.length)
      named.foldl (fun k x => (unpark k x).setOp (x.cancelled)) k

/-- `dx.close` (R316): the oldest open stream ends; its entries in the FIFO are discarded and its join is counted. -/
def releaseClose (s : State) (c : Nat) : State :=
  match (s.core c).ops.find? fun o => o.port == 0x3B0 && !o.joined with
  | some o => finishOp (s.modCore c fun k => { unpark k o with fifo := k.fifo.filter fun e => e.op != o.id }) c o none
  | none => s

/-- Bit 63 of the status word: full service (R394). -/
def fullService (s : State) : Bool := bit s.status 63

/-- Engines of a stack that a mask selects (R98, R105). -/
def listEngines (stack : Nat) (mask : Word) : List Nat := ((List.range 64).filter fun i => bit mask i).map fun i => 64 * stack + i

def State.bank (s : State) (e : Nat) : Bank := s.banks.get .idle e
def State.setBank (s : State) (e : Nat) (b : Bank) : State := { s with banks := s.banks.set e b }
def State.modBank (s : State) (e : Nat) (f : Bank → Bank) : State := s.setBank e (f (s.bank e))

def enqueueList (c id : Nat) : List Nat → State → State
  | [], s => s
  | e :: r, s => enqueueList c id r (s.modBank e fun b => { b with queue := b.queue ++ [(c, id)] })

/-- Members of the issuer's gathering as they stand at release: rank and coreid (R108). -/
def gatheringCores (s : State) (g : Nat) : List (Nat × Nat) := (s.membersOf g).map fun d => ((s.core d).member.rank, d)

/-- The header's join counter. A list whose header cannot be read counts on j0 (log entry 57). -/
def headerJoin (k : Core) (off : Nat) : Nat :=
  if off % 32 = 0 ∧ off + 32 ≤ Config.scratchBytes then (k.spad64 off).toNat / 256 % 16 else 0

/-- The record of a list that completes at its release, before full service (R394), whatever else its header breaks. -/
def earlyRecord (s : State) (c : Nat) (o : Op) (off j : Nat) : Record :=
  let k := s.core c
  { Record.zero with
    code := cEngineError, sub := 9, cls := 2, coreid := c, whereAt := o.mv, bundle := o.bundle, count := o.count, port := 0x3C0, j := j, addr := off, time := s.time,
    gathid := k.member.gath, ctxid := k.member.ctx }

/-- `bk.go` at its release (R105 to R107): every selected engine queues the list, whose words are read now. -/
def releaseList (s : State) (c : Nat) (o : Op) : State :=
  let k := s.core c
  let off := bits o.b 18 0
  let mask := o.port' 0x131
  let j := headerJoin k off
  if fullService s = false then s.modCore c fun k => (k.setSlot k.freeSlot (some (earlyRecord s c o off j))).countJoin j
  else if mask = 0 then s.modCore c fun k => k.countJoin j
  else
    let l : BankList :=
      { id := s.fresh, off := off, mask := mask, stack := 2 * dieOf c + bits o.b 19 19, j := j, bundle := o.bundle, count := o.count, mv := o.mv,
        pasid := k.member.pasid, left := mask, started := false, detached := false, counted := false, err := none, parked := 0, slot := none,
        targets := gatheringCores s k.member.gath, gath := k.member.gath, rank := k.member.rank,
        image := k.spadRead off (min 1024 (Config.scratchBytes - off)) }
    let s := { s with fresh := s.fresh + 1 }
    enqueueList c l.id (listEngines l.stack mask) (s.modCore c fun k => { k with lists := k.lists ++ [l] })

/-- Folios of the words that a list's release reads. -/
def listFolios (o : Op) : List Nat :=
  let off := bits o.b 18 0
  spadFolios off (min 1024 (Config.scratchBytes - off))

/-- Bits of a mask without one bit. -/
def clearBit (m : Word) (i : Nat) : Word := m &&& ~~~ (1#64 <<< i)

/-- Perform those of a bank engine's pending writes that `p` names, oldest first. -/
def performWrites (s : State) (e : Nat) (p : BankWrite → Bool) : State :=
  (((s.bank e).writes.filter p).foldl (fun s w => s.writeAt w.place w.data) s).modBank e fun b => { b with writes := b.writes.filter fun w => !p w }

/-- Perform all of a bank engine's pending writes. -/
def performBank (s : State) (e : Nat) : State := performWrites s e fun _ => true

/-- End a list on one engine: its pending writes are performed, and it leaves the engine's queue. -/
def endOnEngine (s : State) (id e : Nat) : State :=
  let here := match (s.bank e).list with | some x => x.2 == id | none => false
  if here then (performBank s e).modBank e fun b => { Bank.idle with queue := b.queue }
  else s.modBank e fun b => { b with queue := b.queue.filter fun q => q.2 != id }

def endOnEngines (s : State) (l : BankList) : State := (listEngines l.stack l.mask).foldl (fun s e => endOnEngine s l.id e) s

/-- A list ended on every engine with an error (R108): subcode 10, or the one it carries. -/
def BankList.endedWith (l : BankList) (err : Nat × Nat) : BankList := { l with left := 0, parked := 0, slot := none, err := some (l.err.getD err) }

/-- Stop a list of a core (R108). -/
def stopList (s : State) (c : Nat) (l : BankList) (err : Nat × Nat) : State :=
  (endOnEngines s l).modCore c fun k =>
    let k := match l.slot with | some n => k.setSlot n none | none => k
    k.setList (l.endedWith err)

def stopLists (s : State) (c : Nat) : State :=
  (s.core c).lists.foldl (fun s l => if l.left = 0 then s else stopList s c l (cEngineError, 10)) s

/-- Release of an engine command at its mark (R124): most join their engine's queue; some act at once. -/
def release (s : State) (c : Nat) (o : Op) : State :=
  if o.port = 0x3AA then releaseCancel s c o
  else if o.port = 0x3B1 then releaseClose s c
  else if o.port = 0x3C0 then releaseList s c o
  else if o.port = 0x3C1 then stopLists s c
  else { (s.modCore c fun k => { k with ops := k.ops ++ [{ o with id := s.fresh }] }) with fresh := s.fresh + 1 }

/-- Older operations of the same engine still in the queue: ME, FC, TD and VE run one at a time, in order (R283). -/
def olderSame (k : Core) (o : Op) : Bool :=
  !(k.olderOps o).isEmpty

end Sys2Proof.Machine
end

