-- ==== Sys2Proof/Machine/Sync.lean ====
section
/-!
DEFINITION. Sync words (R80 to R88) and the tag table (R72 to R79).
-/

namespace Sys2Proof.Machine

/-! ### Sync words -/

/-- A sync word, Table 4.4; `top` holds its reserved bits. -/
structure SyncWord where
  target : Nat
  count : Nat
  gen : Nat
  err : Bool
  ovr : Bool
  oneshot : Bool
  top : Nat
deriving DecidableEq, Repr

def SyncWord.ofNat (x : Nat) : SyncWord :=
  { target := x % 2 ^ 32, count := x / 2 ^ 32 % 2 ^ 32, gen := x / 2 ^ 64 % 2 ^ 16, err := x / 2 ^ 80 % 2 == 1, ovr := x / 2 ^ 81 % 2 == 1,
    oneshot := x / 2 ^ 82 % 2 == 1, top := x / 2 ^ 83 % 2 ^ 45 }

def bnat (b : Bool) : Nat := if b then 1 else 0

def SyncWord.toNat (w : SyncWord) : Nat :=
  w.target + fld w.count 32 + fld w.gen 64 + fld (bnat w.err) 80 + fld (bnat w.ovr) 81 + fld (bnat w.oneshot) 82 + fld w.top 83

def Core.syncWord (k : Core) (off : Nat) : SyncWord := .ofNat (ofLeBytes (k.spadRead off 16))

def Core.setSyncWord (k : Core) (off : Nat) (w : SyncWord) : Core := k.spadWrite off (leBytes 16 w.toNat)

/-- The match of Table 4.5. A repeating word advances one generation for each whole target counted. -/
def SyncWord.match' (w : SyncWord) : SyncWord :=
  if w.target = 0 ∨ w.count < w.target then w
  else if w.oneshot then { w with gen := (w.gen + 1) % 2 ^ 16, ovr := w.ovr || decide (w.target < w.count), count := 0, target := 0 }
  else { w with gen := (w.gen + w.count / w.target) % 2 ^ 16, count := w.count % w.target }

/-- Count n bytes, saturating, then match (R82). -/
def SyncWord.add (w : SyncWord) (n : Nat) : SyncWord :=
  if w.count + n < 2 ^ 32 then { w with count := w.count + n }.match'
  else { w with count := 2 ^ 32 - 1, ovr := true }.match'

/-- An arrival with a decode error (R87): the stated remainder, and ERR. -/
def SyncWord.addErr (w : SyncWord) (n : Nat) : SyncWord := { w with err := true }.add n

/-- `swpost` (R84). -/
def SyncWord.post (w : SyncWord) (b : Word) : SyncWord :=
  let w := if bit b 34 then { w with count := 0 } else w
  let w := if bit b 33 then { w with err := false, ovr := false } else w
  { w with target := bits b 31 0, oneshot := bit b 32 }.match'

/-- The result of `swrd`, Table 4.6. -/
def SyncWord.read (w : SyncWord) : Word :=
  BitVec.ofNat 64 (fld w.count 32 + fld (bnat w.oneshot) 18 + fld (bnat w.ovr) 17 + fld (bnat w.err) 16 + w.gen)

/-- `swwait`: gen - B, signed over 16 bits, is at least 0 (R86). -/
def SyncWord.reached (w : SyncWord) (b : Nat) : Bool := (w.gen + 2 ^ 16 - b % 2 ^ 16) % 2 ^ 16 < 2 ^ 15

/-- A join counter reaches a value: j - v, signed over 32 bits, is at least 0 (R91). -/
def joinReached (j v : BitVec 32) : Bool := decide ((j - v).toNat < 2 ^ 31)

/-- An arrival of n bytes at a core's sync word (R81). -/
def arrive (s : State) (c off n : Nat) : State := s.modCore c fun k => k.setSyncWord off ((k.syncWord off).add n)

def arriveErr (s : State) (c off n : Nat) : State := s.modCore c fun k => k.setSyncWord off ((k.syncWord off).addErr n)

/-- A word that arrivals may name (R88). -/
def syncOk (off : Nat) : Bool := off % 16 == 0 && decide (off < Config.scratchBytes)

/-! ### The tag table -/

/-- Reset value of slot `n`: invalid, age = way number (Table 4.1). -/
def tagReset (n : Nat) : Word := BitVec.ofNat 64 (fld (n % 8) 4)

def Arch.tag (a : Arch) (n : Nat) : Word := a.tags.get (tagReset n) n
def Arch.setTag (a : Arch) (n : Nat) (e : Word) : Arch := { a with tags := a.tags.put (tagReset n) n e }

def tagValid (e : Word) : Bool := bit e 0
def tagSize (e : Word) : Nat := bits e 3 2
def tagAge (e : Word) : Nat := bits e 6 4
def tagKey (e : Word) : Nat := bits e 63 8

/-- log2 of the slot size of a size code (R73). -/
def tagShift (z : Nat) : Nat := if z = 0 then 8 else if z = 1 then 10 else 12

def tagSet (key z : Nat) : Nat := key / 2 ^ tagShift z % 128

/-- keyhi of a key: key bits [63:8] with the bits below the slot size cleared. -/
def tagKeyOf (key z : Nat) : Nat := key / 2 ^ tagShift z * 2 ^ (tagShift z - 8)

def tagEntry (key z age : Nat) (valid : Bool) : Word := BitVec.ofNat 64 (fld key 8 + fld age 4 + fld z 2 + bnat valid)

/-- The way of a set that holds a key (R73). -/
def Arch.tagFind (a : Arch) (key z : Nat) : Option Nat :=
  (List.range 8).find? fun w =>
    let e := a.tag (tagSet key z * 8 + w)
    tagValid e && tagSize e == z && tagKey e == tagKeyOf key z

def tagWithAge (e : Word) (age : Nat) : Word := tagEntry (tagKey e) (tagSize e) age (tagValid e)

/-- MakeYoungest (R76). -/
def Arch.makeYoungest (a : Arch) (set way : Nat) : Arch :=
  let old := tagAge (a.tag (set * 8 + way))
  (List.range 8).foldl (fun b w =>
    let e := a.tag (set * 8 + w)
    if w = way then b.setTag (set * 8 + w) (tagWithAge e 0)
    else if tagAge e < old then b.setTag (set * 8 + w) (tagWithAge e (tagAge e + 1)) else b) a

/-- The victim that a miss suggests (R75). -/
def Arch.tagVictim (a : Arch) (set : Nat) : Nat :=
  match (List.range 8).find? fun w => !tagValid (a.tag (set * 8 + w)) with
  | some w => w
  | none => ((List.range 8).find? fun w => tagAge (a.tag (set * 8 + w)) == 7).getD 0

/-- `tlook` (R75): the table after it, and the lookup word. -/
def Arch.tagLook (a : Arch) (key z : Nat) : Arch × Word :=
  let set := tagSet key z
  match a.tagFind key z with
  | some w => (a.makeYoungest set w, BitVec.ofNat 64 (set * 8 + w))
  | none =>
    let w := a.tagVictim set
    (a, BitVec.ofNat 64 (2 ^ 63 + fld (bnat (tagValid (a.tag (set * 8 + w)))) 62 + set * 8 + w))

def Arch.tagClear (a : Arch) (n : Nat) : Arch :=
  let e := a.tag n
  a.setTag n (tagEntry (tagKey e) (tagSize e) (tagAge e) false)

/-- `tins` (R77). -/
def Arch.tagInstall (a : Arch) (key z way : Nat) : Arch :=
  let set := tagSet key z
  let b := match a.tagFind key z with
    | some w => if w = way then a else a.tagClear (set * 8 + w)
    | none => a
  let b := b.setTag (set * 8 + way) (tagEntry (tagKeyOf key z) z (tagAge (b.tag (set * 8 + way))) true)
  b.makeYoungest set way

/-- `tdel` of a key (R78). -/
def Arch.tagDelete (a : Arch) (key z : Nat) : Arch :=
  match a.tagFind key z with
  | some w => a.tagClear (tagSet key z * 8 + w)
  | none => a

/-- The two tag folios of Table 18.6. -/
def tagFolio (slot : Nat) : Nat := if slot < 512 then 60 else 61

def TagOp.folio : TagOp → Nat
  | .install key z _ => tagFolio (tagSet key z * 8)
  | .delete key z => tagFolio (tagSet key z * 8)
  | .clear slot => tagFolio slot

def TagOp.apply (a : Arch) : TagOp → Arch
  | .install key z way => a.tagInstall key z way
  | .delete key z => a.tagDelete key z
  | .clear slot => a.tagClear slot

/-- The operations that have waited for a tag folio act, in order. -/
def Arch.settleTags (a : Arch) (f : Nat) : Arch :=
  (a.tagOps.filter fun o => o.folio == f).foldl TagOp.apply { a with tagOps := a.tagOps.filter fun o => o.folio != f }

end Sys2Proof.Machine
end

