-- ==== Sys2Proof/Machine/Translate.lean ====
section
/-!
DEFINITION. Translation (spec/02): page walks, the translation caches, address tokens, and handles with their checks,
re-walks and shadows.
-/

namespace Sys2Proof.Machine

/-! ### Leaves and walks -/

def leafFrame (e : Word) : Nat := bits e 51 16
def leafKind (e : Word) : Nat := bits e 15 12
def leafFpc (e : Word) : Bool := bit e 7
def leafDirty (e : Word) : Bool := bit e 6
def leafCow (e : Word) : Bool := bit e 4
def leafMigrating (e : Word) : Bool := bit e 3

/-- Why a translation does not answer. -/
inductive XFail where
  | fault (code sub : Nat)
  /-- the leaf has migrating set: wait and re-walk (R47) -/
  | migrating
  /-- a write met cow = 1 in the leaf that its walk yields in this state: the page is duplicated first (R33, R48) -/
  | cow (s : State)
deriving DecidableEq, Repr

/-- Who translates: its cache (0 to 3 the dies' agents, 4 the hub), the permission bits of which one must be set (none: no
check), the memory kinds of Table 2.5 it reaches, and whether it may use FPC pages (R32). -/
structure Agent where
  cache : Nat
  perms : List Nat
  kinds : List Nat
  fpc : Bool
deriving DecidableEq, Repr

def memUnit (die : Nat) : Agent := { cache := die, perms := [63, 62, 53], kinds := [0, 1, 3], fpc := false }
def ceReader (die : Nat) (fpc : Bool) : Agent := { cache := die, perms := [61], kinds := [0, 1, 2, 3, 4], fpc := fpc }
def ceWriter (die : Nat) (fpc : Bool) : Agent := { cache := die, perms := [60], kinds := [0, 1, 2, 3, 4], fpc := fpc }
def meFetcher (die : Nat) : Agent := { cache := die, perms := [59], kinds := [0, 1, 2, 3, 4], fpc := false }
def bankReader (die : Nat) : Agent := { cache := die, perms := [58], kinds := [0, 1], fpc := false }
def bankWriter (die : Nat) : Agent := { cache := die, perms := [57], kinds := [0, 1], fpc := false }
def transformer (die : Nat) (fpc : Bool) : Agent := { cache := die, perms := [56], kinds := [0, 1, 2, 3], fpc := fpc }
def fabricAgent (die perm : Nat) : Agent := { cache := die, perms := [perm], kinds := [0, 1, 2], fpc := false }
/-- The command processor, permission bit 52. -/
def hubAgent : Agent := { cache := 4, perms := [52], kinds := [0, 1, 2, 3, 4, 5], fpc := true }
/-- The host: as the command processor, but not over FPC pages (R32). -/
def hostAgent : Agent := { hubAgent with fpc := false }
/-- Reads of a target's agent for a decision of the device, which check no permission bit (R65); it reaches the kinds that Table
2.5 gives a fabric remote request at its target. -/
def ownerReader (die : Nat) : Agent := { fabricAgent die 55 with perms := [] }

/-- Canonical virtual addresses (R21). -/
def canonical (va : Nat) : Bool := va / 2 ^ 56 == 0 || va / 2 ^ 56 == 255

/-- Index of a level, Table 2.1. -/
def levelIndex (va lvl : Nat) : Nat :=
  if lvl = 4 then va / 2 ^ 39 % 2 ^ 18 else if lvl = 3 then va / 2 ^ 30 % 512 else if lvl = 2 then va / 2 ^ 21 % 512 else va / 2 ^ 16 % 32

/-- Checks of a leaf that do not depend on the agent: subcodes 3, 5 and 6 (R33, R97). -/
def leafShape (e : Word) (lvl : Nat) : Option Nat :=
  let sz := leafSize e
  if 3 < sz ∨ sz ≠ lvl then some 3
  else if (sz = 2 ∧ leafFrame e % 32 ≠ 0) ∨ (sz = 3 ∧ leafFrame e % 16384 ≠ 0) then some 5
  else if 5 < leafKind e ∨ (leafCow e ∧ sz = 3) ∨ kindHolds (leafKind e) (leafFrame e * 0x10000) = false then some 6
  else none

/-- Walk the tables from a level down: the address of the leaf's entry and the leaf. -/
def walkTables (s : State) (va : Nat) : Nat → Nat → Except XFail (Nat × Word)
  | 0, _ => .error (.fault cTranslate 3)
  | l + 1, t =>
    let a := t + 8 * levelIndex va (l + 1)
    let e := s.read64 { host := false, addr := a }
    if bit e 0 = false then .error (.fault cTranslate 2)
    else if bits e 2 1 ≠ l then .error (.fault cTranslate 4)
    else if leafSize e = 0 then
      if l = 0 ∨ bits e 63 52 ≠ 0 ∨ bits e 7 3 ≠ 0 then .error (.fault cTranslate 3)
      else walkTables s va l (bits e 51 12 * 4096)
    else
      match leafShape e (l + 1) with
      | some k => .error (.fault cTranslate k)
      | none => .ok (a, e)

/-! ### ATS (R52, R384) -/

/-- The host's answer for a frame; one that nothing has set is the frame itself, readable and writable (log entry 50). -/
def State.atsOf (s : State) (pasid frame : Nat) : Option AtsAnswer :=
  s.ats.get (some { frame := frame, read := true, write := true }) (pasid * 2 ^ 36 + frame)

/-- What an access needs of an ATS answer. -/
inductive Need where
  | none
  | read
  | write
deriving DecidableEq, Repr

/-- A completion without translation, or without the right needed, for permission bit `g` (Table 21.5). -/
def atsFault (s : State) (pasid frame g : Nat) (need : Need) : Option XFail :=
  match s.atsOf pasid frame with
  | .none => some (.fault cTranslate 2)
  | some a =>
    match need with
    | .none => .none
    | .read => if a.read then .none else some (.fault cPermission g)
    | .write => if a.write then .none else some (.fault cPermission g)

/-- The host address that ATS gives a frame. -/
def State.hostFrame (s : State) (pasid frame : Nat) : Nat := match s.atsOf pasid frame with | some a => a.frame | none => frame

/-- The place of byte `off` of a page: kind 3 is host memory, 64 KiB at a time (R52). -/
def State.pagePlace (s : State) (pasid kind frame off : Nat) : Place :=
  if kind = 3 then { host := true, addr := s.hostFrame pasid (frame + off / 0x10000) * 0x10000 + off % 0x10000 }
  else { host := false, addr := frame * 0x10000 + off }

/-- Checks of a leaf for an agent: migrating, Table 2.5, fpc and permission, in the order of R33. -/
def leafCheck (ag : Agent) (e : Word) : Option XFail :=
  if leafMigrating e then some .migrating
  else if !ag.kinds.contains (leafKind e) then some (.fault cTranslate 7)
  else if leafFpc e && !ag.fpc then some (.fault cTranslate 8)
  else if !ag.perms.isEmpty && !(ag.perms.any fun g => bit e g) then some (.fault cPermission (ag.perms.headD 0))
  else none

/-- Base of the page of `va`. -/
def pageBase (va size : Nat) : Nat := va - va % pageBytes size

/-- Cached leaf of an agent for an address (R35). -/
def cacheFind (s : State) (agent pasid va : Nat) : Option CacheEntry :=
  s.caches.find? fun x => !x.faulted && x.agent == agent && x.pasid == pasid && decide (x.base ≤ va) && decide (va < x.base + pageBytes (leafSize x.leaf))

/-- Keep the 16,384 latest entries of an agent (R35). -/
def cacheInsert (l : List CacheEntry) (x : CacheEntry) : List CacheEntry :=
  let l := x :: cacheDropPage l x.agent x.pasid x.base
  if (l.filter fun y => y.agent == x.agent).length ≤ Config.cacheEntries then l
  else
    match (l.filter fun y => y.agent == x.agent).getLast? with
    | some old => l.filter fun y => y != old
    | none => l

/-- Set accessed, and dirty for a write, in the leaf's entry (R33). -/
def touchLeaf (s : State) (a : Nat) (e : Word) (write : Bool) : State × Word :=
  let e' := e ||| 0x20 ||| (if write then 0x40 else 0)
  (if e' = e then s else s.write64 { host := false, addr := a } e', e')

/-- The ATS translation of a kind-3 leaf's frame at `va`; an `xlt` needs no right of it, its handle's accesses do. -/
def leafAts (s : State) (ag : Agent) (pasid va : Nat) (write : Bool) (e : Word) : Option XFail :=
  if leafKind e = 3 then
    atsFault s pasid (leafFrame e + va % pageBytes (leafSize e) / 0x10000) (ag.perms.headD 0)
      (if write then .write else if ag.perms.length = 3 then .none else .read)
  else none

/-- A walk from the root (R33). -/
def walk (s : State) (ag : Agent) (pasid va : Nat) (write : Bool) : Except XFail (State × Word) :=
  if canonical va = false then .error (.fault cTranslate 1)
  else
    match (s.pasids.get .none pasid).root with
    | none => .error (.fault cTranslate 9)
    | some root =>
      match walkTables s va 4 root with
      | .error f => .error f
      | .ok (a, e) =>
        match (leafCheck ag e).orElse fun _ => leafAts s ag pasid va write e with
        | some f => .error f
        | none =>
          let (t, e') := touchLeaf s a e write
          let t := { t with caches := cacheInsert t.caches { agent := ag.cache, pasid := pasid, base := pageBase va (leafSize e'), leaf := e' } }
          if write && leafCow e' then .error (.cow t) else .ok (t, e')

/-- Translate: a cached leaf that passes every check serves, but a first write goes to the tables to set dirty, and one under cow
to re-read the leaf (R48); otherwise walk. -/
def translate (s : State) (ag : Agent) (pasid va : Nat) (write : Bool) : Except XFail (State × Word) :=
  if canonical va = false then .error (.fault cTranslate 1)
  else
    match cacheFind s ag.cache pasid va with
    | some x =>
      if (leafCheck ag x.leaf).isNone && (leafAts s ag pasid va write x.leaf).isNone && (!write || (leafDirty x.leaf && !leafCow x.leaf)) then .ok (s, x.leaf)
      else walk s ag pasid va write
    | none => walk s ag pasid va write

/-- The place of a byte under a leaf. -/
def leafPlace (s : State) (pasid : Nat) (e : Word) (va : Nat) : Place := s.pagePlace pasid (leafKind e) (leafFrame e) (va % pageBytes (leafSize e))

/-- The walk of an agent has waited 10 ms for this page (R47). -/
def State.walkTimedOut (s : State) (agent pasid va : Nat) : Bool := s.timedOut.contains (agent, pasid, va / 0x10000)

/-- The mark goes with the fault, or with the wait's end. -/
def State.forgetTimeOut (s : State) (agent pasid va : Nat) : State := { s with timedOut := s.timedOut.filter fun x => x != (agent, pasid, va / 0x10000) }

/-- The leaf of an address, where a walk finds one. -/
def leafOf (s : State) (pasid va : Nat) : Option (Nat × Word) :=
  match (s.pasids.get .none pasid).root with
  | none => none
  | some root => match walkTables s va 4 root with | .ok x => some x | .error _ => none

/-! ### The walks of a try that does not go through (R29, R33) -/

/-- The tables of `s` hold the leaf that a cache entry was walked from. -/
def CacheEntry.stands (s : State) (x : CacheEntry) : Bool :=
  match leafOf s x.pasid x.base with | some (_, e) => e ||| 0x60 == x.leaf ||| 0x60 | none => false

/-- The walk that gave a cache entry set its leaf's accessed bit, and dirty for a write. -/
def touchCached (s : State) (x : CacheEntry) : State :=
  match leafOf s x.pasid x.base with | some (a, e) => s.write64 { host := false, addr := a } (e ||| (x.leaf &&& 0x60)) | none => s

/-- What the walks of a try `t` that began at `s` leave behind: accessed bits and cached leaves, without those that a walk
faulted on (R35). -/
def State.keepWalks (s t : State) : State :=
  let new := t.caches.filter fun x => !s.caches.contains { x with faulted := false } && x.stands s
  new.foldl touchCached { s with caches := new.filter (fun x => !x.faulted) ++ s.caches.filter t.caches.contains }

/-- What the walks behind which a stop was met leave behind. -/
def Stop.walked (s : State) : Stop → State
  | .behind t e => e.walked (s.keepWalks t)
  | _ => s

/-! ### Address tokens (R15, R16) -/

def tokKind (t : Word) : Nat := bits t 63 60
def tokPeer (t : Word) : Nat := bits t 59 56
def tokHandle (t : Word) : Nat := bits t 52 48
def tokOff (t : Word) : Nat := bits t 39 0

/-- The core a peer token names. -/
def peerCore (c peer : Nat) : Nat := quireOf c * 12 + peer

/-- Whether a core runs a member of the accessing core's gathering. -/
def sameGathering (s : State) (c d : Nat) : Bool := (s.core d).runs (s.core c).member.gath

/-- The lowest failing check of Table 1.5 for a memory-unit access of `size` bytes. -/
def tokenFault (s : State) (c : Nat) (t : Word) (size : Nat) (write : Bool) : Option Nat :=
  let k := tokKind t
  if 3 ≤ k then some 1
  else if bits t 55 53 ≠ 0 ∨ bits t 47 40 ≠ 0 ∨ (k ≠ 1 ∧ tokPeer t ≠ 0) ∨ (k ≠ 2 ∧ tokHandle t ≠ 0) then some 2
  else if k ≤ 1 ∧ Config.scratchBytes < tokOff t + size then some 3
  else if k = 1 ∧ 12 ≤ tokPeer t then some 4
  else if tokOff t % size ≠ 0 then some 5
  else if k = 1 ∧ write = true then some 6
  else if k = 1 ∧ sameGathering s c (peerCore c (tokPeer t)) = false then some 7
  else none

def checkToken (s : State) (c : Nat) (t : Word) (size : Nat) (write : Bool) (w : Nat) : Res Unit :=
  match tokenFault s c t size write with
  | some k => .error (stopAt cIllegalAddress k w t.toNat)
  | none => .ok ()

/-! ### Handles (R36 to R40) -/

/-- The handle that `xlt` installs for a byte (R37). -/
def handleOf (e : Word) (va : Nat) : Handle :=
  { vpn := BitVec.ofNat 41 (pageBase va (leafSize e) / 0x10000), frame := BitVec.ofNat 36 (leafFrame e), kind := BitVec.ofNat 4 (leafKind e),
    size := BitVec.ofNat 4 (leafSize e), valid := true, stale := false, cow := leafCow e, ld := bit e 63, st := bit e 62, amo := bit e 53 }

def Handle.bytes (h : Handle) : Nat := pageBytes h.size.toNat

/-- Virtual address of the 64 KiB page at an offset of a handle's page. -/
def Handle.pageOf (h : Handle) (off : Nat) : Nat := h.va + off / 0x10000 * 0x10000

def State.handlePlace (s : State) (pasid : Nat) (h : Handle) (off : Nat) : Place := s.pagePlace pasid h.kind.toNat h.frame.toNat off

/-- The dirty bit of a handle's page is set before the first write reaches it (Table 2.3). -/
def dirtyPage (s : State) (pasid : Nat) (h : Handle) : State :=
  match leafOf s pasid h.va with
  | some (a, e) => if leafFrame e = h.frame.toNat ∧ leafDirty e = false then s.write64 { host := false, addr := a } (e ||| 0x40) else s
  | none => s

/-- The ATS right of a load or store through a kind-3 handle; an atomic faults there by its kind (R271). -/
def handleAts (s : State) (c : Nat) (h : Handle) (off g : Nat) (write : Bool) : Option XFail :=
  if h.kind = 3 ∧ g ≠ 53 then atsFault s (s.core c).member.pasid (h.frame.toNat + off / 0x10000) g (if write then .write else .read) else none

/-- Right of permission bit 63, 62 or 53 (Table 2.7). -/
def Handle.right (h : Handle) (g : Nat) : Bool := if g = 63 then h.ld else if g = 62 then h.st else h.amo

/-- Re-walk of a handle's page (R45): frame, kind, size, cow and rights are rewritten and stale is cleared. -/
def rewalkFor (s : State) (die pasid : Nat) (h : Handle) : Except XFail (State × Handle) :=
  match walk s (memUnit die) pasid h.va false with
  | .error f => .error f
  | .ok (t, e) => .ok (t, { handleOf e h.va with vpn := h.vpn })

def rewalk (s : State) (c : Nat) (h : Handle) : Except XFail (State × Handle) := rewalkFor s (dieOf c) (s.core c).member.pasid h

/-- A translation at `va` that fails for core `c`: a fault, after which its die no longer holds the leaf (R35), or a wait (R47,
R48). -/
def coreStop (s : State) (c w va : Nat) (addr : Nat) : XFail → Stop
  | .fault code sub => .behind (markFaulted s (dieOf c) (s.core c).member.pasid va) (stopAt code sub w addr)
  | .migrating => .freeze .stale va w
  | .cow t => .behind t (.freeze .cow va w)

/-- Refresh a handle's contents: a stale one is re-walked (R39 step 3). -/
def freshHandle (s : State) (c : Nat) (h : Handle) (w addr : Nat) : Res (State × Handle) :=
  if h.stale then
    match rewalk s c h with
    | .ok x => .ok x
    | .error f => .error (coreStop s c w h.va addr f)
  else .ok (s, h)

/-- R39 step 6: a write under cow re-reads the leaf, and freezes for the duplication if it still has cow = 1. -/
def writableHandle (s : State) (c : Nat) (h : Handle) (w addr : Nat) : Res (State × Handle) :=
  if h.cow then
    match rewalk s c h with
    | .ok (t, h') => if h'.cow then .error (.behind t (.freeze .cow h.va w)) else .ok (t, h')
    | .error f => .error (coreStop s c w h.va addr f)
  else .ok (s, h)

/-- R39 steps 2 to 6 over a handle's contents: subcode `inv` if it is invalid, right `g`, write or not. -/
def checkContents (s : State) (c : Nat) (h : Handle) (off size g : Nat) (write : Bool) (inv w addr : Nat) : Res (State × Handle) :=
  if h.valid = false then .error (stopAt cHandleInvalid inv w addr)
  else do
    let (s, h) ← freshHandle s c h w addr
    upon s <|
      if h.bytes < off + size then .error (stopAt cHandleRange 1 w addr)
      else if h.right g = false then .error (stopAt cPermission g w addr)
      else
        match handleAts s c h off g write with
        | some f => .error (coreStop s c w h.va addr f)
        | none => if write then writableHandle s c h w addr else pure (s, h)

/-- An access through a kind-2 token: the handle as it now stands, written back if it was re-walked. -/
def checkHandle (s : State) (c : Nat) (t : Word) (size g : Nat) (write : Bool) (w : Nat) : Res (State × Handle) := do
  let n := tokHandle t
  let (s, h) ← checkContents s c ((s.core c).arch.handle n) (tokOff t) size g write 1 w t.toNat
  pure (s.modArch c fun a => a.setHandle n h, h)

/-! ### What a bundle that stops leaves -/

def takeStop (s : State) (c : Nat) : Stop → State
  | .fault f => takeCoreFault s c f
  | .faultAt f bundle count => takeFault s c f bundle count
  | .freeze why arg w => takeFreeze s c why arg w
  | .behind t e => takeStop (s.keepWalks t) c e

/-! ### The outcome of a meaning -/

/-- An operation of the current core: its next state, or the fault or freeze it takes. -/
def finish (s : State) (c : Nat) (r : Res State) : Host.Outcome State Fault Refusal :=
  match r with
  | .ok t => .next t
  | .error e => .next (takeStop s c e)

end Sys2Proof.Machine
end

