-- ==== Sys2Proof/Machine/Atomic.lean ====
section
/-!
DEFINITION. Atomics at their homes (R141 to R143, R271, R340): the word functions of Table 12.9 and how a due result is
filled in.
-/

namespace Sys2Proof.Machine

/-! ### Words (R271) -/

def isArd (port : Nat) : Bool := port == 0x366

/-- Word size in bytes. -/
def atomicSize (port : Nat) (c : Vec) : Nat := if port = 0x35E ∨ bit c 64 then 4 else 8

/-- `amaxf`: FP32 maxNum (R194). -/
def maxNum32 (a b : Nat) : Nat :=
  let x := fp32.decode (a % 2 ^ 32)
  let y := fp32.decode (b % 2 ^ 32)
  if x.isNan && y.isNan then fp32.nan else if minMaxFirst true x y then a % 2 ^ 32 else b % 2 ^ 32

/-- A failing `acas` and an `ard` write nothing (R271). -/
def atomicWrites (port size old cmp : Nat) : Bool := !isArd port && (port != 0x361 || old == cmp % 2 ^ (8 * size))

/-- Table 12.9: the new word of `size` bytes. -/
def atomicNew (port size old b cmp : Nat) : Nat :=
  let m := 2 ^ (8 * size)
  let b := b % m
  if port = 0x35C then (old + b) % m
  else if port = 0x35D then (if signed (8 * size) old < signed (8 * size) b then b else old)
  else if port = 0x35E then maxNum32 old b
  else if port = 0x35F then (if signed (8 * size) b < signed (8 * size) old then b else old)
  else if port = 0x360 then b
  else if port = 0x361 then (if old = cmp % m then b else old)
  else if port = 0x362 then old &&& b
  else if port = 0x363 then old ||| b
  else old

def ofOld (old : Nat) : Vec := BitVec.ofNat 1024 old

/-- Table 12.6: `sx` is the width to sign-extend from, 0 to zero-extend. -/
def extendLoad (size sx : Nat) (d : List Byte) : Vec :=
  if sx = 0 then BitVec.ofNat 1024 (ofLeBytes d) else BitVec.ofNat 1024 (wrap 64 (signed (8 * size) (ofLeBytes d)))

/-! ### Due results -/

def fillDue (tag : Nat) (f : Due → Due) (l : List Due) : List Due := l.map fun d => if d.tag = tag then f d else d

/-- The snapshot of an atomic's mark holds its due result, filled in when it arrives (R142). -/
def fillBoth (s : State) (c tag : Nat) (f : Due → Due) : State :=
  s.modCore c fun k => { k with arch := { k.arch with due := fillDue tag f k.arch.due }, snap := { k.snap with due := fillDue tag f k.snap.due } }

def findDue (k : Core) (tag : Nat) : Option Due := ((k.arch.due ++ k.snap.due).find? fun d => d.tag == tag && d.tag != 0)

def Due.arrived (v : Vec) (d : Due) : Due := { d with val := some v, req := .none }

/-- The job whose JCB's expected word holds a place, and the place of that word. -/
def raisedJob (s : State) (p : Place) : Option (Job × Place) :=
  let w : Place := { p with addr := p.addr / 8 * 8 }
  (s.jobs.find? fun j => match leafOf s j.pasid j.jcb with | some (_, e) => leafPlace s j.pasid e j.jcb == w | none => false).map fun j => (j, w)

/-- Block-table entries that ranges take, at most 64 instances each (R339). -/
def entriesFor (n : Nat) : Nat := (n + 63) / 64

/-- Whether the command processor applies a raise of `expected` at `w` to `total` by a core (R340): its instance is one of the
job's and has not halted, B is above 0, and the raised total, with the ranges that are to be handed out again, needs no more than
bcap entries. -/
def raiseOk (s : State) (c : Nat) (j : Job) (w : Place) (total : Nat) (up : Int) : Bool :=
  let k := s.core c
  let cursor := (s.read64 (w.add 0x10)).toNat
  (match s.gaths.find? fun g => g.id == k.member.gath with | some g => g.owner.job == some j.id | none => false) && k.run != .off && k.run != .halted &&
    decide (0 < up) && decide (j.entries + (j.redo.map fun r => entriesFor r.2).sum + entriesFor (total - cursor) ≤ (s.read32 (w.add 0x20)).toNat)

def flagRaise (s : State) (id : Nat) : State :=
  { s with jobs := s.jobs.map fun j => if j.id = id then { j with flags := j.flags ||| 1 } else j }

/-- An atomic is performed at its home; the command processor is the home of a running job's `expected` (R340). -/
def performAtomic (s : State) (c : Nat) (p : Place) (port size : Nat) (b cmp : Word) (old : Nat) : State :=
  let plain := if !atomicWrites port size old cmp.toNat then s else s.writeAt p (leBytes size (atomicNew port size old b.toNat cmp.toNat))
  if port = 0x35C then
    match raisedJob s p with
    | none => plain
    | some (j, w) =>
      let total := if size = 8 then old + b.toNat else (plain.read64 w).toNat
      if raiseOk s c j w total (signed (8 * size) (b.toNat % 2 ^ (8 * size))) then plain else flagRaise s j.id
  else plain

end Sys2Proof.Machine
end

