-- ==== Sys2Proof/Machine/Gate.lean ====
section
/-!
DEFINITION. The store gate and the publish buffer (R124 to R126): appending to the gate, committing it at a mark,
performing publish-buffer entries, forwarding to the core's own loads (R121), and the mark's snapshot (R348).
-/

namespace Sys2Proof.Machine

/-! ### Publish buffer -/

def granuleOf (p : Place) : Place := { p with addr := p.addr / 32 * 32 }

def pubWrite (t : Tab Byte) : List (Nat × Byte) → Tab Byte
  | [] => t
  | (o, b) :: r => pubWrite (t.set o b) r

/-- Merge bytes of one granule into the buffer (R125). -/
def pubMerge (page : Nat) : List Pub → Place → List (Nat × Byte) → List Pub
  | [], g, d => [{ place := g, data := pubWrite .empty d, pages := [page] }]
  | e :: r, g, d => if e.place = g then { e with data := pubWrite e.data d, pages := page :: e.pages.erase page } :: r else e :: pubMerge page r g d

/-- One entry is performed at its home as one write of its masked bytes. -/
def performPub (s : State) (e : Pub) : State :=
  let s := writeMasked e.place e.data.cells s
  if e.place.host ∨ e.data.cells.length < 32 then s else { s with ecc := eccAfter s.ecc e.place.addr 32 }

/-- The entry of one granule is performed, if there is one. -/
def performGranule (s : State) (c : Nat) (g : Place) : State :=
  (((s.core c).pub.filter fun e => e.place == g).foldl performPub s).modCore c fun k => { k with pub := k.pub.filter fun e => e.place != g }

/-- Atomics of a core to one granule that are not performed yet, in issue order. -/
def dueAtomics (k : Core) (g : Place) : List Due :=
  (k.snap.due ++ k.arch.due.filter fun d => !(k.snap.due.any fun x => x.tag == d.tag)).filter fun d => match d.req with | .atomic p .. => granuleOf p == g | _ => false

/-- A handle atomic is performed at its home, after the core's own entry for the granule (R141). -/
def atomicArrival (s : State) (c : Nat) (d : Due) : State :=
  match d.req with
  | .atomic p port size b cmp =>
    let s := performGranule s c (granuleOf p)
    let old := ofLeBytes (s.readAt p size)
    let s := performAtomic s c p port size b cmp old
    fillBoth s c d.tag (Due.arrived (ofOld old))
  | _ => s

/-- The core's atomics to a granule are performed before its later stores to it, in issue order (R141, R143). -/
def settleGranule (s : State) (c : Nat) (g : Place) : State := (dueAtomics (s.core c) g).foldl (fun s d => atomicArrival s c d) s

/-- Every entry of a core is performed, oldest first; the manual orders different granules in no way (R125). -/
def performAll (s : State) (c : Nat) : State :=
  (((s.core c).pub.foldl performPub s)).modCore c fun k => { k with pub := [] }

/-- Room for a granule: a full buffer first performs its oldest entry (R126). -/
def pubRoom (s : State) (c : Nat) (g : Place) : State :=
  let k := s.core c
  if k.pub.length < Config.publishGranules ∨ k.pub.any (fun e => e.place == g) then s
  else
    match k.pub with
    | e :: r => (performPub s e).modCore c fun k => { k with pub := r }
    | [] => s

/-- Bytes of a store that fall into granule number `i` of its span. -/
def granuleBytes (p : Place) (d : List Byte) (g : Place) : List (Nat × Byte) :=
  ((List.range 32).filterMap fun o =>
    let a := g.addr + o
    if p.addr ≤ a ∧ a < p.addr + d.length then (d[a - p.addr]?).map fun b => (o, b) else none)

def granulesOf (p : Place) (n : Nat) : List Place :=
  if n = 0 then [] else (upto (p.addr / 32) ((p.addr + n - 1) / 32 - p.addr / 32 + 1)).map fun g => { p with addr := 32 * g }

/-- A committed global store, through the 64 KiB page at `page`, enters the buffer (R124). -/
def publish (s : State) (c page : Nat) (p : Place) (d : List Byte) : State :=
  (granulesOf p d.length).foldl
    (fun s g => (pubRoom (settleGranule s c g) c g).modCore c fun k => { k with pub := pubMerge page k.pub g (granuleBytes p d g) }) s

/-! ### The gate -/

/-- A gate entry; the 49th faults REGION_OVERFLOW subcode 1 (R269). -/
def gateAppend (s : State) (c bus : Nat) (g : Gated) : Res State :=
  if Config.gateEntries ≤ (s.core c).gate.length then .error (stop cRegionOverflow 1 bus)
  else .ok (s.modCore c fun k => { k with gate := k.gate ++ [g] })

/-- The token of a handle and offset, as a record names it. -/
def handleToken (n off : Nat) : Nat := fld 2 60 + fld n 48 + off

/-- A gated store reaches the publish buffer through a handle's contents; the page is dirty first (Table 2.3). -/
def publishStore (s : State) (c : Nat) (h : Handle) (x : Store) : State :=
  let pasid := (s.core c).member.pasid
  publish (dirtyPage s pasid h) c (h.pageOf x.off) (s.handlePlace pasid h x.off) x.data

/-- Commit of a gated store: to the scratchpad, or resolved through the handle's contents now, or through the shadow
that an `hrel` left (R39, R40), into the publish buffer. -/
def commitStore (s : State) (c : Nat) (x : Store) : Res State :=
  match x.h with
  | none => .ok (s.modCore c fun k => k.spadWrite x.off x.data)
  | some n =>
    match x.shadow with
    | some sh => do
      let (s, h) ← checkContents s c sh x.off x.data.length 62 true 2 15 (handleToken n x.off)
      pure (publishStore s c h x)
    | none => do
      let (s, h) ← checkContents s c ((s.core c).arch.handle n) x.off x.data.length 62 true 2 15 (handleToken n x.off)
      pure (publishStore (s.modArch c fun a => a.setHandle n h) c h x)

def commitEntry (s : State) (c : Nat) : Gated → Res State
  | .store x => commitStore s c x
  | .swpost off b => (needFolios (s.core c) (spadFolios off 16)).map fun _ => s.modCore c fun k => k.setSyncWord off ((k.syncWord off).post b)
  | .swadd off n => (needFolios (s.core c) (spadFolios off 16)).map fun _ => s.modCore c fun k => k.setSyncWord off ((k.syncWord off).add n)
  | .jset j v => .ok (s.modCore c fun k => k.setJoin j v)
  | .xfence => .ok (performAll s c)
  | .engine o => if o.port = 0x3C0 then (needFolios (s.core c) (listFolios o)).map fun _ => release s c o else .ok (release s c o)

def commitEntries (c : Nat) : List Gated → State → Res State
  | [], s => .ok s
  | g :: r, s => (commitEntry s c g).bind fun t => upon t (commitEntries c r t)

/-- The gate commits in gate order (R124). A stop leaves the region uncommitted. -/
def commitGate (s : State) (c : Nat) : Res State :=
  (commitEntries c (s.core c).gate s).map fun t => t.modCore c fun k => { k with gate := [] }

/-- Completed FIFO operations none of whose entries stand in the FIFO any more (R318). -/
def dropStreams (k : Core) : List Op :=
  k.ops.filter fun o => !(isFifoOp o.port && !o.owes && !(k.fifo.any fun e => e.op == o.id))

/-- The snapshot of the state as it stands (R348); entries popped before it are no longer held (R318). -/
def snapshot (s : State) (c : Nat) : State :=
  s.modCore c fun k => { k with snap := k.arch, epoch := k.epoch + 1, popped := [], ops := dropStreams k, marked := true, phaseDone := false, arrived := none }

/-! ### Forwarding (R121) -/

/-- The core's gated bytes at a scratchpad offset: the newest store issued before count `n`. -/
def gateSpad (gate : List Gated) (n off : Nat) (b : Byte) : Byte :=
  gate.foldl (fun b g => match g with
    | .store x => if x.h = none ∧ x.count < n ∧ x.off ≤ off ∧ off < x.off + x.data.length then x.data.getD (off - x.off) b else b
    | _ => b) b

/-- The core's gated bytes at a global byte: stores through handles, by the place their handle or shadow names. -/
def gateGlobal (s : State) (c n : Nat) (p : Place) (b : Byte) : Byte :=
  (s.core c).gate.foldl (fun b g => match g with
    | .store x =>
      match x.h with
      | some h =>
        let q := s.handlePlace (s.core c).member.pasid (x.shadow.getD ((s.core c).arch.handle h)) x.off
        if x.count < n ∧ q.host = p.host ∧ q.addr ≤ p.addr ∧ p.addr < q.addr + x.data.length then x.data.getD (p.addr - q.addr) b else b
      | none => b
    | _ => b) b

def pubByte (pub : List Pub) (p : Place) (b : Byte) : Byte :=
  match pub.find? fun e => e.place == granuleOf p with
  | some e => (e.data.find? (p.addr % 32)).getD b
  | none => b

/-- A byte of a local load: the committed array overlaid by the gate (R266). -/
def Core.loadSpad (k : Core) (n off : Nat) : Byte := gateSpad k.gate n off (k.spad off)

/-- A byte of a handle load: its home overlaid by the publish buffer and the gate (R121). -/
def loadGlobal (s : State) (c n : Nat) (p : Place) : Byte :=
  gateGlobal s c n p (pubByte (s.core c).pub p (s.byteAt p))

end Sys2Proof.Machine
end

