-- ==== Sys2Proof/Machine/Operands.lean ====
section
/-!
DEFINITION. Every operand form: the source ports of Table 8.13, the destinations of Table 8.14 with the conversions of
R175, address streams (R239), the decoder FIFO's head (R316), lanes of vector operands (R243), and what a move does
from its source to its trigger.
-/

namespace Sys2Proof.Machine

/-! ### Streams -/

/-- Loop index at an absolute level; 0 if the level is not active (R226). -/
def Arch.index (a : Arch) (lvl : Nat) : Nat := match a.loops[lvl]? with | some l => l.idx.toNat | none => 0

/-- A stream's token (R239). -/
def Arch.token (a : Arch) (n : Nat) : Word :=
  let t := a.stream n
  let b := t.b.toNat
  let off := t.base.toNat + a.index b * t.st0.toNat + a.index (b + 1) * t.st1.toNat + a.index (b + 2) * t.st2.toNat + a.index (b + 3) * t.st3.toNat
  let kind := t.kind.toNat
  let ix := t.index.toNat
  BitVec.ofNat 64 (fld kind 60 + (if kind = 1 then fld (ix % 16) 56 else 0) + (if kind = 2 then fld ix 48 else 0) + off % 2 ^ 40)

/-! ### The decoder FIFO -/

/-- A stream or `td.blk` that still owes entries (R316). -/
def fifoOwed (k : Core) : Bool := k.ops.any Op.owes

/-- The head of the FIFO: it freezes while entries are owed, and reads 0 if none is. -/
def fifoHead (k : Core) : Res Vec :=
  match k.fifo with
  | e :: _ => .ok e.bits
  | [] => if fifoOwed k then .error (.freeze .dx 0 15) else .ok 0

/-- Pop the head; more than 32 pops in a region fault REGION_OVERFLOW subcode 3 (R318). -/
def popHead (k : Core) (w : Nat) : Res Core :=
  match k.fifo with
  | e :: r => if 32 ≤ k.popped.length then .error (stop cRegionOverflow 3 w) else .ok { k with fifo := r, popped := k.popped ++ [e] }
  | [] => .ok k

/-! ### Sources -/

def Core.bundle (k : Core) : BitVec 512 := k.imem.get k.fill k.arch.pc.toNat

/-- A literal sign-extended to 64 bits (R180). -/
def litValue (b : BitVec 512) (n : Nat) : Word := (BitVec.ofNat 32 (bLit b n)).signExtend 64

def litPair (b : BitVec 512) (n : Nat) : Word := BitVec.ofNat 64 (bLit b n + fld (bLit b (n + 1)) 32)

/-- `ce.stat` (R312). -/
def Core.ceStatus (k : Core) : Word := k.ceStat ||| (if k.ops.any fun o => isCeTrig o.port && !o.joined then 2 else 0)

/-- Ring position `d` of ring `k` (R220). -/
def Ring.at' (r : Ring) (d : Nat) : Vec := ((match d with | 0 => r.d0 | 1 => r.d1 | 2 => r.d2 | _ => r.d3).getD 0)

/-- Folio that a source port lies in. -/
def sourceFolio (p : Nat) : Option Nat :=
  if isScalarReg p || isPredReg p || inRange p 0x0A8 8 then some 32
  else if inRange p 0x040 32 then some 34
  else if inRange p 0x060 32 then some 35
  else if inRange p 0x080 32 || inRange p 0x0B0 8 || inRange p 0x0B9 2 then some 33
  else none

def ofBool64 (b : Bool) : Word := if b then 1 else 0

/-- The value of a source port other than `dx.out` (Table 8.13). -/
def sourceValue (s : State) (c p : Nat) : Val :=
  let k := s.core c
  let a := k.arch
  if isScalarReg p then .scalar (a.s.get 0 p)
  else if isVectorReg p then .vec (a.v.get 0 (p - 0x40))
  else if inRange p 0x080 8 then .scalar (((a.ring ((p - 0x80) / 4)).at' (p % 4)).setWidth 64)
  else if inRange p 0x088 24 then .vec ((a.ring ((p - 0x80) / 4)).at' (p % 4))
  else if inRange p 0x0A0 5 then .scalar (litValue k.bundle (p - 0xA0))
  else if p = 0x0A5 then .scalar (litPair k.bundle 0)
  else if p = 0x0A6 then .scalar (litPair k.bundle 2)
  else if p = 0x0A7 then .scalar 0
  else if inRange p 0x0A8 8 then .scalar (a.token (p - 0xA8))
  else if p = 0x0B0 ∨ p = 0x0B1 then .scalar ((a.result p).setWidth 64)
  else if inRange p 0x0B2 6 || inRange p 0x0B9 2 then .vec (a.result p)
  else if p = 0x0BB then .scalar k.ceStatus
  else if isPredReg p then .scalar (ofBool64 (a.p.get false (p - 0xC0)))
  else if inRange p 0x0D0 6 then .scalar (BitVec.ofNat 64 (a.index (p - 0xD0)))
  else if p = 0x0D6 then .scalar (BitVec.ofNat 64 a.loops.length)
  else if inRange p 0x0E0 16 then .scalar ((k.join (p - 0xE0)).setWidth 64)
  else if p = 0x0F0 then .scalar (BitVec.ofNat 64 a.count)
  else if p = 0x0F1 then .scalar (Config.coreEnergy c k.member.gath k.energy a.count)
  else if p = 0x0F2 then .scalar (BitVec.ofNat 64 c)
  else if p = 0x0F3 then .scalar (BitVec.ofNat 64 k.member.gath)
  else if p = 0x0F4 then .scalar (BitVec.ofNat 64 k.member.size)
  else if p = 0x0F5 then .scalar (BitVec.ofNat 64 k.member.jobidx)
  else if p = 0x0F6 then .scalar a.fstat
  else if p = 0x0F7 then .scalar (BitVec.ofNat 64 k.member.ctx)
  else .scalar (BitVec.ofNat 64 k.member.rank)

/-- Read a source port: its folio must be PRESENT, and `dx.out` waits for an entry that is owed. -/
def readSource (s : State) (c p : Nat) : Res Val :=
  let k := s.core c
  if p = 0x0B8 then (fifoHead k).map Val.vec
  else
    match sourceFolio p with
    | some f => (needFolio k f).map fun _ => sourceValue s c p
    | none => .ok (sourceValue s c p)

/-! ### Destinations -/

/-- Mode latches, `.bind` and engine configuration ports hold 64 bits. -/
def isConfig (p : Nat) : Bool :=
  p == 0x104 || p == 0x107 || p == 0x10A || p == 0x10C || p == 0x10F || p == 0x112 || inRange p 0x120 0x14

/-- Operand latches of 1,024 bits that keep the class of their value (R175). -/
def isWideLatch (p : Nat) : Bool := p == 0x102 || p == 0x103 || p == 0x105 || p == 0x106 || p == 0x108 || p == 0x109 || p == 0x10B

def isAtomicLatch (p : Nat) : Bool := p == 0x10E || p == 0x111

/-- Write a register, latch or configuration port, converting to its width (R175). -/
def Arch.write (a : Arch) (p : Nat) (v : Val) : Arch :=
  if isScalarReg p then a.setS p v.lo
  else if isVectorReg p then a.setV (p - 0x40) v.bits
  else if isPredReg p then a.setP (p - 0xC0) (v.lo != 0)
  else if p = 0x140 then { a with lend := v.lo }
  else if p = 0x141 then { a with fstat := fstatClear a.fstat v.lo }
  else if p = 0x142 then { a with jcmp := v.lo }
  else if isConfig p then a.setConfig p v.lo
  else if isWideLatch p then a.setLatch p v
  else if isAtomicLatch p then a.setLatch p (.vec v.bits)
  else a.setLatch p (.scalar v.lo)

/-- Folio that a destination lies in; `cu.lend`, `cu.jcmp` and `fstat` stand in the sequencer block. -/
def destFolio (p : Nat) : Option Nat :=
  if inRange p 0x040 32 then some 34 else if inRange p 0x060 32 then some 35 else if inRange p 0x140 3 then none else some 32

def needDest (k : Core) (p : Nat) : Res Unit := match destFolio p with | some f => needFolio k f | none => .ok ()

def dirtyDest (k : Core) (p : Nat) : Core := match destFolio p with | some f => k.dirty f | none => k

def writeDest (s : State) (c p : Nat) (v : Val) : State := s.modCore c fun k => dirtyDest { k with arch := k.arch.write p v } p

/-! ### Lanes -/

/-- Element `i` of `n` bits; a scalar operand supplies its low bits to every lane (R175). -/
def Val.elem (v : Val) (n i : Nat) : Nat := if v.vector then (v.bits.toNat >>> (n * i)) % 2 ^ n else v.bits.toNat % 2 ^ n

/-- The low `w` bits of an operand as a bit string: a scalar one repeats its element of `n` bits (R250). -/
def repeatBits (x n : Nat) : Nat → Nat
  | 0 => 0
  | k + 1 => x % 2 ^ n + (repeatBits x n k) <<< n

def Val.plain (v : Val) (w n : Nat) : Nat := if v.vector then v.bits.toNat % 2 ^ w else repeatBits v.bits.toNat n (w / n) % 2 ^ w

/-- Pack lanes of `n` bits from bit 0. -/
def packLanes (n : Nat) : List Nat → Nat
  | [] => 0
  | x :: r => x % 2 ^ n + (packLanes n r) <<< n

/-- Width of a vector or SF trigger in bits (Table 8.3). -/
def widthBits (w : BitVec 2) : Nat := if w = 1 then 512 else if w = 2 then 256 else 1024

/-! ### Triggers -/

/-- A trigger as it starts: core, bus, port, operand B and width, and the registers as step 4 of R183 reads them, from
which a bound store takes its token (R239). -/
structure Trig where
  c : Nat
  bus : Nat
  port : Nat
  b : Val
  w : Nat
  pre : Arch
deriving DecidableEq, Repr

/-- What a trigger does at step 6 of R183. -/
abbrev Body := Trig → State → Res State

/-- A trigger reads its unit's latches, which lie in S0 (R240, R277, R296); the control unit has none there (Table 18.8). -/
def needLatches (s : State) (c port : Nat) : Res Unit := if isCuTrig port then .ok () else needFolio (s.core c) 32

/-- Step 6 of R183 for one trigger. -/
def startTrigger (x : Trig) (body : Body) (s : State) : Res State := (needLatches s x.c x.port).bind fun _ => body x s

/-- One move into a trigger, on its own: steps 4 and 6 of R183. -/
def runTrigger (c : Nat) (bus src : Nat) (keep : Bool) (port w : Nat) (body : Body) (s : State) : Res State := do
  let v ← atPart bus (readSource s c src)
  let pre := (s.core c).arch
  let s ← if src = 0x0B8 ∧ keep = false then (popHead (s.core c) bus).map (s.setCore c) else pure s
  atPart bus (startTrigger { c := c, bus := bus, port := port, b := v, w := w, pre := pre } body s)

/-- The meaning of a row of Table 8.15 reached by a 64-bit or memory trigger. -/
def runMv (m : Mv) (port : Nat) (body : Body) (s : State) : Host.Outcome State Fault Refusal :=
  finish s s.cur (runTrigger s.cur m.bus.val m.src.toNat m.keep port 1024 body s)

/-- The meaning of a vector or SF trigger. A width modifier leaves no room for keep: `dx.out` is popped. -/
def runVm (m : Vm) (port : Nat) (body : Body) (s : State) : Host.Outcome State Fault Refusal :=
  finish s s.cur (runTrigger s.cur m.bus.val m.src.toNat false port (widthBits m.w) body s)

/-- What an address-slot operation does at step 5 of R183, from the registers as step 4 reads them. -/
abbrev SlotBody := Nat → Arch → State → Res State

/-- An operation of the address slot on its own. -/
def runSlot (f : SlotBody) (s : State) : Host.Outcome State Fault Refusal := finish s s.cur (f s.cur (s.core s.cur).arch s)

/-- A result that sets its unit's port and ring, written by S1's owner. -/
def due (x : Trig) (s : State) (lat : Nat) (v : Vec) (flags : Word) : Res State :=
  .ok (deliver s x.c x.bus (busResult x.bus) lat v flags)

/-! ### Marks (R347, R348) -/

/-- An `xlt` whose walk has not finished, or has faulted, holds a mark back (R38). -/
def needWalks : List Due → Res Unit
  | [] => .ok ()
  | d :: r =>
    match d.bad, d.req with
    | some f, _ => .error (.faultAt f d.bundle d.count)
    | none, .xlt va _ => .error (.freeze .xlt va.toNat 15)
    | none, _ => needWalks r

/-- What comes before a mark bundle's own steps: its region's gate commits and the snapshot is taken, once (R348). The mark
of an atomic or `ard` takes its snapshot again behind the issue; a `cu.trap` or `cu.brk` in that bundle, which never lets
it issue, rolls back to the one taken here, with the atomic not performed. DESIGN CHOICE (log entry 17). -/
def markFirst (s : State) (c : Nat) : Res State :=
  do
    let _ ← needWalks (s.core c).arch.due
    if (s.core c).marked then pure s else (commitGate s c).map (snapshot · c)

/-- Freezes that follow the commit and the snapshot: the mark has them behind it while it waits (R86, R93, R130). -/
def waitsAtMark (why : Freeze) : Bool := why == .swwait || why == .jwait || why == .phase || why == .queue || why == .dx

/-- The state in which a mark bundle waits: a `phase` arrives at its barrier and publishes (R130). -/
def waitState (s : State) (c : Nat) (why : Freeze) (arg : Nat) : State :=
  if why = .phase then performAll (s.modCore c fun k => { k with arrived := some arg }) c else s

/-- Faults that the steps of a bundle raise once nothing freezes it: traps, breaks, loop, call and region limits. Static,
mode, token and right checks come before them (R350). -/
def stepFault : Stop → Bool
  | .fault f => f.code == cTrap || f.code == cBreak || f.code == cLoopOverflow || f.code == cLoopUnderflow || f.code == cCallOverflow || f.code == cRegionOverflow
  | _ => false

/-- A mark bundle: `f` runs after the commit and the snapshot. A check that fails is raised before the commit (R350), a
fault of the bundle's steps behind it. -/
def runMark (s : State) (c : Nat) (f : State → Res State) : State :=
  match markFirst s c with
  | .error e => takeStop s c e
  | .ok t =>
    match f t with
    | .ok u => u.modCore c fun k => { k with marked := false, freeze := .none, waitVa := none }
    | .error e =>
      let t := e.walked t
      match e.bare with
      | .freeze why arg w => if waitsAtMark why then takeFreeze (waitState t c why arg) c why arg w else takeFreeze (s.keepWalks t) c why arg w
      | e => takeStop (if stepFault e then t else s.keepWalks t) c e

/-- A trigger that is a mark, on its own. -/
def runMarkMv (m : Mv) (port : Nat) (body : Body) (s : State) : Host.Outcome State Fault Refusal :=
  .next (runMark s s.cur (runTrigger s.cur m.bus.val m.src.toNat m.keep port 1024 body))

/-- A mark whose snapshot is taken again after the issue (R142). -/
def runAfterMarkMv (m : Mv) (port : Nat) (body : Body) (s : State) : Host.Outcome State Fault Refusal :=
  .next (runMark s s.cur fun t => (runTrigger s.cur m.bus.val m.src.toNat m.keep port 1024 body t).map (snapshot · s.cur))

end Sys2Proof.Machine
end

