-- ==== Sys2Proof/Machine/Memory.lean ====
section
/-!
DEFINITION. The memory units M0 and M1 (R264 to R273): loads, stores, handles, tags, sync words, join counters, atomics,
phases and fences, and the arrival of late results and walks.
-/

namespace Sys2Proof.Machine

/-- Operand A of a memory unit: its `.a` latch. -/
def unitA (k : Core) (bus : Nat) : Word := (k.arch.latch (0x10D + 3 * (bus - 6))).lo
/-- Operand C: its `.o2` latch. -/
def unitC (k : Core) (bus : Nat) : Vec := (k.arch.latch (0x10E + 3 * (bus - 6))).bits
def unitBind (k : Core) (bus : Nat) : Word := k.arch.config (0x10F + 3 * (bus - 6))

/-- A result that comes later than its issue: the request it waits for. -/
def lateDue (x : Trig) (s : State) (lat page : Nat) (req : Req) : State :=
  let s := { s with fresh := s.fresh + 1 }
  s.modArch x.c fun a =>
    a.addDue { tag := s.fresh, bus := x.bus, port := busResult x.bus, dueAt := a.count + lat, val := none, flags := 0, req := req, inst := none, bad := none,
               bundle := a.pc.toNat, count := a.count, epoch := (s.core x.c).epoch, page := page }

/-! ### Reads performed (R127) -/

/-- The core's own gated posts and additions to one word, in gate order, with those that M0 gates in the same bundle (R85,
log entry 51). -/
def gatedWord (off : Nat) (g : List Gated) (w : SyncWord) : SyncWord :=
  g.foldl (fun w e => match e with
    | .swpost o b => if o = off then w.post b else w
    | .swadd o n => if o = off then w.add n else w
    | _ => w) w

/-- A sync word as `swrd` reads it. -/
def Core.syncRead (k : Core) (off : Nat) : Vec := (gatedWord off k.gate (k.syncWord off)).read.setWidth 1024

/-- The core's own scratchpad as a load of issue count `n` reads it (R266). -/
def Core.ownRead (k : Core) (n off size sx : Nat) : Vec := extendLoad size sx ((List.range size).map fun i => k.loadSpad n (off + i))

/-- A load is performed: its whole width at one instant, one of the outcomes that R26 permits for more than 32 bytes (log
entry 51). -/
def performLoad (s : State) (c : Nat) (d : Due) : State :=
  match d.req with
  | .load p size sx => fillBoth s c d.tag (Due.arrived (extendLoad size sx ((List.range size).map fun i => loadGlobal s c d.count (p.add i))))
  | .peer e off size sx =>
    if (s.core e).allPresent (spadFolios off size) then fillBoth s c d.tag (Due.arrived (extendLoad size sx ((s.core e).spadRead off size)))
    else s.modCore e fun k => k.touchAll (spadFolios off size)
  | _ => s

def Due.isLoad (d : Due) : Bool := match d.req with | .load .. => true | .peer .. => true | _ => false

/-- Loads not performed yet that a mark or an observation orders before a read of an epoch (R127). -/
def loadsBefore (k : Core) (epoch : Nat) : List Due := (k.snap.due ++ k.arch.due).filter fun x => x.isLoad && decide (x.epoch < epoch)

def performBefore (s : State) (c epoch : Nat) : State := (loadsBefore (s.core c) epoch).foldl (fun s x => performLoad s c x) s

/-- A read of the core's own array is performed in its bundle (R266), behind the loads that come before it, and its value
delivered after 6 bundles. -/
def ownDue (x : Trig) (s : State) (v : Core → Vec) : Res State :=
  let s := performBefore s x.c (s.core x.c).epoch
  due x s 6 (v (s.core x.c)) 0

/-- Folios of a peer's scratchpad that a load reads: the reader freezes until they are PRESENT, and its touch starts the pull at
the peer (R20, Table 10.1); DEDUCED (log entry 15). -/
def needPeer (s : State) (e bus : Nat) (fs : List Nat) : Res Unit :=
  match fs.find? fun f => ((s.core e).folio f).pres != .present with
  | some f => .error (.freeze .peer (141 * e + f) bus)
  | none => .ok ()

/-! ### Loads (R265 to R267) -/

/-- A load of `size` bytes at the token in B. -/
def load (size sx : Nat) : Body := fun x s => do
  let t := x.b.lo
  checkToken s x.c t size false x.bus
  if tokKind t = 0 then
    let k := s.core x.c
    let _ ← needFolios k (spadFolios (tokOff t) size)
    ownDue x s fun k => k.ownRead k.arch.count (tokOff t) size sx
  else if tokKind t = 1 then do
    let e := peerCore x.c (tokPeer t)
    let _ ← needPeer s e x.bus (spadFolios (tokOff t) size)
    pure (lateDue x s 40 0 (.peer e (tokOff t) size sx))
  else
    let (s, h) ← checkHandle s x.c t size 63 false x.bus
    pure (lateDue x s 96 (h.pageOf (tokOff t)) (.load (s.handlePlace (s.core x.c).member.pasid h (tokOff t)) size sx))

/-! ### Stores (R268, R269) -/

/-- The token a store goes to: the bound stream's, as step 4 reads it, or operand A (R239). -/
def storeToken (k : Core) (x : Trig) : Res Word :=
  let b := (unitBind k x.bus).toNat
  if b ≤ 7 then .ok (x.pre.token b) else if b = 8 then .ok (unitA k x.bus) else .error (stop cIllegalMode 12 x.bus)

def store (size : Nat) : Body := fun x s => do
  let t ← storeToken (s.core x.c) x
  checkToken s x.c t size true x.bus
  let data := leBytes size x.b.bits.toNat
  if tokKind t = 0 then
    let _ ← needFolios (s.core x.c) (spadFolios (tokOff t) size)
    gateAppend s x.c x.bus (.store { h := none, off := tokOff t, data := data, shadow := none, count := (s.core x.c).arch.count })
  else
    let (s, _) ← checkHandle s x.c t size 62 true x.bus
    upon s <| gateAppend s x.c x.bus (.store { h := some (tokHandle t), off := tokOff t, data := data, shadow := none, count := (s.core x.c).arch.count })

/-! ### Handles (R37 to R40) -/

def xlt : Body := fun x s => do
  let k := s.core x.c
  let _ ← needFolio k 32
  pure (lateDue x s 24 0 (.xlt x.b.lo (bits (unitA k x.bus) 4 0)))

/-- Give each gated store through handle `n` the shadow of its contents (R40). -/
def shadowGate (n : Nat) (h : Handle) (g : List Gated) : List Gated :=
  g.map fun e => match e with
    | .store y => if y.h = some n ∧ y.shadow = none then .store { y with shadow := some h } else e
    | _ => e

def hrel : Body := fun x s => do
  let b := x.b.lo
  let n := if bits b 63 60 = 2 then bits b 52 48 else bits b 4 0
  let k := s.core x.c
  let _ ← needFolio k 32
  let h := k.arch.handle n
  if h.valid then pure (s.setCore x.c ({ k with arch := k.arch.setHandle n { h with valid := false }, gate := shadowGate n h k.gate }.dirty 32)) else pure s

/-! ### Tags (R74 to R78) -/

def tlook : Body := fun x s => do
  let k := s.core x.c
  let z := bits (unitC k x.bus) 1 0
  let key := x.b.lo.toNat
  if z = 3 then .error (stop cIllegalMode 8 x.bus)
  else
    let f := tagFolio (tagSet key z * 8)
    let _ ← needFolio k f
    let r := k.arch.tagLook key z
    due x (s.setCore x.c ({ k with arch := r.1 }.dirty f)) 3 (r.2.setWidth 1024) 0

/-- `tins` and `tdel` never freeze (Table 12.11): on a tag folio that is not PRESENT they act when it is pulled. -/
def tagWrite (x : Trig) (s : State) (o : TagOp) : Res State :=
  let k := s.core x.c
  let f := o.folio
  pure (if (k.folio f).pres = .present then s.setCore x.c ({ k with arch := TagOp.apply k.arch o }.dirty f)
    else s.setCore x.c { k with arch := { k.arch with tagOps := k.arch.tagOps ++ [o] } })

def tins : Body := fun x s => do
  let k := s.core x.c
  let z := bits (unitC k x.bus) 1 0
  let key := x.b.lo.toNat
  if z = 3 then .error (stop cIllegalMode 8 x.bus)
  else tagWrite x s (.install key z (bits (unitA k x.bus) 2 0))

def tdel : Body := fun x s => do
  let k := s.core x.c
  let z := bits (unitC k x.bus) 1 0
  let key := x.b.lo.toNat
  if bit (unitC k x.bus) 2 then tagWrite x s (.clear (bits x.b.lo 9 0))
  else if z = 3 then .error (stop cIllegalMode 8 x.bus)
  else tagWrite x s (.delete key z)

/-! ### Sync words and join counters (R83 to R86, R92 to R94) -/

/-- The word an operation names by A[18:0], checked as R83 states. -/
def syncOffset (k : Core) (bus : Nat) : Res Nat :=
  let off := bits (unitA k bus) 18 0
  if Config.scratchBytes ≤ off then .error (stopAt cIllegalAddress 3 bus (unitA k bus).toNat)
  else if off % 16 ≠ 0 then .error (stopAt cIllegalAddress 5 bus (unitA k bus).toNat)
  else .ok off

def swpost : Body := fun x s => do
  let off ← syncOffset (s.core x.c) x.bus
  gateAppend s x.c x.bus (.swpost off x.b.lo)

def swadd : Body := fun x s => do
  let off ← syncOffset (s.core x.c) x.bus
  gateAppend s x.c x.bus (.swadd off (bits x.b.lo 31 0))

def swrd : Body := fun x s => do
  let k := s.core x.c
  let off ← syncOffset k x.bus
  let _ ← needFolios k (spadFolios off 16)
  ownDue x s fun k => k.syncRead off

def swwait : Body := fun x s => do
  let k := s.core x.c
  let off ← syncOffset k x.bus
  let _ ← needFolios k (spadFolios off 16)
  if (k.syncWord off).reached (bits x.b.lo 15 0) then pure s else .error (.freeze .swwait off 15)

def jwait : Body := fun x s => do
  let k := s.core x.c
  let j := bits (unitA k x.bus) 3 0
  if joinReached (k.join j) (x.b.lo.setWidth 32) then pure s else .error (.freeze .jwait j 15)

def jset : Body := fun x s => gateAppend s x.c x.bus (.jset (bits (unitA (s.core x.c) x.bus) 3 0) (x.b.lo.setWidth 32))

/-! ### Atomics (R270 to R272) -/

/-- An atomic or `ard`: local in this bundle, through a handle at an instant up to its due bundle. -/
def atomic : Body := fun x s => do
  let k := s.core x.c
  let c := unitC k x.bus
  let size := atomicSize x.port c
  let t := if isArd x.port then x.b.lo else unitA k x.bus
  checkToken s x.c t size true x.bus
  if tokKind t = 0 then
    let _ ← needFolios k (spadFolios (tokOff t) size)
    let old := ofLeBytes (k.spadRead (tokOff t) size)
    let s := if !atomicWrites x.port size old (bits c 63 0) then s else s.setCore x.c (k.spadWrite (tokOff t) (leBytes size (atomicNew x.port size old x.b.lo.toNat (bits c 63 0))))
    due x s 8 (ofOld old) 0
  else
    let (s, h) ← checkHandle s x.c t size 53 (!isArd x.port) x.bus
    if h.kind = 3 then .error (.behind s (stopAt cTranslate 7 x.bus t.toNat))
    else
      let s := if isArd x.port then s else dirtyPage s (s.core x.c).member.pasid h
      pure (lateDue x s 128 (h.pageOf (tokOff t)) (.atomic (s.handlePlace (s.core x.c).member.pasid h (tokOff t)) x.port size x.b.lo (BitVec.ofNat 64 (bits c 63 0))))

/-! ### Phases and fences (R129 to R133, R138) -/

/-- A phase waits for its barrier, unless the barrier of this mark has completed (R133). -/
def phase : Body := fun x s =>
  let sc := bits x.b.lo 2 0
  if sc = 0 ∨ 4 < sc then .error (stop cIllegalMode 9 x.bus)
  else if (s.core x.c).phaseDone then .ok (performAll s x.c)
  else .error (.freeze .phase sc 15)

def xfence : Body := fun x s => if bits x.b.lo 2 0 = 0 then gateAppend s x.c x.bus .xfence else .error (stop cIllegalMode 10 x.bus)

/-! ### Arrivals of late results (R218, R38) -/

/-- The data of a late load, atomic or `ard` arrives (R218); what program order puts before it is performed first. -/
def lateArrival (s : State) (c tag : Nat) : State :=
  match findDue (s.core c) tag with
  | none => s
  | some d =>
    match d.req with
    | .atomic p .. => (((dueAtomics (s.core c) (granuleOf p)).takeWhile fun x => x.tag != tag) ++ [d]).foldl (fun s x => atomicArrival s c x) s
    | _ =>
      let s := performBefore s c d.epoch
      if (loadsBefore (s.core c) d.epoch).isEmpty then performLoad s c d else s

/-- Atomics that are still due are performed at their homes: a core that ends discards only their results (R222, R271). -/
def settleAtomics (s : State) (c : Nat) : State :=
  (s.core c).arch.due.foldl (fun s d => match d.req with | .atomic .. => lateArrival s c d.tag | _ => s) s

/-- The page walk of an `xlt` finishes (R37, R38). A walk that meets `migrating` does not finish (R47). -/
def walkArrival (s : State) (c tag : Nat) : State :=
  match findDue (s.core c) tag with
  | none => s
  | some d =>
    match d.req with
    | .xlt va h =>
      match walk s (memUnit (dieOf c)) (s.core c).member.pasid va.toNat false with
      | .ok (t, e) =>
        fillBoth t c tag fun d =>
          { d.arrived (BitVec.ofNat 1024 (handleToken h (va.toNat % pageBytes (leafSize e)))) with inst := some (h, handleOf e va.toNat) }
      | .error (.fault code sub) =>
        fillBoth (dropFaulted s (dieOf c) (s.core c).member.pasid va.toNat) c tag fun d => { d with req := .none, bad := some (CFault.mk' code sub d.bus va.toNat) }
      | .error _ => s
    | _ => s

def execLateResultArrival (core tag : Nat) (s : State) : Host.Outcome State Fault Refusal := .next (lateArrival s core tag)
def execXltWalkComplete (core tag : Nat) (s : State) : Host.Outcome State Fault Refusal := .next (walkArrival s core tag)

/-- A page overlaps a shoot-down's range. -/
def Shoot.hits (r : Shoot) (va n : Nat) : Bool := r.all || (decide (va < r.hi) && decide (r.lo < va + n))

/-- A 64 KiB page of a PASID that a shoot-down drains (R44). -/
def Shoot.drains (r : Shoot) (pasid page : Nat) : Bool := r.pasid == pasid && r.hits page 0x10000

/-- A shoot-down over a page of a core's entry is being served, and the core's agent has not acknowledged it (R43, R44). -/
def draining (s : State) (c : Nat) (e : Pub) : Bool :=
  match s.shoots with
  | [] => false
  | r :: _ => !r.acked.contains (dieOf c) && e.pages.any (r.drains (s.core c).member.pasid)

/-- The events at which the ZL9 performs an entry (R125, R126): a phase under way, the drain of a shoot-down over a page of the
entry, an atomic to the granule, the end of the member or its pre-emption. A commit that finds the buffer full makes its own room
(`pubRoom`). -/
def mayPublish (s : State) (c : Nat) (g : Place) : Bool :=
  let k := s.core c
  k.freeze == .phase || k.arrived.isSome || k.run == .halted || k.stopping || !(dueAtomics k g).isEmpty ||
    (k.pub.any fun e => e.place == g && draining s c e)

/-- PUBLISH_ENTRY_PERFORM: granule number `granule`, host memory from 2^47 on. -/
def execPublishEntryPerform (core granule : Nat) (s : State) : Host.Outcome State Fault Refusal :=
  let g : Place := { host := decide (2 ^ 47 ≤ granule), addr := 32 * (granule % 2 ^ 47) }
  .next (if mayPublish s core g then performGranule s core g else s)

/-! ### Their meanings -/

def execMLdv (m : Mv) (s : State) : Host.Outcome State Fault Refusal := runMv m 0x340 (load 128 0) s
def execMLdvh (m : Mv) (s : State) : Host.Outcome State Fault Refusal := runMv m 0x341 (load 64 0) s
def execMLdvq (m : Mv) (s : State) : Host.Outcome State Fault Refusal := runMv m 0x342 (load 32 0) s
def execMLd64 (m : Mv) (s : State) : Host.Outcome State Fault Refusal := runMv m 0x343 (load 8 0) s
def execMLd32 (m : Mv) (s : State) : Host.Outcome State Fault Refusal := runMv m 0x344 (load 4 32) s
def execMLd32u (m : Mv) (s : State) : Host.Outcome State Fault Refusal := runMv m 0x345 (load 4 0) s
def execMLd16 (m : Mv) (s : State) : Host.Outcome State Fault Refusal := runMv m 0x346 (load 2 16) s
def execMLd16u (m : Mv) (s : State) : Host.Outcome State Fault Refusal := runMv m 0x347 (load 2 0) s
def execMLd8 (m : Mv) (s : State) : Host.Outcome State Fault Refusal := runMv m 0x348 (load 1 8) s
def execMLd8u (m : Mv) (s : State) : Host.Outcome State Fault Refusal := runMv m 0x349 (load 1 0) s
def execMStv (m : Mv) (s : State) : Host.Outcome State Fault Refusal := runMv m 0x34A (store 128) s
def execMStvh (m : Mv) (s : State) : Host.Outcome State Fault Refusal := runMv m 0x34B (store 64) s
def execMStvq (m : Mv) (s : State) : Host.Outcome State Fault Refusal := runMv m 0x34C (store 32) s
def execMSt64 (m : Mv) (s : State) : Host.Outcome State Fault Refusal := runMv m 0x34D (store 8) s
def execMSt32 (m : Mv) (s : State) : Host.Outcome State Fault Refusal := runMv m 0x34E (store 4) s
def execMSt16 (m : Mv) (s : State) : Host.Outcome State Fault Refusal := runMv m 0x34F (store 2) s
def execMSt8 (m : Mv) (s : State) : Host.Outcome State Fault Refusal := runMv m 0x350 (store 1) s
def execMXlt (m : Mv) (s : State) : Host.Outcome State Fault Refusal := runMv m 0x351 xlt s
def execMHrel (m : Mv) (s : State) : Host.Outcome State Fault Refusal := runMv m 0x352 hrel s
def execMTlook (m : Mv) (s : State) : Host.Outcome State Fault Refusal := runMv m 0x353 tlook s
def execMTins (m : Mv) (s : State) : Host.Outcome State Fault Refusal := runMv m 0x354 tins s
def execMTdel (m : Mv) (s : State) : Host.Outcome State Fault Refusal := runMv m 0x355 tdel s
def execMSwpost (m : Mv) (s : State) : Host.Outcome State Fault Refusal := runMv m 0x356 swpost s
def execMSwadd (m : Mv) (s : State) : Host.Outcome State Fault Refusal := runMv m 0x357 swadd s
def execMSwrd (m : Mv) (s : State) : Host.Outcome State Fault Refusal := runMv m 0x358 swrd s
def execMSwwait (m : Mv) (s : State) : Host.Outcome State Fault Refusal := runMarkMv m 0x359 swwait s
def execMJwait (m : Mv) (s : State) : Host.Outcome State Fault Refusal := runMarkMv m 0x35A jwait s
def execMJset (m : Mv) (s : State) : Host.Outcome State Fault Refusal := runMv m 0x35B jset s
def execMAadd (m : Mv) (s : State) : Host.Outcome State Fault Refusal := runAfterMarkMv m 0x35C atomic s
def execMAmax (m : Mv) (s : State) : Host.Outcome State Fault Refusal := runAfterMarkMv m 0x35D atomic s
def execMAmaxf (m : Mv) (s : State) : Host.Outcome State Fault Refusal := runAfterMarkMv m 0x35E atomic s
def execMAmin (m : Mv) (s : State) : Host.Outcome State Fault Refusal := runAfterMarkMv m 0x35F atomic s
def execMAxchg (m : Mv) (s : State) : Host.Outcome State Fault Refusal := runAfterMarkMv m 0x360 atomic s
def execMAcas (m : Mv) (s : State) : Host.Outcome State Fault Refusal := runAfterMarkMv m 0x361 atomic s
def execMAand (m : Mv) (s : State) : Host.Outcome State Fault Refusal := runAfterMarkMv m 0x362 atomic s
def execMAor (m : Mv) (s : State) : Host.Outcome State Fault Refusal := runAfterMarkMv m 0x363 atomic s
def execMPhase (m : Mv) (s : State) : Host.Outcome State Fault Refusal := runMarkMv m 0x364 phase s
def execMXfence (m : Mv) (s : State) : Host.Outcome State Fault Refusal := runMv m 0x365 xfence s
def execMArd (m : Mv) (s : State) : Host.Outcome State Fault Refusal := runAfterMarkMv m 0x366 atomic s

end Sys2Proof.Machine
end

