-- ==== Sys2Proof/Machine/Tensor.lean ====
section
/-!
DEFINITION. What every engine shares in reaching memory: the tensor table and shard maps (R53 to R64), accesses at a
virtual address and through remote windows, requests to other modules (R63, R67, R140, R381, R383), and scratchpads.
-/

namespace Sys2Proof.Machine

/-- Why an engine's unit of progress does not happen. -/
inductive EStop where
  /-- it parks on a fault -/
  | fault (f : CFault)
  /-- a page at this virtual address migrates (R47), or is to be duplicated before a write (R48), for an agent's walk -/
  | migrating (agent va : Nat)
  | cow (agent va : Nat)
  /-- it waits for folios of a core, whose pulls its touch starts -/
  | folio (core : Nat) (fs : List Nat)
  /-- it waits for answers; what has been requested stands in the state -/
  | hold (s : State)
  /-- one of the others, met behind walks and fills that stand in the state (R29, R64) -/
  | behind (s : State) (e : EStop)

/-- What stops the unit, without the state behind which it was met. -/
def EStop.bare : EStop → EStop
  | .behind _ e => e.bare
  | e => e

abbrev ERes (α : Type) := Except EStop α

def eFault (code sub addr : Nat) : EStop := .fault (CFault.mk' code sub 15 addr)

/-- What follows work that stands in `s`: a stop in it is met behind that work. -/
def along {α : Type} (s : State) (x : ERes α) : ERes α :=
  match x with
  | .error (.hold t) => .error (.hold t)
  | .error (.behind t e) => .error (.behind t e)
  | .error e => .error (.behind s e)
  | .ok v => .ok v

/-- A fault as another agent's record has it. -/
def EStop.mapFault (f : CFault → CFault) : EStop → EStop
  | .fault x => .fault (f x)
  | .behind s e => .behind s (e.mapFault f)
  | e => e

/-- A walk of an agent at `va`, for an access at `at'`, does not answer; the agent no longer holds a leaf that it faulted on
(R35). -/
def walkStop (s : State) (agent pasid at' va : Nat) : XFail → EStop
  | .fault code sub => .behind (markFaulted s agent pasid va) (eFault code sub at')
  | .migrating => .behind s (.migrating agent va)
  | .cow t => .behind t (.cow agent va)

/-! ### The operation in the state -/

def State.op (s : State) (c id : Nat) : Option Op := (s.core c).op? id

def State.modOp (s : State) (c id : Nat) (f : Op → Op) : State :=
  s.modCore c fun k => match k.op? id with | some o => k.setOp (f o) | none => k

/-! ### Requests to other modules -/

def Packet.zero : Packet :=
  { op := 0, timetabled := false, circ := 0, dst := 0, src := 0, pasid := 0, len1 := 0, fseq := 0, va := 0, mapver := 0, tid := 0, swcore := 0, sw := 0, swv := false,
    aop := 0, w32 := false, operand := 0, cmp := 0, data := [], run := none, gath := 0 }

/-- Packet operations, Table 21.4. -/
def pWrite : BitVec 4 := 1
def pRead : BitVec 4 := 2
def pRdata : BitVec 4 := 3
def pAtomic : BitVec 4 := 4
def pAresp : BitVec 4 := 5
def pSack : BitVec 4 := 6
def pMoved : BitVec 4 := 7
def pNak : BitVec 4 := 8
def pBarrier : BitVec 4 := 9
def pReady : BitVec 4 := 10

/-- The flow from this module's die to a node (R381). -/
def flowKey (die node : Nat) : Nat := die * 32768 + node

def State.flow (s : State) (key : Nat) : Flow := s.flows.get .zero key
def State.setFlow (s : State) (key : Nat) (f : Flow) : State := { s with flows := s.flows.put .zero key f }

/-- Send a sprayed packet: it takes the flow's next number and stays unacknowledged. -/
def sendSprayed (s : State) (die node : Nat) (p : Packet) (core op : Nat) : State :=
  let f := s.flow (flowKey die node)
  let p := { p with dst := BitVec.ofNat 15 node, src := BitVec.ofNat 15 (s.node die), fseq := BitVec.ofNat 32 f.seq }
  let s := s.setFlow (flowKey die node) { f with seq := (f.seq + 1) % 2 ^ 32, unacked := f.unacked ++ [(p, 1, core, op)] }
  { s with tx := s.tx ++ [p] }

/-- A place on a path: this module's, or a remote window's or node's. -/
inductive Target where
  | here (p : Place)
  | there (d : Dest)
deriving DecidableEq, Repr

/-- A request: direction, destination, bytes and the data of a write. -/
structure Request where
  write : Bool
  dest : Dest
  nth : Nat
  len : Nat
  data : List Byte
deriving DecidableEq, Repr

/-- The request of a run: each run is sent as its own (R63). -/
def Run.serves (r : Run) (q : Request) : Bool :=
  r.write == q.write && r.nth == q.nth && r.dest == q.dest && r.len == q.len && r.data == q.data

/-- The packet of a request. -/
def Request.packet (q : Request) (pasid : Nat) : Packet :=
  { Packet.zero with
    op := if q.write then pWrite else pRead, pasid := BitVec.ofNat 20 pasid, len1 := BitVec.ofNat 12 (q.len - 1), va := BitVec.ofNat 57 q.dest.va,
    mapver := BitVec.ofNat 32 q.dest.mapver, tid := BitVec.ofNat 12 q.dest.tid, data := q.data, run := q.dest.geom }

/-- A flow has room for one more unacknowledged packet (R381). -/
def State.flowRoom (s : State) (key : Nat) : Bool := decide ((s.flow key).unacked.length < 64)

/-- Send a request once; with 64 packets unacknowledged in the flow it waits for room (R381). -/
def sendRequest (s : State) (c id : Nat) (q : Request) : State :=
  match s.op c id with
  | none => s
  | some o =>
    let key := flowKey (dieOf c) q.dest.node
    if o.runs.any (fun r => r.serves q) || !s.flowRoom key then s
    else
      let r : Run := { dest := q.dest, nth := q.nth, fseq := (s.flow key).seq, len := q.len, write := q.write, data := q.data, answer := none }
      let s := if q.dest.geom.isSome then s.modCore c fun k => { k with asked := (q.dest.node, r.fseq, q.dest.tid) :: k.asked } else s
      (sendSprayed s (dieOf c) q.dest.node (q.packet (s.core c).member.pasid) c id).modOp c id fun o => { o with runs := o.runs ++ [r] }

/-- The answer to a request, if it has come. -/
def answerOf (s : State) (c id : Nat) (q : Request) : Option (List Byte) := (s.op c id).bind fun o => (o.runs.find? fun r => r.serves q).bind (·.answer)

/-! ### Virtual addresses -/

/-- Parts of a range that do not cross a 64 KiB boundary. -/
def splitRange : Nat → Nat → Nat → List (Nat × Nat)
  | 0, _, _ => []
  | f + 1, va, len => if len = 0 then [] else let n := min len (0x10000 - va % 0x10000); (va, n) :: splitRange f (va + n) (len - n)

def ranges (va len : Nat) : List (Nat × Nat) := splitRange (len / 0x10000 + 2) va len

/-- A node that requests may go to: a member module's (R23), or a domain module's through a window (R24), once the
module is in full service (R394). -/
def mayReach (s : State) (list : List Nat) (node : Nat) : Bool := list.contains (node / 4) && fullService s

/-- A contiguous range of an access: at a virtual address of this module, or part of a shard run at the node of its box.
`bankLocal` asks for a page of kind 1 (Table 3.2 subcode 10). -/
structure Piece where
  node : Option Nat
  va : Nat
  len : Nat
  tid : Nat
  mapver : Nat
  geom : Option RunGeom
  retried : Bool
  bankLocal : Bool
deriving DecidableEq, Repr

def Piece.plain (va len : Nat) : Piece := { node := none, va := va, len := len, tid := 0, mapver := 0, geom := none, retried := false, bankLocal := false }

/-- An access at `at'` through a remote window that names this module is served here, as its node serves it (R23, R383): a
walk that does not answer is that of the window's page. -/
def windowPlace (s : State) (perm pasid node off at' : Nat) (write : Bool) : ERes (State × Place) :=
  match s.windows.get none pasid with
  | none => .error (eFault cTranslate 7 at')
  | some w =>
    match translate s (fabricAgent (node % 4) perm) pasid (w + off) write with
    | .ok (s, e) => .ok (s, leafPlace s pasid e (w + off))
    | .error f => .error (walkStop s (node % 4) pasid at' (w + off) f)

/-! ### Scratchpads of this module -/

/-- Folios of a scratchpad range must be PRESENT; a touch starts their pulls (Table 18.9). -/
def needSpad (s : State) (d off n : Nat) : ERes Unit :=
  let fs := spadFolios off n
  if (s.core d).allPresent fs then .ok () else .error (.folio d fs)

def readSpad (s : State) (d off n : Nat) : ERes (List Byte) := (needSpad s d off n).map fun _ => (s.core d).spadRead off n

def writeSpad (s : State) (d off : Nat) (data : List Byte) : ERes State :=
  (needSpad s d off data.length).map fun _ => s.modCore d fun k => k.spadWrite off data

/-! ### Tensor-table entries -/

/-- Bytes [off, off + n) of a record as a number. -/
def leField (b : List Byte) (off n : Nat) : Nat := ofLeBytes ((b.drop off).take n)

/-- A tensor-table entry, Table 3.1. -/
structure Tid where
  word : Nat
  dims : List Nat
  strides : List Nat
  strideTop : Nat
  base : Nat
  scbase : Nat
  tscale : Nat
  tscaleTop : Nat
  map : Nat
  mapver : Nat
  nshard : Nat
  shardTop : Nat
  mdbase : Nat
  fpcbase : Nat
deriving DecidableEq, Repr

def Tid.fmt (e : Tid) : Nat := e.word / 2 ^ 56 % 256
def Tid.rank (e : Tid) : Nat := e.word / 2 ^ 53 % 8
def Tid.layout (e : Tid) : Nat := e.word / 2 ^ 51 % 4
def Tid.scfmt (e : Tid) : Nat := e.word / 2 ^ 49 % 4
def Tid.scaxis (e : Tid) : Nat := e.word / 2 ^ 47 % 4
def Tid.scblk (e : Tid) : Nat := e.word / 2 ^ 45 % 4
def Tid.tqshift (e : Tid) : Nat := e.word / 2 ^ 43 % 4
def Tid.sparse (e : Tid) : Bool := e.word / 2 ^ 42 % 2 == 1
def Tid.fpc (e : Tid) : Bool := e.word / 2 ^ 41 % 2 == 1

def tidOfBytes (b : List Byte) : Tid :=
  { word := leField b 0 8, dims := (List.range 4).map fun d => leField b (0x08 + 4 * d) 4, strides := (List.range 4).map fun d => leField b (0x18 + 8 * d) 6,
    strideTop := ((List.range 4).map fun d => leField b (0x1E + 8 * d) 2).sum, base := leField b 0x38 8, scbase := leField b 0x40 8, tscale := leField b 0x48 4,
    tscaleTop := leField b 0x4C 4, map := leField b 0x50 8, mapver := leField b 0x58 4, nshard := leField b 0x5C 1 % 128, shardTop := leField b 0x5C 4 / 128,
    mdbase := leField b 0x60 8, fpcbase := leField b 0x68 8 }

def isTrellis (f : Nat) : Bool := f == cTqg || f == cTqt

/-- Bytes an element is aligned to. -/
def alignBytes (f : Nat) : Nat := max 1 (fmtBits f / 8)

/-- Rules of Table 3.4 over strides (the entry's or a shard's) below the rank. -/
def stridesOk (fmt rank layout : Nat) (st : List Nat) : Bool :=
  let s := fun d => st.getD d 0
  let rest := fun m => (upto 1 (rank - 1)).all fun d => s d % m == 0
  (if fmt = cInt4 ∨ fmt = cE2m1 then s 0 == 1 && rest 2
   else if fmt = cTern then s 0 == 1 && rest 4
   else if isTrellis fmt then s 0 == 1 && rest 256
   else true) &&
  (if layout = 1 then s 0 % 1024 == 0 && s 1 % 1024 == 0 else true)

/-- Rules of Table 3.4 that concern the entry alone. -/
def geometryOk (e : Tid) : Bool :=
  stridesOk e.fmt e.rank e.layout e.strides &&
  (if isTrellis e.fmt then (e.layout == 0 || e.layout == 2) && !e.sparse && e.scfmt == 1 && e.scaxis == 0 && e.scblk == 2 else true) &&
  (if e.layout = 1 then decide (8 ≤ fmtBits e.fmt) && decide (2 ≤ e.rank) else true) &&
  (if e.layout = 2 then decide (e.rank ≤ 2) else true) &&
  (if e.sparse then (fmtBits e.fmt == 8 || fmtBits e.fmt == 16) && e.dims.getD 0 0 % 4 == 0 else true) &&
  e.base % alignBytes e.fmt == 0

/-- Checks of Table 3.2 up to subcode 8, with the coordinates an access names above the rank (subcode 7). -/
def tidFault (e : Tid) (coords : List Nat) : Option Nat :=
  if e.word % 2 = 0 then some 2
  else if badCode e.fmt then some 3
  else if e.rank = 0 ∨ 4 < e.rank then some 4
  else if e.layout = 3 ∨ e.scfmt = 3 ∨ e.scblk = 3 ∨ (e.tqshift = 3 ∧ isTrellis e.fmt) ∨ e.word / 2 % 2 ^ 40 ≠ 0 ∨ e.strideTop ≠ 0 ∨ e.tscaleTop ≠ 0 ∨ e.shardTop ≠ 0 then some 5
  else if (e.rank ≤ e.scaxis ∧ e.scfmt ≠ 0) ∨ 64 < e.nshard then some 6
  else if (upto e.rank (4 - e.rank)).any fun d => coords.getD d 0 != 0 then some 7
  else if geometryOk e = false then some 8
  else none

/-- Subcode 9: a coordinate beyond its extent. -/
def outside (e : Tid) (coords : List Nat) : Bool := (List.range e.rank).any fun d => decide (e.dims.getD d 0 ≤ coords.getD d 0)

/-- Serial arithmetic (R66): v is older than w. -/
def olderVersion (v w : Nat) : Bool := let d := (w + 2 ^ 32 - v % 2 ^ 32) % 2 ^ 32; decide (0 < d) && decide (d < 2 ^ 31)

def dropTid (s : State) (c tid : Nat) : State := s.modCore c fun k => { k with tids := k.tids.filter fun x => x.1 != tid }

/-! ### Shard maps -/

/-- A shard-map entry, Table 3.5. -/
structure Shard where
  lo : List Nat
  hi : List Nat
  tbase : Nat
  node : Nat
  tst : List Nat
deriving DecidableEq, Repr

def shardOfBytes (b : List Byte) : Shard :=
  { lo := (List.range 4).map fun d => leField b (4 * d) 4, hi := (List.range 4).map fun d => leField b (0x10 + 4 * d) 4, tbase := leField b 0x20 8,
    node := leField b 0x28 8 % 2 ^ 15, tst := (List.range 4).map fun d => leField b (0x30 + 8 * d) 6 }

def shardsOf (b : List Byte) (n : Nat) : List Shard := (List.range n).map fun k => shardOfBytes (b.drop (128 * k))

def Shard.contains (x : Shard) (rank : Nat) (coords : List Nat) : Bool :=
  (List.range rank).all fun d => decide (x.lo.getD d 0 ≤ coords.getD d 0) && decide (coords.getD d 0 < x.hi.getD d 0)

def shardOk (e : Tid) (x : Shard) : Bool :=
  stridesOk e.fmt e.rank e.layout x.tst && x.tbase % alignBytes e.fmt == 0 &&
  (if e.layout = 1 then x.lo.getD 0 0 % 32 == 0 && x.lo.getD 1 0 % 32 == 0 else true) &&
  (if e.sparse then x.lo.getD 0 0 % 4 == 0 && x.hi.getD 0 0 % 4 == 0 else true)

/-- Element offset (R58). -/
def elemOffset (layout rank : Nat) (c st : List Nat) : Nat :=
  let s := fun d => st.getD d 0
  let x := fun d => c.getD d 0
  if layout = 1 then
    (x 1 / 32) * s 1 + (x 0 / 32) * s 0 + (x 1 % 32) * 32 + x 0 % 32 + ((upto 2 (rank - 2)).map fun d => x d * s d).sum
  else ((List.range rank).map fun d => x d * s d).sum

/-- Bytes(fmt, el) of Table 3.3; `shift` is the trellis pattern. -/
def elemBytes (fmt shift el : Nat) : Nat :=
  if isTrellis fmt then el / 256 * (trellisBits shift / 8)
  else if fmtBits fmt < 8 then el * fmtBits fmt / 8 else el * (fmtBits fmt / 8)

/-- Bytes that hold one element: its own, its byte, or its block. -/
def elemSpan (fmt shift : Nat) : Nat := if isTrellis fmt then trellisBits shift / 8 else alignBytes fmt

/-- Address words of a record that names a run: {c1:c0}, TID and node, versions (Table 18.4). -/
def shardFault (sub tid node : Nat) (coords : List Nat) (mine target : Nat) : CFault :=
  { code := cShardMiss, sub := sub, whereAt := 15, addr := fld (coords.getD 1 0) 32 + coords.getD 0 0, detail := fld tid 52 + fld node 37, aux := fld mine 32 + target }

/-! ### Ownership of runs (R65, R66) -/

/-- A table read of a decision that does not answer: what stopped it, at which page of the table, behind which walks. -/
structure Missed where
  state : State
  va : Nat
  why : XFail

/-- Parts of a table, read for a decision of the device (R65): no permission bit is checked. -/
def tableParts (die pasid : Nat) : List (Nat × Nat) → State → Except Missed (State × List Byte)
  | [], s => .ok (s, [])
  | (va, n) :: r, s =>
    match translate s (ownerReader die) pasid va false with
    | .error f => .error { state := (match f with | .fault .. => markFaulted s die pasid va | _ => s), va := va, why := f }
    | .ok (s, e) => do
      let p := leafPlace s pasid e va
      match s.ecc.find? fun g => !p.host && decide (p.addr / 32 ≤ g) && decide (g ≤ (p.addr + n - 1) / 32) with
      | some g => .error { state := s, va := va, why := .fault ((Config.eccFault g).toNat / 2 ^ 16) ((Config.eccFault g).toNat % 2 ^ 16) }
      | none => do
        let (s, d) ← tableParts die pasid r s
        pure (s, s.readAt p n ++ d)

def tableBytes (s : State) (die pasid va n : Nat) : Except Missed (State × List Byte) := tableParts die pasid (ranges va n) s

/-- The entry of a TID that a die's agent holds as target, read again if a run's version differs from it (R65). -/
def targetEntry (s : State) (die pasid tid mapver : Nat) (again : Bool) : Except Missed (State × Tid) :=
  let key := fun (x : Nat × Nat × Nat × List Byte) => x.1 == die && x.2.1 == pasid && x.2.2.1 == tid
  match (s.targets.find? key).filter fun x => !again && (tidOfBytes x.2.2.2).mapver == mapver with
  | some x => .ok (s, tidOfBytes x.2.2.2)
  | none => do
    let (s, b) ← tableBytes s die pasid ((s.pasids.get .none pasid).table + 128 * tid) 128
    pure ({ s with targets := (die, pasid, tid, b) :: s.targets.filter fun x => !key x }, tidOfBytes b)

/-- Coordinates of a box. -/
def boxCoords : Nat → List Nat → List Nat → List (List Nat)
  | 0, _, _ => [[]]
  | n + 1, lo, hi => (upto (lo.headD 0) (hi.headD 0 - lo.headD 0)).flatMap fun x => (boxCoords n (lo.drop 1) (hi.drop 1)).map fun r => x :: r

/-- A run reached its target as: the target's node, PASID, TID, version, address and resolution. -/
structure Asked where
  node : Nat
  pasid : Nat
  tid : Nat
  mapver : Nat
  va : Nat
  geom : Option RunGeom

/-- First box of a map that holds a coordinate. -/
def boxOf (e : Tid) (shards : List Shard) (c : List Nat) : Option Nat := (List.range e.nshard).find? fun k => (shards.getD k (shardOfBytes [])).contains e.rank c

/-- Whether the target owns a run (R66): the first box of its map with the run's first coordinate names this node with the
base and strides the run was resolved with. Of a request that carries no resolution the address is all there is to compare, and
it names an element only under the version that resolved it: some coordinate's first box must lay the request's first byte where
the request asks for it (log entry 30). -/
def ownsRun (q : Asked) (e : Tid) (shards : List Shard) : Bool :=
  match q.geom with
  | some g =>
    let same := fun (base : Nat) (st : List Nat) => base == g.tbase && st.take e.rank == g.tst.take e.rank
    if e.nshard = 0 then same e.base e.strides
    else match boxOf e shards g.first with
      | some k => let x := shards.getD k (shardOfBytes []); x.node == q.node && same x.tbase x.tst
      | none => false
  | none =>
    e.mapver == q.mapver &&
    let at' := fun (base : Nat) (el : Nat) => base + elemBytes e.fmt e.tqshift el == q.va
    if e.nshard = 0 then (boxCoords e.rank [0, 0, 0, 0] e.dims).any fun c => at' e.base (elemOffset e.layout e.rank c e.strides)
    else
      (List.range e.nshard).any fun k =>
        let x := shards.getD k (shardOfBytes [])
        x.node == q.node && shardOk e x && (boxCoords e.rank x.lo x.hi).any fun c =>
          boxOf e shards c == some k && at' x.tbase (elemOffset e.layout e.rank ((List.range 4).map fun d => c.getD d 0 - x.lo.getD d 0) x.tst)

/-- Table 3.6; a run that is served from a bank-local tensor asks for pages of kind 1. -/
inductive Decision where
  | serve (bankLocal : Bool)
  | hold
  | moved (w : Nat)
deriving DecidableEq, Repr

/-- Decide a run by the target's entry and map. -/
def decideRun (s : State) (q : Asked) (again : Bool) : Except Missed (State × Decision) := do
  let die := q.node % 4
  let (s, e) ← targetEntry s die q.pasid q.tid q.mapver again
  match tidFault e [] with
  | some sub => .error { state := s, va := q.va, why := .fault cTidInvalid sub }
  | none => pure ()
  let (s, m) ← if e.nshard = 0 then pure (s, []) else (tableBytes s die q.pasid e.map (128 * e.nshard)).map fun x => (x.1, shardsOf x.2 e.nshard)
  if ownsRun q e m then pure (s, .serve (e.layout == 2))
  else if olderVersion e.mapver q.mapver then pure (s, .hold)
  else pure (s, .moved e.mapver)

/-- One decision for a run, whichever of its requests comes first (R66): the requester's node `src` and the run's number
name it. A held run is decided again. -/
def decideOnce (s : State) (src : Nat) (q : Asked) (again : Bool) : Except Missed (State × Decision) :=
  match q.geom with
  | none => decideRun s q again
  | some g =>
    match s.decided.find? fun x => x.1 == src && x.2.1 == g.id with
    | some (_, _, some w) => .ok (s, .moved w)
    | some (_, _, none) => .ok (s, .serve (((s.targets.find? fun x => x.1 == q.node % 4 && x.2.1 == q.pasid && x.2.2.1 == q.tid).map fun x => (tidOfBytes x.2.2.2).layout == 2).getD false))
    | none => do
      let (s, d) ← decideRun s q again
      match d with
      | .hold => pure (s, d)
      | .serve _ => pure ({ s with decided := (src, g.id, none) :: s.decided }, d)
      | .moved w => pure ({ s with decided := (src, g.id, some w) :: s.decided }, d)

/-- The elements of a run are to be resolved again. -/
def Op.loses (o : Op) (d : Dest) (w : Nat) : Op :=
  let mine := fun (g : Option RunGeom) => g.map (·.id) == d.geom.map (·.id)
  let l := o.memo.filter fun x => mine x.geom
  { o with
    moved := { dest := d, version := w, coords := l.map (·.coords), boxes := (l.getLast?.map (·.boxes)).getD [] } :: o.moved, memo := o.memo.filter fun x => !mine x.geom,
    lastRun := o.lastRun.filter fun x => !mine x.geom, runs := o.runs.filter fun r => r.answer.isSome || !mine r.dest.geom }

/-- A SHARD_MOVED carrying `w` for a run of an operation (R67): the TID leaves the cache (R64), and the run's elements alone are
resolved again; a retried run raises SHARD_MISS. -/
def runMoved (s : State) (c id : Nat) (d : Dest) (w : Nat) : EStop :=
  let s := dropTid s c d.tid
  if d.retried then .behind s (.fault (shardFault 2 d.tid d.node ((d.geom.map (·.first)).getD []) d.mapver w)) else .hold (s.modOp c id fun o => o.loses d w)

/-- The packet by which a run of this module itself is held. -/
def ownPacket (s : State) (c : Nat) (p : Piece) (node : Nat) : Packet :=
  { Packet.zero with
    op := pRead, dst := BitVec.ofNat 15 node, src := BitVec.ofNat 15 (s.node (dieOf c)), pasid := BitVec.ofNat 20 (s.core c).member.pasid, va := BitVec.ofNat 57 p.va,
    mapver := BitVec.ofNat 32 p.mapver, tid := BitVec.ofNat 12 p.tid, run := p.geom }

def askedOf (p : Packet) : Asked :=
  { node := p.dst.toNat, pasid := p.pasid.toNat, tid := p.tid.toNat, mapver := p.mapver.toNat,
    va := if p.va.toNat < 2 ^ 56 then p.va.toNat else p.va.toNat + (2 ^ 64 - 2 ^ 57), geom := p.run }

/-- A run whose box names this module meets Table 3.6 here, as its target (R62, R66). -/
def ownRun (s : State) (c id : Nat) (p : Piece) : ERes State :=
  match p.node, p.geom with
  | some n, some _ =>
    let q := ownPacket s c p n
    match decideOnce s (s.node (dieOf c)) (askedOf q) false with
    | .error m =>
      .error (.behind m.state (match m.why with
        | .fault code sub => .fault { CFault.mk' code sub 15 p.va with detail := fld n 37 }
        | .migrating => .migrating (n % 4) m.va
        | .cow _ => .cow (n % 4) m.va))
    | .ok (t, .serve _) => .ok { t with runs := t.runs.filter fun x => x.p != q }
    | .ok (t, .hold) => .error (.hold (if t.runs.any fun x => x.p == q then t else { t with runs := t.runs ++ [{ p := q, own := some (c, id) }] }))
    | .ok (t, .moved w) => .error (runMoved t c id { node := n, va := p.va, tid := p.tid, mapver := p.mapver, geom := p.geom, retried := p.retried } w)
  | _, _ => .ok s

/-! ### Places of pieces, reads and writes -/

/-- A fault in reaching a node: of an ME operand it is an OPERAND_FAULT, which the local operand's own codes are not
(R292). -/
def farFault (ag : Agent) (code sub va : Nat) : EStop := if ag.perms = [59] then eFault cOperandFault (code * 256 + sub) va else eFault code sub va

/-- Where one part of a piece lies. A window request carries the offset within the window (R383) and tid 4,096, which
no packet field holds, to tell it from a shard run. -/
def placePart (s : State) (c id : Nat) (ag : Agent) (write : Bool) (p : Piece) (va : Nat) : ERes (State × Target) :=
  let pasid := (s.core c).member.pasid
  match p.node.filter fun n => n / 4 != s.module with
  | some n =>
    if canonical va = false then .error (farFault ag cTranslate 1 va)
    else if mayReach s s.members n then .ok (s, .there { node := n, va := va, tid := p.tid, mapver := p.mapver, geom := p.geom, retried := p.retried })
    else .error (farFault ag cUnreachable 1 va)
  | none => do
    let s ← ownRun s c id p
    match translate s ag pasid va write with
    | .error f => .error (walkStop s ag.cache pasid va va f)
    | .ok (s, e) =>
      if p.bankLocal && leafKind e != 1 then .error (.behind s (eFault cTidInvalid 10 va))
      else if leafKind e = 4 then
        let phys := leafFrame e * 0x10000 + va % pageBytes (leafSize e)
        let node := phys / 2 ^ 37 % 2 ^ 15
        if node / 4 = s.module then
          along s ((windowPlace s (if write then 54 else 55) pasid node (phys % 2 ^ 37) va write).map fun x => (x.1, .here x.2))
        else if mayReach s s.domain node then
          .ok (s, .there { node := node, va := phys % 2 ^ 37, tid := 4096, mapver := 0, geom := none, retried := false })
        else .error (.behind s (farFault ag cUnreachable 1 va))
      else .ok (s, .here (leafPlace s pasid e va))

def placeAll (c id : Nat) (ag : Agent) (write : Bool) (p : Piece) : List (Nat × Nat) → State → ERes (State × List (Target × Nat))
  | [], s => .ok (s, [])
  | (va, n) :: r, s => do
    let (s, t) ← placePart s c id ag write p va
    let (s, l) ← along s (placeAll c id ag write p r s)
    pure (s, (t, n) :: l)

def placePieces (c id : Nat) (ag : Agent) (write : Bool) : List Piece → State → ERes (State × List (List (Target × Nat)))
  | [], s => .ok (s, [])
  | p :: r, s => do
    let (s, a) ← placeAll c id ag write p (ranges p.va p.len) s
    let (s, l) ← along s (placePieces c id ag write r s)
    pure (s, a :: l)

/-- The field value of a window's request. -/
def partTid (tid : Nat) : Nat := if tid = 4096 then 0 else tid

def readRequest (d : Dest) (len : Nat) : Request := { write := false, dest := { d with tid := partTid d.tid }, nth := 0, len := len, data := [] }
def writeRequest (d : Dest) (b : List Byte) : Request := { write := true, dest := { d with tid := partTid d.tid }, nth := 0, len := b.length, data := b }

def sendReads (c id : Nat) : List (Target × Nat) → State → State
  | [], s => s
  | (.there d, len) :: r, s => sendReads c id r (sendRequest s c id (readRequest d len))
  | _ :: r, s => sendReads c id r s

/-- Collect what every part reads; none if an answer is still due. -/
def collect (s : State) (c id : Nat) : List (Target × Nat) → Option (List Byte)
  | [] => some []
  | (t, len) :: r =>
    match (match t with | .here p => some (s.readAt p len) | .there d => answerOf s c id (readRequest d len)), collect s c id r with
    | some a, some b => some (a ++ b)
    | _, _ => none

/-- Bytes a unit reads: local parts at this instant, remote ones by requests. -/
def readPieces (s : State) (c id : Nat) (ag : Agent) (pieces : List Piece) : ERes (State × List Byte) := do
  let (s, l) ← placePieces c id ag false pieces s
  let s := sendReads c id l.flatten s
  match collect s c id l.flatten with
  | some d => pure (s, d)
  | none => .error (.hold s)

/-- Two writes to one node meet in a granule of 32 bytes. -/
def Request.overlaps (q r : Request) : Bool :=
  q.dest.node == r.dest.node && q.dest.tid == r.dest.tid && decide (q.dest.va / 32 ≤ (r.dest.va + r.len - 1) / 32) && decide (r.dest.va / 32 ≤ (q.dest.va + q.len - 1) / 32)

/-- A unit's writes at other modules, in walk order, but for the parts that `off` keeps from the flows. -/
def farWrites (off : Target → Bool) : List (Target × Nat) → List Byte → List Request
  | [], _ => []
  | (t, len) :: r, d =>
    match t with
    | .there q => if off t then farWrites off r (d.drop len) else writeRequest q (d.take len) :: farWrites off r (d.drop len)
    | .here _ => farWrites off r (d.drop len)

/-- Requests that are alike are told apart by their number among these alone, which a move of other runs leaves as it is. -/
def numbered (l : List Request) : List Request := l.foldl (fun acc q => acc ++ [{ q with nth := (acc.filter fun r => { r with nth := 0 } == q).length }]) []

/-- Send a unit's writes in walk order; one that meets an earlier one's granule waits for its acknowledgement (R303), and those
behind it too. -/
def sendWrites (c id : Nat) : List Request → List Request → State → State
  | [], _, s => s
  | q :: r, pending, s =>
    if pending.any q.overlaps then s
    else
      let s := sendRequest s c id q
      sendWrites c id r (if (answerOf s c id q).isSome then pending else q :: pending) s

def allAcked (s : State) (c id : Nat) (l : List Request) : Bool := l.all fun q => (answerOf s c id q).isSome

def writeHere : List (Target × Nat) → List Byte → State → State
  | [], _, s => s
  | (.here p, len) :: r, d, s => writeHere r (d.drop len) (s.writeAt p (d.take len))
  | (.there _, len) :: r, d, s => writeHere r (d.drop len) s

/-- Write a unit's bytes: remote parts first, local ones at the instant in which the last acknowledgement is in. -/
def writePieces (s : State) (c id : Nat) (ag : Agent) (pieces : List Piece) (d : List Byte) : ERes State := do
  let (s, l) ← placePieces c id ag true pieces s
  let q := numbered (farWrites (fun _ => false) l.flatten d)
  let s := sendWrites c id q [] s
  if allAcked s c id q then pure (writeHere l.flatten d s) else .error (.hold s)

/-- Read bytes of this module's virtual memory with no remote part (tables, maps, scales). -/
def readTable (s : State) (c id : Nat) (ag : Agent) (va len : Nat) : ERes (State × List Byte) :=
  readPieces s c id ag [.plain va len]

/-- The newest version that a SHARD_MOVED of the operation carried for a TID. -/
def Op.movedTo (o : Op) (tid : Nat) : Option Nat :=
  ((o.moved.filter fun x => x.dest.tid == tid).map (·.version)).foldl (fun a w => some (match a with | some v => if olderVersion v w then w else v | none => w)) none

/-- The entry of a TID: the core's cache, else memory (R54, R64). While it is older than the version that a SHARD_MOVED for
this TID carried, the operation waits (R67). -/
def entryOf (s : State) (c id : Nat) (ag : Agent) (tid : Nat) (coords : List Nat) : ERes (State × Tid) := do
  let k := s.core c
  let cached := k.tids.find? fun x => x.1 == tid
  let (s, b) ← (match cached with
    | some x => pure (s, x.2)
    | none => readTable s c id ag ((s.pasids.get .none k.member.pasid).table + 128 * tid) 128)
  let e := tidOfBytes b
  let s := s.modCore c fun k => { k with tids := ((tid, b) :: k.tids.filter fun x => x.1 != tid).take 64 }
  match tidFault e coords, (s.op c id).bind (·.movedTo tid) with
  | some sub, _ => .error (.behind s (eFault cTidInvalid sub 0))
  | none, some w => if olderVersion e.mapver w then .error (.hold (dropTid s c tid)) else pure (s, e)
  | none, none => pure (s, e)

/-- The whole map of an entry: every shard entry is read, whichever box an element falls into (log entry 52), in requests of at
most 4,096 bytes (R380). -/
def mapOf (s : State) (c id : Nat) (ag : Agent) (e : Tid) : ERes (State × List Shard) :=
  if e.nshard = 0 then .ok (s, [])
  else
    let n := 128 * e.nshard
    (readPieces s c id ag (if n ≤ 4096 then [.plain e.map n] else [.plain e.map 4096, .plain (e.map + 4096) (n - 4096)])).map fun x => (x.1, shardsOf x.2 e.nshard)

/-! ### Resolution (R62, R63) -/

/-- Resolve one element by an entry and its map. The record of an element that no box holds has no node and no target's version:
it carries 0 for both (DESIGN CHOICE, log entry 52). -/
def resolve (s : State) (tid : Nat) (e : Tid) (shards : List Shard) (coords : List Nat) : ERes Resolved :=
  if e.nshard = 0 then
    let el := elemOffset e.layout e.rank coords e.strides
    .ok { tid := tid, coords := coords, shard := 0, node := none, va := e.base + elemBytes e.fmt e.tqshift el, el := el, mapver := e.mapver, geom := none, retried := false, boxes := [] }
  else
    match boxOf e shards coords with
    | none => .error (.fault (shardFault 1 tid 0 coords e.mapver 0))
    | some k =>
      let x := shards.getD k (shardOfBytes [])
      if shardOk e x = false then .error (eFault cTidInvalid 8 0)
      else
        let el := elemOffset e.layout e.rank ((List.range 4).map fun d => coords.getD d 0 - x.lo.getD d 0) x.tst
        .ok { tid := tid, coords := coords, shard := k, node := some x.node, va := x.tbase + elemBytes e.fmt e.tqshift el, el := el, mapver := e.mapver,
              geom := some { id := s.fresh, first := coords, tbase := x.tbase, tst := x.tst }, retried := false, boxes := (shards.take (k + 1)).map fun y => (y.lo.take e.rank, y.hi.take e.rank) }

/-- A resolved element goes on with the run of the element before it, or starts one (R63): one run has one shard entry, one
version and one try. -/
def joinRun (last : Option Resolved) (x : Resolved) : Resolved :=
  match last with
  | some y =>
    let box := fun (z : Resolved) => (z.tid, z.shard, z.node, z.mapver, z.retried, z.geom.map fun g => (g.tbase, g.tst))
    if x.geom.isSome && box y == box x then { x with geom := y.geom } else x
  | none => x

/-- Resolve elements of a tensor without shards. -/
def resolvePlain (s : State) (tid : Nat) (e : Tid) : List (List Nat) → ERes (List Resolved)
  | [] => .ok []
  | x :: r => do
    let m ← resolve s tid e [] x
    let l ← resolvePlain s tid e r
    pure (m :: l)

/-- The last of these boxes is the first that holds a coordinate. -/
def firstInLast (boxes : List (List Nat × List Nat)) (x : List Nat) : Bool :=
  let holds := fun (b : List Nat × List Nat) => (b.1.zip b.2).zip x |>.all fun y => decide (y.1.1 ≤ y.2) && decide (y.2 < y.1.2)
  match boxes.reverse with
  | [] => false
  | b :: r => holds b && !(r.any holds)

/-- An element belongs to a run that was moved: it is one of those resolved by then, or the run, resolved as it was, goes on with
it after the element before (R67). -/
def Lost.takes (y : Lost) (last : Option Resolved) (tid : Nat) (x : List Nat) : Bool :=
  y.dest.tid == tid && (y.coords.contains x ||
    (firstInLast y.boxes x && (match last with | some z => z.retried && z.tid == tid && firstInLast y.boxes z.coords | none => false)))

/-- Resolve elements of a sharded tensor. One that the unit has resolved stays as it was, so that runs retry alone. -/
def resolveShards (c id tid : Nat) (e : Tid) (shards : List Shard) : Option Resolved → List (List Nat) → State → ERes (State × List Resolved)
  | _, [], s => .ok (s, [])
  | last, x :: r, s => do
    let o := s.op c id
    match (o.map (·.memo)).getD [] |>.find? fun m => m.tid == tid && m.coords == x with
    | some m => do
      let (s, l) ← resolveShards c id tid e shards (some m) r (s.modOp c id fun o => { o with memo := o.memo.erase m ++ [m] })
      pure (s, m :: l)
    | none => do
      let m ← resolve s tid e shards x
      let m := joinRun last { m with retried := ((o.map (·.moved)).getD []).any fun y => y.takes last tid x }
      let s := { s.modOp c id fun o => { o with memo := o.memo ++ [m] } with fresh := s.fresh + 1 }
      let (s, l) ← resolveShards c id tid e shards (some m) r s
      pure (s, m :: l)

/-- Resolve elements in walk order, going on with the run in which the unit before ended. -/
def resolveAll (c id tid : Nat) (e : Tid) (shards : List Shard) (l : List (List Nat)) (s : State) : ERes (State × List Resolved) :=
  if e.nshard = 0 then (resolvePlain s tid e l).map fun r => (s, r)
  else resolveShards c id tid e shards ((s.op c id).bind (·.lastRun)) l s

/-- A piece of an element. -/
def Resolved.piece (x : Resolved) (bankLocal : Bool) (off len : Nat) : Piece :=
  { node := x.node, va := x.va + off, len := len, tid := x.tid, mapver := x.mapver, geom := x.geom, retried := x.retried, bankLocal := bankLocal }

/-- Two pieces are parts of one request: of one run, and the second goes on where the first ends, to at most 4,096 bytes. -/
def Piece.meets (p q : Piece) : Bool :=
  p.node == q.node && p.geom == q.geom && p.mapver == q.mapver && p.retried == q.retried && decide (p.va ≤ q.va) && decide (q.va ≤ p.va + p.len) && decide (q.va + q.len ≤ p.va + 4096)

/-- Pieces in walk order, merged into requests. -/
def mergePieces (l : List Piece) : List Piece :=
  (l.foldl (fun (acc : List Piece) x =>
    match acc with
    | p :: r => if p.meets x then { p with len := max p.len (x.va + x.len - p.va) } :: r else x :: acc
    | [] => [x]) []).reverse

def runsOf (e : Tid) (l : List Resolved) : List Piece := mergePieces (l.map fun x => x.piece (e.layout == 2) 0 (elemSpan e.fmt e.tqshift))

/-- What was read of each piece, to look bytes up by run and address. -/
def pieceBytes : List Piece → List Byte → List (Piece × List Byte)
  | [], _ => []
  | p :: r, d => (p, d.take p.len) :: pieceBytes r (d.drop p.len)

def lookupBytes (l : List (Piece × List Byte)) (geom : Option RunGeom) (va n : Nat) : List Byte :=
  match l.find? fun x => decide (x.1.geom = geom ∧ x.1.va ≤ va ∧ va + n ≤ x.1.va + x.1.len) with
  | some x => (x.2.drop (va - x.1.va)).take n
  | none => []

/-- The element's bits from the bytes that hold it; a trellis element is its 12-bit window (R211). -/
def elemOf (fmt shift el : Nat) (b : List Byte) : Nat :=
  if isTrellis fmt then trellisWindow b shift (el % 256)
  else if fmtBits fmt < 8 then ofLeBytes b / 2 ^ (fmtBits fmt * (el % (8 / fmtBits fmt))) % 2 ^ fmtBits fmt
  else ofLeBytes b

/-- Offset of an element's block scale from scbase (R60). -/
def scaleOffset (e : Tid) (coords : List Nat) : Nat :=
  let blk := if e.scblk = 0 then 16 else if e.scblk = 1 then 32 else 256
  let on := fun d (v : Nat) => if d = e.scaxis then v / blk else v
  let ext := fun d => if d = e.scaxis then (e.dims.getD d 0 + blk - 1) / blk else e.dims.getD d 0
  ((List.range e.rank).foldl (fun (acc : Nat × Nat) d => (acc.1 + on d (coords.getD d 0) * acc.2, acc.2 * ext d)) (0, 1)).1

/-! ### Pages of the issuer -/

/-- What stays of a unit that stops: its walks, the entries it has filled or dropped, those of the targets, its elements as
resolved, and the runs decided here. -/
def State.keepUnit (s : State) (c id : Nat) (t : State) : State :=
  { ((s.keepWalks t).modCore c fun k => { k with tids := (t.core c).tids }).modOp c id fun o => { o with memo := ((t.op c id).map (·.memo)).getD o.memo } with
    targets := t.targets, decided := t.decided, fresh := t.fresh }

/-- What a stopped unit does to its operation: it parks, or, cancelled, lands nothing more (R311); it waits for the page (R47, R48), or keeps what it has asked for. -/
def takeEStop (s : State) (c id : Nat) : EStop → State
  | .fault f =>
    match s.op c id with
    | some o => if o.err.isSome then s.modOp c id fun o => { o with st := .queued } else parkOp s c o f
    | none => s
  | .migrating .. => s.modOp c id fun o => { o with waiting := true }
  | .cow .. => s.modOp c id fun o => { o with waiting := true }
  | .hold t => t
  | .behind t e => takeEStop (s.keepUnit c id t) c id e
  | .folio d fs =>
    let l := fs.filter fun f => ((s.core d).folio f).pres != .present
    (s.modCore d fun k => k.touchAll fs).modOp c id fun o => { o with want := l.map fun f => (d, f) }

end Sys2Proof.Machine
end

