-- ==== Sys2Proof/Machine/Matrix.lean ====
section
/-!
DEFINITION. The matrix engine (spec/13): the tile file, operand descriptors, the checks of Table 13.7, each operation
one unit (k-group or row) at a time, the direct operations and the follow-on.
-/

namespace Sys2Proof.Machine

/-! ### Tiles (R275, R276) -/

/-- Rows and columns of a tile, bytes of an element, tiles of a shape (Table 13.2). -/
def tileDim (shape : Nat) : Nat := if shape = 0 ∨ shape = 3 then 32 else 16
def tileElem (shape : Nat) : Nat := if shape = 2 then 8 else 4
def tileCount (shape : Nat) : Nat := if shape = 1 then 64 else if shape = 2 then 32 else 16
def tileType (shape : Nat) : Nat := if shape = 2 then cFp64 else if shape = 3 then cInt32 else cFp32
def tileRow (shape : Nat) : Nat := tileDim shape * tileElem shape
def tileBytes (shape : Nat) : Nat := tileDim shape * tileRow shape

def tileFolio (shape t : Nat) : Nat := 36 + t * tileBytes shape / 4096

def Core.tileDefined (k : Core) (t : Nat) : Bool := k.defined.get false t

/-- An element's pattern; of an undefined tile, zero. -/
def Core.tileGet (k : Core) (shape t r c : Nat) : Nat :=
  if k.tileDefined t then
    ofLeBytes ((List.range (tileElem shape)).map fun i => k.tiles.get 0 (t * tileBytes shape + r * tileRow shape + c * tileElem shape + i))
  else 0

/-- The first write defines the tile, its other elements zero. -/
def Core.defineTile (k : Core) (shape t : Nat) : Core :=
  let k := k.dirty (tileFolio shape t)
  if k.tileDefined t then k
  else { k with defined := k.defined.put false t true, tiles := tabWrite k.tiles (t * tileBytes shape) (List.replicate (tileBytes shape) 0) }

def Core.tileSet (k : Core) (shape t r c v : Nat) : Core :=
  let k := k.defineTile shape t
  { k with tiles := tabWrite k.tiles (t * tileBytes shape + r * tileRow shape + c * tileElem shape) (leBytes (tileElem shape) v) }

/-- Write elements, each a row, a column and a pattern. -/
def Core.tileSetAll (k : Core) (shape t : Nat) : List (Nat × Nat × Nat) → Core
  | [] => k
  | (r, c, v) :: l => (k.tileSet shape t r c v).tileSetAll shape t l

/-- Output element (m, n): its tile and place; under S16F a 32 × 32 output has four quadrants (R275). -/
def outTile (shape t m n : Nat) : Nat × Nat × Nat := if shape = 1 then (t + 2 * (m / 16) + n / 16, m % 16, n % 16) else (t, m, n)

/-! ### Operations and the tiles they name -/

def isMultiply (port : Nat) : Bool := decide (0x380 ≤ port) && decide (port ≤ 0x383)

def Op.tile (o : Op) : Nat := bits (o.port' 0x12C) 5 0

/-- Tiles a gated operation names (R284). -/
def opTiles (shape port t src : Nat) : List Nat :=
  if port = 0x384 then []
  else if isMultiply port && shape == 1 then [t, t + 1, t + 2, t + 3]
  else if port = 0x38E then [t, src]
  else [t]

def Op.tiles (o : Op) : List Nat := opTiles o.shape o.port o.tile (bits o.b 5 0)

/-- The checks of R285. -/
def tileFault (shape port t src : Nat) : Option Nat :=
  if port = 0x384 then none
  else if tileCount shape ≤ t ∨ (port = 0x38E ∧ tileCount shape ≤ src) then some 1
  else if shape = 1 ∧ isMultiply port ∧ t % 4 ≠ 0 then some 2
  else none

/-! ### Triggers -/

/-- An engine trigger: its folio, its queue place, one gate entry (R218, R297). -/
def gateOp (x : Trig) (s : State) (j : Nat) : Res State := do
  let k := s.core x.c
  let _ ← needFolio k 32
  let _ ← needPlace k x.port x.bus
  gateAppend s x.c x.bus (.engine (newOp k x.port x.b.lo j x.bus))

def meTrigger : Body := fun x s =>
  let k := s.core x.c
  match tileFault k.shape x.port (bits (k.arch.config 0x12C) 5 0) (bits x.b.lo 5 0) with
  | some sub => .error (stop cTileUnconfigured sub x.bus)
  | none => gateOp x s (bits (k.arch.config 0x12B) 3 0)

/-- No released operation names the tile (R284). -/
def needTile (k : Core) (t : Nat) : Res Unit :=
  if k.ops.any fun o => o.isMe && o.tiles.contains t then .error (.freeze .queue 0 15) else .ok ()

/-- Tile and index of a direct operation, checked (R285, R289). -/
def directTile (k : Core) (bus : Nat) : Res (Nat × Nat) := do
  let t := bits (k.arch.config 0x12C) 5 0
  let r := bits (k.arch.config 0x12D) 4 0
  if tileCount k.shape ≤ t then .error (stop cTileUnconfigured 1 bus)
  else if tileDim k.shape ≤ r then .error (stop cIllegalMode 13 bus)
  else
    let _ ← needFolio k (tileFolio k.shape t)
    let _ ← needTile k t
    pure (t, r)

/-- `trow`, `tcol`: a vector register into a row or a column. -/
def directWrite (col : Bool) : Body := fun x s => do
  let k := s.core x.c
  let (t, r) ← directTile k x.bus
  let n := bits x.b.lo 5 0
  let _ ← needFolio k (if n < 32 then 34 else 35)
  let v := k.arch.v.get 0 n
  let w := 8 * tileElem k.shape
  pure (s.setCore x.c (k.tileSetAll k.shape t ((List.range (tileDim k.shape)).map fun i => (if col then i else r, if col then r else i, v.toNat / 2 ^ (w * i) % 2 ^ w))))

/-- `trowr`, `tcolr`: due 10 later in `me.res` and the bus's ring. -/
def directRead (col : Bool) : Body := fun x s => do
  let k := s.core x.c
  let (t, r) ← directTile k x.bus
  let l := (List.range (tileDim k.shape)).map fun i => k.tileGet k.shape t (if col then i else r) (if col then r else i)
  pure (deliver s x.c x.bus 0x0B9 10 (BitVec.ofNat 1024 (packLanes (8 * tileElem k.shape) l)) 0)

/-- `tshape` (R290): it writes every tile, so their folios must be PRESENT (Table 10.1). -/
def setShape : Body := fun x s =>
  let k := s.core x.c
  let code := bits x.b.lo 1 0
  if code = 2 ∧ fullService s = false then .error (stop cIllegalMode 15 x.bus)
  else if k.ops.any Op.isMe then .error (.freeze .queue 0 15)
  else do
    let _ ← needFolios k (upto 36 16)
    pure (s.setCore x.c ({ k with shape := code, tiles := .empty, defined := .empty }.dirtyAll (upto 36 16)))

def execMeMm (m : Mv) (s : State) : Host.Outcome State Fault Refusal := runMv m 0x380 meTrigger s
def execMeMmz (m : Mv) (s : State) : Host.Outcome State Fault Refusal := runMv m 0x381 meTrigger s
def execMeMmt (m : Mv) (s : State) : Host.Outcome State Fault Refusal := runMv m 0x382 meTrigger s
def execMeMmq (m : Mv) (s : State) : Host.Outcome State Fault Refusal := runMv m 0x383 meTrigger s
def execMeKlatch (m : Mv) (s : State) : Host.Outcome State Fault Refusal := runMv m 0x384 meTrigger s
def execMeTzero (m : Mv) (s : State) : Host.Outcome State Fault Refusal := runMv m 0x385 meTrigger s
def execMeTrow (m : Mv) (s : State) : Host.Outcome State Fault Refusal := runMv m 0x386 (directWrite false) s
def execMeTcol (m : Mv) (s : State) : Host.Outcome State Fault Refusal := runMv m 0x387 (directWrite true) s
def execMeTrowr (m : Mv) (s : State) : Host.Outcome State Fault Refusal := runMv m 0x388 (directRead false) s
def execMeTcolr (m : Mv) (s : State) : Host.Outcome State Fault Refusal := runMv m 0x389 (directRead true) s
def execMeTshape (m : Mv) (s : State) : Host.Outcome State Fault Refusal := runMarkMv m 0x38A setShape s
def execMeTload (m : Mv) (s : State) : Host.Outcome State Fault Refusal := runMv m 0x38B meTrigger s
def execMeTstore (m : Mv) (s : State) : Host.Outcome State Fault Refusal := runMv m 0x38C meTrigger s
def execMeTcvt (m : Mv) (s : State) : Host.Outcome State Fault Refusal := runMv m 0x38D meTrigger s
def execMeTadd (m : Mv) (s : State) : Host.Outcome State Fault Refusal := runMv m 0x38E meTrigger s
def execMeTscale (m : Mv) (s : State) : Host.Outcome State Fault Refusal := runMv m 0x38F meTrigger s
def execMeTamax (m : Mv) (s : State) : Host.Outcome State Fault Refusal := runMv m 0x390 meTrigger s

/-! ### Descriptors (R278, R279) -/

def dKind (d : Word) : Nat := bits d 63 62
def dFmt (d : Word) : Nat := bits d 61 57
def dPeer (d : Word) : Nat := bits d 56 53
def dPitch (d : Word) : Nat := 16 * bits d 52 38
def dOff (d : Word) : Nat := bits d 37 19
def dScfmt (d : Word) : Nat := bits d 18 17
def dShift (d : Word) : Nat := bits d 16 15

/-- The core a scratchpad descriptor names. -/
def dCore (c : Nat) (d : Word) : Nat := if dPeer d = 15 then c else peerCore c (dPeer d)

/-- Subcode 16 of a descriptor: a reserved value of scfmt or tqshift counts as a reserved bit, which R9 would have ignored (DEDUCED,
log entry 19). -/
def dReserved (d : Word) : Bool :=
  match dKind d with
  | 0 => bits d 14 0 != 0 || dScfmt d == 3 || dShift d == 3 || (dShift d != 0 && !isTrellis (dFmt d))
  | 1 => false
  | 2 => bits d 59 0 != 0
  | _ => true

/-- Row bytes and scale bytes of K elements (R278). -/
def rowBytes (fmt shift k : Nat) : Nat := if isTrellis fmt then (k + 255) / 256 * (trellisBits shift / 8) else (k * fmtBits fmt + 7) / 8
def scaleBytes (fmt scfmt k : Nat) : Nat := if scfmt = 0 then 0 else if isTrellis fmt then (k + 255) / 256 else (k + 31) / 32

/-- Subcode 19 of a scratchpad descriptor over R rows of K elements. -/
def dRange (s : State) (c : Nat) (d : Word) (rows k : Nat) : Bool :=
  (decide (12 ≤ dPeer d) && dPeer d != 15) || !sameGathering s c (dCore c d) || dOff d % 16 != 0 ||
  decide (Config.scratchBytes < dOff d + (rows - 1) * dPitch d + rowBytes (dFmt d) (dShift d) k + scaleBytes (dFmt d) (dScfmt d) k)

/-- An operand ready to be fetched: its format and where its rows come from. -/
inductive Operand where
  | spad (core off pitch : Nat)
  | latch (l : KLatch)
  | tid (d : Word) (e : Tid) (shards : List Shard)

/-- Tensor and origin of a TID descriptor. -/
def dTid (d : Word) : Nat := bits d 61 50
def dC0 (d : Word) : Nat := 32 * bits d 29 14
def dC1 (d : Word) : Nat := 16 * bits d 49 30
def dC2 (d : Word) : Nat := bits d 13 0

structure Src where
  fmt : Nat
  scfmt : Nat
  shift : Nat
  tscale : Nat
  k : Option Nat
  from' : Operand

/-- A fault in a TID operand is an OPERAND_FAULT that carries its cause; of a local operand a translation or permission
fault keeps its own code (R292). One that the entry itself raises names the descriptor (R291). -/
def operandFault (d : Word) (f : CFault) : CFault :=
  if f.code = cTranslate ∨ f.code = cPermission ∨ f.code = cOperandFault then f
  else { f with code := cOperandFault, sub := f.code * 256 + f.sub, addr := if f.code = cTidInvalid ∧ f.addr = 0 then d.toNat else f.addr }

def asOperand {α : Type} (d : Word) (r : ERes α) : ERes α := r.mapError (EStop.mapFault (operandFault d))

/-- Open a descriptor: latches must be defined (subcode 20), a TID's origin inside its extents (R279). -/
def openSrc (s : State) (c id : Nat) (d : Word) : ERes (State × Src) :=
  match dKind d with
  | 0 => .ok (s, { fmt := dFmt d, scfmt := dScfmt d, shift := dShift d, tscale := 0x3F800000, k := none, from' := .spad (dCore c d) (dOff d) (dPitch d) })
  | 2 =>
    match (s.core c).klatch.get none (bits d 61 60) with
    | none => .error (eFault cEngineError 20 d.toNat)
    | some l => .ok (s, { fmt := l.fmt, scfmt := l.scfmt, shift := l.tqshift, tscale := l.tscale.toNat, k := some l.k, from' := .latch l })
  | _ => asOperand d do
    let (s, e) ← entryOf s c id (meFetcher (dieOf c)) (dTid d) [dC0 d, dC1 d, dC2 d, 0]
    along s do
    if e.rank ≠ 2 ∧ e.rank ≠ 3 then .error (eFault cTidInvalid 4 d.toNat)
    else if e.sparse ∨ e.fpc then .error (eFault cTidInvalid 8 d.toNat)
    else if outside e [dC0 d, dC1 d, dC2 d, 0] then .error (eFault cTidInvalid 9 d.toNat)
    else
      let (s, m) ← mapOf s c id (meFetcher (dieOf c)) e
      pure (s, { fmt := e.fmt, scfmt := e.scfmt, shift := e.tqshift, tscale := e.tscale, k := none, from' := .tid d e m })

def Elt.none : Elt := { raw := 0, scale := 0, zero := true }

/-- Element k of a row stored as R278 lays rows out, K elements in all, at `base` of a byte reader. -/
def rowElt (read : Nat → Byte) (fmt scfmt shift kAll base k : Nat) : Elt :=
  let at' := fun off n => (List.range n).map fun i => read (base + off + i)
  let raw :=
    if isTrellis fmt then trellisWindow (at' (k / 256 * (trellisBits shift / 8)) (trellisBits shift / 8)) shift (k % 256)
    else elemOf fmt shift k (at' (elemBytes fmt shift k) (alignBytes fmt))
  let sc := if scfmt = 0 then 0 else (read (base + rowBytes fmt shift kAll + (if isTrellis fmt then k / 256 else k / 32))).toNat
  { raw := raw, scale := sc, zero := false }

/-- Elements at coordinates, from the resolved ones inside the extents in the same order; those beyond are zero (R279). -/
def spreadElts (e : Tid) (f : Resolved → Elt) : List (List Nat) → List Resolved → List Elt
  | [], _ => []
  | x :: r, l =>
    match l with
    | m :: t => if m.coords = x then f m :: spreadElts e f r t else Elt.none :: spreadElts e f r l
    | [] => Elt.none :: spreadElts e f r []

/-- Rows of `n` elements. -/
def rowsOf {α : Type} (n : Nat) (l : List α) (rows : Nat) : List (List α) := (List.range rows).map fun r => (l.drop (n * r)).take n

/-- Elements [k0, k1) of rows [0, R) of a TID operand (R279), each with its own block scale (R60). -/
def tidRows (s : State) (c id : Nat) (d : Word) (e : Tid) (shards : List Shard) (rows k0 k1 : Nat) : ERes (State × List (List Elt)) := asOperand d do
  let ag := meFetcher (dieOf c)
  let coords := (List.range rows).flatMap fun r => (upto k0 (k1 - k0)).map fun k => [dC0 d + k, dC1 d + r, dC2 d, 0]
  let inside := coords.filter fun x => !outside e x
  let (s, locs) ← resolveAll c id (dTid d) e shards inside s
  let pieces := runsOf e locs
  let (s, b) ← along s (readPieces s c id ag pieces)
  let scs := if e.scfmt = 0 then [] else (inside.map fun x => e.scbase + scaleOffset e x).eraseDups.map fun a => Piece.plain a 1
  let (s, sb) ← along s (readPieces s c id ag scs)
  let data := pieceBytes pieces b
  let scales := pieceBytes scs sb
  let elt := fun (l : Resolved) =>
    { raw := elemOf e.fmt e.tqshift l.el (lookupBytes data l.geom l.va (elemSpan e.fmt e.tqshift)),
      scale := if e.scfmt = 0 then 0 else ofLeBytes (lookupBytes scales none (e.scbase + scaleOffset e l.coords) 1), zero := false : Elt }
  pure (s, rowsOf (k1 - k0) (spreadElts e elt coords locs) rows)

/-- Elements [k0, k1) of rows [0, R) of an operand of K k-steps. -/
def fetchRows (s : State) (c id : Nat) (x : Src) (rows kAll k0 k1 : Nat) : ERes (State × List (List Elt)) :=
  let rowsOver := fun (read : Nat → Byte) (base : Nat → Nat) =>
    (List.range rows).map fun r => (upto k0 (k1 - k0)).map fun k => rowElt read x.fmt x.scfmt x.shift kAll (base r) k
  let len := rowBytes x.fmt x.shift kAll + scaleBytes x.fmt x.scfmt kAll
  match x.from' with
  | .spad d off pitch => do
    needSpad s d off ((rows - 1) * pitch + len)
    pure (s, rowsOver (s.core d).spad fun r => off + r * pitch)
  | .latch l => .ok (s, (List.range rows).map fun r => ((l.rows.getD r []).drop k0).take (k1 - k0))
  | .tid d e m => tidRows s c id d e m rows k0 k1

/-- An operand's rows of the unit in progress: those the shadow operation has fetched ahead, or fetched now. -/
def operandRows (s : State) (c id : Nat) (o : Op) (n : Nat) (x : Src) (rows kAll k0 k1 : Nat) : ERes (State × List (List Elt)) :=
  match o.fetched.find? fun f => f.1 == o.prog && f.2.1 == n with
  | some f => .ok (s, f.2.2)
  | none => fetchRows s c id x rows kAll k0 k1

/-- The multiplier's operand for a float output (R286). -/
def Src.float (x : Src) (f64 : Bool) (e : Elt) : Num :=
  if e.zero then .zero
  else if f64 then elemValue x.fmt e.raw
  else
    let v := if isTrellis x.fmt then trellisValue (x.fmt == cTqt) e.raw else elemValue x.fmt e.raw
    toX34 v (if x.scfmt = 0 then .ofInt 1 else scaleValue (x.scfmt == 2) e.scale) (fp32.decode x.tscale)

def Src.int (x : Src) (e : Elt) : Int :=
  if e.zero then 0
  else if x.fmt = cTqt then tqtValue e.raw else if x.fmt = cTqg then tqgValue e.raw else if x.fmt = cTern then ternValue e.raw else
    (if isSignedInt x.fmt then signed (fmtBits x.fmt) e.raw else ((e.raw : Nat) : Int))

/-! ### Accepted formats (Table 13.6) -/

def isMini (f : Nat) : Bool := f == cBf16 || f == cFp16 || f == cE4m3 || f == cE5m2 || f == cE2m1
def isSmallInt (f : Nat) : Bool := f == cInt8 || f == cUint8 || f == cInt4

def accepts (port a b shape : Nat) : Bool :=
  let f32 := shape == 0 || shape == 1
  if port = 0x382 then a == cInt8 && b == cTern && shape == 3
  else if port = 0x383 then isTrellis b && ((a == cInt8 && shape == 3) || ((a == cBf16 || a == cFp16 || a == cE4m3 || a == cE5m2) && f32))
  else (a == cFp64 && b == cFp64 && shape == 2) || (a == cFp32 && b == cFp32 && f32) || (isMini a && isMini b && f32) || (isSmallInt a && isSmallInt b && shape == 3)

/-! ### Running a multiplication (R286) -/

def Op.kSteps (o : Op) : Nat := bits (o.port' 0x12A) 15 0

/-- Reserved bits of `me.k` and `me.flags` (R277). -/
def meReserved (o : Op) : Bool := bits (o.port' 0x12A) 63 16 != 0 || bits (o.port' 0x133) 31 5 != 0

def groupSize (shape : Nat) : Nat := if shape = 2 then 8 else 32

/-- Rows of an operand. -/
def opRows (shape : Nat) : Nat := if shape = 2 then 16 else 32

/-- C starts as zero: mmz, or mmt and mmq with B[0] (R286). -/
def zeroFirst (o : Op) : Bool := o.port == 0x381 || ((o.port == 0x382 || o.port == 0x383) && bit o.b 0)

/-- New value of C[m][n] after one group. -/
def groupValue (o : Op) (a b : Src) (c : Nat) (x y : List Elt) : Nat :=
  if o.shape = 3 then
    let sum := (x.zip y).foldl (fun t p => t + a.int p.1 * b.int p.2) (signed 32 c)
    (fitInt cInt32 sum (bit (o.port' 0x133) 0)).val
  else
    let f64 := o.shape == 2
    let f := if f64 then fp64 else fp32
    groupSum f (if f64 then 112 else 48) (f.decode c :: (x.zip y).map fun p => ((a.float f64 p.1).mul (b.float f64 p.2)).val)

def operandCheck (s : State) (c : Nat) (o : Op) (d : Word) (x : Src) : Option Nat :=
  let k := o.kSteps
  if k = 0 ∨ (x.k.isSome ∧ x.k ≠ some k) then some 18
  else if isTrellis x.fmt && ((dKind d == 0 && dScfmt d != 1) || (dKind d == 1 && dC0 d % 256 != 0)) then some 18
  else if dKind d = 0 ∧ dRange s c d (opRows o.shape) k then some 19
  else none

/-- The checks of a multiplication and its operands. -/
def openMultiply (s : State) (c id : Nat) (o : Op) : ERes (State × Src × Src) := do
  let da := o.port' 0x128
  let db := o.port' 0x129
  let bad := fun n (d : Word) => (.error (eFault cEngineError n d.toNat) : ERes (State × Src × Src))
  if meReserved o then bad 16 0
  else if dReserved da then bad 16 da
  else if dReserved db then bad 16 db
  else
    let (s, a) ← openSrc s c id da
    let (s, b) ← along s (openSrc s c id db)
    along s do
    if accepts o.port a.fmt b.fmt o.shape = false then bad 17 da
    else if o.shape = 2 ∧ (a.scfmt ≠ 0 ∨ b.scfmt ≠ 0) then bad 17 da
    else
      match operandCheck s c o da a, operandCheck s c o db b with
      | some n, some m => if n ≤ m then bad n da else bad m db
      | some n, none => bad n da
      | none, some m => bad m db
      | none, none => pure (s, a, b)

/-- Tiles whose folios must be PRESENT, pulled at their first touch (R295). -/
def needTiles (s : State) (c : Nat) (shape : Nat) (l : List Nat) : ERes Unit :=
  let fs := l.map (tileFolio shape)
  if (s.core c).allPresent fs then .ok () else .error (.folio c fs)

/-- Latch folios of latch n. -/
def latchFolios (n : Nat) : List Nat := [52 + 2 * n, 53 + 2 * n]

/-- A latch's folios are pulled at its first touch (R295). -/
def needLatchFolios (s : State) (c n : Nat) : ERes Unit := if (s.core c).allPresent (latchFolios n) then .ok () else .error (.folio c (latchFolios n))

def needLatch (s : State) (c : Nat) (d : Word) : ERes Unit := if dKind d = 2 then needLatchFolios s c (bits d 61 60) else .ok ()

/-- One k-group. -/
def multiplyUnit (s : State) (c id : Nat) (o : Op) : ERes State := do
  needLatch s c (o.port' 0x128)
  needLatch s c (o.port' 0x129)
  let (s, a, b) ← openMultiply s c id o
  along s do
  needTiles s c o.shape o.tiles
  let g := groupSize o.shape
  let k0 := g * o.prog
  let k1 := min o.kSteps (k0 + g)
  let rows := opRows o.shape
  let (s, ra) ← operandRows s c id o 0 a rows o.kSteps k0 k1
  let (s, rb) ← along s (operandRows s c id o 1 b rows o.kSteps k0 k1)
  let k := s.core c
  let old := fun m n => if o.prog = 0 && zeroFirst o then 0 else let x := outTile o.shape o.tile m n; k.tileGet o.shape x.1 x.2.1 x.2.2
  let out := (List.range rows).map fun m => (List.range rows).map fun n => (m, n, groupValue o a b (old m n) (ra.getD m []) (rb.getD n []))
  pure (s.setCore c (out.flatten.foldl (fun k x => let p := outTile o.shape o.tile x.1 x.2.1; k.tileSet o.shape p.1 p.2.1 p.2.2 x.2.2) k))

/-! ### klatch (R280) -/

/-- The copy is exact: the elements go into the latch encoded as they are, each with its scale. -/
def klatchUnit (s : State) (c id : Nat) (o : Op) : ERes State := do
  let d := o.port' 0x128
  let n := bits o.b 1 0
  needLatchFolios s c n
  let k := o.kSteps
  let bad := fun m => (.error (eFault cEngineError m d.toNat) : ERes State)
  if meReserved o ∨ dReserved d then bad 16
  else if dKind d = 2 then bad 17
  else
    let (s, x) ← openSrc s c id d
    along s do
    if badCode x.fmt ∨ (fmtBits x.fmt = 0 ∧ isTrellis x.fmt = false) then bad 17
    else
      let rows := if x.fmt = cFp64 then 16 else 32
      if k = 0 ∨ 8192 < rows * (rowBytes x.fmt x.shift k + scaleBytes x.fmt x.scfmt k) then bad 18
      else if isTrellis x.fmt && ((dKind d == 0 && dScfmt d != 1) || (dKind d == 1 && dC0 d % 256 != 0)) then bad 18
      else if dKind d = 0 ∧ dRange s c d rows k then bad 19
      else
        let (s, l) ← operandRows s c id o 0 x rows k 0 k
        pure (s.modCore c fun kk =>
          { kk with klatch := kk.klatch.set n (some { fmt := x.fmt, scfmt := x.scfmt, tqshift := x.shift, tscale := BitVec.ofNat 32 x.tscale, k := k, rows := l }) }.dirtyAll (latchFolios n))

/-! ### Tile transfers (R287) -/

/-- Formats `tcvt` writes, and those that may carry scales with their emax and largest value. -/
def tcvtFmt (f shape : Nat) : Bool :=
  (f == cFp64 && shape == 2) || f == cFp32 || f == cBf16 || f == cFp16 || f == cE4m3 || f == cE5m2 || f == cE2m1 || f == cInt32 || f == cInt16 || f == cInt8 || f == cInt4

def scaleFmts (f : Nat) : Option (Int × Nat) :=
  if f = cE4m3 then some (8, 448) else if f = cE5m2 then some (15, 57344) else if f = cE2m1 then some (2, 6) else if f = cInt8 then some (6, 127) else if f = cInt4 then some (2, 7) else none

/-- Subcodes 16, 17 and 19 of a transfer whose rows are `len` bytes. -/
def transferCheck (s : State) (c : Nat) (o : Op) (write : Bool) (fmtOk : Bool) (len : Nat) : Option Nat :=
  let d := o.port' 0x128
  if meReserved o ∨ dReserved d then some 16
  else if dKind d ≠ 0 ∨ fmtOk = false then some 17
  else if (12 ≤ dPeer d ∧ dPeer d ≠ 15) ∨ sameGathering s c (dCore c d) = false ∨ dOff d % 16 ≠ 0 ∨
      Config.scratchBytes < dOff d + (tileDim o.shape - 1) * dPitch d + len ∨ (write ∧ (dPeer d ≠ 15 ∨ dPitch d < len)) then some 19
  else none

/-- Row `r` of the scratchpad block that a `tload` reads. -/
def tloadRow (s : State) (c : Nat) (o : Op) (r : Nat) : ERes (List Elt) := do
  let d := o.port' 0x128
  let e := tileElem o.shape
  let bytes ← readSpad s (dCore c d) (dOff d + r * dPitch d) (tileRow o.shape)
  pure ((List.range (tileDim o.shape)).map fun i => { raw := leField bytes (e * i) e, scale := 0, zero := false : Elt })

/-- Whether a `tload` passes its checks. -/
def tloadFault (s : State) (c : Nat) (o : Op) : Option Nat :=
  let d := o.port' 0x128
  transferCheck s c o false (dFmt d == tileType o.shape && dScfmt d == 0) (tileRow o.shape)

/-- Row `prog` of a `tload`. -/
def tloadUnit (s : State) (c : Nat) (o : Op) : ERes State := do
  let d := o.port' 0x128
  match tloadFault s c o with
  | some n => .error (eFault cEngineError n d.toNat)
  | none =>
    needTiles s c o.shape [o.tile]
    let row ← (match o.fetched.find? fun f => f.1 == o.prog with | some f => pure (f.2.2.headD []) | none => tloadRow s c o o.prog)
    pure (s.modCore c fun k => k.tileSetAll o.shape o.tile ((List.range (tileDim o.shape)).map fun i => (o.prog, i, (row.getD i Elt.none).raw)))

/-- Row `prog` of a `tstore`. -/
def tstoreUnit (s : State) (c : Nat) (o : Op) : ERes State := do
  let d := o.port' 0x128
  match transferCheck s c o true (dFmt d == tileType o.shape && dScfmt d == 0) (tileRow o.shape) with
  | some n => .error (eFault cEngineError n d.toNat)
  | none =>
    needTiles s c o.shape [o.tile]
    let k := s.core c
    writeSpad s c (dOff d + o.prog * dPitch d) ((List.range (tileDim o.shape)).flatMap fun i => leBytes (tileElem o.shape) (k.tileGet o.shape o.tile o.prog i))

/-- Largest of exact magnitudes. -/
def maxMag (l : List Ex) : Ex := l.foldl (fun a x => if ({ a with neg := false }).cmp { x with neg := false } < 0 then { x with neg := false } else a) { neg := false, n := 0, d := 1, e := 0 }

/-- Smallest UE4M3 byte whose value is at least x, capped at 448 (0x7E). -/
def ue4m3Above (x : Ex) : Nat := ((List.range 0x7F).find? fun b => match e4m3.decode b with | .fin v => decide (0 ≤ v.cmp x) | _ => false).getD 0x7E

/-- A block's scale byte (R287). -/
def scaleByte (fmt scfmt : Nat) (y : List Num) : Nat :=
  match scaleFmts fmt with
  | none => 0
  | some (emax, maxv) =>
    let nan := y.any Num.isNan
    let inf := y.any Num.isInf
    let a := maxMag (y.filterMap exOf)
    if scfmt = 1 then
      if nan then 0xFF else if inf then 254 else if a.n = 0 then 0x7F
      else (max 0 (min 254 (a.log2 - emax + 127))).toNat
    else if nan then 0x7F else if inf then 0x7E else if a.n = 0 then 0x38
    else ue4m3Above { a with d := a.d * maxv }

/-- Convert(fmt, y / s) under the flags of the operation (R287). -/
def tcvtElem (o : Op) (fmt : Nat) (r col : Nat) (q : Num) : Nat :=
  let fl := o.port' 0x133
  match floatFmt fmt with
  | some f =>
    if bit fl 4 && stochFmt fmt then (f.outStoch q (drawRnd (bits fl 63 32) 8 (r * 32 + col) o.count) (bit fl 3)).val
    else (f.out q (bits fl 2 1) (bit fl 3)).val
  | none => (toIntFmt fmt q (bits fl 2 1)).val

/-- Row `prog` of a `tcvt`. -/
def tcvtUnit (s : State) (c : Nat) (o : Op) : ERes State := do
  let d := o.port' 0x128
  let fmt := dFmt d
  let sc := dScfmt d
  let n := tileDim o.shape
  let len := rowBytes fmt 0 n + (if sc = 0 then 0 else 1)
  match transferCheck s c o true (tcvtFmt fmt o.shape && (sc == 0 || (scaleFmts fmt).isSome)) len with
  | some m => .error (eFault cEngineError m d.toNat)
  | none =>
    needTiles s c o.shape [o.tile]
    let k := s.core c
    let f := fp32.decode (bits o.b 31 0)
    let y := (List.range n).map fun i => ((elemValue (tileType o.shape) (k.tileGet o.shape o.tile o.prog i)).mul f).val
    let byte := scaleByte fmt sc y
    let scale := if sc = 0 then Num.ofInt 1 else scaleValue (sc == 2) byte
    let out := (List.range n).map fun i => tcvtElem o fmt o.prog i ((y.getD i .zero).div scale).val
    writeSpad s c (dOff d + o.prog * dPitch d) (leBytes (rowBytes fmt 0 n) (packLanes (fmtBits fmt) out) ++ (if sc = 0 then [] else [BitVec.ofNat 8 byte]))

/-! ### Tile arithmetic (R288) -/

/-- Row `prog` of a `tadd` or `tscale`: `f` is the new pattern of element i. -/
def rowUnit (s : State) (c : Nat) (o : Op) (f : Core → Nat → Nat) : ERes State := do
  needTiles s c o.shape o.tiles
  let k := s.core c
  pure (s.setCore c (k.tileSetAll o.shape o.tile ((List.range (tileDim o.shape)).map fun i => (o.prog, i, f k i))))

def meFlagsRm (o : Op) : Nat := bits (o.port' 0x133) 2 1

def taddUnit (s : State) (c : Nat) (o : Op) : ERes State :=
  if meReserved o then .error (eFault cEngineError 16 0)
  else rowUnit s c o fun k i =>
    let a := k.tileGet o.shape o.tile o.prog i
    let b := k.tileGet o.shape (bits o.b 5 0) o.prog i
    if o.shape = 3 then (fitInt cInt32 (signed 32 a + signed 32 b) (bit (o.port' 0x133) 0)).val
    else
      let f := if o.shape = 2 then fp64 else fp32
      (f.out ((f.decode a).add (f.decode b) (meFlagsRm o)).val (meFlagsRm o) false).val

def tscaleUnit (s : State) (c : Nat) (o : Op) : ERes State :=
  if meReserved o then .error (eFault cEngineError 16 0)
  else if o.shape = 3 then .error (eFault cEngineError 17 0)
  else rowUnit s c o fun k i =>
    let f := if o.shape = 2 then fp64 else fp32
    (f.out ((f.decode (k.tileGet o.shape o.tile o.prog i)).mul (fp32.decode (bits o.b 31 0))).val (meFlagsRm o) false).val

/-- The largest magnitude of a tile as FP32: NaN only if every element is. -/
def tileAmax (k : Core) (shape t : Nat) : Nat :=
  let n := tileDim shape
  let vals := (List.range n).flatMap fun r => (List.range n).map fun c => elemValue (tileType shape) (k.tileGet shape t r c)
  let good := vals.filter fun x => !x.isNan
  if good = [] then fp32.nan
  else if good.any Num.isInf then fp32.infinity false
  else (fp32.roundEx (maxMag (good.filterMap exOf)) 0 false).val

/-- An engine atomic at a virtual address: at home, or one ATOMIC packet (R141, R288). -/
def atomicRequest (node va : Nat) : Request :=
  { write := false, dest := { node := node, va := va, tid := 0, mapver := 0, geom := none, retried := false }, nth := 0, len := 4, data := [1] }

/-- Send the ATOMIC packet of an engine `amaxf` once. -/
def sendAtomic (s : State) (c id node va m : Nat) : State :=
  match s.op c id with
  | none => s
  | some o =>
    let q := atomicRequest node va
    let key := flowKey (dieOf c) node
    if o.runs.any (fun r => r.serves q) || !s.flowRoom key then s
    else
      let p := { Packet.zero with op := pAtomic, pasid := BitVec.ofNat 20 (s.core c).member.pasid, len1 := 3, va := BitVec.ofNat 57 va, aop := 2, w32 := true, operand := BitVec.ofNat 64 m }
      let r : Run := { dest := q.dest, nth := 0, fseq := (s.flow key).seq, len := 4, write := false, data := q.data, answer := none }
      (sendSprayed s (dieOf c) node p c id).modOp c id fun o => { o with runs := o.runs ++ [r] }

def tamaxUnit (s : State) (c id : Nat) (o : Op) : ERes State := do
  let va := o.b.toNat
  if meReserved o then .error (eFault cEngineError 16 0)
  else if va % 4 ≠ 0 then .error (eFault cEngineError 19 va)
  else
    needTiles s c o.shape [o.tile]
    let m := tileAmax (s.core c) o.shape o.tile
    let ag : Agent := { cache := dieOf c, perms := [59], kinds := [0, 1, 4], fpc := false }
    let pasid := (s.core c).member.pasid
    let walked := fun (s : State) (ag : Agent) => (translate s ag pasid va true).mapError (walkStop s ag.cache pasid va va)
    let (s, _) ← walked s ag
    let (s, e) ← along s (walked s { ag with perms := [53] })
    along s do
      if leafKind e = 4 then
        let phys := leafFrame e * 0x10000 + va % pageBytes (leafSize e)
        let node := phys / 2 ^ 37 % 2 ^ 15
        if node / 4 = s.module then
          let (s, p) ← windowPlace s 53 pasid node (phys % 2 ^ 37) va true
          pure (s.write32 p (BitVec.ofNat 32 (maxNum32 (s.read32 p).toNat m)))
        else if mayReach s s.domain node = false then .error (eFault cUnreachable 1 va)
        else
          let s := sendAtomic s c id node (phys % 2 ^ 37) m
          if (answerOf s c id (atomicRequest node (phys % 2 ^ 37))).isSome then pure s else .error (.hold s)
      else
        let p := leafPlace s pasid e va
        pure (s.write32 p (BitVec.ofNat 32 (maxNum32 (s.read32 p).toNat m)))

/-! ### The follow-on (R294) -/

/-- Subcode 21 of a follow-on block: also of an op field that names no operation of Table 13.5 (DEDUCED, log entry 19). -/
def followBad (k : Core) (o : Op) (w0 w7 : Word) : Bool :=
  let port := 0x380 + bits w0 4 0
  bits w0 63 20 != 0 || bits w0 15 5 != 0 || w7 != 0 || isMeTrig port == false || (decide (0x386 ≤ port) && decide (port ≤ 0x38A)) ||
    (tileFault k.shape port o.tile (bits o.b 5 0)).isSome

/-- The operation a follow-on block describes, for the CE operation that named it. -/
def followOp (k : Core) (o : Op) (off : Nat) : Op :=
  let w := fun i => k.spad64 (off + 8 * i)
  let cfg := ((((Tab.empty.put 0 0x128 (w 1)).put 0 0x129 (w 2)).put 0 0x12A (w 3)).put 0 0x12C (w 4)).put 0 0x133 (w 5)
  { o with port := 0x380 + bits (w 0) 4 0, b := w 6, cfg := cfg, j := bits (w 0) 19 16, shape := k.shape, prog := 0, st := .queued, runs := [], failed := [],
           err := none, waiting := false, moved := [], memo := [], lastRun := none, fetched := [], counted := 0, want := [], late := [], block := some (w 0, w 7), taken := [], packed := (0, []), joined := false }

/-- Whether an operation is a CE copy that names a follow-on, and its block. -/
def Op.follow (o : Op) : Option Nat := if o.port == 0x3A0 && bit (o.port' 0x126) 63 then some (bits (o.port' 0x126) 18 0) else none

/-! ### Progress -/

/-- Units of an operation: k-groups, rows, or one. -/
def meUnits (o : Op) : Nat :=
  if isMultiply o.port then max 1 ((o.kSteps + groupSize o.shape - 1) / groupSize o.shape)
  else if o.port = 0x38B ∨ o.port = 0x38C ∨ o.port = 0x38D ∨ o.port = 0x38E ∨ o.port = 0x38F then tileDim o.shape
  else 1

/-- The block of a follow-on is checked when it forks, and again whenever it runs after a resume (R294). -/
def blockFault (s : State) (c : Nat) (o : Op) : Bool := match o.block with | some (w0, w7) => followBad (s.core c) o w0 w7 | none => false

def meUnit (s : State) (c id : Nat) (o : Op) : ERes State :=
  if isMultiply o.port then multiplyUnit s c id o
  else if o.port = 0x384 then klatchUnit s c id o
  else if o.port = 0x38B then tloadUnit s c o
  else if o.port = 0x38C then tstoreUnit s c o
  else if o.port = 0x38D then tcvtUnit s c o
  else if o.port = 0x38E then taddUnit s c o
  else if o.port = 0x38F then tscaleUnit s c o
  else if o.port = 0x390 then tamaxUnit s c id o
  else if meReserved o then .error (eFault cEngineError 16 0)
  else (needTiles s c o.shape [o.tile]).map fun _ =>
    s.modCore c fun k => k.tileSetAll o.shape o.tile ((List.range (tileDim o.shape)).flatMap fun r => (List.range (tileDim o.shape)).map fun i => (r, i, 0))

/-! ### Two ME operations (R139, R283) -/

/-- Latches that an operation touches. -/
def Op.latches (o : Op) : List Nat :=
  if o.port = 0x384 then [bits o.b 1 0]
  else if isMultiply o.port then ([o.port' 0x128, o.port' 0x129].filter fun d => dKind d == 2).map fun d => bits d 61 60 else []

/-- Operations that read the tile file and write memory. -/
def readsTilesOnly (port : Nat) : Bool := port == 0x38C || port == 0x38D || port == 0x390

/-- Whether an ME operation may run beside an older one: every effect of the older on the tile file and the latches comes
before the younger touches them, and the younger changes nothing that the older still reads. -/
def runsBeside (old new : Op) : Bool :=
  if old.port = 0x384 then new.latches.isEmpty
  else if readsTilesOnly old.port then readsTilesOnly new.port || !(new.tiles.any fun t => old.tiles.contains t)
  else new.port == 0x384 && !(old.latches.any fun n => new.latches.contains n)

/-- The rows that operand `n` of an operation takes in unit `u`. -/
def prefetchOperand (s : State) (c id : Nat) (o : Op) (n u : Nat) : ERes State := do
  let d := o.port' (0x128 + n)
  if dKind d = 2 ∨ dReserved d then pure s
  else
    let (s, x) ← openSrc s c id d
    along s do
    let g := groupSize o.shape
    let (rows, k0, k1) := if o.port = 0x384 then (if x.fmt = cFp64 then 16 else 32, 0, o.kSteps) else (opRows o.shape, g * u, min o.kSteps (g * u + g))
    if dKind d = 0 ∧ dRange s c d rows o.kSteps then pure s
    else
      let (s, l) ← fetchRows s c id x rows o.kSteps k0 k1
      pure (s.modOp c id fun o => { o with fetched := o.fetched ++ [(u, n, l)] })

/-- The row that a `tload` takes in unit `u`. -/
def prefetchRow (s : State) (c id : Nat) (o : Op) (u : Nat) : State :=
  match tloadFault s c o, tloadRow s c o u with
  | none, .ok l => s.modOp c id fun o => { o with fetched := o.fetched ++ [(u, 0, [l])] }
  | _, _ => s

/-- The shadow operation fetches the memory operands of its next unit while the active one computes (R283). What would stop
it stops it when it runs. -/
def prefetch (s : State) (c id : Nat) (o : Op) : State :=
  let u := ((upto o.prog (meUnits o - o.prog)).find? fun u => !(o.fetched.any fun f => f.1 == u)).getD o.prog
  let one := fun n (s : State) =>
    if o.fetched.any fun f => f.1 == u && f.2.1 == n then s
    else match prefetchOperand s c id o n u with | .ok t => t | .error (.hold t) => t | .error (.behind t _) => s.keepUnit c id t | .error _ => s
  if o.port = 0x384 then one 0 s
  else if isMultiply o.port then one 1 (one 0 s)
  else if o.port = 0x38B && !(o.fetched.any fun f => f.1 == u) then prefetchRow s c id o u
  else s

end Sys2Proof.Machine
end

