-- ==== Sys2Proof/Machine/Copy.lean ====
section
/-!
DEFINITION. The copy engine (R296 to R314): the checks at fork, the walk, and each operation one transfer granule of
256 destination bytes at a time.
-/

namespace Sys2Proof.Machine

/-! ### Triggers -/

def ceTrigger : Body := fun x s => gateOp x s (bits ((s.core x.c).arch.config 0x125) 3 0)

def execCeCopy (m : Mv) (s : State) : Host.Outcome State Fault Refusal := runMv m 0x3A0 ceTrigger s
def execCeGather (m : Mv) (s : State) : Host.Outcome State Fault Refusal := runMv m 0x3A1 ceTrigger s
def execCeScatter (m : Mv) (s : State) : Host.Outcome State Fault Refusal := runMv m 0x3A2 ceTrigger s
def execCeTget (m : Mv) (s : State) : Host.Outcome State Fault Refusal := runMv m 0x3A3 ceTrigger s
def execCeTsend (m : Mv) (s : State) : Host.Outcome State Fault Refusal := runMv m 0x3A4 ceTrigger s
def execCeFill (m : Mv) (s : State) : Host.Outcome State Fault Refusal := runMv m 0x3A5 ceTrigger s
def execCeMcast (m : Mv) (s : State) : Host.Outcome State Fault Refusal := runMv m 0x3A6 ceTrigger s
def execCeSfill (m : Mv) (s : State) : Host.Outcome State Fault Refusal := runMv m 0x3A7 ceTrigger s
def execCeDfill (m : Mv) (s : State) : Host.Outcome State Fault Refusal := runMv m 0x3A8 ceTrigger s
def execCeCput (m : Mv) (s : State) : Host.Outcome State Fault Refusal := runMv m 0x3A9 ceTrigger s
def execCeCancel (m : Mv) (s : State) : Host.Outcome State Fault Refusal := runMv m 0x3AA ceTrigger s

/-! ### Fields (Tables 14.1, 14.2) -/

def isChunk (port : Nat) : Bool := port == 0x3A8 || port == 0x3A9
def cwCirc (o : Op) : Nat := if isChunk o.port then 0 else bits o.b 63 56
def cwTid (o : Op) : Nat := bits o.b 55 44
def cwN0 (o : Op) : Nat := bits o.b 63 32
def cwSdir (o : Op) : Bool := bit o.b 23
def cwEsz (o : Op) : Nat := 2 ^ bits o.b 22 20
def cwDkind (o : Op) : Nat := bits o.b 19 18
def cwSkind (o : Op) : Nat := bits o.b 17 16
def cwSwv (o : Op) : Bool := bit o.b 15
def ceSrc (o : Op) : Word := o.port' 0x120
def ceDst (o : Op) : Word := o.port' 0x121
def ceExt (o : Op) (d : Nat) : Nat := bits (o.port' 0x122) (16 * d + 15) (16 * d) + 1
def ceStr (o : Op) (d : Nat) : Int := signed 16 (bits (o.port' 0x123) (16 * d + 15) (16 * d))
def ceSw (o : Op) : Nat := bits (o.port' 0x124) 18 0
def ceTcore (o : Op) : Nat := bits (o.port' 0x124) 27 19
def ceIdx (o : Op) : Word := o.port' 0x127
def ceMask (o : Op) : Word := o.port' 0x132
def ceCount (o : Op) : Nat := ceExt o 0 * ceExt o 1 * ceExt o 2 * ceExt o 3

/-- Walk indices of dense index n (R300). -/
def walkIndex (o : Op) (n : Nat) : List Nat :=
  [n % ceExt o 0, n / ceExt o 0 % ceExt o 1, n / (ceExt o 0 * ceExt o 1) % ceExt o 2, n / (ceExt o 0 * ceExt o 1 * ceExt o 2)]

/-- Strided offset of element n, in bytes. -/
def stridedOff (o : Op) (n : Nat) : Int :=
  let i := walkIndex o n
  (cwEsz o : Int) * ((List.range 4).foldl (fun a d => a + ((i.getD d 0 : Nat) : Int) * ceStr o d) (0 : Int))

/-- Members an `mcast` names: number 12 × die + core, and coreid (R305). -/
def mcastMembers (c : Nat) (o : Op) : List (Nat × Nat) :=
  let m := ceMask o
  let cores := (List.range 12).filter fun i => bit m i
  if bit m 16 then
    (((List.range 4).filter fun d => bit m (12 + d)).flatMap fun d => cores.map fun i => (12 * d + i, 96 * d + 12 * (quireOf c % 8) + i))
  else cores.map fun i => (12 * dieOf c + i, 12 * quireOf c + i)

/-! ### Checks at fork (Tables 14.3, 14.6) -/

def kindsOk (o : Op) : Bool :=
  let sk := cwSkind o
  let dk := cwDkind o
  match o.port with
  | 0x3A3 => sk == 2 && dk == 0
  | 0x3A4 => sk == 0 && dk == 2
  | 0x3A5 => sk == 0 && decide (dk ≤ 1)
  | 0x3A6 => decide (sk ≤ 1) && dk == 0
  | 0x3A7 => sk == 2 && dk == 0
  | 0x3A8 => sk == 1 && decide (dk ≤ 1)
  | 0x3A9 => decide (sk ≤ 1) && dk == 1
  | _ => decide (sk ≤ 1) && decide (dk ≤ 1)

def isTidOp (port : Nat) : Bool := port == 0x3A3 || port == 0x3A4 || port == 0x3A7

def badControl (s : State) (c : Nat) (o : Op) : Bool :=
  bits o.b 14 0 != 0 || (if isChunk o.port then bits o.b 31 24 != 0 else bits o.b 43 24 != 0) || !kindsOk o ||
  (o.port == 0x3A5 && decide (8 < cwEsz o)) ||
  ((o.port == 0x3A1 || o.port == 0x3A2) && (cwSdir o || ceExt o 1 != 1 || ceExt o 2 != 1 || ceExt o 3 != 1)) ||
  (isChunk o.port && (ceExt o 1 != 1 || ceExt o 2 != 1 || ceExt o 3 != 1)) ||
  (o.port == 0x3A6 && (bits (ceMask o) 63 17 != 0 || (mcastMembers c o).isEmpty)) ||
  (cwCirc o != 0 && !(s.circuits.get .none (cwCirc o)).valid)

/-- Bytes an endpoint must be a multiple of (R300); `tget` and `tsend` ignore esz (R304). -/
def endAlign (o : Op) : Nat := if o.port = 0x3A3 ∨ o.port = 0x3A4 then 1 else cwEsz o

/-- Least and greatest byte offset of a strided walk, the latter exclusive. -/
def stridedSpan (o : Op) : Int × Int :=
  let ext := fun (d : Nat) => ((ceExt o d - 1 : Nat) : Int) * ceStr o d
  let e : Int := ((cwEsz o : Nat) : Int)
  (e * (List.range 4).foldl (fun a d => a + min 0 (ext d)) 0, e * (List.range 4).foldl (fun a d => a + max 0 (ext d)) 0 + e)

/-- Bytes that the source (`dst = false`) or destination of an operation spans from its address; none where an index list or
a tensor-table entry says it. -/
def endSpan (o : Op) (dst : Bool) : Option (Int × Int) :=
  let dense : Int × Int := (0, ((ceCount o * cwEsz o : Nat) : Int))
  if isChunk o.port then some (0, ((4096 * ceExt o 0 : Nat) : Int))
  else if isTidOp o.port then none
  else if o.port = 0x3A1 then (if dst then some dense else none)
  else if o.port = 0x3A2 then (if dst then none else some dense)
  else if cwSdir o = dst then some (stridedSpan o) else some dense

/-- A range from a local token leaves the scratchpad (Table 14.6, subcode 33). -/
def localBeyond (o : Op) (dst : Bool) (w : Word) : Bool :=
  tokKind w == 0 &&
    match endSpan o dst with
    | some (lo, hi) => decide (((tokOff w : Nat) : Int) + lo < 0) || decide (((Config.scratchBytes : Nat) : Int) < ((tokOff w : Nat) : Int) + hi)
    | none => false

def addrOfEnd (kind : Nat) (w : Word) : Nat := if kind = 0 then tokOff w else w.toNat

def badAlign (o : Op) : Bool :=
  let srcUsed := o.port != 0x3A3 && o.port != 0x3A5 && o.port != 0x3A7
  let dstUsed := o.port != 0x3A4 && o.port != 0x3A6
  (srcUsed && addrOfEnd (cwSkind o) (ceSrc o) % endAlign o != 0) || (dstUsed && addrOfEnd (cwDkind o) (ceDst o) % endAlign o != 0) ||
  (srcUsed && cwSkind o == 0 && localBeyond o false (ceSrc o)) || (dstUsed && cwDkind o == 0 && localBeyond o true (ceDst o)) ||
  (o.port == 0x3A6 && (bits (ceDst o) 18 0 % endAlign o != 0 || decide (Config.scratchBytes < bits (ceDst o) 18 0 + ceCount o * cwEsz o))) ||
  (cwSwv o && !syncOk (ceSw o)) ||
  (match o.follow with | some off => off % 64 != 0 || decide (Config.scratchBytes < off + 64) | none => false) ||
  ((o.port == 0x3A1 || o.port == 0x3A2) && ((ceIdx o).toNat % 4 != 0 || decide (Config.scratchBytes < (ceIdx o).toNat + 4 * ceCount o)))

/-- R16 for an endpoint token whose first access has `n` bytes (R299): the lowest subcode. A local range is checked as a
whole (`localBeyond`), a granule beyond a peer's scratchpad when it is reached (`needEnds`). -/
def endTokenFault (s : State) (c : Nat) (t : Word) (n : Nat) : Option Nat :=
  let k := tokKind t
  if 3 ≤ k then some 1
  else if bits t 55 53 ≠ 0 ∨ bits t 47 40 ≠ 0 ∨ (k ≠ 1 ∧ tokPeer t ≠ 0) ∨ (k ≠ 2 ∧ tokHandle t ≠ 0) then some 2
  else if k ≤ 1 ∧ Config.scratchBytes < tokOff t + n then some 3
  else if k = 2 then some 8
  else if k = 1 ∧ 12 ≤ tokPeer t then some 4
  else if k = 1 ∧ sameGathering s c (peerCore c (tokPeer t)) = false then some 7
  else none

def endCheck (s : State) (c : Nat) (o : Op) (w : Word) : Option CFault :=
  (endTokenFault s c w (if isTidOp o.port || isChunk o.port then 1 else cwEsz o)).map fun n => CFault.mk' cIllegalAddress n 15 w.toNat

/-- Checks 32 and 33, then the endpoints' own (R299). -/
def ceCheck (s : State) (c : Nat) (o : Op) : ERes Unit :=
  if badControl s c o then .error (eFault cEngineError 32 0)
  else if badAlign o then .error (eFault cEngineError 33 0)
  else
    let src := if o.port = 0x3A5 ∨ cwSkind o ≠ 0 then none else endCheck s c o (ceSrc o)
    let dst := if o.port = 0x3A6 ∨ cwDkind o ≠ 0 then none else endCheck s c o (ceDst o)
    match src, dst with
    | some f, _ => .error (.fault f)
    | none, some f => .error (.fault f)
    | none, none => .ok ()

/-! ### Endpoints -/

/-- One contiguous part of an endpoint. -/
inductive End where
  | spad (core off : Nat)
  | va (a : Nat)
deriving DecidableEq, Repr

/-- Core of a token of kind 0 or 1. -/
def tokenCore (c : Nat) (t : Word) : Nat := if tokKind t = 1 then peerCore c (tokPeer t) else c

/-- An endpoint displaced by exact bytes (R300). -/
def endAt (c kind : Nat) (w : Word) (delta : Int) : End :=
  if kind = 0 then .spad (tokenCore c w) ((((tokOff w : Nat) : Int) + delta) % (2 ^ 40 : Int)).toNat
  else .va ((((w.toNat : Nat) : Int) + delta) % (2 ^ 64 : Int)).toNat

/-- Whether a VA walk leaves the 64-bit space: not canonical. -/
def vaWild (kind : Nat) (w : Word) (delta : Int) : Bool := kind != 0 && (decide (((w.toNat : Nat) : Int) + delta < 0) || decide ((2 ^ 64 : Int) ≤ ((w.toNat : Nat) : Int) + delta))

/-- Parts of an endpoint by displacement and length; a walk that leaves the 64-bit space is not canonical. -/
def endsAt (c kind : Nat) (w : Word) (l : List (Int × Nat)) : ERes (List (End × Nat)) :=
  if l.any fun x => vaWild kind w x.1 then .error (eFault cTranslate 1 w.toNat) else .ok (l.map fun x => (endAt c kind w x.1, x.2))

/-- Dense bytes [lo, lo + n) in transfer granules. -/
def denseParts (lo n : Nat) : List (Int × Nat) := (List.range ((n + 255) / 256)).map fun g => (((lo + 256 * g : Nat) : Int), min 256 (n - 256 * g))

/-- A scratchpad part must lie below 0x5_0000 (R16 subcode 3), its folios PRESENT. -/
def needEnds (s : State) : List (End × Nat) → ERes Unit
  | [] => .ok ()
  | (.spad d off, n) :: r =>
    if Config.scratchBytes < off + n then .error (eFault cIllegalAddress 3 off)
    else (needSpad s d off n).bind fun _ => needEnds s r
  | (.va _, _) :: r => needEnds s r

def mergeVa : List (End × Nat) → List Piece
  | [] => []
  | (.va a, n) :: r =>
    match mergeVa r with
    | p :: q => if a + n = p.va ∧ n + p.len ≤ 4096 then { p with va := a, len := n + p.len } :: q else Piece.plain a n :: p :: q
    | [] => [Piece.plain a n]
  | (.spad .., _) :: r => mergeVa r

def spadBytes (s : State) : List (End × Nat) → List Byte
  | [] => []
  | (.spad d off, n) :: r => (s.core d).spadRead off n ++ spadBytes s r
  | (.va _, _) :: r => spadBytes s r

/-- Reads of remote data with a circuit named are refused (R378). -/
def readsRemote (l : List (List (Target × Nat))) : Bool := l.flatten.any fun x => match x.1 with | .there .. => true | .here _ => false

def ceReadPieces (s : State) (c id circ : Nat) (ag : Agent) (pieces : List Piece) : ERes (State × List Byte) := do
  let (t, l) ← placePieces c id ag false pieces s
  along t (if circ ≠ 0 ∧ readsRemote l then .error (eFault cEngineError 32 0) else readPieces t c id ag pieces)

/-- Read the parts of one endpoint, all scratchpad or all virtual. -/
def readEnds (s : State) (c id circ : Nat) (ag : Agent) (l : List (End × Nat)) : ERes (State × List Byte) := do
  needEnds s l
  match l with
  | (.va _, _) :: _ => ceReadPieces s c id circ ag (mergeVa l)
  | _ => pure (s, spadBytes s l)

def writeSpads : List (End × Nat) → List Byte → State → State
  | [], _, s => s
  | (.spad d off, n) :: r, b, s => writeSpads r (b.drop n) (s.modCore d fun k => k.spadWrite off (b.take n))
  | (.va _, n) :: r, b, s => writeSpads r (b.drop n) s

/-! ### Timetabled writes (R378) -/

/-- The circuit of an operation that R378 gives one: `copy`, `scatter`, `fill` and `tsend`. -/
def timetable (o : Op) : Nat := if o.port = 0x3A0 ∨ o.port = 0x3A2 ∨ o.port = 0x3A4 ∨ o.port = 0x3A5 then cwCirc o else 0

/-- Whether a part goes out on the operation's circuit. -/
def onCircuit (s : State) (circ : Nat) : Target → Bool
  | .there d => circ != 0 && (s.circuits.get .none circ).target == d.node
  | .here _ => false

def circuitPacket (s : State) (c : Nat) (o : Op) (q : Request) : Packet :=
  { q.packet (s.core c).member.pasid with
    timetabled := true, circ := BitVec.ofNat 8 (cwCirc o), dst := BitVec.ofNat 15 q.dest.node, src := BitVec.ofNat 15 (s.node (dieOf c)),
    swcore := BitVec.ofNat 9 (ceTcore o), sw := BitVec.ofNat 19 (ceSw o), swv := cwSwv o, gath := (s.core c).member.gath }

/-- Queue the timetabled packets of a unit; the bytes that its circuit carries. -/
def queueCircuit (c : Nat) (o : Op) : List (Target × Nat) → List Byte → State → State × Nat
  | [], _, s => (s, 0)
  | (t, len) :: r, d, s =>
    let (s, n) := queueCircuit c o r (d.drop len) s
    match t with
    | .there q =>
      if onCircuit s (timetable o) t then
        let p := circuitPacket s c o (writeRequest q (d.take len))
        ({ s with timetabled := { circ := cwCirc o, core := c, op := o.id, p := p, flits := packetFlits p } :: s.timetabled }, n + len)
      else (s, n)
    | .here _ => (s, n)

/-- Write pieces of global memory: the bytes that count at the issuer's word. -/
def cePlaceWrites (s : State) (c id : Nat) (o : Op) (ag : Agent) (pieces : List Piece) (d : List Byte) : ERes (State × Nat) := do
  let (s, l) ← placePieces c id ag true pieces s
  let q := numbered (farWrites (onCircuit s (timetable o)) l.flatten d)
  let s := sendWrites c id q [] s
  if allAcked s c id q then
    let (t, n) := queueCircuit c o l.flatten d { s with timetabled := [] }
    pure ({ writeHere l.flatten d t with timetabled := s.timetabled ++ t.timetabled }, d.length - n)
  else .error (.hold s)

def writeEnds (s : State) (c id : Nat) (o : Op) (ag : Agent) (l : List (End × Nat)) (d : List Byte) : ERes (State × Nat) := do
  needEnds s l
  match l with
  | (.va _, _) :: _ => cePlaceWrites s c id o ag (mergeVa l) d
  | _ => pure (writeSpads l d s, d.length)

/-! ### Arrivals -/

/-- Count landed bytes at the issuing core's word (R301). -/
def ceArrive (s : State) (c : Nat) (o : Op) (n : Nat) : ERes State :=
  if cwSwv o && decide (0 < n) then (needSpad s c (ceSw o) 16).map fun _ => arrive s c (ceSw o) n else .ok s

/-- A decode error ends the operation: `rest` undelivered bytes land as zeros before this, one arrival carries them with
ERR, and the record names the group or chunk `place` (R308, R87). -/
def ceDecodeError (s : State) (c id : Nat) (o : Op) (rest units place : Nat) : ERes State := do
  let s ← (if cwSwv o then (needSpad s c (ceSw o) 16).map fun _ => arriveErr s c (ceSw o) rest else pure s)
  pure ((noteDecodeError s c o place).modOp c id fun o => { o with prog := units - 1, err := some (cEngineError, 38) })

/-! ### Granules -/

/-- Destination bytes [256 g, 256 g + 256) of `total`. -/
def granuleSpan (total g : Nat) : Nat × Nat := (256 * g, min 256 (total - 256 * g))

/-- Elements of a granule for element size `e`. -/
def granuleElems (o : Op) (g : Nat) : List Nat :=
  let e := cwEsz o
  let lo := 256 * g / e
  upto lo (min (256 / e) (ceCount o - lo))

/-- Index list entry i (R303). -/
def listIndex (s : State) (c : Nat) (o : Op) (i : Nat) : Nat := ((s.core c).spad32 ((ceIdx o).toNat + 4 * i)).toNat

def srcDelta (s : State) (c : Nat) (o : Op) (n : Nat) : Int :=
  if o.port = 0x3A1 then ((cwEsz o * listIndex s c o n : Nat) : Int)
  else if o.port = 0x3A2 ∨ cwSdir o then ((cwEsz o * n : Nat) : Int)
  else stridedOff o n

def dstDelta (s : State) (c : Nat) (o : Op) (n : Nat) : Int :=
  if o.port = 0x3A2 then ((cwEsz o * listIndex s c o n : Nat) : Int)
  else if o.port = 0x3A1 ∨ cwSdir o = false then ((cwEsz o * n : Nat) : Int)
  else stridedOff o n

def needList (s : State) (c : Nat) (o : Op) (l : List Nat) : ERes Unit :=
  if o.port = 0x3A1 ∨ o.port = 0x3A2 then
    match l with
    | [] => .ok ()
    | n :: _ => needSpad s c ((ceIdx o).toNat + 4 * n) (4 * l.length)
  else .ok ()

/-- The bytes a granule of copy, gather, scatter, fill or mcast moves. -/
def granuleSource (s : State) (c id : Nat) (o : Op) (l : List Nat) : ERes (State × List Byte) :=
  if o.port = 0x3A5 then .ok (s, l.flatMap fun _ => leBytes (cwEsz o) (ceSrc o).toNat)
  else do
    let ends ← endsAt c (cwSkind o) (ceSrc o) (l.map fun n => (srcDelta s c o n, cwEsz o))
    readEnds s c id (cwCirc o) (ceReader (dieOf c) false) ends

def moveGranule (s : State) (c id : Nat) (o : Op) : ERes State := do
  let l := granuleElems o o.prog
  needList s c o l
  let (s, d) ← granuleSource s c id o l
  along s do
  let ends ← endsAt c (cwDkind o) (ceDst o) (l.map fun n => (dstDelta s c o n, cwEsz o))
  let (s, n) ← writeEnds s c id o (ceWriter (dieOf c) false) ends d
  along s (ceArrive s c o n)

/-- Folios that one member's granule needs. -/
def lateFolios (o : Op) (off n : Nat) : List Nat := spadFolios off n ++ (if cwSwv o then spadFolios (ceSw o) 16 else [])

/-- A granule lands at one member; its arrival at the member's own word (R305) comes when the member has taken all. -/
def landAt (c id : Nat) (o : Op) (n e off : Nat) (d : List Byte) (s : State) : State :=
  (s.modCore e fun k => k.spadWrite off d).modOp c id fun o' => if cwSwv o then { o' with taken := o'.taken ++ [(n, e, d.length)] } else o'

/-- A member fails: its word is left unchanged, and granules that have landed there stay (R144). -/
def failMember (c id n code sub : Nat) (s : State) : State :=
  s.modOp c id fun o => { o with failed := o.failed ++ [(n, code, sub)], late := o.late.filter (fun x => x.1 != n), taken := o.taken.filter fun x => x.1 != n }

/-- One granule at each member, independently (R144): it fails there, lands, or, behind a folio that is not PRESENT,
lands later. -/
def mcastMembersTake (c id : Nat) : List (Nat × Nat × Nat × List Byte) → State → State
  | [], s => s
  | (n, e, off, d) :: r, s =>
    match s.op c id with
    | none => s
    | some o =>
      mcastMembersTake c id r
        (if o.failed.any fun f => f.1 == n then s
         else if sameGathering s c e = false then failMember c id n cIllegalAddress 7 s
         else if (s.core e).allPresent (lateFolios o off d.length) && !(o.late.any fun x => x.1 == n) then landAt c id o n e off d s
         else (s.modCore e fun k => k.touchAll (lateFolios o off d.length)).modOp c id fun o => { o with late := o.late ++ [(n, e, off, d)] })

/-- The granules of an `mcast` that a member has taken are counted at its word once it can fail no more: it has taken the last one
(`all`), or the operation has parked, been cancelled (R311, R313). DEDUCED (log entry 20). A word whose folio is not PRESENT is
waited for. -/
def mcastCount (c id : Nat) (all : Bool) (s : State) : State :=
  match s.op c id with
  | none => s
  | some o =>
    if all || o.err.isSome || o.isParked then
      let fs := spadFolios (ceSw o) 16
      let due := o.taken.filter fun x => !(o.late.any fun y => y.1 == x.1)
      let now := due.filter fun x => (s.core x.2.1).allPresent fs
      let s := due.foldl (fun s x => if now.contains x then arrive s x.2.1 (ceSw o) x.2.2 else s.modCore x.2.1 fun k => k.touchAll fs) s
      s.modOp c id fun o => { o with taken := o.taken.filter fun x => !now.contains x }
    else s

/-- Granules of an operation whose elements have a size. -/
def denseUnits (o : Op) : Nat := (ceCount o * cwEsz o + 255) / 256

/-- Members take the granules that wait for them, where they can now. -/
def mcastLate (s : State) (c id : Nat) : State :=
  match s.op c id with
  | some o =>
    if o.late = [] ∧ o.taken = [] then s
    else mcastCount c id (decide (denseUnits o ≤ o.prog)) (mcastMembersTake c id o.late (s.modOp c id fun o => { o with late := [] }))
  | none => s

def mcastGranule (s : State) (c id : Nat) (o : Op) : ERes State := do
  let (s, d) ← granuleSource s c id o (granuleElems o o.prog)
  pure (mcastCount c id (decide (denseUnits o ≤ o.prog + 1))
    (mcastMembersTake c id ((mcastMembers c o).map fun m => (m.1, m.2, bits (ceDst o) 18 0 + 256 * o.prog, d)) s))

/-! ### TID transfers (R304, R306) -/

/-- Origin of the region: {c1:c0} from `ce.src` or `ce.dst`, {c3:c2} from `ce.idx`. -/
def tidOrigin (o : Op) : List Nat :=
  let w := if o.port = 0x3A4 then ceDst o else ceSrc o
  [bits w 31 0, bits w 63 32, bits (ceIdx o) 31 0, bits (ceIdx o) 63 32]

def tidCoords (o : Op) (n : Nat) : List Nat :=
  let i := walkIndex o n
  (List.range 4).map fun d => (tidOrigin o).getD d 0 + i.getD d 0

/-- The region's last coordinates. -/
def tidLast (o : Op) : List Nat := (List.range 4).map fun d => (tidOrigin o).getD d 0 + ceExt o d - 1

/-- Elements per dense byte group: 2 or 4 below a byte, 256 for a trellis block, else 1; and its bytes. -/
def groupElems (e : Tid) : Nat := if isTrellis e.fmt then 256 else if fmtBits e.fmt < 8 then 8 / fmtBits e.fmt else 1
def groupBytes (e : Tid) : Nat := elemSpan e.fmt e.tqshift

/-- Entry, map and checks of a `tget`, `tsend` or `sfill`. The spec does not order subcode 34 of an entry or origin that does not
fit against TID_INVALID 9: 34 comes first (DESIGN CHOICE, log entry 52). -/
def openRegion (s : State) (c id : Nat) (o : Op) (ag : Agent) : ERes (State × Tid × List Shard) := do
  let (s, e) ← entryOf s c id ag (cwTid o) (tidLast o)
  along s do
  let origin := tidOrigin o
  let unit := if o.port = 0x3A7 then 4 else groupElems e
  if o.port = 0x3A7 ∧ (e.sparse = false ∨ e.nshard ≠ 0) then .error (eFault cEngineError 34 0)
  else if o.port ≠ 0x3A7 ∧ (e.sparse ∨ e.fpc) then .error (eFault cEngineError 34 0)
  else if origin.getD 0 0 % unit ≠ 0 ∨ ceExt o 0 % unit ≠ 0 then .error (eFault cEngineError 34 0)
  else if outside e (tidLast o) then .error (eFault cTidInvalid 9 0)
  else
    let (s, m) ← mapOf s c id ag e
    pure (s, e, m)

/-- Dense bytes of a region. -/
def regionBytes (o : Op) (e : Tid) : Nat := ceCount o / groupElems e * groupBytes e

/-- Pieces in dense order, joined where the second goes on exactly where the first ends. -/
def joinPieces (l : List Piece) : List Piece :=
  l.foldr (fun p acc =>
    match acc with
    | q :: r => if p.meets q && q.va == p.va + p.len then { p with len := p.len + q.len } :: r else p :: acc
    | [] => [p]) []

/-- Elements of a region by dense number, as they are resolved: those of the byte groups that hold dense bytes [lo, lo + n). -/
def regionElems (s : State) (c id : Nat) (o : Op) (e : Tid) (m : List Shard) (lo n : Nat) : ERes (State × List (Nat × Resolved)) := do
  let gb := groupBytes e
  let ge := groupElems e
  let nums := upto (lo / gb * ge) (((lo + n - 1) / gb - lo / gb + 1) * ge)
  let (s, l) ← resolveAll c id (cwTid o) e m (nums.map (tidCoords o)) s
  pure (s, nums.zip l)

/-- Every byte group stands as one group at its home too: one run, from a whole byte or block on. -/
def wholeGroups (e : Tid) : Nat → List (Nat × Resolved) → Bool
  | 0, _ => true
  | f + 1, l =>
    match l.take (groupElems e) with
    | [] => true
    | x :: r =>
      x.2.el % groupElems e == 0 && (r.all fun y => y.2.geom == x.2.geom && y.2.node == x.2.node && y.2.el == x.2.el + (y.1 - x.1)) &&
        wholeGroups e f (l.drop (groupElems e))

/-- Pieces of whole groups for dense bytes [lo, lo + n), in order, merged when contiguous. -/
def groupPieces (e : Tid) (lo n : Nat) (l : List (Nat × Resolved)) : List Piece :=
  let gb := groupBytes e
  joinPieces ((l.filter fun x => x.1 % groupElems e == 0).map fun x =>
    let g := x.1 / groupElems e
    let b0 := max lo (g * gb)
    x.2.piece (e.layout == 2) (b0 - g * gb) (min (lo + n) ((g + 1) * gb) - b0))

/-- First bit and width of an element inside the bytes that hold it (Table 3.3); of a trellis weight, whose block a box's edge may
split, the bits it adds to its block (DESIGN CHOICE, log entry 52). -/
def elemField (e : Tid) (el : Nat) : Nat × Nat :=
  if isTrellis e.fmt then
    let at' := fun k => k * trellisBits e.tqshift / 256
    (at' (el % 256), at' (el % 256 + 1) - at' (el % 256))
  else if fmtBits e.fmt < 8 then (fmtBits e.fmt * (el % (8 / fmtBits e.fmt)), fmtBits e.fmt)
  else (0, fmtBits e.fmt)

/-- First bit of dense element n of a region. -/
def denseBit (e : Tid) (n : Nat) : Nat := n / groupElems e * (8 * groupBytes e) + (elemField e (n % groupElems e)).1

/-- Dense bytes [lo, lo + n) gathered from the elements' own bits, where a group is split between bytes or runs at its home. -/
def gatherElems (e : Tid) (lo n : Nat) (l : List (Nat × Resolved)) (data : List (Piece × List Byte)) : List Byte :=
  let gb := groupBytes e
  let base := lo / gb * gb
  let v := (l.map fun x =>
    let f := elemField e x.2.el
    ofLeBytes (lookupBytes data x.2.geom x.2.va (elemSpan e.fmt e.tqshift)) / 2 ^ f.1 % 2 ^ f.2 * 2 ^ (denseBit e x.1 - 8 * base)).sum
  ((leBytes (lo - base + n) v).drop (lo - base)).take n

/-- A field of a number replaced. -/
def setField (v p w x : Nat) : Nat := v - v / 2 ^ p % 2 ^ w * 2 ^ p + x % 2 ^ w * 2 ^ p

/-- The bytes of a piece with the bits of those elements that dense bytes [lo, lo + n), here `d`, hold: those of other runs too,
where two of them share a byte. -/
def scatterElems (e : Tid) (lo : Nat) (d : List Byte) (l : List (Nat × Resolved)) (x : Piece × List Byte) : List Byte :=
  let p := x.1
  let v := (l.filter fun y => y.2.node == p.node && decide (p.va ≤ y.2.va) && decide (y.2.va + elemSpan e.fmt e.tqshift ≤ p.va + p.len)).foldl (fun v y =>
    let f := elemField e y.2.el
    let a := denseBit e y.1
    let b0 := max a (8 * lo)
    let b1 := min (a + f.2) (8 * (lo + d.length))
    if b1 ≤ b0 then v else setField v (8 * (y.2.va - p.va) + f.1 + (b0 - a)) (b1 - b0) (ofLeBytes d / 2 ^ (b0 - 8 * lo))) (ofLeBytes x.2)
  leBytes p.len v

/-- Read dense bytes [lo, lo + n) of a region. -/
def readRegion (s : State) (c id circ : Nat) (ag : Agent) (e : Tid) (lo n : Nat) (l : List (Nat × Resolved)) : ERes (State × List Byte) :=
  if wholeGroups e (l.length + 1) l then ceReadPieces s c id circ ag (groupPieces e lo n l)
  else
    let pieces := runsOf e (l.map (·.2))
    (ceReadPieces s c id circ ag pieces).map fun x => (x.1, gatherElems e lo n l (pieceBytes pieces x.2))

/-- Write dense bytes to a region, from byte `lo` of it on. Where a group is split at its home, the bytes that its elements
share with others are read and written back: here under the write's own right, at another module by a READ under its target's
right (bit 55; DESIGN CHOICE, log entry 52). -/
def writeRegion (s : State) (c id : Nat) (o : Op) (ag : Agent) (e : Tid) (lo : Nat) (l : List (Nat × Resolved)) (d : List Byte) : ERes (State × Nat) :=
  if wholeGroups e (l.length + 1) l then cePlaceWrites s c id o ag (groupPieces e lo d.length l) d
  else do
    let pieces := runsOf e (l.map (·.2))
    let (s, old) ← readPieces s c id ag pieces
    let (s, k) ← along s (cePlaceWrites s c id o ag pieces ((pieceBytes pieces old).flatMap (scatterElems e lo d l)))
    pure (s, if k = 0 then 0 else d.length)

/-- A dense local range of a TID operation that leaves the scratchpad, before any byte moves (Table 14.6). -/
def denseRange (w : Word) (n : Nat) : ERes Unit := if tokKind w = 0 ∧ Config.scratchBytes < tokOff w + n then .error (eFault cEngineError 33 0) else .ok ()

def tidGranule (s : State) (c id : Nat) (o : Op) : ERes State := do
  let ag := if o.port = 0x3A4 then ceWriter (dieOf c) false else ceReader (dieOf c) false
  let (s, e, m) ← openRegion s c id o (ceReader (dieOf c) false)
  along s do
  denseRange (if o.port = 0x3A3 then ceDst o else ceSrc o) (regionBytes o e)
  let (lo, n) := granuleSpan (regionBytes o e) o.prog
  let (s, l) ← regionElems s c id o e m lo n
  if o.port = 0x3A3 then
    let (s, d) ← readRegion s c id (cwCirc o) ag e lo n l
    along s do
    let (s, k) ← writeEnds s c id o ag [(endAt c 0 (ceDst o) lo, n)] d
    along s (ceArrive s c o k)
  else
    let (s, d) ← readEnds s c id (cwCirc o) ag [(endAt c 0 (ceSrc o) lo, n)]
    let (s, k) ← writeRegion s c id o ag e lo l d
    along s (ceArrive s c o k)

/-- Groups of a sparse range by dense element offset: nibble and kept pair, expanded; none on a decode error. -/
def sparseRead (s : State) (c id circ : Nat) (ag : Agent) (e : Tid) (g : Nat) : ERes (State × Option (List Nat)) := do
  let w := alignBytes e.fmt
  let (s, nib) ← ceReadPieces s c id circ ag [.plain (e.mdbase + g / 2) 1]
  let (s, pair) ← along s <| ceReadPieces s c id circ ag [{ Piece.plain (e.base + 2 * g * w) (2 * w) with bankLocal := e.layout == 2 }]
  let n := ofLeBytes nib / (if g % 2 = 0 then 1 else 16) % 16
  pure (s, sparseGroup n (leField pair 0 w) (leField pair w w))

/-- The groups of a granule, expanded, or the first group with a bad nibble. -/
def sparseReads (c id circ : Nat) (ag : Agent) (e : Tid) : List Nat → State → ERes (State × Except Nat (List Nat))
  | [], s => .ok (s, .ok [])
  | g :: r, s => do
    let (s, a) ← sparseRead s c id circ ag e g
    along s do
    match a with
    | none => pure (s, .error g)
    | some x => do
      let (s, b) ← sparseReads c id circ ag e r s
      pure (s, b.map (x ++ ·))

def zeroRest (s : State) (c id : Nat) (o : Op) (kind : Nat) (w : Word) (lo n : Nat) : ERes State := do
  let ends ← endsAt c kind w (denseParts lo n)
  (writeEnds s c id o (ceWriter (dieOf c) (isChunk o.port)) ends (List.replicate n 0)).map (·.1)

def sfillGranule (s : State) (c id : Nat) (o : Op) : ERes State := do
  let ag := ceReader (dieOf c) false
  let (s, e, _) ← openRegion s c id o ag
  along s do
  let w := alignBytes e.fmt
  let total := ceCount o * w
  denseRange (ceDst o) total
  let (lo, n) := granuleSpan total o.prog
  let groups := (upto (lo / (4 * w)) (n / (4 * w))).map fun k => elemOffset e.layout e.rank (tidCoords o (4 * k)) e.strides / 4
  let (s, r) ← sparseReads c id (cwCirc o) ag e groups s
  along s do
  match r with
  | .ok vals =>
    let (s, k) ← writeEnds s c id o ag [(endAt c 0 (ceDst o) lo, n)] (vals.flatMap (leBytes w))
    along s (ceArrive s c o k)
  | .error g => do
    let s ← zeroRest s c id o 0 (ceDst o) lo (total - lo)
    along s <| ceDecodeError s c id o (total - lo) ((total + 255) / 256) g

/-! ### FPC chunks (R307) -/

def readEntry (s : State) (c id : Nat) (ag : Agent) (va : Nat) : ERes (State × Nat) := (readPieces s c id ag [.plain va 8]).map fun x => (x.1, ofLeBytes x.2)

/-- Stored bytes of a chunk, none read of a zero one or of an entry that breaks R117. -/
def readChunk (s : State) (c id : Nat) (ag : Agent) (bankLocal : Bool) (base e : Nat) : ERes (State × Option (List (List Byte × Nat))) :=
  if entryOk e = false then .ok (s, none)
  else if entryLength e = 0 then .ok (s, fpcDecode e [])
  else (readPieces s c id ag [{ Piece.plain (base + entryOffset e) (entryLength e) with bankLocal := bankLocal }]).map fun x => (x.1, fpcDecode e x.2)

def dfillGranule (s : State) (c id : Nat) (o : Op) : ERes State := do
  let ag := ceReader (dieOf c) true
  let m := o.prog / 16
  let total := 4096 * ceExt o 0
  let (s, e) ← readEntry s c id ag ((ceIdx o).toNat + 8 * m)
  let (s, r) ← along s (readChunk s c id ag false (ceSrc o).toNat e)
  along s do
  match r with
  | some blocks => do
    let d := ((blocks.map (·.1)).flatten.drop (256 * (o.prog % 16))).take 256
    let ends ← endsAt c (cwDkind o) (ceDst o) [(((256 * o.prog : Nat) : Int), 256)]
    let (s, k) ← writeEnds s c id o (ceWriter (dieOf c) true) ends d
    along s (ceArrive s c o k)
  | none => do
    let s ← zeroRest s c id o (cwDkind o) (ceDst o) (256 * o.prog) (total - 256 * o.prog)
    along s <| ceDecodeError s c id o (total - 256 * o.prog) (16 * ceExt o 0) (cwN0 o + m)

/-- Bytes of parts: address and bytes. -/
def partBytes (l : List (Nat × List Byte)) : Nat := (l.map fun x => x.2.length).sum

/-- The first n bytes of parts in walk order, and the rest. -/
def takeParts : Nat → List (Nat × List Byte) → List (Nat × List Byte) × List (Nat × List Byte)
  | _, [] => ([], [])
  | n, (a, b) :: r =>
    if n = 0 then ([], (a, b) :: r)
    else if b.length ≤ n then let x := takeParts (n - b.length) r; ((a, b) :: x.1, x.2)
    else ([(a, b.take n)], (a + n, b.drop n) :: r)

/-- What chunk m of a `cput` writes: its compressed bytes, then its index entry (R307). -/
def cputParts (o : Op) (m : Nat) (d : List Byte) : List (Nat × List Byte) :=
  let off := 4096 * (cwN0 o + m)
  let z := fpcEncode d
  (if z.data = [] then [] else [((ceDst o).toNat + off, z.data)]) ++ [((ceIdx o).toNat + 8 * m, leBytes 8 (fpcEntry z off))]

/-- A `cput` reads its next chunks until a transfer granule is full, or none is left. -/
def cputFill (c id : Nat) (o : Op) : Nat → State → ERes State
  | 0, s => .ok s
  | f + 1, s =>
    match s.op c id with
    | none => .ok s
    | some x =>
      let (m, l) := x.packed
      if 256 ≤ partBytes l ∨ ceExt o 0 ≤ m then .ok s
      else do
        let ends ← endsAt c (cwSkind o) (ceSrc o) [(((4096 * m : Nat) : Int), 4096)]
        let (s, d) ← readEnds s c id 0 (ceReader (dieOf c) true) ends
        along s (cputFill c id o f (s.modOp c id fun o => { o with packed := (m + 1, l ++ cputParts o m d) }))

/-- One transfer granule of a `cput`: the bytes that it writes, entries included, in walk order (R301, R307). The chunk of a granule
that stops before a write of it is asked for is read again. -/
def cputGranule (s : State) (c id : Nat) (o : Op) : ERes State := do
  let s ← cputFill c id o 33 s
  along s do
  match s.op c id with
  | none => pure s
  | some x => do
    let (now, rest) := takeParts 256 x.packed.2
    let (s, k) ← cePlaceWrites s c id o (ceWriter (dieOf c) true) (now.map fun p => .plain p.1 p.2.length) (now.flatMap fun p => p.2)
    along s <| ceArrive (s.modOp c id fun o => { o with packed := (o.packed.1, rest) }) c o k

/-! ### Progress -/

/-- Granules of an operation; those of a TID operation depend on its entry, which is read when it is needed. -/
def ceUnits (s : State) (c id : Nat) (o : Op) : Nat :=
  if o.port = 0x3A3 ∨ o.port = 0x3A4 then
    match entryOf s c id (ceReader (dieOf c) false) (cwTid o) (tidLast o) with
    | .ok (_, e) => max 1 ((regionBytes o e + 255) / 256)
    | .error _ => o.prog + 1
  else if o.port = 0x3A7 then
    match entryOf s c id (ceReader (dieOf c) false) (cwTid o) (tidLast o) with
    | .ok (_, e) => max 1 ((ceCount o * alignBytes e.fmt + 255) / 256)
    | .error _ => o.prog + 1
  else if o.port = 0x3A8 then 16 * ceExt o 0
  else if o.port = 0x3A9 then (if ceExt o 0 ≤ o.packed.1 ∧ o.packed.2 = [] then o.prog else o.prog + 1)
  else denseUnits o

def ceUnit (s : State) (c id : Nat) (o : Op) : ERes State := do
  ceCheck s c o
  if o.port = 0x3A3 ∨ o.port = 0x3A4 then tidGranule s c id o
  else if o.port = 0x3A6 then mcastGranule s c id o
  else if o.port = 0x3A7 then sfillGranule s c id o
  else if o.port = 0x3A8 then dfillGranule s c id o
  else if o.port = 0x3A9 then cputGranule s c id o
  else moveGranule s c id o

end Sys2Proof.Machine
end

