-- ==== Sys2Proof/Machine/Transform.lean ====
section
/-!
DEFINITION. The transform units (R315 to R322): the decoder FIFO with its streams, the FPC codec, the trellis decoder
and the Viterbi encoder (R214, R215).
-/

namespace Sys2Proof.Machine

/-! ### Triggers (Table 14.7) -/

/-- A gated transform trigger whose join counter stands in operand B at bit `lo`. -/
def transformTrigger (lo : Nat) : Body := fun x s => gateOp x s (bits x.b.lo (lo + 3) lo)

/-! ### Trellis decoder (R320) -/

def tdOtype (cfg : Word) : Nat := bits cfg 23 16
def tdOtypeOk (cfg : Word) : Bool := tdOtype cfg == cInt8 || tdOtype cfg == cFp32 || tdOtype cfg == cBf16 || tdOtype cfg == cFp16

/-- A window decoded under a `td.cfg`. -/
def tdDecode (cfg : Word) (w : Nat) : Nat :=
  let tqt := bit cfg 0
  match floatFmt (tdOtype cfg) with
  | none => wrap 8 (if tqt then tqtValue w else tqgValue w)
  | some f =>
    let v := ((trellisValue tqt w).mul (scaleValue false (bits cfg 31 24))).val
    (f.out (v.mul (fp32.decode (bits cfg 63 32))).val 0 false).val

def tdCheck (k : Core) (bus : Nat) : Res Unit := if tdOtypeOk (k.arch.config 0x12F) then .ok () else .error (stop cIllegalMode 14 bus)

def tdWindow : Body := fun x s => do
  let k := s.core x.c
  let _ ← needFolio k 32
  let _ ← tdCheck k x.bus
  pure (deliver s x.c x.bus 0x0BA 6 (BitVec.ofNat 1024 (tdDecode (k.arch.config 0x12F) (bits x.b.lo 11 0))) 0)

def tdBlock : Body := fun x s => do
  let _ ← tdCheck (s.core x.c) x.bus
  transformTrigger 19 x s

def execDxOpen (m : Mv) (s : State) : Host.Outcome State Fault Refusal := runMv m 0x3B0 (transformTrigger 14) s
def execDxClose (m : Mv) (s : State) : Host.Outcome State Fault Refusal := runMv m 0x3B1 (fun x s => gateOp x s 0) s
def execFcEnc (m : Mv) (s : State) : Host.Outcome State Fault Refusal := runMv m 0x3B2 (transformTrigger 38) s
def execFcDec (m : Mv) (s : State) : Host.Outcome State Fault Refusal := runMv m 0x3B3 (transformTrigger 38) s
def execTdWin (m : Mv) (s : State) : Host.Outcome State Fault Refusal := runMv m 0x3B4 tdWindow s
def execTdBlk (m : Mv) (s : State) : Host.Outcome State Fault Refusal := runMv m 0x3B5 tdBlock s
def execVeRun (m : Mv) (s : State) : Host.Outcome State Fault Refusal := runMv m 0x3B6 (transformTrigger 38) s
def execVeStat (m : Mv) (s : State) : Host.Outcome State Fault Refusal := runMv m 0x3B7 (transformTrigger 19) s

/-! ### The decoder FIFO (R315 to R318) -/

/-- Entries a FIFO operation delivers. -/
def fifoUnits (o : Op) : Nat := if o.port = 0x3B0 then bits (o.port' 0x12E) 63 40 + 1 else fmtBits (tdOtype (o.port' 0x12F)) / 4

/-- Stored bytes of a tensor: as they lie, or out of its FPC chunks; none on a decode error (R117, R317). Of a bank-local one
their pages must be of kind 1 (Table 3.2 subcode 10). -/
def dxStored (s : State) (c id : Nat) (o : Op) (e : Tid) (lo n : Nat) : ERes (State × Option (List Byte)) :=
  let ag := transformer (dieOf c) e.fpc
  if e.fpc = false then (readPieces s c id ag [{ Piece.plain (e.base + lo) n with bankLocal := e.layout == 2 }]).map fun x => (x.1, some x.2)
  else do
    let (s, x) ← readEntry s c id ag (e.fpcbase + 8 * (lo / 4096))
    let (s, r) ← along s (readChunk s c id ag (e.layout == 2) e.base x)
    let ratio := 2 * 2 ^ bits o.b 13 12
    match r with
    | none => pure (s, none)
    | some blocks =>
      let (d, code) := blocks.getD (lo % 4096 / 128) ([], 0)
      if !entryZero x && decide (ratio * 16 * ((code + 127) / 128) < 128) then pure (s, none) else pure (s, some ((d.drop (lo % 128)).take n))

/-- Expand the groups of an entry. -/
def sparseEntry (w : Nat) (nibbles data : List Byte) : Option (List Byte) :=
  ((List.range (32 / w)).mapM fun g =>
    sparseGroup ((nibbles.getD (g / 2) 0).toNat / (if g % 2 = 0 then 1 else 16) % 16) (leField data (2 * g * w) w) (leField data (2 * g * w + w) w)).map
    fun l => l.flatten.flatMap (leBytes w)

/-- Entry number `i` of a stream's tensor; none on a decode error. The stream looks its TID up in the core's cache and fills
it, as the CE and the ME do (log entry 56). -/
def dxRead (s : State) (c id : Nat) (o : Op) (i : Nat) : ERes (State × Option (List Byte)) := do
  let (s, e) ← entryOf s c id (transformer (dieOf c) false) (bits o.b 11 0) []
  along s do
  if e.nshard ≠ 0 then .error (eFault cEngineError 34 0)
  else if e.sparse = false then dxStored s c id o e (128 * i) 128
  else
    let w := alignBytes e.fmt
    let (s, nib) ← readPieces s c id (transformer (dieOf c) false) [.plain (e.mdbase + 16 / w * i) (16 / w)]
    let (s, d) ← along s (dxStored s c id o e (64 * i) 64)
    pure (s, d.bind (sparseEntry w nib))

def dxSw (o : Op) : Nat := 16 * bits o.b 33 19

def dxCheck (o : Op) : ERes Unit :=
  if bits o.b 63 34 ≠ 0 ∨ bits (o.port' 0x12E) 7 0 ≠ 0 then .error (eFault cEngineError 32 0)
  else if bit o.b 18 ∧ syncOk (dxSw o) = false then .error (eFault cEngineError 33 0)
  else .ok ()

/-- The block of a `td.blk` as entry `i` of its values. -/
def tdEntry (s : State) (c : Nat) (o : Op) : ERes (List Byte) := do
  let cfg := o.port' 0x12F
  let off := bits o.b 18 0
  let n := trellisBits (bits cfg 2 1) / 8
  if bits o.b 63 23 ≠ 0 ∨ bits cfg 15 3 ≠ 0 ∨ bits cfg 2 1 = 3 then .error (eFault cEngineError 32 0)
  else if Config.scratchBytes < off + n then .error (eFault cEngineError 33 0)
  else
    let b ← readSpad s c off n
    let w := fmtBits (tdOtype cfg)
    let per := 1024 / w
    pure ((upto (o.prog * per) per).flatMap fun i => leBytes (w / 8) (tdDecode cfg (trellisWindow b (bits cfg 2 1) i)))

/-- An entry enters the FIFO; the last one completes its operation (R315), whose place in the order is kept while its
entries stand in the FIFO (R318). -/
def enter (s : State) (c : Nat) (o : Op) (d : List Byte) : State :=
  s.modCore c fun k =>
    let e : Entry := { bits := BitVec.ofNat 1024 (ofLeBytes d), op := o.id }
    let k : Core := { k with fifo := k.fifo ++ [e] }
    let o : Op := { o with prog := o.prog + 1, counted := max o.counted (o.prog + 1), runs := [], moved := [], want := [] }
    if o.prog < fifoUnits o then k.setOp { o with st := if o.st = .queued then .running else o.st }
    else if o.st = .follow then k.setOp o
    else (k.setOp { o with st := .follow, joined := true }).countJoin o.j

/-- The arrival of an entry (R315, R317, R318). -/
def entryArrives (s : State) (c : Nat) (o : Op) : ERes State :=
  let last := decide (fifoUnits o ≤ o.prog + 1)
  let word := fun (t : State) (f : State → State) => if bit o.b 18 then (needSpad t c (dxSw o) 16).map fun _ => f t else Except.ok t
  if o.port ≠ 0x3B0 ∨ o.prog < o.counted then .ok s
  else
    match o.err with
    | none => word s fun t => arrive t c (dxSw o) 128
    | some _ =>
      if last then
        (word s fun t => arriveErr t c (dxSw o) (128 * o.failed.length)).map fun t => t.modArch c fun a => a.raise flagDECERR
      else .ok s

/-- An entry that enters as zeros is noted, for the one arrival of R317. -/
def noteZeros (o : Op) : Op := if o.prog < o.counted then o else { o with failed := o.failed ++ [(0, 0, 0)] }

/-- One entry of a FIFO operation. -/
def fifoUnit (s : State) (c id : Nat) (o : Op) : ERes State :=
  if o.port = 0x3B5 then (tdEntry s c o).map fun d => enter s c o d
  else do
    dxCheck o
    let zeros := List.replicate 128 (0 : Byte)
    match o.err with
    | some _ =>
      let o := noteZeros o
      let s ← entryArrives s c o
      pure (enter s c o zeros)
    | none =>
      let (s, d) ← dxRead s c id o (bits (o.port' 0x12E) 39 8 + o.prog)
      along s do
      match d with
      | some d => do
        let s ← entryArrives s c o
        pure (enter s c o d)
      | none =>
        let s := if o.prog < o.counted then s else noteDecodeError s c o o.prog
        let o := noteZeros { o with err := some (cEngineError, 38) }
        let s ← entryArrives s c o
        pure (enter s c o zeros)

/-- Whether a FIFO operation may deliver: room, and no older producer that still owes entries (R316). -/
def mayEnter (k : Core) (o : Op) : Bool :=
  decide (k.fifo.length < 16) && !((k.ops.takeWhile fun x => x.id != o.id).any Op.owes) && o.owes

/-- DX_ENTRY_DELIVER. -/
def execDxEntryDeliver (core op : Nat) (s : State) : Host.Outcome State Fault Refusal :=
  match s.op core op with
  | none => .next s
  | some o =>
    if (match o.st with | .parked _ => true | _ => false) || o.waiting || !mayEnter (s.core core) o then .next s
    else
      match fifoUnit s core op o with
      | .ok t => .next t
      | .error e => .next (takeEStop s core op e)

/-! ### FPC codec (R319) -/

def fcCheck (o : Op) : ERes Unit :=
  if bits o.b 63 42 ≠ 0 then .error (eFault cEngineError 32 0) else .ok ()

def fcSrc (o : Op) : Nat := bits o.b 18 0
def fcDst (o : Op) : Nat := bits o.b 37 19

def inSpad (off n : Nat) : ERes Unit := if Config.scratchBytes < off + n then .error (eFault cEngineError 33 off) else .ok ()

def fcEncUnit (s : State) (c : Nat) (o : Op) : ERes State := do
  fcCheck o
  inSpad (fcSrc o) 4096
  let d ← readSpad s c (fcSrc o) 4096
  let z := fpcEncode d
  inSpad (fcDst o) (16 + z.data.length)
  writeSpad s c (fcDst o) (leBytes 8 (fpcEntry z 16) ++ List.replicate 8 0 ++ z.data)

/-- The chunk of an entry, decoded; an entry that breaks R117 is a decode error, wherever its offset points. -/
def fcChunk (s : State) (c : Nat) (o : Op) (e : Nat) : ERes (Option (List (List Byte × Nat))) :=
  if entryOk e = false then .ok none
  else do
    inSpad (fcSrc o) (entryOffset e + entryLength e)
    let d ← readSpad s c (fcSrc o + entryOffset e) (entryLength e)
    pure (fpcDecode e d)

def fcDecUnit (s : State) (c id : Nat) (o : Op) : ERes State := do
  fcCheck o
  inSpad (fcSrc o) 16
  inSpad (fcDst o) 4096
  let h ← readSpad s c (fcSrc o) 8
  let r ← fcChunk s c o (ofLeBytes h)
  match r with
  | some blocks => writeSpad s c (fcDst o) (blocks.map (·.1)).flatten
  | none => (writeSpad s c (fcDst o) (List.replicate 4096 0)).map fun s =>
      (noteDecodeError s c o 0).modOp c id fun o => { o with err := some (cEngineError, 38) }

/-! ### Viterbi encoder (R214, R215, R321, R322) -/

/-- The shift s_i of a pattern. -/
def veShift (pat i : Nat) : Nat := if pat = 0 then 1 else if pat = 2 then 2 else 1 + i % 2

/-- The shift into window i. -/
def veInto (pat i : Nat) : Nat := veShift pat ((i + 255) % 256)

/-- Bits of a path state. -/
def veBits (pat : Nat) : Nat := if pat = 2 then 10 else 11

/-- States and windows that reach state `d` by `t` new bits. -/
def vePreds (m t d : Nat) : List (Nat × Nat) :=
  (List.range (2 ^ (12 - m))).flatMap fun x =>
    let w := d * 2 ^ (12 - m) + x
    (List.range (2 ^ (m + t - 12))).map fun r => (w % 2 ^ (12 - t) * 2 ^ (m + t - 12) + r, w)

/-- FP64 patterns: a sum, and the square of V - q. -/
def f64Add (a b : Nat) : Nat := (fp64.out ((fp64.decode a).add (fp64.decode b) 0).val 0 false).val

def veCost (v : Int) (q : Num) : Nat :=
  let d := fp64.decode (fp64.out ((Num.ofInt v).add q.neg 0).val 0 false).val
  (fp64.out (d.mul d).val 0 false).val

/-- q of a target: none for a NaN target. -/
def veTarget (g x : Num) : Option Num :=
  if x.isNan then none
  else
    let q := fp32.decode (fp32.out (x.div g).val 0 false).val
    if Num.cmp q (.ofInt 64) > 0 then some (.ofInt 64) else if Num.cmp q (.ofInt (-64)) < 0 then some (.ofInt (-64)) else some q

/-- Costs of the decoded values -45 to 45 for one weight. -/
def veCosts (q : Option Num) : Array Nat := ((List.range 91).map fun i => match q with | some q => veCost ((i : Int) - 45) q | none => 0).toArray

def veValue (tqt : Bool) (w : Nat) : Int := if tqt then tqtValue w else tqgValue w

/-- The better of two choices (metric, state, window): least metric, lower state, lower new bits. -/
def veBetter (t : Nat) (a b : Nat × Nat × Nat) : Nat × Nat × Nat :=
  let u := fun (x : Nat × Nat × Nat) => x.2.2 / 2 ^ (12 - t)
  if b.1 < a.1 ∨ (b.1 = a.1 ∧ (b.2.1 < a.2.1 ∨ (b.2.1 = a.2.1 ∧ u b < u a))) then b else a

/-- +∞ of FP64. -/
def f64Inf : Nat := 0x7FF0000000000000

/-- Step(i): the new metrics with the choice of each state. -/
def veStep (tqt : Bool) (pat i : Nat) (cost : Array Nat) (m : Array Nat) : Array (Nat × Nat × Nat) :=
  let t := veInto pat i
  ((List.range (2 ^ veBits pat)).map fun d =>
    match (vePreds (veBits pat) t d).map fun p => (f64Add (m.getD p.1 f64Inf) (cost.getD (veValue tqt p.2 + 45).toNat 0), p.1, p.2) with
    | [] => (f64Inf, 0, 0)
    | x :: r => r.foldl (veBetter t) x).toArray

/-- A pass over the weights: final metrics, and the choices of every step, latest first. -/
def vePass (tqt : Bool) (pat : Nat) (costs : List (Array Nat)) (m : Array Nat) : Array Nat × List (Array (Nat × Nat × Nat)) :=
  (((List.range 256).zip costs).foldl (fun (acc : Array Nat × List (Array (Nat × Nat × Nat))) ic =>
    let r := veStep tqt pat ic.1 ic.2 acc.1
    (r.map (·.1), r :: acc.2)) (m, []))

/-- The lowest-numbered state of least metric. -/
def veLeast (m : Array Nat) : Nat := (m.toList.foldl (fun (acc : Nat × Nat × Nat) x => if x < acc.2.1 then (acc.1 + 1, x, acc.1) else (acc.1 + 1, acc.2.1, acc.2.2)) (0, f64Inf + 1, 0)).2.2

/-- Windows along the path back from a state, from the last weight to the first. -/
def veTrace : List (Array (Nat × Nat × Nat)) → Nat → List Nat
  | [], _ => []
  | r :: l, d => let x := r.getD d (0, 0, 0); x.2.2 :: veTrace l x.2.1

/-- The block's bits from its windows: each brings its new bits. -/
def veStream (pat : Nat) (windows : List Nat) : Nat :=
  ((List.range 256).zip windows).foldl (fun n iw =>
    let t := veInto pat iw.1
    let u := iw.2 / 2 ^ (12 - t)
    (List.range t).foldl (fun n b => n + u / 2 ^ b % 2 * 2 ^ ((trellisPos pat iw.1 + 12 - t + b) % trellisBits pat)) n) 0

/-- Encode a block: its bytes and its metric. -/
def veEncode (tqt : Bool) (pat : Nat) (qs : List (Option Num)) : List Byte × Nat :=
  let costs := qs.map veCosts
  let n := 2 ^ veBits pat
  let (m, _) := vePass tqt pat costs ((List.replicate n 0).toArray)
  let s0 := veLeast m
  let (m, choices) := vePass tqt pat costs (((List.replicate n f64Inf).toArray).setIfInBounds s0 0)
  (leBytes (trellisBits pat / 8) (veStream pat (veTrace choices s0).reverse), m.getD s0 0)

def veRunUnits (o : Op) : Nat := bits o.b 57 42 + 1

/-- G of R214. -/
def veScale (cfg : Word) (e8 : Nat) : Num :=
  let g := ((scaleValue false e8).mul (fp32.decode (bits cfg 63 32))).val
  if bit cfg 0 then g else (g.mul (.ofDyadic false 1 (-4))).val

def veRunUnit (s : State) (c : Nat) (o : Op) : ERes State := do
  let cfg := o.port' 0x130
  let pat := bits cfg 2 1
  let n := trellisBits pat / 8
  let tgt := bits o.b 18 0
  let out := bits o.b 37 19
  let sc := bits cfg 31 13
  if bits o.b 63 58 ≠ 0 ∨ bits cfg 12 3 ≠ 0 ∨ pat = 3 then .error (eFault cEngineError 32 0)
  else if tgt % 16 ≠ 0 ∨ out % 16 ≠ 0 then .error (eFault cEngineError 33 0)
  else
    inSpad tgt (1024 * veRunUnits o)
    inSpad out (n * veRunUnits o)
    inSpad sc (veRunUnits o)
    let e8 ← readSpad s c (sc + o.prog) 1
    let x ← readSpad s c (tgt + 1024 * o.prog) 1024
    if ofLeBytes e8 = 0xFF then .error (eFault cEngineError 40 0)
    else
      let qs := (List.range 256).map fun i => veTarget (veScale cfg (ofLeBytes e8)) (fp32.decode (leField x (4 * i) 4))
      let done := fun (s : State) (metric : Nat) => s.modCore c fun k => { k with veDone := BitVec.ofNat 32 (o.prog + 1), veMetric := BitVec.ofNat 64 metric }
      -- a quotient that is not a number from a target that is one: the manual states no cost, and the block is free
      if qs.any (fun q => match q with | some q => q.isNan | none => false) then
        let t ← writeSpad s c (out + n * o.prog) ((List.range n).map fun i => Config.freeByte s.fresh i)
        pure (done { t with fresh := t.fresh + 1 } (Config.freeWord s.fresh).toNat)
      else
        let (b, metric) := veEncode (bit cfg 0) pat qs
        let t ← writeSpad s c (out + n * o.prog) b
        pure (done t metric)

def veStatUnit (s : State) (c : Nat) (o : Op) : ERes State := do
  let off := bits o.b 18 0
  if bits o.b 63 23 ≠ 0 then .error (eFault cEngineError 32 0)
  else
    inSpad off 16
    let k := s.core c
    writeSpad s c off (leBytes 8 k.veDone.toNat ++ leBytes 8 k.veMetric.toNat)

/-! ### Progress -/

def transformUnits (o : Op) : Nat := if o.port = 0x3B6 then veRunUnits o else 1

def transformUnit (s : State) (c id : Nat) (o : Op) : ERes State :=
  if o.port = 0x3B2 then fcEncUnit s c o
  else if o.port = 0x3B3 then fcDecUnit s c id o
  else if o.port = 0x3B6 then veRunUnit s c o
  else veStatUnit s c o

end Sys2Proof.Machine
end

