-- ==== Sys2Proof/Machine/Progress.lean ====
section
/-!
DEFINITION. The progress of engine operations: one unit at a time, completion on the join counter (R89), the follow-on
(R294), and what the policy core decides about a parked one (R353).
-/

namespace Sys2Proof.Machine

/-- Not parked, not waiting for a page, without an error, not completed. -/
def Op.live (o : Op) : Bool := !o.isParked && !o.waiting && o.err.isNone && o.st != .follow

/-- Cancelled inside a granule that it has issued requests of, which is finished (R311). -/
def Op.finishing (o : Op) : Bool := o.err.isSome && isCeTrig o.port && o.st == .running && !o.waiting && o.runs.any (·.write)

/-- Whether the older operations of its engine let an operation run: the CE runs any, the ME those of R139, the others the
oldest (R283, R297). -/
def engineFree (k : Core) (o : Op) : Bool :=
  isCeTrig o.port || !olderSame k o || (o.isMe && (k.olderOps o).all fun x => runsBeside x o)

/-- A pre-emption that waits lets a unit end that has asked other modules, and starts none (R361). -/
def mayRun (k : Core) (o : Op) : Bool := (o.live || o.finishing) && engineFree k o && (!k.stopping || !o.runs.isEmpty)

/-- Units an operation has. -/
def unitsOf (s : State) (c id : Nat) (o : Op) : Nat :=
  if isCeTrig o.port then ceUnits s c id o else if o.isMe then meUnits o else transformUnits o

/-- One unit. The block of a follow-on is checked whenever its operation runs (R294). -/
def opUnit (s : State) (c id : Nat) (o : Op) : ERes State :=
  if blockFault s c o then .error (eFault cEngineError 21 0)
  else if isCeTrig o.port then ceUnit s c id o else if o.isMe then meUnit s c id o else transformUnit s c id o

/-- What a fault of a unit leaves beside the park: the blocks of a `ve.run` (R322), the counts of an `mcast` (R313). -/
def unitFault (s : State) (c : Nat) (o : Op) (e : EStop) : State :=
  match e.bare with
  | .fault _ =>
    if o.port = 0x3B6 then s.modCore c fun k => { k with veDone := BitVec.ofNat 32 o.prog }
    else if o.port = 0x3A6 then mcastCount c o.id false s
    else s
  | _ => s

/-- An operation whose unit is done. -/
def Op.advance (o : Op) : Op :=
  { o with
    prog := o.prog + 1, runs := [], memo := [], lastRun := o.memo.getLast?.orElse fun _ => o.lastRun,
    fetched := o.fetched.filter fun f => decide (o.prog < f.1), moved := (o.moved.filter fun y => o.memo.any fun x => x.retried && x.tid == y.dest.tid).map fun y => { y with coords := [] }, want := [], st := .running }

/-- One unit of an operation: a transfer granule, k-group, row, block or chunk. Members of an `mcast` first take what has
waited for them. -/
def stepOp (s : State) (c id : Nat) : State :=
  let s := mcastLate s c id
  match s.op c id with
  | none => s
  | some o =>
    if mayRun (s.core c) o && !isFifoOp o.port && decide (o.prog < unitsOf s c id o) then
      match opUnit s c id o with
      | .ok t => t.modOp c id Op.advance
      | .error e => unitFault (takeEStop s c id e) c o e
    else s

def stepOps (c id : Nat) : Nat → State → State
  | 0, s => s
  | n + 1, s => stepOps c id n (stepOp s c id)

/-- Whether an operation has done all it will do: every unit at every member, or it has ended on an error and what it has
sent is performed (R311), and its last timetabled flit is sent (R301). -/
def opDone (s : State) (c id : Nat) (o : Op) : Bool :=
  !o.isParked && o.st != .follow && !isFifoOp o.port && o.late.isEmpty && o.taken.isEmpty && !o.finishing &&
    (if o.err.isSome then o.runs.all fun r => !r.write || r.answer.isSome else decide (unitsOf s c id o ≤ o.prog)) &&
    !(s.timetabled.any fun t => t.op == id)

/-- The error with which an operation completes; failed members of an `mcast` are its own (R305). -/
def opError (o : Op) : Option (Nat × Nat) :=
  match o.err, o.failed with
  | some e, _ => some e
  | none, (_, code, sub) :: _ => if o.port = 0x3A6 then some (code, sub) else none
  | none, [] => none

/-- Complete an operation (R89). An `mcast` that failed at members leaves its two records (R305). A copy that names a
follow-on stays until the block is placed. -/
def completeOp (s : State) (c : Nat) (o : Op) : State :=
  let e := opError o
  let s := if o.port = 0x3A6 ∧ o.err = none ∧ o.failed ≠ [] then
      (recordOp s c o (CFault.mk' (e.getD (0, 0)).1 (e.getD (0, 0)).2 15 0)).1 else s
  let t := finishOp s c o e
  if o.follow.isSome ∧ e = none then t.modCore c fun k => { k with ops := k.ops ++ [{ o with st := .follow, joined := true }] } else t

/-- CE_GRANULE_LAND. -/
def execCeGranuleLand (core op : Nat) (s : State) : Host.Outcome State Fault Refusal :=
  match s.op core op with
  | some o => .next (if isCeTrig o.port then stepOp s core op else s)
  | none => .next s

/-- ENGINE_OP_COMPLETE: the units of an ME, FC or VE operation that are left are run first. -/
def execEngineOpComplete (core op : Nat) (s : State) : Host.Outcome State Fault Refusal :=
  match s.op core op with
  | none => .next s
  | some o =>
    let s := if isCeTrig o.port then mcastLate s core op else stepOps core op (unitsOf s core op o - o.prog) s
    match s.op core op with
    | none => .next s
    | some o => .next (if opDone s core op o then completeOp s core o else s)

/-- ME_FOLLOW_ON: the block is read from the committed scratchpad, and its operation takes a place of the ME queue. -/
def execMeFollowOn (core op : Nat) (s : State) : Host.Outcome State Fault Refusal :=
  match s.op core op with
  | none => .next s
  | some o =>
    match o.follow with
    | none => .next s
    | some off =>
      let k := s.core core
      if o.st ≠ .follow ∨ 2 ≤ gatedCount k 1 + releasedCount k 1 then .next s
      else if !k.allPresent (spadFolios off 64) then .next (takeEStop s core op (.folio core (spadFolios off 64)))
      else
        let f := { followOp k o off with id := s.fresh }
        let t := { (s.modCore core fun k => let k := k.dropOp op; { k with ops := k.ops ++ [f] }) with fresh := s.fresh + 1 }
        if followBad k f (k.spad64 off) (k.spad64 (off + 56)) then .next (parkOp t core f (CFault.mk' cEngineError 21 15 0)) else .next t

/-! ### Parked operations (R353) -/

/-- The operation whose record stands in a slot. -/
def opInSlot (k : Core) (slot : Nat) : Option Op := k.ops.find? fun o => o.st == .parked slot

/-- The bank list whose record stands in a slot. -/
def listInSlot (k : Core) (slot : Nat) : Option BankList := k.lists.find? fun l => l.slot == some slot

/-- Clear a slot that no operation is parked in, with the continuation of an `mcast`. -/
def clearSlot (k : Core) (slot : Nat) : Core :=
  let two := match k.slot (slot + 1) with | some r => r.cls == 3 | none => false
  let k := k.setSlot slot none
  if two then k.setSlot (slot + 1) none else k

/-- Engines of a list that are parked go on with their command (R108). -/
def resumeEngines (c : Nat) (l : BankList) (s : State) : State :=
  ((listEngines l.stack l.parked).foldl (fun s e => s.modBank e fun b => if b.wait = .parked then { b with wait := .none } else b) s).modCore c fun k =>
    (match l.slot with | some n => k.setSlot n none | none => k).setList { l with parked := 0, slot := none }

/-- ENGINE_OP_RESUME: the operation, or the engines of a list, continue from the recorded progress. A module
without its policy extension resolves no fault (R392). -/
def execEngineOpResume (core slot : Nat) (s : State) : Host.Outcome State Fault Refusal :=
  let k := s.core core
  if slot = 0 ∨ s.policyLoaded = false then .next s
  else
    match opInSlot k slot, listInSlot k slot with
    | some o, _ => .next (s.setCore core ((unpark k o).setOp { o with st := if o.joined then .follow else .running }))
    | none, some l => .next (resumeEngines core l s)
    | none, none => .next (s.setCore core (clearSlot k slot))

/-- ENGINE_OP_CANCEL: the operation counts its join with the error of its record (R89), an `mcast` when its members have taken the
granules that it has issued. -/
def execEngineOpCancel (core slot : Nat) (s : State) : Host.Outcome State Fault Refusal :=
  let k := s.core core
  if slot = 0 then .next s
  else
    match opInSlot k slot, listInSlot k slot with
    | some o, _ =>
      let err := match k.slot slot with | some r => (r.code, r.sub) | none => (cEngineError, 39)
      let k := unpark k o
      if o.joined then .next (s.setCore core (k.dropOp o.id))
      else if o.late.isEmpty && o.taken.isEmpty then .next (finishOp (s.setCore core (if o.port = 0x384 then k.loseLatch (bits o.b 1 0) else k)) core o (some err))
      else .next (s.setCore core (k.setOp { o with st := .queued, err := some err }))
    | none, some l => .next (stopList s core l (match k.slot slot with | some r => (r.code, r.sub) | none => (cEngineError, 39)))
    | none, none => .next (s.setCore core (clearSlot k slot))

/-! ### One turn of an engine -/

/-- A FIFO stream delivers an entry; another operation makes one unit; an ME operation behind the active one fetches ahead. -/
def engineTurn (s : State) (c id : Nat) : Host.Outcome State Fault Refusal :=
  match s.op c id with
  | none => .next s
  | some o =>
    if (s.core c).stopping && o.runs.isEmpty then .next s
    else if isFifoOp o.port then execDxEntryDeliver c id s
    else if o.isMe && o.live && !engineFree (s.core c) o then .next (prefetch s c id o)
    else .next (stepOp s c id)

end Sys2Proof.Machine
end

