-- ==== Sys2Proof/Machine/Bank.lean ====
section
/-!
DEFINITION. The bank engines (R104 to R114): lists and their owners, each command of Table 5.6 on the engine `s.eng`,
its faults and waits, and the end of a list.
-/

namespace Sys2Proof.Machine

/-! ### Triggers -/

def execBkGo (m : Mv) (s : State) : Host.Outcome State Fault Refusal := runMv m 0x3C0 (fun x s => gateOp x s 0) s
def execBkStop (m : Mv) (s : State) : Host.Outcome State Fault Refusal := runMv m 0x3C1 (fun x s => gateOp x s 0) s

/-! ### The member that issued a list: on a core, or saved (R108) -/

/-- What a list's end and faults touch of its member. -/
structure Desk where
  lists : List BankList
  joins : Tab (BitVec 32)
  ep : Endpaper

def Desk.ofCore (k : Core) : Desk := { lists := k.lists, joins := k.joins, ep := k.ep }
def Desk.ofSaved (v : Saved) : Desk := { lists := v.lists, joins := v.joins, ep := v.ep }

def hasList (l : List BankList) (id : Nat) : Bool := l.any fun x => x.id == id

/-- The core whose member issued a list; none while it is saved. -/
def listCore (s : State) (id : Nat) : Option Nat := (s.cores.cells.find? fun x => hasList x.2.lists id).map (·.1)

def findList (s : State) (id : Nat) : Option BankList :=
  let l := (s.cores.cells.flatMap fun x => x.2.lists) ++ s.saved.flatMap fun v => v.lists
  l.find? fun x => x.id == id

def modDesk (s : State) (id : Nat) (f : Desk → Desk) : State :=
  match listCore s id with
  | some c => s.modCore c fun k => let d := f (.ofCore k); { k with lists := d.lists, joins := d.joins, ep := d.ep }
  | none =>
    { s with saved := s.saved.map fun v => if hasList v.lists id then let d := f (.ofSaved v); { v with lists := d.lists, joins := d.joins, ep := d.ep } else v }

def Desk.setList (d : Desk) (l : BankList) : Desk := { d with lists := d.lists.map fun x => if x.id = l.id then l else x }

def modList (s : State) (id : Nat) (f : BankList → BankList) : State :=
  modDesk s id fun d => { d with lists := d.lists.map fun x => if x.id = id then f x else x }

/-- Add 1 to a counter of the issuer, live or in its saved engine block. -/
def countFor (s : State) (id j : Nat) : State := modDesk s id fun d => { d with joins := d.joins.put 0 j (d.joins.get 0 j + 1) }

/-- The core on which a member of a gathering is resident. -/
def memberCore (s : State) (gath rank : Nat) : Option Nat := (s.membersOf gath).find? fun c => (s.core c).member.rank == rank

/-! ### Faults and waits -/

/-- Why a command does not go on. -/
inductive BStop where
  | fault (code sub addr : Nat)
  | wait (w : BankWait)
  /-- one of the others, met behind walks that stand in the state (R29) -/
  | behind (s : State) (x : BStop)

abbrev BRes (α : Type) := Except BStop α

def bFault (sub : Nat) : BStop := .fault cEngineError sub 0

def channel (e : Nat) : Nat := e % 64
def bankStack (e : Nat) : Nat := e / 64
def bankDie (e : Nat) : Nat := e / 128

/-- The lowest selected engine of a mask. -/
def lowestBit (m : Word) : Nat := ((List.range 64).find? fun i => bit m i).getD 0

/-- The record of a parked list (class 2, Table 18.4): code and subcode of the first engine that parked. -/
def listRecord (s : State) (l : BankList) (coreid code sub addr : Nat) : Record :=
  let low := (s.bank (64 * l.stack + lowestBit l.parked)).idx
  { code := code, sub := sub, cls := 2, coreid := coreid, whereAt := l.mv, bundle := l.bundle, count := l.count, port := 0x3C0, j := l.j, progress := low, mark := 0,
    addr := addr, detail := low, aux := l.parked.toNat, time := s.time, gathid := l.gath, ctxid := l.pasid, op := l.id }

def Endpaper.freeSlot (e : Endpaper) : Nat := ((upto 1 23).find? fun n => (e.slots.get none n).isNone).getD 23

/-- A command fault parks the list on its engine (R113). -/
def parkBank (s : State) (e code sub : Nat) : State :=
  match (s.bank e).list with
  | none => s
  | some (c, id) =>
    let s := s.modBank e fun b => { b with wait := .parked }
    match findList s id with
    | none => s
    | some l =>
      let l := { l with parked := l.parked ||| (1#64 <<< channel e) }
      modDesk s id fun d =>
        let n := l.slot.getD d.ep.freeSlot
        let r := match l.slot.bind fun n => d.ep.slots.get none n with
          | some old => listRecord s l ((listCore s id).getD c) old.code old.sub l.off
          | none => listRecord s l ((listCore s id).getD c) code sub l.off
        { (d.setList { l with slot := some n }) with ep := { d.ep with slots := d.ep.slots.set n (some r) } }

/-- What stops a command: a park, a wait, or a touch of a folio that its next try finds PRESENT. -/
def takeBStop (s : State) (e : Nat) : BStop → State
  | .fault code sub _ => parkBank s e code sub
  | .behind t x => takeBStop (s.keepWalks t) e x
  | .wait (.folio c f) => (s.modCore c fun k => k.touch f).modBank e fun b => { b with wait := .folio c f }
  | .wait w => s.modBank e fun b => { b with wait := w }

/-! ### Memory -/

/-- A walk that does not answer; the die no longer holds a leaf that it faulted on (R35). -/
def bankStop (s : State) (e : Nat) (l : BankList) (va : Nat) : XFail → BStop
  | .fault code sub => .behind (markFaulted s (bankDie e) l.pasid va) (.fault code sub va)
  | .migrating => .behind s (.wait (.migrating va false))
  | .cow t => .behind t (.wait (.migrating va true))

/-- The place of a byte under a bank engine's translation. -/
def bankPlace (s : State) (e : Nat) (l : BankList) (write : Bool) (va : Nat) : BRes (State × Word × Place) :=
  match translate s (if write then bankWriter (bankDie e) else bankReader (bankDie e)) l.pasid va write with
  | .error f => .error (bankStop s e l va f)
  | .ok (s, x) => .ok (s, x, leafPlace s l.pasid x va)

def bankRead (e : Nat) (l : BankList) : List (Nat × Nat) → State → BRes (State × List Byte)
  | [], s => .ok (s, [])
  | (va, n) :: r, s => do
    let (s, _, p) ← bankPlace s e l false va
    let (t, d) ← bankRead e l r s
    pure (t, s.readAt p n ++ d)

/-- The region register that holds an offset of a stack (R100). -/
def regionOf (s : State) (st off : Nat) : Option Word :=
  ((List.range 16).map fun k => s.regions.get (regionReset (16 * st + k)) (16 * st + k)).find? fun r =>
    bit r 20 && decide (bits r 9 0 * 0x4000000 ≤ off) && decide (off < (bits r 9 0 + bits r 19 10 + 1) * 0x4000000)

/-- Pseudo-channel and pseudo-channel-local address of a stack offset in its region (Table 5.3). -/
def channelOf (r : Word) (off : Nat) : Nat × Nat :=
  let b := bits r 9 0 * 0x4000000
  let rel := off - b
  let mode := bits r 63 62
  if mode = 0 then (rel / 256 % 64, b / 64 + rel / 16384 * 256 + rel % 256)
  else if mode = 1 then (rel / 1024 % 64, b / 64 + rel / 65536 * 1024 + rel % 1024)
  else
    let n := 2 ^ bits r 61 59
    let z := (bits r 19 10 + 1) * 0x4000000
    let k := rel / (z * n / 64)
    let r' := rel % (z * n / 64)
    (k * n + r' / 256 % n, b / 64 + r' / (256 * n) * 256 + rel % 256)

/-- Subcode 5 of a weight row. -/
def weightFit (s : State) (e : Nat) (x : Word) (p : Place) : Bool :=
  let st := p.addr / 0x1000000000
  let off := p.addr % 0x1000000000
  leafKind x == 1 && st == bankStack e &&
  (match regionOf s st off with
   | some r => bits r 63 62 == 1 && (channelOf r off).1 == channel e
   | none => false)

/-! ### Header (Table 5.5) -/

def Bank.lstride (b : Bank) : Nat := bits (b.hdr.getD 0 0) 63 48
def Bank.cstride (b : Bank) : Nat := bits (b.hdr.getD 0 0) 47 32
def Bank.wbase (b : Bank) : Nat := (b.hdr.getD 1 0).toNat
def Bank.obase (b : Bank) : Nat := (b.hdr.getD 2 0).toNat
def Bank.abase (b : Bank) : Nat := (b.hdr.getD 3 0).toNat

/-- Subcode 8: the header. -/
def headerFault (l : BankList) (b : Bank) : Option Nat :=
  let h := b.hdr.getD 0 0
  if l.off % 32 ≠ 0 ∨ Config.scratchBytes < l.off + 32 then some 8
  else if bits h 7 0 ≠ 1 ∨ bits h 31 12 ≠ 0 ∨ b.wbase % 0x10000 ≠ 0 then some 8
  else none

/-- BANK_LIST_START: a free engine starts its oldest queued list with its buffers and acc at zero (R104, R107). -/
def execBankListStart (engine : Nat) (s : State) : Host.Outcome State Fault Refusal :=
  let b := s.bank engine
  match b.list, b.queue with
  | none, (c, id) :: r =>
    match findList s id with
    | none => .next (s.setBank engine { b with queue := r })
    | some l =>
      let words := (List.range 128).map fun i => BitVec.ofNat 64 (leField l.image (8 * i) 8)
      let n := l.image.length / 8
      let t := modList (s.setBank engine { Bank.idle with list := some (c, id), hdr := words.take 4, cmds := (words.take n).drop 4, queue := r }) id fun l => { l with started := true }
      match headerFault l (t.bank engine) with
      | some sub => .next (parkBank t engine cEngineError sub)
      | none => .next t
  | _, _ => .next s

/-! ### Commands -/

/-- Run a command on the engine `s.eng`: with a list and no wait, its effect and then the next command. -/
def bankRun (f : State → Nat → BankList → BRes State) (s : State) : Host.Outcome State Fault Refusal :=
  let e := s.eng
  match (s.bank e).list with
  | none => .next s
  | some (_, id) =>
    match findList s id with
    | none => .next s
    | some l =>
      match f s e l with
      | .ok t => .next (t.modBank e fun b => { b with idx := b.idx + 1, wait := .none })
      | .error x => .next (takeBStop s e x)

def Bank.setXb (b : Bank) (n : Nat) (d : List Byte) : Bank := { b with xb := tabWrite b.xb (256 * n) d }
def Bank.xbRead (b : Bank) (n len : Nat) : List Byte := (List.range len).map fun i => b.xb.get 0 (256 * n + i)
def Bank.lane (b : Bank) (i : Nat) : BitVec 32 := b.acc.get 0 i
def Bank.setLane (b : Bank) (i v : Nat) : Bank := { b with acc := b.acc.put 0 i (BitVec.ofNat 32 v) }

/-- Scratchpad bytes of a resident member's core; its absent folios are pulled (R108). -/
def memberSpad (s : State) (gath rank off n : Nat) : BRes Nat :=
  match memberCore s gath rank with
  | none => .error (.wait .member)
  | some c =>
    match (spadFolios off n).find? fun f => ((s.core c).folio f).pres != .present with
    | some f => .error (.wait (.folio c f))
    | none => .ok c

def bloadStep (xb : Nat) (src : Bool) (off : Nat) (s : State) (e : Nat) (l : BankList) : BRes State :=
  if off % 32 ≠ 0 then .error (bFault 4)
  else if src then do
    let (s, d) ← bankRead e l (ranges (((s.bank e).abase + off) % 2 ^ 64) 256) s
    pure (s.modBank e fun b => b.setXb xb d)
  else if Config.scratchBytes < off + 256 then .error (bFault 4)
  else do
    let c ← memberSpad s l.gath l.rank off 256
    pure (s.modBank e fun b => b.setXb xb ((s.core c).spadRead off 256))

/-- Format code and bytes of an activation. -/
def actFmt (afmt : Nat) : Nat := if afmt = 0 then cInt8 else if afmt = 1 then cBf16 else if afmt = 2 then cFp16 else cFp32
def actBytes (afmt : Nat) : Nat := fmtBits (actFmt afmt) / 8

/-- Smallest of 1, 2, 4 buffers that holds K activations. -/
def actBuffers (k afmt : Nat) : Nat := if k * actBytes afmt ≤ 256 then 1 else if k * actBytes afmt ≤ 512 then 2 else 4

/-- Which multiply command: its weights. -/
inductive MacKind where
  | plain
  | tern
  | trellis (tqt : Bool) (shift : Nat)
deriving DecidableEq, Repr

def bmacFmt (f : Nat) : Bool :=
  f == cInt8 || f == cUint8 || f == cInt4 || f == cE4m3 || f == cE5m2 || f == cE2m1 || f == cBf16 || f == cFp16

/-- RowBytes of a segment of K weights. -/
def macRow (m : MacKind) (p : Mac) (k : Nat) : Nat :=
  match m with
  | .trellis _ shift => trellisBits shift / 8
  | _ => (k * fmtBits p.wfmt.toNat + 7) / 8

/-- Subcode 4 of a multiply command. -/
def macField (m : MacKind) (p : Mac) : Bool :=
  let k := p.k1.toNat + 1
  (match m with
   | .plain => !bmacFmt p.wfmt.toNat
   | .tern => p.wfmt.toNat != cTern || p.afmt != 0
   | .trellis _ shift => k != 256 || shift == 3 || decide (2 ≤ p.afmt.toNat)) ||
  decide (1024 < k * actBytes p.afmt.toNat) || p.xb.toNat % actBuffers k p.afmt.toNat != 0 || decide (1024 < p.koff.toNat * 16 + macRow m p k)

def macWeight (m : MacKind) (p : Mac) (row : List Byte) (k : Nat) : Num :=
  match m with
  | .trellis tqt shift => .ofInt (if tqt then tqtValue (trellisWindow row shift k) else tqgValue (trellisWindow row shift k))
  | _ => elemValue p.wfmt.toNat (elemOf p.wfmt.toNat 0 k ((row.drop (elemBytes p.wfmt.toNat 0 k)).take (alignBytes p.wfmt.toNat)))

/-- f of R110. -/
def macScale (m : MacKind) (s : Nat) : Num :=
  let f := scaleValue false s
  match m with
  | .trellis false _ => (f.mul (.ofDyadic false 1 (-4))).val
  | _ => f

/-- One lane: the exact sum of acc and the products, rounded once, as R110 and the worked program (23) say; R204's words name bank
multiplies too (DEDUCED, log entry 21). -/
def macLane (m : MacKind) (p : Mac) (act row : List Byte) (scale : Nat) (acc : BitVec 32) : Nat :=
  let f := macScale m scale
  let n := actBytes p.afmt.toNat
  let products := (List.range (p.k1.toNat + 1)).map fun k =>
    (((macWeight m p row k).mul f).val.mul (elemValue (actFmt p.afmt.toNat) (leField act (n * k) n))).val
  (fp32.out (exactSum (fp32.decode acc.toNat :: products) 0).val 0 false).val

/-- Weight rows, each checked (subcode 5). -/
def macRows (m : MacKind) (p : Mac) (e : Nat) (l : BankList) : List Nat → State → BRes (State × List (List Byte))
  | [], s => .ok (s, [])
  | i :: r, s => do
    let va := ((s.bank e).wbase + (p.row.toNat + i) * 65536 + channel e * 1024 + p.koff.toNat * 16) % 2 ^ 64
    let (s, x, q) ← bankPlace s e l false va
    if weightFit s e x q = false then .error (.behind s (bFault 5))
    else
      let d := s.readAt q (macRow m p (p.k1.toNat + 1))
      let (s, t) ← macRows m p e l r s
      pure (s, d :: t)

/-- One multiply command. A row too long for its segment (subcode 4) faults before any row is read, and a fault at any row
leaves every lane as it was (log entry 57). -/
def macStep (m : MacKind) (p : Mac) (s : State) (e : Nat) (l : BankList) : BRes State :=
  if macField m p then .error (bFault 4)
  else do
    let (s, rows) ← macRows m p e l (List.range (p.nr1.toNat + 1)) s
    let b := s.bank e
    let act := b.xbRead p.xb.toNat (256 * actBuffers (p.k1.toNat + 1) p.afmt.toNat)
    let scale := fun i => if p.sc then (b.xb.get 0 (256 * p.sxb.toNat + i)).toNat else p.e8.toNat
    pure (s.setBank e (((List.range rows.length).zip rows).foldl (fun b x => b.setLane x.1 (macLane m p act x.2 (scale x.1) (b.lane x.1))) b))

def bscaleStep (perlane : Bool) (xb : Nat) (factor : BitVec 32) (s : State) (e : Nat) (_ : BankList) : BRes State :=
  .ok (s.modBank e fun b => (List.range 64).foldl (fun a i =>
    let g := if perlane then leField (b.xbRead xb 256) (4 * i) 4 else factor.toNat
    a.setLane i (fp32.out ((fp32.decode (b.lane i).toNat).mul (fp32.decode g)).val 0 false).val) b)

/-- Lane i as it is stored, and its size. -/
def outBytes (bf : Bool) (x : BitVec 32) : List Byte :=
  if bf then leBytes 2 (bf16.out (fp32.decode x.toNat) 0 false).val else leBytes 4 x.toNat

def outIndex (b : Bank) (e i : Nat) : Nat := channel e * b.cstride + i * b.lstride
def outSize (bf : Bool) : Nat := if bf then 2 else 4

/-- The lanes of a BSTORE, in rising order: of two that fall on one element the higher stays (DESIGN CHOICE, log entry 21). One
that faults leaves no write of an earlier lane pending either, and all are done after a resume (DESIGN CHOICE, log entry 57). -/
def bstoreLanes (bf : Bool) (off e : Nat) (l : BankList) : List Nat → State → BRes State
  | [], s => .ok s
  | i :: r, s => do
    let b := s.bank e
    let va := (b.obase + off + outIndex b e i * outSize bf) % 2 ^ 64
    let (s, _, p) ← bankPlace s e l true va
    bstoreLanes bf off e l r (s.modBank e fun b => { b with writes := b.writes ++ [{ place := p, page := va / 0x10000 * 0x10000, data := outBytes bf (b.lane i) }] })

def bstoreStep (bf : Bool) (n off : Nat) (s : State) (e : Nat) (l : BankList) : BRes State :=
  if ((s.bank e).obase + off) % outSize bf ≠ 0 then .error (bFault 4) else bstoreLanes bf off e l (List.range n) s

/-- BSEND: its bytes are performed within the command, and of two lanes that fall on one element the higher stays (DESIGN CHOICE,
log entry 21). -/
def bsendStep (bf : Bool) (n coreid off sw : Nat) (swv : Bool) (s : State) (e : Nat) (l : BankList) : BRes State :=
  let b := s.bank e
  let at' := fun i => off + outIndex b e i * outSize bf
  if decide (Config.scratchBytes ≤ 16 * sw) || (List.range n).any (fun i => decide (Config.scratchBytes < at' i + outSize bf) || at' i % outSize bf != 0) then .error (bFault 7)
  else
    match l.targets.find? fun t => t.2 == coreid with
    | none => .error (bFault 7)
    | some (rank, _) => do
      let c ← (List.range n).foldlM (fun c i => (memberSpad s l.gath rank (at' i) (outSize bf)).map fun d => max c d) 0
      let _ ← if swv then (memberSpad s l.gath rank (16 * sw) 16).map fun _ => () else pure ()
      let s := s.modCore c fun k => (List.range n).foldl (fun k i => k.spadWrite (at' i) (outBytes bf (b.lane i))) k
      pure (if swv then arrive s c (16 * sw) (n * outSize bf) else s)

def bzeroStep (acc : Bool) (mask : BitVec 4) (s : State) (e : Nat) (_ : BankList) : BRes State :=
  .ok (s.modBank e fun b =>
    let b := (List.range 4).foldl (fun b i => if bit mask i then b.setXb i (List.replicate 256 0) else b) b
    if acc then { b with acc := .empty } else b)

def bjoinStep (j : Nat) (s : State) (e : Nat) (l : BankList) : BRes State := .ok (countFor (performBank s e) l.id j)

def bfenceStep (s : State) (e : Nat) (_ : BankList) : BRes State := .ok (performBank s e)

/-- acc + the partner's acc, lane by lane. -/
def sumLanes (a b : Tab (BitVec 32)) : Tab (BitVec 32) :=
  (List.range 64).foldl (fun (t : Tab (BitVec 32)) i =>
    t.put 0 i (BitVec.ofNat 32 (fp32.out ((fp32.decode (a.get 0 i).toNat).add (fp32.decode (b.get 0 i).toNat) 0).val 0 false).val)) .empty

/-- A partner stands at this command with its acc as it arrived. -/
def partnerHere (s : State) (id p idx : Nat) : Bool :=
  let b := s.bank p
  (match b.list with | some x => x.2 == id | none => false) && b.arrived == some idx

/-- BRED: the first of two partners waits with its acc; the second completes both (R112). -/
def bredStep (d : Nat) (s : State) (e : Nat) (l : BankList) : BRes State :=
  let p := 64 * bankStack e + Nat.xor (channel e) d
  if d = 0 then .error (bFault 4)
  else if bit l.mask (channel p) = false then .error (bFault 6)
  else
    let b := s.bank e
    if partnerHere s l.id p b.idx then
      let q := s.bank p
      let sum := sumLanes b.acc q.offer
      .ok ((s.modBank p fun q => { q with acc := sum, idx := q.idx + 1, arrived := none, offer := .empty, wait := .none }).modBank e fun b => { b with acc := sum, arrived := none, offer := .empty })
    else .error (.wait .bred)

def bsyncStep (sw gen : Nat) (s : State) (_ : Nat) (l : BankList) : BRes State :=
  if sw % 16 ≠ 0 ∨ Config.scratchBytes < sw + 16 then .error (bFault 4)
  else do
    let c ← memberSpad s l.gath l.rank sw 16
    if ((s.core c).syncWord sw).reached gen then pure s else .error (.wait .bsync)

/-- BEND ends the list on this engine, its writes performed (R108). -/
def bendStep (s : State) : Host.Outcome State Fault Refusal :=
  let e := s.eng
  match (s.bank e).list with
  | none => .next s
  | some (_, id) => .next (modList (endOnEngine s id e) id fun l => { l with left := clearBit l.left (channel e) })

/-- What a wait of BRED leaves: the acc on arrival. -/
def arriveBred (s : State) (e : Nat) : State :=
  let b := s.bank e
  if b.wait = .bred ∧ b.arrived = none then s.setBank e { b with offer := b.acc, arrived := some b.idx } else s

def execBload (xb : BitVec 2) (src : Bool) (off : BitVec 40) (s : State) : Host.Outcome State Fault Refusal := bankRun (bloadStep xb.toNat src off.toNat) s
def execBmac (p : Mac) (s : State) : Host.Outcome State Fault Refusal := bankRun (macStep .plain p) s
def execBmact (p : Mac) (s : State) : Host.Outcome State Fault Refusal := bankRun (macStep .tern p) s
def execBmacq (tq : Bool) (shift : BitVec 2) (p : Mac) (s : State) : Host.Outcome State Fault Refusal := bankRun (macStep (.trellis tq shift.toNat) p) s
def execBscale (perlane : Bool) (xb : BitVec 2) (factor : BitVec 32) (s : State) : Host.Outcome State Fault Refusal := bankRun (bscaleStep perlane xb.toNat factor) s
def execBstore (ofmt : Bool) (n1 : BitVec 6) (off : BitVec 40) (s : State) : Host.Outcome State Fault Refusal := bankRun (bstoreStep ofmt (n1.toNat + 1) off.toNat) s
def execBsend (ofmt : Bool) (n1 : BitVec 6) (coreid : BitVec 9) (off : BitVec 19) (sw : BitVec 15) (swv : Bool) (s : State) : Host.Outcome State Fault Refusal :=
  bankRun (bsendStep ofmt (n1.toNat + 1) coreid.toNat off.toNat sw.toNat swv) s
def execBzero (acc : Bool) (mask : BitVec 4) (s : State) : Host.Outcome State Fault Refusal := bankRun (bzeroStep acc mask) s
def execBfence (s : State) : Host.Outcome State Fault Refusal := bankRun bfenceStep s
def execBred (d : BitVec 6) (s : State) : Host.Outcome State Fault Refusal :=
  match bankRun (bredStep d.toNat) s with
  | .next t => .next (arriveBred t s.eng)
  | x => x
def execBsync (sw : BitVec 19) (gen : BitVec 16) (s : State) : Host.Outcome State Fault Refusal := bankRun (bsyncStep sw.toNat gen.toNat) s
def execBend (s : State) : Host.Outcome State Fault Refusal := bendStep s

/-! ### The turn of an engine -/

/-- A wait for a folio ends with its pull, or when the member has left the core; the command then finds its member, or
touches the folio, anew (R108). -/
def folioOver (s : State) (gath c f : Nat) : Bool := ((s.core c).folio f).pres != .inFlight || !(s.core c).runs gath

/-- Whether an engine's wait has ended, so that its command runs again. -/
def waitOver (s : State) (e : Nat) (l : BankList) : Bool :=
  match (s.bank e).wait with
  | .none => true
  | .folio c f => folioOver s l.gath c f
  | _ => false

/-- What an engine does next: nothing, a park, or a command to run. -/
inductive BankTurn where
  | idle
  | park (code sub : Nat)
  | run (i : Instr)

def bankTurn (s : State) (e : Nat) : BankTurn :=
  let b := s.bank e
  match b.list.bind fun x => findList s x.2 with
  | none => .idle
  | some l =>
    if waitOver s e l = false then .idle
    else
      match headerFault l b with
      | some sub => .park cEngineError sub
      | none =>
        match b.cmds[b.idx]? with
        | none => .park cEngineError 3
        | some w =>
          match decodeBank w with
          | .error sub => .park cEngineError sub
          | .ok i => .run i

/-! ### Events -/

/-- Whether a waiting engine's condition now holds (R108, R112). -/
def bankMayGo (s : State) (e : Nat) : Bool :=
  let b := s.bank e
  match b.wait, b.list.bind fun x => findList s x.2 with
  | .member, some l =>
    (match (b.cmds[b.idx]?).map decodeBank with
     | some (.ok (.bsend _ _ coreid _ _ _)) =>
       (match l.targets.find? fun t => t.2 == coreid.toNat with | some t => (memberCore s l.gath t.1).isSome | none => true)
     | _ => (memberCore s l.gath l.rank).isSome)
  | .bsync, some l =>
    (match (b.cmds[b.idx]?).map decodeBank, memberCore s l.gath l.rank with
     | some (.ok (.bsync sw gen)), some c => ((s.core c).syncWord sw.toNat).reached gen.toNat
     | _, _ => false)
  | .folio c f, some l => folioOver s l.gath c f
  | _, _ => false

/-- BANK_WAIT_RELEASE: the engine runs its command again. A BRED needs none: the second partner completes both. -/
def execBankWaitRelease (engine : Nat) (s : State) : Host.Outcome State Fault Refusal :=
  if bankMayGo s engine then .next (s.modBank engine fun b => { b with wait := .none }) else .next s

end Sys2Proof.Machine
end

