-- ==== Sys2Proof/Machine/Control.lean ====
section
/-!
DEFINITION. Moves into registers (R172 to R175), the control unit (R227 to R236) and the address slot (R228, R238). The
choice of the next PC in a bundle is made at its issue (R223); a loop, jump or call on its own leaves its own choice in
the PC.
-/

namespace Sys2Proof.Machine

/-! ### Moves -/

/-- Steps 4 and 5 of R183 for one move. -/
def moveStep (c bus src : Nat) (keep : Bool) (dst : Nat) (s : State) : Res State := do
  let v ← readSource s c src
  let _ ← needDest (s.core c) dst
  let s ← if src = 0x0B8 ∧ keep = false then (popHead (s.core c) bus).map (s.setCore c) else pure s
  pure (writeDest s c dst v)

def execMove (m : Mv) (dst : BitVec 11) (s : State) : Host.Outcome State Fault Refusal :=
  finish s s.cur (moveStep s.cur m.bus.val m.src.toNat m.keep dst.toNat s)

/-! ### The control unit -/

def Arch.jumpTo (a : Arch) (t : Nat) : Arch := { a with pc := BitVec.ofNat 11 t }

/-- `cu.lp.push` (R227). -/
def lpPush : Body := fun x s =>
  let a := (s.core x.c).arch
  let count := x.b.lo.setWidth 32
  let last := bits a.lend 10 0
  if last < a.pc.toNat + 1 then .error (stop cIllegalMode 11 x.bus)
  else if count = 0 then .ok (s.modArch x.c fun a => a.jumpTo (last + 1))
  else if a.loops.length = 6 then .error (stop cLoopOverflow 1 x.bus)
  else .ok (s.modArch x.c fun a => { a with loops := a.loops ++ [{ count := count, idx := 0, start := a.pc + 1, stop := BitVec.ofNat 11 last }] })

/-- Remove the top entry of a stack held outermost first. -/
def dropTop (l : List Loop) : List Loop := l.take (l.length - 1)

/-- `cu.lp.pop` (R229). -/
def lpPop : Body := fun x s =>
  if (s.core x.c).arch.loops = [] then .error (stop cLoopUnderflow 1 x.bus)
  else .ok (s.modArch x.c fun a => { a with loops := dropTop a.loops })

def cuJump : Body := fun x s => .ok (s.modArch x.c fun a => a.jumpTo (bits x.b.lo 10 0))

/-- `cu.call` (R232). -/
def cuCall : Body := fun x s =>
  if 8 ≤ (s.core x.c).arch.calls.length then .error (stop cCallOverflow 1 x.bus)
  else .ok (s.modArch x.c fun a => { a with calls := (a.pc + 1) :: a.calls }.jumpTo (bits x.b.lo 10 0))

def cuTrap : Body := fun x _ => .error (stop cTrap (bits x.b.lo 15 0) x.bus)

/-- `cu.brk` (R234): a debug halt before the next bundle if a debugger is attached. -/
def cuBrk : Body := fun x s =>
  if (s.core x.c).debugger then .ok (s.modCore x.c fun k => { k with debugHalt := true }) else .error (stop cBreak (bits x.b.lo 15 0) x.bus)

/-- `cu.halt` (R235, R222): results still due are discarded. -/
def cuHalt : Body := fun x s =>
  .ok ((settleAtomics s x.c).modCore x.c fun k => { k with run := .halted, exit := x.b.lo.setWidth 32, arch := { k.arch with due := [] } })

def cuWdog : Body := fun x s =>
  .ok (s.modCore x.c fun k => { k with wdog := if bits x.b.lo 31 0 = 0 then none else some (bits x.b.lo 31 0) })

def execCuLpPush (m : Mv) (s : State) : Host.Outcome State Fault Refusal := runMv m 0x3E0 lpPush s
def execCuLpPop (m : Mv) (s : State) : Host.Outcome State Fault Refusal := runMv m 0x3E1 lpPop s
def execCuJump (m : Mv) (s : State) : Host.Outcome State Fault Refusal := runMv m 0x3E2 cuJump s
def execCuCall (m : Mv) (s : State) : Host.Outcome State Fault Refusal := runMv m 0x3E3 cuCall s
def execCuTrap (m : Mv) (s : State) : Host.Outcome State Fault Refusal := runMv m 0x3E4 cuTrap s
def execCuBrk (m : Mv) (s : State) : Host.Outcome State Fault Refusal := runMv m 0x3E5 cuBrk s
def execCuHalt (m : Mv) (s : State) : Host.Outcome State Fault Refusal := runMarkMv m 0x3E6 cuHalt s
def execCuWdog (m : Mv) (s : State) : Host.Outcome State Fault Refusal := runMv m 0x3E7 cuWdog s

/-! ### The address slot -/

/-- `lend d` acts on the top loop (R228). -/
def lendHits (a : Arch) (d : Nat) : Option Loop :=
  match a.loops.getLast? with
  | some l => if a.pc = l.stop ∧ d = a.loops.length then some l else none
  | none => none

/-- Whether `lend d` iterates its loop. -/
def lendIterates (a : Arch) (d : Nat) : Bool := match lendHits a d with | some l => decide ((l.idx + 1).toNat < l.count.toNat) | none => false

def lendStep (a : Arch) (d : Nat) : Arch :=
  match lendHits a d with
  | none => a.raise flagLOOPMISS
  | some l =>
    if (l.idx + 1).toNat < l.count.toNat then { a with loops := dropTop a.loops ++ [{ l with idx := l.idx + 1 }] }.jumpTo l.start.toNat
    else { a with loops := dropTop a.loops }

def slotLend (d : Nat) : SlotBody := fun c _ s => .ok (s.modArch c fun a => lendStep a d)

/-- An operation on stream `n` in state folio S0. -/
def streamStep (n : Nat) (f : Arch → Stream → Stream) : SlotBody := fun c pre s => do
  let _ ← needFolio (s.core c) 32
  pure (s.modCore c fun k => { k with arch := k.arch.setStream n (f pre (k.arch.stream n)) }.dirty 32)

def Stream.setStride (t : Stream) (l : Nat) (v : BitVec 40) : Stream :=
  match l with | 0 => { t with st0 := v } | 1 => { t with st1 := v } | 2 => { t with st2 := v } | _ => { t with st3 := v }

/-- Scalar `n` as 40 bits. -/
def scalar40 (a : Arch) (n : BitVec 6) : BitVec 40 := (a.s.get 0 n.toNat).setWidth 40

def slotSbase (a : BitVec 3) (n : BitVec 6) : SlotBody := streamStep a.toNat fun pre t => { t with base := scalar40 pre n }
def slotSstr (a : BitVec 3) (l : BitVec 2) (n : BitVec 6) : SlotBody := streamStep a.toNat fun pre t => t.setStride l.toNat (scalar40 pre n)
def slotSstri (a : BitVec 3) (l : BitVec 2) (imm : BitVec 13) : SlotBody := streamStep a.toNat fun _ t => t.setStride l.toNat (imm.signExtend 40)
def slotSspace (a : BitVec 3) (kind : BitVec 2) (idx : BitVec 5) : SlotBody := streamStep a.toNat fun _ t => { t with kind := kind, index := idx }
def slotSwlev (a : BitVec 3) (b : BitVec 3) : SlotBody := streamStep a.toNat fun _ t => { t with b := b }
def slotSrst (a : BitVec 3) : SlotBody := streamStep a.toNat fun _ _ => .zero

def execLend (d : BitVec 3) (s : State) : Host.Outcome State Fault Refusal := runSlot (slotLend d.toNat) s
def execSbase (a : BitVec 3) (n : BitVec 6) (s : State) : Host.Outcome State Fault Refusal := runSlot (slotSbase a n) s
def execSstr (a : BitVec 3) (l : BitVec 2) (n : BitVec 6) (s : State) : Host.Outcome State Fault Refusal := runSlot (slotSstr a l n) s
def execSstri (a : BitVec 3) (l : BitVec 2) (imm : BitVec 13) (s : State) : Host.Outcome State Fault Refusal := runSlot (slotSstri a l imm) s
def execSspace (a : BitVec 3) (kind : BitVec 2) (idx : BitVec 5) (s : State) : Host.Outcome State Fault Refusal := runSlot (slotSspace a kind idx) s
def execSwlev (a b : BitVec 3) (s : State) : Host.Outcome State Fault Refusal := runSlot (slotSwlev a b) s
def execSrst (a : BitVec 3) (s : State) : Host.Outcome State Fault Refusal := runSlot (slotSrst a) s

end Sys2Proof.Machine
end

