-- ==== Sys2Proof/Machine/Scalar.lean ====
section
/-!
DEFINITION. The scalar units SA and SB (R244 to R247): one value function per operation over A (the unit's `.o` latch),
B (the value moved to the trigger) and C (its `.o2` latch).
-/

namespace Sys2Proof.Machine

/-- A scalar operation: its latency and its result and flags from A, B and C. -/
structure ScalarOp where
  lat : Nat
  f : Word → Word → Word → Word × Word

/-- A scalar trigger: SA stands on bus 0, SB on bus 1 (R244). -/
def scalar (op : ScalarOp) : Body := fun x s => do
  let k := s.core x.c
  let _ ← needFolios k [32, 33]
  let r := op.f (k.arch.latch (0x100 + x.bus)).lo x.b.lo (k.arch.latch (0x113 + x.bus)).lo
  due x s op.lat (r.1.setWidth 1024) r.2

/-! ### Integer values -/

/-- Signed division truncates toward zero (Table 9.7). -/
def divSigned (a b : Word) : Word × Word :=
  if b = 0 then (BitVec.allOnes 64, flagIDZ)
  else if a = BitVec.intMin 64 ∧ b = BitVec.allOnes 64 then (a, flagIOV)
  else (BitVec.ofInt 64 (a.toInt.tdiv b.toInt), 0)

def remSigned (a b : Word) : Word × Word :=
  if b = 0 then (a, flagIDZ)
  else if a = BitVec.intMin 64 ∧ b = BitVec.allOnes 64 then (0, flagIOV)
  else (BitVec.ofInt 64 (a.toInt.tmod b.toInt), 0)

def divUnsigned (a b : Word) : Word × Word := if b = 0 then (BitVec.allOnes 64, flagIDZ) else (a / b, 0)

def remUnsigned (a b : Word) : Word × Word := if b = 0 then (a, flagIDZ) else (a % b, 0)

def leadingZeros (b : Word) : Nat := if b = 0 then 64 else 63 - b.toNat.log2

def trailingZeros (b : Word) : Nat := ((List.range 64).find? fun i => bit b i).getD 64

def setBits (b : Word) : Nat := ((List.range 64).filter fun i => bit b i).length

def swapBytes (b : Word) : Word := BitVec.ofNat 64 (ofLeBytes (leBytes 8 b.toNat).reverse)

/-! ### FP64 values (R246) -/

def numD (x : Word) : Num := fp64.decode x.toNat

def ofFlagged (x : Flagged Nat) : Word × Word := (BitVec.ofNat 64 x.val, x.flags)

/-- The exact value rounded once, RNE; the flags of the operation and of the rounding. -/
def outD (x : Flagged Num) : Word × Word :=
  let r := fp64.out x.val 0 false
  (BitVec.ofNat 64 r.val, x.flags ||| r.flags)

/-- Minimum or maximum by R194: one of the operands, or the canonical NaN. -/
def pickD (isMax : Bool) (a b : Word) : Word :=
  if (numD a).isNan && (numD b).isNan then BitVec.ofNat 64 fp64.nan
  else if minMaxFirst isMax (numD a) (numD b) then a else b

/-- A comparison, false when an operand is NaN. -/
def cmpD (a b : Word) (p : Int → Bool) : Bool := !(numD a).isNan && !(numD b).isNan && p ((numD a).cmp (numD b))

/-! ### The operations of Table 11.4 -/

def opSaAdd : ScalarOp := { lat := 1, f := fun a b _ => (a + b, 0) }
def opSaSub : ScalarOp := { lat := 1, f := fun a b _ => (a - b, 0) }
def opSaMul : ScalarOp := { lat := 3, f := fun a b _ => (a * b, 0) }
def opSaMulh : ScalarOp := { lat := 3, f := fun a b _ => (BitVec.ofInt 64 (a.toInt * b.toInt / 2 ^ 64), 0) }
def opSaMulhu : ScalarOp := { lat := 3, f := fun a b _ => (BitVec.ofNat 64 (a.toNat * b.toNat / 2 ^ 64), 0) }
def opSaDiv : ScalarOp := { lat := 12, f := fun a b _ => divSigned a b }
def opSaDivu : ScalarOp := { lat := 12, f := fun a b _ => divUnsigned a b }
def opSaRem : ScalarOp := { lat := 12, f := fun a b _ => remSigned a b }
def opSaRemu : ScalarOp := { lat := 12, f := fun a b _ => remUnsigned a b }
def opSaAnd : ScalarOp := { lat := 1, f := fun a b _ => (a &&& b, 0) }
def opSaOr : ScalarOp := { lat := 1, f := fun a b _ => (a ||| b, 0) }
def opSaXor : ScalarOp := { lat := 1, f := fun a b _ => (a ^^^ b, 0) }
def opSaAndn : ScalarOp := { lat := 1, f := fun a b _ => (a &&& ~~~ b, 0) }
def opSaShl : ScalarOp := { lat := 1, f := fun a b _ => (a <<< bits b 5 0, 0) }
def opSaShr : ScalarOp := { lat := 1, f := fun a b _ => (a >>> bits b 5 0, 0) }
def opSaSar : ScalarOp := { lat := 1, f := fun a b _ => (a.sshiftRight (bits b 5 0), 0) }
def opSaRotl : ScalarOp := { lat := 1, f := fun a b _ => (a.rotateLeft (bits b 5 0), 0) }
def opSaMin : ScalarOp := { lat := 1, f := fun a b _ => (if a.slt b then a else b, 0) }
def opSaMax : ScalarOp := { lat := 1, f := fun a b _ => (if a.slt b then b else a, 0) }
def opSaMinu : ScalarOp := { lat := 1, f := fun a b _ => (if a.ult b then a else b, 0) }
def opSaMaxu : ScalarOp := { lat := 1, f := fun a b _ => (if a.ult b then b else a, 0) }
def opSaSeq : ScalarOp := { lat := 1, f := fun a b _ => (ofBool64 (a == b), 0) }
def opSaSne : ScalarOp := { lat := 1, f := fun a b _ => (ofBool64 (a != b), 0) }
def opSaSlt : ScalarOp := { lat := 1, f := fun a b _ => (ofBool64 (a.slt b), 0) }
def opSaSltu : ScalarOp := { lat := 1, f := fun a b _ => (ofBool64 (a.ult b), 0) }
def opSaSle : ScalarOp := { lat := 1, f := fun a b _ => (ofBool64 (a.sle b), 0) }
def opSaSleu : ScalarOp := { lat := 1, f := fun a b _ => (ofBool64 (a.ule b), 0) }
def opSaSel : ScalarOp := { lat := 1, f := fun a b c => (if c != 0 then a else b, 0) }
def opSaPass : ScalarOp := { lat := 1, f := fun _ b _ => (b, 0) }
def opSaClz : ScalarOp := { lat := 1, f := fun _ b _ => (BitVec.ofNat 64 (leadingZeros b), 0) }
def opSaCtz : ScalarOp := { lat := 1, f := fun _ b _ => (BitVec.ofNat 64 (trailingZeros b), 0) }
def opSaPopc : ScalarOp := { lat := 1, f := fun _ b _ => (BitVec.ofNat 64 (setBits b), 0) }
def opSaSext8 : ScalarOp := { lat := 1, f := fun _ b _ => ((b.setWidth 8).signExtend 64, 0) }
def opSaSext16 : ScalarOp := { lat := 1, f := fun _ b _ => ((b.setWidth 16).signExtend 64, 0) }
def opSaSext32 : ScalarOp := { lat := 1, f := fun _ b _ => ((b.setWidth 32).signExtend 64, 0) }
def opSaZext8 : ScalarOp := { lat := 1, f := fun _ b _ => ((b.setWidth 8).setWidth 64, 0) }
def opSaZext16 : ScalarOp := { lat := 1, f := fun _ b _ => ((b.setWidth 16).setWidth 64, 0) }
def opSaZext32 : ScalarOp := { lat := 1, f := fun _ b _ => ((b.setWidth 32).setWidth 64, 0) }
def opSaBswap : ScalarOp := { lat := 1, f := fun _ b _ => (swapBytes b, 0) }
def opSaMadd : ScalarOp := { lat := 3, f := fun a b c => (a * b + c, 0) }
def opSaFaddD : ScalarOp := { lat := 4, f := fun a b _ => outD ((numD a).add (numD b) 0) }
def opSaFsubD : ScalarOp := { lat := 4, f := fun a b _ => outD ((numD a).add (numD b).neg 0) }
def opSaFmulD : ScalarOp := { lat := 4, f := fun a b _ => outD ((numD a).mul (numD b)) }
def opSaFmaddD : ScalarOp := { lat := 4, f := fun a b c => outD ((numD a).fma (numD b) (numD c) 0) }
def opSaFdivD : ScalarOp := { lat := 14, f := fun a b _ => outD ((numD a).div (numD b)) }
def opSaFminD : ScalarOp := { lat := 4, f := fun a b _ => (pickD false a b, 0) }
def opSaFmaxD : ScalarOp := { lat := 4, f := fun a b _ => (pickD true a b, 0) }
def opSaFeqD : ScalarOp := { lat := 4, f := fun a b _ => (ofBool64 (cmpD a b fun x => x == 0), 0) }
def opSaFltD : ScalarOp := { lat := 4, f := fun a b _ => (ofBool64 (cmpD a b fun x => decide (x < 0)), 0) }
def opSaFleD : ScalarOp := { lat := 4, f := fun a b _ => (ofBool64 (cmpD a b fun x => decide (x ≤ 0)), 0) }
def opSaCvtDi : ScalarOp := { lat := 4, f := fun _ b c => ofFlagged (fp64.out (.ofInt b.toInt) (bits c 1 0) false) }
def opSaCvtId : ScalarOp := { lat := 4, f := fun _ b c => ofFlagged (toIntFmt cInt64 (numD b) (bits c 1 0)) }
def opSaCvtSd : ScalarOp := { lat := 4, f := fun _ b c => ofFlagged (fp32.out (numD b) (bits c 1 0) (bit c 2)) }
def opSaCvtDs : ScalarOp := { lat := 4, f := fun _ b _ => ofFlagged (fp64.out (fp32.decode (bits b 31 0)) 0 false) }

/-! ### Their meanings -/

def execSaAdd (m : Mv) (s : State) : Host.Outcome State Fault Refusal := runMv m 0x200 (scalar opSaAdd) s
def execSaSub (m : Mv) (s : State) : Host.Outcome State Fault Refusal := runMv m 0x201 (scalar opSaSub) s
def execSaMul (m : Mv) (s : State) : Host.Outcome State Fault Refusal := runMv m 0x202 (scalar opSaMul) s
def execSaMulh (m : Mv) (s : State) : Host.Outcome State Fault Refusal := runMv m 0x203 (scalar opSaMulh) s
def execSaMulhu (m : Mv) (s : State) : Host.Outcome State Fault Refusal := runMv m 0x204 (scalar opSaMulhu) s
def execSaDiv (m : Mv) (s : State) : Host.Outcome State Fault Refusal := runMv m 0x205 (scalar opSaDiv) s
def execSaDivu (m : Mv) (s : State) : Host.Outcome State Fault Refusal := runMv m 0x206 (scalar opSaDivu) s
def execSaRem (m : Mv) (s : State) : Host.Outcome State Fault Refusal := runMv m 0x207 (scalar opSaRem) s
def execSaRemu (m : Mv) (s : State) : Host.Outcome State Fault Refusal := runMv m 0x208 (scalar opSaRemu) s
def execSaAnd (m : Mv) (s : State) : Host.Outcome State Fault Refusal := runMv m 0x209 (scalar opSaAnd) s
def execSaOr (m : Mv) (s : State) : Host.Outcome State Fault Refusal := runMv m 0x20A (scalar opSaOr) s
def execSaXor (m : Mv) (s : State) : Host.Outcome State Fault Refusal := runMv m 0x20B (scalar opSaXor) s
def execSaAndn (m : Mv) (s : State) : Host.Outcome State Fault Refusal := runMv m 0x20C (scalar opSaAndn) s
def execSaShl (m : Mv) (s : State) : Host.Outcome State Fault Refusal := runMv m 0x20D (scalar opSaShl) s
def execSaShr (m : Mv) (s : State) : Host.Outcome State Fault Refusal := runMv m 0x20E (scalar opSaShr) s
def execSaSar (m : Mv) (s : State) : Host.Outcome State Fault Refusal := runMv m 0x20F (scalar opSaSar) s
def execSaRotl (m : Mv) (s : State) : Host.Outcome State Fault Refusal := runMv m 0x210 (scalar opSaRotl) s
def execSaMin (m : Mv) (s : State) : Host.Outcome State Fault Refusal := runMv m 0x211 (scalar opSaMin) s
def execSaMax (m : Mv) (s : State) : Host.Outcome State Fault Refusal := runMv m 0x212 (scalar opSaMax) s
def execSaMinu (m : Mv) (s : State) : Host.Outcome State Fault Refusal := runMv m 0x213 (scalar opSaMinu) s
def execSaMaxu (m : Mv) (s : State) : Host.Outcome State Fault Refusal := runMv m 0x214 (scalar opSaMaxu) s
def execSaSeq (m : Mv) (s : State) : Host.Outcome State Fault Refusal := runMv m 0x215 (scalar opSaSeq) s
def execSaSne (m : Mv) (s : State) : Host.Outcome State Fault Refusal := runMv m 0x216 (scalar opSaSne) s
def execSaSlt (m : Mv) (s : State) : Host.Outcome State Fault Refusal := runMv m 0x217 (scalar opSaSlt) s
def execSaSltu (m : Mv) (s : State) : Host.Outcome State Fault Refusal := runMv m 0x218 (scalar opSaSltu) s
def execSaSle (m : Mv) (s : State) : Host.Outcome State Fault Refusal := runMv m 0x219 (scalar opSaSle) s
def execSaSleu (m : Mv) (s : State) : Host.Outcome State Fault Refusal := runMv m 0x21A (scalar opSaSleu) s
def execSaSel (m : Mv) (s : State) : Host.Outcome State Fault Refusal := runMv m 0x21B (scalar opSaSel) s
def execSaPass (m : Mv) (s : State) : Host.Outcome State Fault Refusal := runMv m 0x21C (scalar opSaPass) s
def execSaClz (m : Mv) (s : State) : Host.Outcome State Fault Refusal := runMv m 0x21D (scalar opSaClz) s
def execSaCtz (m : Mv) (s : State) : Host.Outcome State Fault Refusal := runMv m 0x21E (scalar opSaCtz) s
def execSaPopc (m : Mv) (s : State) : Host.Outcome State Fault Refusal := runMv m 0x21F (scalar opSaPopc) s
def execSaSext8 (m : Mv) (s : State) : Host.Outcome State Fault Refusal := runMv m 0x220 (scalar opSaSext8) s
def execSaSext16 (m : Mv) (s : State) : Host.Outcome State Fault Refusal := runMv m 0x221 (scalar opSaSext16) s
def execSaSext32 (m : Mv) (s : State) : Host.Outcome State Fault Refusal := runMv m 0x222 (scalar opSaSext32) s
def execSaZext8 (m : Mv) (s : State) : Host.Outcome State Fault Refusal := runMv m 0x223 (scalar opSaZext8) s
def execSaZext16 (m : Mv) (s : State) : Host.Outcome State Fault Refusal := runMv m 0x224 (scalar opSaZext16) s
def execSaZext32 (m : Mv) (s : State) : Host.Outcome State Fault Refusal := runMv m 0x225 (scalar opSaZext32) s
def execSaBswap (m : Mv) (s : State) : Host.Outcome State Fault Refusal := runMv m 0x226 (scalar opSaBswap) s
def execSaMadd (m : Mv) (s : State) : Host.Outcome State Fault Refusal := runMv m 0x227 (scalar opSaMadd) s
def execSaFaddD (m : Mv) (s : State) : Host.Outcome State Fault Refusal := runMv m 0x228 (scalar opSaFaddD) s
def execSaFsubD (m : Mv) (s : State) : Host.Outcome State Fault Refusal := runMv m 0x229 (scalar opSaFsubD) s
def execSaFmulD (m : Mv) (s : State) : Host.Outcome State Fault Refusal := runMv m 0x22A (scalar opSaFmulD) s
def execSaFmaddD (m : Mv) (s : State) : Host.Outcome State Fault Refusal := runMv m 0x22B (scalar opSaFmaddD) s
def execSaFdivD (m : Mv) (s : State) : Host.Outcome State Fault Refusal := runMv m 0x22C (scalar opSaFdivD) s
def execSaFminD (m : Mv) (s : State) : Host.Outcome State Fault Refusal := runMv m 0x22D (scalar opSaFminD) s
def execSaFmaxD (m : Mv) (s : State) : Host.Outcome State Fault Refusal := runMv m 0x22E (scalar opSaFmaxD) s
def execSaFeqD (m : Mv) (s : State) : Host.Outcome State Fault Refusal := runMv m 0x22F (scalar opSaFeqD) s
def execSaFltD (m : Mv) (s : State) : Host.Outcome State Fault Refusal := runMv m 0x230 (scalar opSaFltD) s
def execSaFleD (m : Mv) (s : State) : Host.Outcome State Fault Refusal := runMv m 0x231 (scalar opSaFleD) s
def execSaCvtDi (m : Mv) (s : State) : Host.Outcome State Fault Refusal := runMv m 0x232 (scalar opSaCvtDi) s
def execSaCvtId (m : Mv) (s : State) : Host.Outcome State Fault Refusal := runMv m 0x233 (scalar opSaCvtId) s
def execSaCvtSd (m : Mv) (s : State) : Host.Outcome State Fault Refusal := runMv m 0x234 (scalar opSaCvtSd) s
def execSaCvtDs (m : Mv) (s : State) : Host.Outcome State Fault Refusal := runMv m 0x235 (scalar opSaCvtDs) s

end Sys2Proof.Machine
end

