-- ==== Sys2Proof/Machine/Elementary.lean ====
section
/-!
DEFINITION. Elementary functions to 500 fractional bits, with which the special-function unit's results are placed
within the bounds of Table 12.2. A fixed-point number is an integer scaled by 2^500.
-/

namespace Sys2Proof.Machine

def fxOne : Int := 2 ^ 500

def fxMul (a b : Int) : Int := a * b / fxOne
def fxDiv (a b : Int) : Int := a * fxOne / b

/-- A dyadic value of a floating format (exponent at least -500) as fixed point. -/
def Ex.toFx (x : Ex) : Int := let m : Int := ((x.n <<< (x.e + 500).toNat : Nat) : Int); if x.neg then -m else m

def expLoop (y : Int) : Nat → Nat → Int → Int → Int
  | 0, _, _, acc => acc
  | f + 1, i, t, acc => let u := fxMul t y / i; expLoop y f (i + 1) u (acc + u)

def squareTimes : Nat → Int → Int
  | 0, v => v
  | n + 1, v => squareTimes n (fxMul v v)

/-- e^x for |x| below 200: the series of x / 256, squared eight times. -/
def fxExp (x : Int) : Int := squareTimes 8 (expLoop (x / 256) 120 1 fxOne fxOne)

def atanhLoop (z2 : Int) : Nat → Nat → Int → Int → Int
  | 0, _, _, acc => acc
  | f + 1, i, p, acc => atanhLoop z2 f (i + 2) (fxMul p z2) (acc + p / i)

/-- 2 atanh z. -/
def fxAtanh2 (z : Int) : Int := 2 * atanhLoop (fxMul z z) 190 1 z 0

def fxLn2 : Int := fxAtanh2 (fxOne / 3)

/-- ln v for v > 0. -/
def fxLn (v : Int) : Int :=
  let k : Int := (v.toNat.log2 : Int) - 500
  let m := if 0 ≤ k then v / 2 ^ k.toNat else v * 2 ^ (-k).toNat
  k * fxLn2 + fxAtanh2 (fxDiv (m - fxOne) (m + fxOne))

def atanLoop (d2 : Nat) : Nat → Nat → Int → Int → Int
  | 0, _, _, acc => acc
  | f + 1, i, p, acc => atanLoop d2 f (i + 2) (-(p / d2)) (acc + p / i)

/-- atan (1 / d) scaled by 2^800. -/
def atanInv (d : Nat) : Int := atanLoop (d * d) 190 1 (2 ^ 800 / d) 0

/-- π scaled by 2^800 (Machin). -/
def pi800 : Int := 16 * atanInv 5 - 4 * atanInv 239

/-- x modulo 2π, exactly reduced, for a dyadic x (Table 12.2). -/
def Ex.reduce (x : Ex) : Int :=
  let m : Int := ((x.n <<< (x.e + 800).toNat : Nat) : Int)
  let r := m % (2 * pi800)
  (if x.neg then 2 * pi800 - r else r) / 2 ^ 300

def circLoop (r2 : Int) : Nat → Nat → Int → Int → Int
  | 0, _, _, acc => acc
  | f + 1, i, t, acc => let u := -(fxMul t r2 / (i * (i + 1))); circLoop r2 f (i + 2) u (acc + u)

/-- An angle brought into [-π, π]. -/
def fxCentre (r : Int) : Int := if pi800 / 2 ^ 300 < r then r - 2 * pi800 / 2 ^ 300 else r

def fxSin (r : Int) : Int := let r := fxCentre r; circLoop (fxMul r r) 80 2 r r
def fxCos (r : Int) : Int := let r := fxCentre r; circLoop (fxMul r r) 80 1 fxOne fxOne

def fxSqrt (v : Nat) : Int := (isqrt (v <<< 500) : Nat)

def erfLoop (x2 : Int) : Nat → Nat → Int → Int → Int
  | 0, _, _, acc => acc
  | f + 1, n, t, acc => let u := -(fxMul t x2 / n); erfLoop x2 f (n + 1) u (acc + u / (2 * n + 1))

/-- erf x for |x| below 15. -/
def fxErf (x : Int) : Int := fxDiv (2 * erfLoop (fxMul x x) 900 1 x x) (fxSqrt (pi800 / 2 ^ 300).toNat)

def fxSigmoid (x : Int) : Int := let e := fxExp x; fxDiv e (fxOne + e)

/-- The functions of Table 12.1 by trigger port, in fixed point, far closer than any bound of Table 12.2; beyond the range in which the
series run, a value on the same side of every representable number. -/
def fxFunction (port : Nat) (b : Ex) : Int :=
  let x := b.toFx
  let big := decide (200 * fxOne ≤ x)
  let small := decide (x ≤ -200 * fxOne)
  if port = 0x300 then (if big then 2 ^ 700 else if small then 1 else fxExp x)
  else if port = 0x301 then (if big then 2 ^ 700 else if small then 1 else fxExp (fxMul x fxLn2))
  else if port = 0x302 then fxLn x
  else if port = 0x303 then fxDiv (fxLn x) fxLn2
  else if port = 0x305 then (isqrt (2 ^ (1000 - b.e).toNat / b.n) : Nat)
  else if port = 0x308 then fxSin b.reduce
  else if port = 0x309 then fxCos b.reduce
  else if port = 0x30A then
    (if 100 * fxOne ≤ x then fxOne - 1 else if x ≤ -100 * fxOne then 1 - fxOne else fxDiv (fxExp (2 * x) - fxOne) (fxExp (2 * x) + fxOne))
  else if port = 0x30B then (if big then fxOne - 1 else if small then 1 else fxSigmoid x)
  else if port = 0x30C then
    (if 20 * fxOne ≤ x then x - 1 else if x ≤ -20 * fxOne then -1 else fxMul x (fxOne + fxErf (fxDiv x (fxSqrt (2 * fxOne).toNat))) / 2)
  else if port = 0x30D then (if big then x - 1 else if small then -1 else fxMul x (fxSigmoid x))
  else if port = 0x30E then (if 14 * fxOne ≤ x then fxOne - 1 else if x ≤ -14 * fxOne then 1 - fxOne else fxErf x)
  else (if big then x + 1 else if small then 1 else fxLn (fxOne + fxExp x))

end Sys2Proof.Machine
end

