-- ==== Sys2Proof/Machine/Vector.lean ====
section
/-!
DEFINITION. The vector units VA, VB and VC (R248 to R257): the mode latch and its checks, conversions with their
rounding, and one lane function per operation.
-/

namespace Sys2Proof.Machine

/-! ### Modes -/

/-- A mode latch, Table 11.2. -/
structure Mode where
  type : Nat
  otype : Nat
  rm : Nat
  sat : Bool
  sr : Bool
  blk : Nat
  ue : Bool
  seed : Nat
deriving DecidableEq, Repr

def Mode.of (w : Word) : Mode :=
  { type := bits w 7 0, otype := bits w 23 16, rm := bits w 9 8, sat := bit w 10, sr := bit w 11, blk := if bit w 12 then 16 else 32, ue := bit w 13,
    seed := bits w 63 32 }

/-- What a vector or SF operation works on: its mode, the unit's bus and issue count (R203), its width and operands. -/
structure VArgs where
  mode : Mode
  unit : Nat
  count : Nat
  w : Nat
  a : Val
  b : Val
  c : Val

def VArgs.T (x : VArgs) : Nat := x.mode.type
/-- The rounding mode that gives a zero its sign (R201); stochastic rounding never reads `rm` (R203). -/
def VArgs.rm (x : VArgs) : Nat := if x.mode.sr && stochFmt x.mode.type then 0 else x.mode.rm
def VArgs.n (x : VArgs) : Nat := x.w / fmtBits x.mode.type

/-- The vector types (R248). -/
def vectorType (t : Nat) : Bool := decide (t ≤ cUint32) || t == cFp64 || t == cFp32 || t == cBf16 || t == cFp16
def fpType (t : Nat) : Bool := t == cFp64 || t == cFp32 || t == cBf16 || t == cFp16
def intType (t : Nat) : Bool := decide (t ≤ cUint32)
def anyType (_ : Nat) : Bool := true
def halfType (t : Nat) : Bool := t == cFp32 || t == cBf16 || t == cFp16
def dotType (t : Nat) : Bool := t == cInt8 || t == cUint8 || t == cInt16 || t == cBf16 || t == cFp16 || t == cE4m3 || t == cE5m2
def wideType (t : Nat) : Bool := vectorType t && (decide (16 ≤ fmtBits t) || t == cInt8)
/-- Formats `cvt` reads beyond the vector types, and formats it writes. -/
def cvtIn (t : Nat) : Bool := vectorType t || t == cInt4 || t == cE4m3 || t == cE5m2 || t == cE2m1 || t == cTern
def cvtOut (t : Nat) : Bool := vectorType t || t == cInt4 || t == cE4m3 || t == cE5m2 || t == cE2m1
def quantOut (t : Nat) : Bool := t == cE4m3 || t == cE5m2 || t == cE2m1 || t == cInt8 || t == cInt4
def dequantIn (t : Nat) : Bool := quantOut t || t == cTern
/-- The width relation of R257, which is all that it asks of otype. -/
def halfOf (t o : Nat) : Bool := fmtBits o * 2 == fmtBits t

/-- A vector operation: accepted types, accepted otypes (none: otype is not read), latency by type, result and flags. -/
structure VectorOp where
  accept : Nat → Bool
  oaccept : Option (Nat → Nat → Bool)
  lat : Nat → Nat
  f : VArgs → Nat × Word

def latOf (i f : Nat) (t : Nat) : Nat := if isFloat t then f else i

/-- The checks of Table 11.3. -/
def modeFault (op : VectorOp) (m : Mode) : Option Nat :=
  if badCode m.type then some 1
  else if !op.accept m.type then some 2
  else
    match op.oaccept with
    | some g => if badCode m.otype || !g m.type m.otype then some 3 else none
    | none => none

/-- A vector trigger: VA, VB and VC stand on buses 2, 3 and 4. -/
def vector (op : VectorOp) : Body := fun x s => do
  let k := s.core x.c
  let _ ← needFolios k [32, 33]
  let p := 0x102 + 3 * (x.bus - 2)
  let m := Mode.of (k.arch.config (p + 2))
  match modeFault op m with
  | some sub => .error (stop cIllegalMode sub x.bus)
  | none =>
    let r := op.f { mode := m, unit := x.bus, count := k.arch.count, w := x.w, a := k.arch.latch p, b := x.b, c := k.arch.latch (p + 1) }
    due x s (op.lat m.type) (BitVec.ofNat 1024 r.1) r.2

/-! ### Lanes -/

/-- Lanes 0 to n - 1 packed at `w` bits, with the union of their flags. -/
def mapLanes (n w : Nat) (f : Nat → Flagged Nat) : Nat × Word :=
  let l := (List.range n).map f
  (packLanes w (l.map (·.val)), l.foldl (fun a x => a ||| x.flags) 0)

def plainLane (x : Nat) : Flagged Nat := ⟨x, 0⟩

/-- Out (R249): stochastic rounding where the mode asks for it and R203 allows it, else rounding under the mode. -/
def VArgs.out (x : VArgs) (t lane : Nat) (v : Num) : Flagged Nat :=
  match floatFmt t with
  | some f => if x.mode.sr && stochFmt t then f.outStoch v (drawRnd x.mode.seed x.unit lane x.count) x.mode.sat else f.out v x.mode.rm x.mode.sat
  | none => ⟨0, 0⟩

def addFlags (x : Flagged Nat) (f : Word) : Flagged Nat := ⟨x.val, x.flags ||| f⟩

def VArgs.outF (x : VArgs) (t lane : Nat) (v : Flagged Num) : Flagged Nat := addFlags (x.out t lane v.val) v.flags

/-- The integer an element of an integer format holds. -/
def intValue (t x : Nat) : Int := if isSignedInt t then signed (fmtBits t) x else ((x % 2 ^ fmtBits t : Nat) : Int)

def VArgs.elem (x : VArgs) (v : Val) (i : Nat) : Nat := v.elem (fmtBits x.T) i

/-- Element-wise arithmetic (R249): an exact integer fitted, or an exact value rounded. -/
def arith (fi : Int → Int → Int → Int) (ff : Nat → Num → Num → Num → Flagged Num) (x : VArgs) : Nat × Word :=
  mapLanes x.n (fmtBits x.T) fun i =>
    let a := x.elem x.a i
    let b := x.elem x.b i
    let c := x.elem x.c i
    if isInt x.T then fitInt x.T (fi (intValue x.T a) (intValue x.T b) (intValue x.T c)) x.mode.sat
    else x.outF x.T i (ff x.rm (elemValue x.T a) (elemValue x.T b) (elemValue x.T c))

/-- Canonical NaN of a type. -/
def canonNan (t : Nat) : Nat := match floatFmt t with | some f => f.nan | none => 0

/-- Minimum or maximum of two patterns: by signedness, or by R194. -/
def pick (t : Nat) (isMax : Bool) (a b : Nat) : Nat :=
  if isInt t then
    (if isMax then (if intValue t a < intValue t b then b else a) else (if intValue t b < intValue t a then b else a))
  else
    let u := elemValue t a
    let v := elemValue t b
    if u.isNan && v.isNan then canonNan t else if minMaxFirst isMax u v then a else b

/-- Operations that deliver a pattern without rounding. -/
def pattern (g : Nat → Nat → Nat → Nat → Flagged Nat) (x : VArgs) : Nat × Word :=
  mapLanes x.n (fmtBits x.T) fun i => g x.T (x.elem x.a i) (x.elem x.b i) (x.elem x.c i)

/-- Absolute value (R249): of the most negative integer it is fitted. -/
def absLane (sat : Bool) (t b : Nat) : Flagged Nat :=
  if isInt t then fitInt t (intValue t b).natAbs sat
  else if (elemValue t b).isNan then plainLane (canonNan t) else plainLane (b % 2 ^ (fmtBits t - 1))

def negLane (sat : Bool) (t b : Nat) : Flagged Nat :=
  if isInt t then fitInt t (-(intValue t b)) sat
  else if (elemValue t b).isNan then plainLane (canonNan t)
  else plainLane (if b / 2 ^ (fmtBits t - 1) % 2 = 1 then b - 2 ^ (fmtBits t - 1) else b + 2 ^ (fmtBits t - 1))

/-- Logic on the W low bits (R250). -/
def logic (g : Nat → Nat → Nat) (x : VArgs) : Nat × Word :=
  let n := if fmtBits x.T = 0 then 64 else fmtBits x.T
  (g (x.a.plain x.w n) (x.b.plain x.w n), 0)

/-- Lane shifts by B mod the width (R250). -/
def shiftLanes (g : Nat → Nat → Nat → Nat) (x : VArgs) : Nat × Word :=
  mapLanes x.n (fmtBits x.T) fun i => plainLane (g (fmtBits x.T) (x.elem x.a i) (x.elem x.b i % fmtBits x.T))

/-- Compares: a lane of all ones or zeros (R250). -/
def compare (p : Int → Bool) (x : VArgs) : Nat × Word :=
  mapLanes x.n (fmtBits x.T) fun i =>
    let a := elemValue x.T (x.elem x.a i)
    let b := elemValue x.T (x.elem x.b i)
    plainLane (if !a.isNan && !b.isNan && p (a.cmp b) then 2 ^ fmtBits x.T - 1 else 0)

/-! ### Conversions (R251, Tables 9.6, 9.7) -/

/-- The flag of a TERN read of code 10 (R196). -/
def ternFlag (t x : Nat) : Word := flagIf (t == cTern && x % 4 == 2) flagTQW

/-- A value delivered in a format: integers of integer sources are fitted, floats rounded, float to integer by Table 9.7. -/
def VArgs.convertValue (x : VArgs) (o lane : Nat) (v : Num) (exactInt : Option Int) : Flagged Nat :=
  if isFloat o then x.out o lane v
  else match exactInt with
    | some k => fitInt o k x.mode.sat
    | none => toIntFmt o v x.mode.rm

def intOf? (t e : Nat) : Option Int := if isInt t then some (intValue t e) else if t = cTern then some (ternValue e) else none

def VArgs.convert (x : VArgs) (t o lane e : Nat) : Flagged Nat :=
  addFlags (x.convertValue o lane (elemValue t e) (intOf? t e)) (ternFlag t e)

def cvtLanes (x : VArgs) : Nat × Word :=
  mapLanes (x.w / max (fmtBits x.T) (fmtBits x.mode.otype)) (fmtBits x.mode.otype) fun i => x.convert x.T x.mode.otype i (x.elem x.b i)

/-- `scale` (R252). A power beyond ±5,000 leaves every format's range as 5,000 does. -/
def scaleLanes (x : VArgs) : Nat × Word :=
  mapLanes x.n (fmtBits x.T) fun i =>
    let k := max (-5000) (min 5000 (signed (fmtBits x.T) (x.elem x.b i)))
    match elemValue x.T (x.elem x.a i) with
    | .fin v => x.out x.T i (.fin { v with e := v.e + k })
    | v => x.out x.T i v

/-- Stochastic rounding to an integer, as R203 rounds to a neighbour. -/
def Ex.toIntStoch (v : Ex) (rnd : Nat) : Nat × Bool :=
  let (k, r, den) := v.scaled 0
  let frac := if v.neg then den - r else r
  let toB := decide (rnd < frac * 2 ^ 32 / den)
  (if r = 0 then k else if toB = v.neg then k else k + 1, decide (r ≠ 0))

/-- `round` (R252): to an integral value of the same format. -/
def roundLane (x : VArgs) (i : Nat) : Flagged Nat :=
  let e := x.elem x.b i
  match elemValue x.T e, floatFmt x.T with
  | .fin v, some f =>
    let r := if x.mode.sr && stochFmt x.T then v.toIntStoch (drawRnd x.mode.seed x.unit i x.count) else ((v.toInt x.mode.rm).1.natAbs, (v.toInt x.mode.rm).2)
    addFlags (f.roundEx { neg := v.neg, n := r.1, d := 1, e := 0 } 0 false) (flagIf r.2 flagNX)
  | .nan, _ => plainLane (canonNan x.T)
  | _, _ => plainLane e

/-- Quotient by a block scale (R253): a NaN scale gives NaN, a zero one ±∞ with DZ or NaN with NV. -/
def scaleDiv (v s : Num) : Flagged Num :=
  if s.isNan || v.isNan then ⟨.nan, 0⟩
  else if s.isZero then (if v.isZero then ⟨.nan, flagNV⟩ else ⟨.inf v.signBit, flagDZ⟩)
  else v.div s

def quantLanes (x : VArgs) : Nat × Word :=
  mapLanes x.n (fmtBits x.mode.otype) fun i =>
    let q := scaleDiv (elemValue x.T (x.elem x.a i)) (scaleValue x.mode.ue (x.b.elem 8 (i / x.mode.blk)))
    addFlags (x.convertValue x.mode.otype i q.val none) q.flags

def dequantLanes (x : VArgs) : Nat × Word :=
  mapLanes x.n (fmtBits x.T) fun i =>
    let e := x.b.elem (fmtBits x.mode.otype) i
    let p := (elemValue x.mode.otype e).mul (scaleValue x.mode.ue (x.a.elem 8 (i / x.mode.blk)))
    addFlags (x.outF x.T i p) (ternFlag x.mode.otype e)

/-! ### Reductions (R254) and dot (R255) -/

def oneLane (r : Flagged Nat) : Nat × Word := (r.val, r.flags)

def lanesB (x : VArgs) : List Nat := (List.range x.n).map (x.elem x.b)

/-- A sum that is infinite gives that infinity, whatever `sat` says (R204, R254, R255); any other is delivered by `out`. -/
def sumOut (f : FloatFmt) (out : Num → Flagged Nat) (v : Flagged Num) : Flagged Nat :=
  match v.val with
  | .inf neg => ⟨f.infinity neg, v.flags⟩
  | y => addFlags (out y) v.flags

def rsumLane (x : VArgs) : Nat × Word :=
  match floatFmt x.T with
  | some f => oneLane (sumOut f (x.out x.T 0) (exactSum ((lanesB x).map (elemValue x.T)) x.rm))
  | none => oneLane (fitInt x.T ((lanesB x).foldl (fun s e => s + intValue x.T e) 0) x.mode.sat)

def foldPick (t : Nat) (isMax : Bool) : List Nat → Nat
  | [] => 0
  | [e] => if (elemValue t e).isNan then canonNan t else e
  | e :: r => pick t isMax e (foldPick t isMax r)

/-- `amax` (R254). Among signed integers with sat = 0 the most negative one, whose magnitude wraps, competes with its true
magnitude (DESIGN CHOICE, log entry 22). -/
def amaxLane (x : VArgs) : Nat × Word :=
  if isInt x.T then oneLane (fitInt x.T ((lanesB x).foldl (fun (m : Nat) e => max m (intValue x.T e).natAbs) 0 : Nat) x.mode.sat)
  else
    (foldPick x.T true ((lanesB x).map fun e => if (elemValue x.T e).isNan then canonNan x.T else e % 2 ^ (fmtBits x.T - 1)), 0)

/-- `dot` (R255). A product of 0 and an infinity sets NV unless an operand of the lane is NaN, as R246, R249 and R254 have it
(DEDUCED, log entry 22). -/
def dotLanes (x : VArgs) : Nat × Word :=
  let wb := fmtBits x.T
  let g := 32 / wb
  mapLanes (x.w / 32) 32 fun j =>
    let ks := upto (g * j) g
    if isInt x.T then
      fitInt cInt32 (ks.foldl (fun s k => s + intValue x.T (x.a.elem wb k) * intValue x.T (x.b.elem wb k)) (intValue cInt32 (x.c.elem 32 j))) x.mode.sat
    else
      let ps := ks.map fun k => (elemValue x.T (x.a.elem wb k)).mul (elemValue x.T (x.b.elem wb k))
      let c := elemValue cFp32 (x.c.elem 32 j)
      let nan := c.isNan || ks.any fun k => (elemValue x.T (x.a.elem wb k)).isNan || (elemValue x.T (x.b.elem wb k)).isNan
      let s := exactSum (c :: ps.map (·.val)) x.mode.rm
      addFlags (sumOut fp32 (fun v => fp32.out v x.mode.rm x.mode.sat) s) (if nan then 0 else ps.foldl (fun f p => f ||| p.flags) 0)

/-! ### Permutes (R256) and packing (R257) -/

def permute (g : VArgs → Nat → Nat) (x : VArgs) : Nat × Word := mapLanes x.n (fmtBits x.T) fun i => plainLane (g x i)

/-- Lane k of B's lanes followed by C's; 0 beyond them. -/
def VArgs.seq (x : VArgs) (k : Nat) : Nat :=
  if k < x.n then x.elem x.b k else if k < 2 * x.n then x.elem x.c (k - x.n) else 0

/-- One element packed: as `cvt` converts it; to a scale format, to which R251 converts nothing, a free value (log entry
54). -/
def packLane (x : VArgs) (i e : Nat) : Flagged Nat :=
  if cvtOut x.mode.otype then x.convert x.T x.mode.otype i e
  else
    let v := Config.packScale x.T x.mode.otype e
    ⟨v.toNat % 256, BitVec.ofNat 64 (v.toNat / 256 % 64)⟩

/-- `pack` (R257). An element's lane index in R203 is its place in the result (DESIGN CHOICE, log entry 22). -/
def packLanesOp (x : VArgs) : Nat × Word :=
  mapLanes (2 * x.n) (fmtBits x.mode.otype) fun i => packLane x i (if i < x.n then x.elem x.a i else x.elem x.b (i - x.n))

/-- One element unpacked: a widening sets no flag but that of a TERN read, and leaves an infinity an infinity (R257). -/
def unpackLane (x : VArgs) (i e : Nat) : Flagged Nat :=
  match elemValue x.mode.otype e, floatFmt x.T with
  | .inf neg, some f => ⟨f.infinity neg, 0⟩
  | _, _ => ⟨(x.convert x.mode.otype x.T i e).val, ternFlag x.mode.otype e⟩

def unpackLanes (hi : Bool) (x : VArgs) : Nat × Word :=
  mapLanes x.n (fmtBits x.T) fun i => unpackLane x i (x.b.elem (fmtBits x.mode.otype) (if hi then i + x.n else i))

/-! ### The operations of Table 11.5 -/

def opVaAdd : VectorOp := { accept := vectorType, oaccept := none, lat := latOf 2 4, f := arith (fun a b _ => a + b) (fun rm a b _ => a.add b rm) }
def opVaSub : VectorOp := { accept := vectorType, oaccept := none, lat := latOf 2 4, f := arith (fun a b _ => a - b) (fun rm a b _ => a.add b.neg rm) }
def opVaMul : VectorOp := { accept := vectorType, oaccept := none, lat := latOf 2 4, f := arith (fun a b _ => a * b) (fun _ a b _ => a.mul b) }
def opVaFma : VectorOp := { accept := vectorType, oaccept := none, lat := fun _ => 5, f := arith (fun a b c => a * b + c) (fun rm a b c => a.fma b c rm) }
def opVaFms : VectorOp := { accept := vectorType, oaccept := none, lat := fun _ => 5, f := arith (fun a b c => a * b - c) (fun rm a b c => a.fma b c.neg rm) }
def opVaMin : VectorOp := { accept := vectorType, oaccept := none, lat := latOf 2 4, f := pattern fun t a b _ => plainLane (pick t false a b) }
def opVaMax : VectorOp := { accept := vectorType, oaccept := none, lat := latOf 2 4, f := pattern fun t a b _ => plainLane (pick t true a b) }
def opVaAbs : VectorOp := { accept := vectorType, oaccept := none, lat := fun _ => 2, f := fun x => pattern (fun t _ b _ => absLane x.mode.sat t b) x }
def opVaNeg : VectorOp := { accept := vectorType, oaccept := none, lat := fun _ => 2, f := fun x => pattern (fun t _ b _ => negLane x.mode.sat t b) x }
def opVaAnd : VectorOp := { accept := anyType, oaccept := none, lat := fun _ => 2, f := logic (· &&& ·) }
def opVaOr : VectorOp := { accept := anyType, oaccept := none, lat := fun _ => 2, f := logic (· ||| ·) }
def opVaXor : VectorOp := { accept := anyType, oaccept := none, lat := fun _ => 2, f := logic (· ^^^ ·) }
def opVaShl : VectorOp := { accept := intType, oaccept := none, lat := fun _ => 2, f := shiftLanes fun w a n => a <<< n % 2 ^ w }
def opVaShr : VectorOp := { accept := intType, oaccept := none, lat := fun _ => 2, f := shiftLanes fun _ a n => a >>> n }
def opVaSar : VectorOp := { accept := intType, oaccept := none, lat := fun _ => 2, f := shiftLanes fun w a n => wrap w (signed w a / 2 ^ n) }
def opVaCmpeq : VectorOp := { accept := vectorType, oaccept := none, lat := fun _ => 2, f := compare fun c => c == 0 }
def opVaCmplt : VectorOp := { accept := vectorType, oaccept := none, lat := fun _ => 2, f := compare fun c => decide (c < 0) }
def opVaCmple : VectorOp := { accept := vectorType, oaccept := none, lat := fun _ => 2, f := compare fun c => decide (c ≤ 0) }
def opVaSel : VectorOp := { accept := vectorType, oaccept := none, lat := fun _ => 2, f := pattern fun _ a b c => plainLane (if c = 0 then b else a) }
def opVaCvt : VectorOp := { accept := cvtIn, oaccept := some fun _ o => cvtOut o, lat := fun _ => 4, f := cvtLanes }
def opVaScale : VectorOp := { accept := fpType, oaccept := none, lat := fun _ => 4, f := scaleLanes }
def opVaQuant : VectorOp := { accept := halfType, oaccept := some fun _ o => quantOut o, lat := fun _ => 4, f := quantLanes }
def opVaDequant : VectorOp := { accept := halfType, oaccept := some fun _ o => dequantIn o, lat := fun _ => 4, f := dequantLanes }
def opVaAmax : VectorOp := { accept := vectorType, oaccept := none, lat := fun _ => 6, f := amaxLane }
def opVaRsum : VectorOp := { accept := vectorType, oaccept := none, lat := fun _ => 6, f := rsumLane }
def opVaRmax : VectorOp := { accept := vectorType, oaccept := none, lat := fun _ => 6, f := fun x => (foldPick x.T true (lanesB x), 0) }
def opVaRmin : VectorOp := { accept := vectorType, oaccept := none, lat := fun _ => 6, f := fun x => (foldPick x.T false (lanesB x), 0) }
def opVaDot : VectorOp := { accept := dotType, oaccept := none, lat := fun _ => 5, f := dotLanes }
def opVaBcast : VectorOp := { accept := vectorType, oaccept := none, lat := fun _ => 3, f := permute fun x _ => let k := x.elem x.a 0; if k < x.n then x.elem x.b k else 0 }
def opVaPerm : VectorOp := { accept := vectorType, oaccept := none, lat := fun _ => 3, f := permute fun x i => x.seq (x.elem x.a i) }
def opVaZip : VectorOp := { accept := vectorType, oaccept := none, lat := fun _ => 3, f := permute fun x i => if i % 2 = 0 then x.elem x.a (i / 2) else x.elem x.b (i / 2) }
def opVaUnzip : VectorOp := { accept := vectorType, oaccept := none, lat := fun _ => 3, f := permute fun x i => if i < x.n / 2 then x.elem x.b (2 * i) else x.elem x.b (2 * (i - x.n / 2) + 1) }
def opVaSlide : VectorOp := { accept := vectorType, oaccept := none, lat := fun _ => 3, f := permute fun x i => x.seq (i + x.elem x.a 0) }
def opVaPack : VectorOp := { accept := wideType, oaccept := some halfOf, lat := fun _ => 3, f := packLanesOp }
def opVaUnpackLo : VectorOp := { accept := wideType, oaccept := some halfOf, lat := fun _ => 3, f := unpackLanes false }
def opVaUnpackHi : VectorOp := { accept := wideType, oaccept := some halfOf, lat := fun _ => 3, f := unpackLanes true }
def opVaClamp : VectorOp := { accept := vectorType, oaccept := none, lat := latOf 2 4, f := pattern fun t a b c => plainLane (pick t false (pick t true b a) c) }
def opVaRound : VectorOp := { accept := fpType, oaccept := none, lat := fun _ => 4, f := fun x => mapLanes x.n (fmtBits x.T) (roundLane x) }
def opVaMov : VectorOp := { accept := anyType, oaccept := none, lat := fun _ => 2, f := logic fun _ b => b }

/-! ### Their meanings -/

def execVaAdd (m : Vm) (s : State) : Host.Outcome State Fault Refusal := runVm m 0x280 (vector opVaAdd) s
def execVaSub (m : Vm) (s : State) : Host.Outcome State Fault Refusal := runVm m 0x281 (vector opVaSub) s
def execVaMul (m : Vm) (s : State) : Host.Outcome State Fault Refusal := runVm m 0x282 (vector opVaMul) s
def execVaFma (m : Vm) (s : State) : Host.Outcome State Fault Refusal := runVm m 0x283 (vector opVaFma) s
def execVaFms (m : Vm) (s : State) : Host.Outcome State Fault Refusal := runVm m 0x284 (vector opVaFms) s
def execVaMin (m : Vm) (s : State) : Host.Outcome State Fault Refusal := runVm m 0x285 (vector opVaMin) s
def execVaMax (m : Vm) (s : State) : Host.Outcome State Fault Refusal := runVm m 0x286 (vector opVaMax) s
def execVaAbs (m : Vm) (s : State) : Host.Outcome State Fault Refusal := runVm m 0x287 (vector opVaAbs) s
def execVaNeg (m : Vm) (s : State) : Host.Outcome State Fault Refusal := runVm m 0x288 (vector opVaNeg) s
def execVaAnd (m : Vm) (s : State) : Host.Outcome State Fault Refusal := runVm m 0x289 (vector opVaAnd) s
def execVaOr (m : Vm) (s : State) : Host.Outcome State Fault Refusal := runVm m 0x28A (vector opVaOr) s
def execVaXor (m : Vm) (s : State) : Host.Outcome State Fault Refusal := runVm m 0x28B (vector opVaXor) s
def execVaShl (m : Vm) (s : State) : Host.Outcome State Fault Refusal := runVm m 0x28C (vector opVaShl) s
def execVaShr (m : Vm) (s : State) : Host.Outcome State Fault Refusal := runVm m 0x28D (vector opVaShr) s
def execVaSar (m : Vm) (s : State) : Host.Outcome State Fault Refusal := runVm m 0x28E (vector opVaSar) s
def execVaCmpeq (m : Vm) (s : State) : Host.Outcome State Fault Refusal := runVm m 0x28F (vector opVaCmpeq) s
def execVaCmplt (m : Vm) (s : State) : Host.Outcome State Fault Refusal := runVm m 0x290 (vector opVaCmplt) s
def execVaCmple (m : Vm) (s : State) : Host.Outcome State Fault Refusal := runVm m 0x291 (vector opVaCmple) s
def execVaSel (m : Vm) (s : State) : Host.Outcome State Fault Refusal := runVm m 0x292 (vector opVaSel) s
def execVaCvt (m : Vm) (s : State) : Host.Outcome State Fault Refusal := runVm m 0x293 (vector opVaCvt) s
def execVaScale (m : Vm) (s : State) : Host.Outcome State Fault Refusal := runVm m 0x294 (vector opVaScale) s
def execVaQuant (m : Vm) (s : State) : Host.Outcome State Fault Refusal := runVm m 0x295 (vector opVaQuant) s
def execVaDequant (m : Vm) (s : State) : Host.Outcome State Fault Refusal := runVm m 0x296 (vector opVaDequant) s
def execVaAmax (m : Vm) (s : State) : Host.Outcome State Fault Refusal := runVm m 0x297 (vector opVaAmax) s
def execVaRsum (m : Vm) (s : State) : Host.Outcome State Fault Refusal := runVm m 0x298 (vector opVaRsum) s
def execVaRmax (m : Vm) (s : State) : Host.Outcome State Fault Refusal := runVm m 0x299 (vector opVaRmax) s
def execVaRmin (m : Vm) (s : State) : Host.Outcome State Fault Refusal := runVm m 0x29A (vector opVaRmin) s
def execVaDot (m : Vm) (s : State) : Host.Outcome State Fault Refusal := runVm m 0x29B (vector opVaDot) s
def execVaBcast (m : Vm) (s : State) : Host.Outcome State Fault Refusal := runVm m 0x29C (vector opVaBcast) s
def execVaPerm (m : Vm) (s : State) : Host.Outcome State Fault Refusal := runVm m 0x29D (vector opVaPerm) s
def execVaZip (m : Vm) (s : State) : Host.Outcome State Fault Refusal := runVm m 0x29E (vector opVaZip) s
def execVaUnzip (m : Vm) (s : State) : Host.Outcome State Fault Refusal := runVm m 0x29F (vector opVaUnzip) s
def execVaSlide (m : Vm) (s : State) : Host.Outcome State Fault Refusal := runVm m 0x2A0 (vector opVaSlide) s
def execVaPack (m : Vm) (s : State) : Host.Outcome State Fault Refusal := runVm m 0x2A1 (vector opVaPack) s
def execVaUnpackLo (m : Vm) (s : State) : Host.Outcome State Fault Refusal := runVm m 0x2A2 (vector opVaUnpackLo) s
def execVaUnpackHi (m : Vm) (s : State) : Host.Outcome State Fault Refusal := runVm m 0x2A3 (vector opVaUnpackHi) s
def execVaClamp (m : Vm) (s : State) : Host.Outcome State Fault Refusal := runVm m 0x2A4 (vector opVaClamp) s
def execVaRound (m : Vm) (s : State) : Host.Outcome State Fault Refusal := runVm m 0x2A5 (vector opVaRound) s
def execVaMov (m : Vm) (s : State) : Host.Outcome State Fault Refusal := runVm m 0x2A6 (vector opVaMov) s

end Sys2Proof.Machine
end

