-- ==== Sys2Proof/Machine/Special.lean ====
section
/-!
DEFINITION. The special-function unit (R259 to R263): the correctly rounded rcp, sqrt and div, the special values of
Table 12.3, the exact cases of Table 12.2, and elsewhere an FP32 value within the bound of Table 12.2 that the free
functions `Config.sfApprox` and, where R262 asks for a non-decreasing result, `Config.sfThreshold` pick.
-/

namespace Sys2Proof.Machine

def numOne : Num := .ofInt 1

/-- The bound of Table 12.2 in units of the FP32 quantum `q`. -/
def sfBound (port : Nat) (q : Int) : Nat :=
  if port = 0x30C ∨ port = 0x30D then max 3 (2 ^ (-140 - q).toNat)
  else if port = 0x308 ∨ port = 0x309 ∨ port = 0x30A ∨ port = 0x30B ∨ port = 0x30E ∨ port = 0x30F then 2
  else 1

/-- Functions whose magnitude never exceeds 1. -/
def sfAtMostOne (port : Nat) : Bool := port == 0x30A || port == 0x30B || port == 0x30E

/-- The exact value of a fixed-point result, with a sticky bit: no value approximated here is a dyadic number. -/
def fxExact (v : Int) : Ex := { neg := decide (v < 0), n := 2 * v.natAbs + 1, d := 1, e := -501 }

/-- The functions delivered non-decreasing (R262). -/
def sfMonotone (port : Nat) : Bool :=
  port == 0x300 || port == 0x301 || port == 0x302 || port == 0x303 || port == 0x30A || port == 0x30B || port == 0x30E || port == 0x30F

/-- The place of an FP32 pattern that is not a NaN in the order of values. -/
def fp32Rank (p : Nat) : Int := if p < 2 ^ 31 then p else -((p - 2 ^ 31 : Nat) : Int)

/-- The magnitudes, in multiples of half the quantum, of the exact cases of Table 12.2 on either side of an operand of `exp`,
`exp2` or `log2`: the function keeps its order beside them. -/
def sfBetween (port : Nat) (x : Ex) (q m : Int) : Int :=
  let pow := fun (k : Int) => ((2 ^ (k + 1 - q).toNat : Nat) : Int)
  if port = 0x300 then (if x.neg then min (pow 0) m else max (pow 0) m)
  else if port = 0x301 then
    let k := x.toFx / fxOne
    max (if -149 ≤ k then pow k else 0) (if -149 ≤ k + 1 ∧ k < 127 then min (pow (k + 1)) m else m)
  else if port = 0x303 then
    let k := x.log2
    if 0 ≤ k then max (k * pow 0) (min ((k + 1) * pow 0) m) else max (-(k + 1) * pow 0) (min (-k * pow 0) m)
  else m

/-- A multiple `m` of half the quantum kept to what the function can reach: finite, not above 1 where it never is, on the
side of 1/2 on which a sigmoid lies and of the exact cases of `exp`, `exp2` and `log2`, so that these keep their place in the
order, and from `exp` of -110 on no less than the least subnormal (Table 12.4). The bounds of sin, gelu and silu reach across
zero. -/
def sfClamp (port b : Nat) (q m : Int) : Int :=
  let half : Int := ((2 ^ (-q).toNat : Nat) : Int)
  let one : Int := ((2 ^ (1 - q).toNat : Nat) : Int)
  let m := match fp32.decode b with | .fin x => sfBetween port x q m | _ => m
  let m := if port = 0x308 ∨ port = 0x30C ∨ port = 0x30D then m else max 0 m
  let m := if port = 0x300 ∧ fp32Rank 0xC2DC0000 ≤ fp32Rank b then max 2 m else m
  let m := if port = 0x30B then (if b < 2 ^ 31 then max half m else min half m) else m
  let m := if sfAtMostOne port then min one m else m
  if fp32.tooLarge m.natAbs (q - 1) then 2 * fp32.maxM else m

/-- FP32 values in multiples of half the quantum `q`: below a power of two the spacing is half of that above it, and above
the next one it is twice as wide. -/
def sfRepresents (q m : Int) : Bool :=
  if m.natAbs < 2 ^ 24 then decide (-149 < q) || m % 2 == 0 else if m.natAbs ≤ 2 ^ 25 then m % 2 == 0 else m % 4 == 0

/-- The FP32 pattern at a place in the order of values. -/
def fp32At (r : Int) : Nat := if 0 ≤ r then r.toNat else 2 ^ 31 + (-r).toNat

/-- An operand whose exact value lies in the last quantum below the power of two 2^24 × 2^(q - 1). -/
def sfJustBelow (port b : Nat) (q : Int) : Bool :=
  match fp32.decode b with
  | .fin x => if x.n = 0 then false else let v := fxExact (fxFunction port x); fp32.quantum v == q - 1 && (v.scaled (q - 1)).1 == 2 ^ 24 - 1
  | _ => false

/-- Under a bound of two units a value just above a power of two reaches one FP32 value lower than a value just below it does: a
function in order does not deliver it, if one of the operands next on the side of zero (three hold the last quantum) has such
a value. -/
def sfDrops (port b : Nat) (neg : Bool) (q : Int) (k h : Nat) (m : Int) : Bool :=
  sfMonotone port && sfBound port q == 2 && k == 2 ^ 23 && h == 0 && m == 2 ^ 24 - 3 &&
    [1, 2, 3].any fun (i : Int) => sfJustBelow port (fp32At (fp32Rank b - if neg then -i else i)) q

/-- The magnitudes of FP32 values within the bound of Table 12.2 around an exact magnitude, rising, in multiples of half its
quantum. `k` is its quotient by the quantum and `h` the half of the remainder. -/
def sfCandidates (port b : Nat) (neg : Bool) (q : Int) (k h : Nat) : List Int :=
  let u := sfBound port q
  let l := (List.range (4 * u)).map fun (i : Nat) => (2 * k + h + 1 : Int) - 2 * u + i
  (l.filter fun m => sfRepresents q m && !sfDrops port b neg q k h m).map (sfClamp port b q)

/-- The choice of a function that need not be monotone: any value within the bound (log entry 9). -/
def sfChoice (port b : Nat) (l : List Int) : Int := l.getD (Config.sfApprox port b % l.length) 0

/-- The choice of a non-decreasing function (log entry 9): of the FP32 values within the bound, in the order of their
values, the greatest whose threshold the operand has reached. Since both ends of the bound rise with the operand, each such
choice is non-decreasing, and each non-decreasing function within the bound is the choice for some thresholds. -/
def sfOrdered (port b : Nat) (neg : Bool) (q : Int) (l : List Int) : Int :=
  let cand := if neg then l.reverse else l
  let pat := fun (m : Int) => (fp32.roundEx { neg := neg, n := m.natAbs, d := 1, e := q - 1 } 1 false).val
  ((cand.filter fun m => decide (Config.sfThreshold port (pat m) ≤ fp32Rank b)).getLast?).getD (cand.headD 0)

/-- A value above the largest finite FP32 value. -/
def beyondFp32 (k : Nat) (q : Int) : Bool := fp32.tooLarge k q || (k == fp32.maxM && q == fp32.maxE)

/-- Delivery of an inexact result with exact value `v`: FP32 as chosen, narrow types rounded from it. A value above the largest
finite one by less than half a unit, such as `softplus` of that, rounds to it and does not overflow (DEDUCED, log entry 9). -/
def sfDeliver (x : VArgs) (port lane bpat : Nat) (v : Ex) : Flagged Nat :=
  let q := fp32.quantum v
  let (k, r, den) := v.scaled q
  let tooBig := beyondFp32 k q
  let y : Flagged Nat := if tooBig then fp32.roundEx v 0 (x.T == cFp32 && x.mode.sat) else
      let l := sfCandidates port bpat v.neg q k (if den ≤ 2 * r then 1 else 0)
      let m := if sfMonotone port then sfOrdered port bpat v.neg q l else sfChoice port bpat l
      fp32.roundEx { neg := if m < 0 then !v.neg else v.neg, n := m.natAbs, d := 1, e := q - 1 } 1 false
  let bias := match floatFmt x.T with | some f => f.bias | none => 0
  let tiny := flagIf (decide (v.log2 < 1 - bias)) flagUF
  if x.T = cFp32 then ⟨y.val, flagNX ||| tiny ||| (y.flags &&& (flagOF ||| flagSAT))⟩
  else
    let r := x.out x.T lane (fp32.decode y.val)
    ⟨r.val, flagNX ||| tiny ||| (y.flags &&& flagOF) ||| (r.flags &&& (flagOF ||| flagSAT))⟩

/-- log2 of a positive dyadic value that is a power of two. -/
def powerOf? (x : Ex) : Option Int := if x.n = 2 ^ x.n.log2 then some (x.e + x.n.log2) else none

/-- The integer a dyadic value is, if it is one. -/
def integral? (x : Ex) : Option Int := let t := x.toInt 1; if t.2 then none else some t.1

/-- Special values (Table 12.3) and exact cases (Table 12.2). -/
def sfExactCase (port : Nat) (b : Num) : Option (Flagged Num) :=
  let val := fun (v : Num) => some ⟨v, 0⟩
  match b with
  | .nan => val .nan
  | .inf neg =>
    if port = 0x300 ∨ port = 0x301 ∨ port = 0x30F then val (if neg then .zero else .inf false)
    else if port = 0x302 ∨ port = 0x303 then (if neg then some ⟨.nan, flagNV⟩ else val (.inf false))
    else if port = 0x305 then (if neg then some ⟨.nan, flagNV⟩ else val .zero)
    else if port = 0x308 ∨ port = 0x309 then some ⟨.nan, flagNV⟩
    else if port = 0x30A ∨ port = 0x30E then val (if neg then .ofInt (-1) else numOne)
    else if port = 0x30B then val (if neg then .zero else numOne)
    else val (if neg then Num.zero.neg else .inf false)
  | .fin x =>
    if x.n = 0 then
      if port = 0x300 ∨ port = 0x301 ∨ port = 0x309 then val numOne
      else if port = 0x302 ∨ port = 0x303 then some ⟨.inf true, flagDZ⟩
      else if port = 0x305 then some ⟨.inf x.neg, flagDZ⟩
      else if port = 0x30B then val (.ofDyadic false 1 (-1))
      else if port = 0x30F then none
      else val b
    else if (port = 0x302 ∨ port = 0x303 ∨ port = 0x305) ∧ x.neg then some ⟨.nan, flagNV⟩
    else if port = 0x301 then
      match integral? x with
      | some k => if -149 ≤ k ∧ k ≤ 127 then val (.ofDyadic false 1 k) else none
      | none => none
    else if port = 0x302 then (if powerOf? x = some 0 then val .zero else none)
    else if port = 0x303 then (powerOf? x).bind fun k => val (.ofInt k)
    else if port = 0x305 then (powerOf? x).bind fun k => if k % 2 = 0 then val (.ofDyadic false 1 (-(k / 2))) else none
    else none

/-- One lane of an approximated operation. An infinite result of Table 12.3 on FP32 saturates with mode.sat as an infinite input of
Table 9.6 does (DEDUCED, log entry 9). -/
def sfApproxLane (port : Nat) (x : VArgs) (i : Nat) : Flagged Nat :=
  let b := elemValue x.T (x.elem x.b i)
  match sfExactCase port b with
  | some r => x.outF x.T i r
  | none =>
    match b with
    | .fin v => sfDeliver x port i (fp32.out b 0 false).val (fxExact (fxFunction port v))
    | _ => plainLane 0

def sfApprox (port : Nat) (x : VArgs) : Nat × Word := mapLanes x.n (fmtBits x.T) (sfApproxLane port x)

/-- Square root, exact until rounded: -0 stays -0, a negative value is invalid (Table 12.3). -/
def sqrtNum : Num → Flagged Num
  | .nan => ⟨.nan, 0⟩
  | .inf neg => if neg then ⟨.nan, flagNV⟩ else ⟨.inf false, 0⟩
  | .fin x => if x.n = 0 then ⟨.fin x, 0⟩ else if x.neg then ⟨.nan, flagNV⟩ else ⟨.fin x.sqrt, 0⟩

/-- A correctly rounded operation (R261). -/
def sfExactOp (f : Num → Num → Flagged Num) (x : VArgs) : Nat × Word :=
  mapLanes x.n (fmtBits x.T) fun i => x.outF x.T i (f (elemValue x.T (x.elem x.a i)) (elemValue x.T (x.elem x.b i)))

/-- An SF trigger (R260, R261). -/
def special (lat : Nat) (f : VArgs → Nat × Word) : Body := fun x s => do
  let k := s.core x.c
  let _ ← needFolios k [32, 33]
  let m := Mode.of (k.arch.config 0x10C)
  if badCode m.type then .error (stop cIllegalMode 1 x.bus)
  else if !halfType m.type then .error (stop cIllegalMode 2 x.bus)
  else
    let r := f { mode := m, unit := x.bus, count := k.arch.count, w := x.w, a := k.arch.latch 0x10B, b := x.b, c := .zero }
    due x s lat (BitVec.ofNat 1024 r.1) r.2

/-! ### Their meanings -/

def opSfExp : Body := special 8 (sfApprox 0x300)
def opSfExp2 : Body := special 8 (sfApprox 0x301)
def opSfLn : Body := special 8 (sfApprox 0x302)
def opSfLog2 : Body := special 8 (sfApprox 0x303)
def opSfRcp : Body := special 8 (sfExactOp fun _ b => numOne.div b)
def opSfRsqrt : Body := special 8 (sfApprox 0x305)
def opSfSqrt : Body := special 8 (sfExactOp fun _ b => sqrtNum b)
def opSfDiv : Body := special 8 (sfExactOp fun a b => a.div b)
def opSfSin : Body := special 12 (sfApprox 0x308)
def opSfCos : Body := special 12 (sfApprox 0x309)
def opSfTanh : Body := special 12 (sfApprox 0x30A)
def opSfSigmoid : Body := special 12 (sfApprox 0x30B)
def opSfGelu : Body := special 12 (sfApprox 0x30C)
def opSfSilu : Body := special 12 (sfApprox 0x30D)
def opSfErf : Body := special 12 (sfApprox 0x30E)
def opSfSoftplus : Body := special 12 (sfApprox 0x30F)

def execSfExp (m : Vm) (s : State) : Host.Outcome State Fault Refusal := runVm m 0x300 opSfExp s
def execSfExp2 (m : Vm) (s : State) : Host.Outcome State Fault Refusal := runVm m 0x301 opSfExp2 s
def execSfLn (m : Vm) (s : State) : Host.Outcome State Fault Refusal := runVm m 0x302 opSfLn s
def execSfLog2 (m : Vm) (s : State) : Host.Outcome State Fault Refusal := runVm m 0x303 opSfLog2 s
def execSfRcp (m : Vm) (s : State) : Host.Outcome State Fault Refusal := runVm m 0x304 opSfRcp s
def execSfRsqrt (m : Vm) (s : State) : Host.Outcome State Fault Refusal := runVm m 0x305 opSfRsqrt s
def execSfSqrt (m : Vm) (s : State) : Host.Outcome State Fault Refusal := runVm m 0x306 opSfSqrt s
def execSfDiv (m : Vm) (s : State) : Host.Outcome State Fault Refusal := runVm m 0x307 opSfDiv s
def execSfSin (m : Vm) (s : State) : Host.Outcome State Fault Refusal := runVm m 0x308 opSfSin s
def execSfCos (m : Vm) (s : State) : Host.Outcome State Fault Refusal := runVm m 0x309 opSfCos s
def execSfTanh (m : Vm) (s : State) : Host.Outcome State Fault Refusal := runVm m 0x30A opSfTanh s
def execSfSigmoid (m : Vm) (s : State) : Host.Outcome State Fault Refusal := runVm m 0x30B opSfSigmoid s
def execSfGelu (m : Vm) (s : State) : Host.Outcome State Fault Refusal := runVm m 0x30C opSfGelu s
def execSfSilu (m : Vm) (s : State) : Host.Outcome State Fault Refusal := runVm m 0x30D opSfSilu s
def execSfErf (m : Vm) (s : State) : Host.Outcome State Fault Refusal := runVm m 0x30E opSfErf s
def execSfSoftplus (m : Vm) (s : State) : Host.Outcome State Fault Refusal := runVm m 0x30F opSfSoftplus s

end Sys2Proof.Machine
end

