-- ==== Sys2Proof/Machine/Triggers.lean ====
section
/-!
DEFINITION. The bodies that the moves of a bundle and its address slot run at steps 5 and 6 of R183: the same bodies
that the meanings of the single instructions call.
-/

namespace Sys2Proof.Machine

/-- A trigger move of a bundle: its bus, source, keep, port, width and body. -/
structure Trigger where
  bus : Nat
  src : Nat
  keep : Bool
  port : Nat
  width : Nat
  body : Body

def Trigger.ofMv (m : Mv) (port : Nat) (body : Body) : Trigger :=
  { bus := m.bus.val, src := m.src.toNat, keep := m.keep, port := port, width := 1024, body := body }

def Trigger.ofVm (m : Vm) (port : Nat) (body : Body) : Trigger :=
  { bus := m.bus.val, src := m.src.toNat, keep := false, port := port, width := widthBits m.w, body := body }

/-- The trigger of an instruction; none for a move into a register, an address slot, a bank command or an event. -/
def triggerOf : Instr → Option Trigger
  | .saAdd m => some (.ofMv m 0x200 (scalar opSaAdd))
  | .saSub m => some (.ofMv m 0x201 (scalar opSaSub))
  | .saMul m => some (.ofMv m 0x202 (scalar opSaMul))
  | .saMulh m => some (.ofMv m 0x203 (scalar opSaMulh))
  | .saMulhu m => some (.ofMv m 0x204 (scalar opSaMulhu))
  | .saDiv m => some (.ofMv m 0x205 (scalar opSaDiv))
  | .saDivu m => some (.ofMv m 0x206 (scalar opSaDivu))
  | .saRem m => some (.ofMv m 0x207 (scalar opSaRem))
  | .saRemu m => some (.ofMv m 0x208 (scalar opSaRemu))
  | .saAnd m => some (.ofMv m 0x209 (scalar opSaAnd))
  | .saOr m => some (.ofMv m 0x20A (scalar opSaOr))
  | .saXor m => some (.ofMv m 0x20B (scalar opSaXor))
  | .saAndn m => some (.ofMv m 0x20C (scalar opSaAndn))
  | .saShl m => some (.ofMv m 0x20D (scalar opSaShl))
  | .saShr m => some (.ofMv m 0x20E (scalar opSaShr))
  | .saSar m => some (.ofMv m 0x20F (scalar opSaSar))
  | .saRotl m => some (.ofMv m 0x210 (scalar opSaRotl))
  | .saMin m => some (.ofMv m 0x211 (scalar opSaMin))
  | .saMax m => some (.ofMv m 0x212 (scalar opSaMax))
  | .saMinu m => some (.ofMv m 0x213 (scalar opSaMinu))
  | .saMaxu m => some (.ofMv m 0x214 (scalar opSaMaxu))
  | .saSeq m => some (.ofMv m 0x215 (scalar opSaSeq))
  | .saSne m => some (.ofMv m 0x216 (scalar opSaSne))
  | .saSlt m => some (.ofMv m 0x217 (scalar opSaSlt))
  | .saSltu m => some (.ofMv m 0x218 (scalar opSaSltu))
  | .saSle m => some (.ofMv m 0x219 (scalar opSaSle))
  | .saSleu m => some (.ofMv m 0x21A (scalar opSaSleu))
  | .saSel m => some (.ofMv m 0x21B (scalar opSaSel))
  | .saPass m => some (.ofMv m 0x21C (scalar opSaPass))
  | .saClz m => some (.ofMv m 0x21D (scalar opSaClz))
  | .saCtz m => some (.ofMv m 0x21E (scalar opSaCtz))
  | .saPopc m => some (.ofMv m 0x21F (scalar opSaPopc))
  | .saSext8 m => some (.ofMv m 0x220 (scalar opSaSext8))
  | .saSext16 m => some (.ofMv m 0x221 (scalar opSaSext16))
  | .saSext32 m => some (.ofMv m 0x222 (scalar opSaSext32))
  | .saZext8 m => some (.ofMv m 0x223 (scalar opSaZext8))
  | .saZext16 m => some (.ofMv m 0x224 (scalar opSaZext16))
  | .saZext32 m => some (.ofMv m 0x225 (scalar opSaZext32))
  | .saBswap m => some (.ofMv m 0x226 (scalar opSaBswap))
  | .saMadd m => some (.ofMv m 0x227 (scalar opSaMadd))
  | .saFaddD m => some (.ofMv m 0x228 (scalar opSaFaddD))
  | .saFsubD m => some (.ofMv m 0x229 (scalar opSaFsubD))
  | .saFmulD m => some (.ofMv m 0x22A (scalar opSaFmulD))
  | .saFmaddD m => some (.ofMv m 0x22B (scalar opSaFmaddD))
  | .saFdivD m => some (.ofMv m 0x22C (scalar opSaFdivD))
  | .saFminD m => some (.ofMv m 0x22D (scalar opSaFminD))
  | .saFmaxD m => some (.ofMv m 0x22E (scalar opSaFmaxD))
  | .saFeqD m => some (.ofMv m 0x22F (scalar opSaFeqD))
  | .saFltD m => some (.ofMv m 0x230 (scalar opSaFltD))
  | .saFleD m => some (.ofMv m 0x231 (scalar opSaFleD))
  | .saCvtDi m => some (.ofMv m 0x232 (scalar opSaCvtDi))
  | .saCvtId m => some (.ofMv m 0x233 (scalar opSaCvtId))
  | .saCvtSd m => some (.ofMv m 0x234 (scalar opSaCvtSd))
  | .saCvtDs m => some (.ofMv m 0x235 (scalar opSaCvtDs))
  | .vaAdd m => some (.ofVm m 0x280 (vector opVaAdd))
  | .vaSub m => some (.ofVm m 0x281 (vector opVaSub))
  | .vaMul m => some (.ofVm m 0x282 (vector opVaMul))
  | .vaFma m => some (.ofVm m 0x283 (vector opVaFma))
  | .vaFms m => some (.ofVm m 0x284 (vector opVaFms))
  | .vaMin m => some (.ofVm m 0x285 (vector opVaMin))
  | .vaMax m => some (.ofVm m 0x286 (vector opVaMax))
  | .vaAbs m => some (.ofVm m 0x287 (vector opVaAbs))
  | .vaNeg m => some (.ofVm m 0x288 (vector opVaNeg))
  | .vaAnd m => some (.ofVm m 0x289 (vector opVaAnd))
  | .vaOr m => some (.ofVm m 0x28A (vector opVaOr))
  | .vaXor m => some (.ofVm m 0x28B (vector opVaXor))
  | .vaShl m => some (.ofVm m 0x28C (vector opVaShl))
  | .vaShr m => some (.ofVm m 0x28D (vector opVaShr))
  | .vaSar m => some (.ofVm m 0x28E (vector opVaSar))
  | .vaCmpeq m => some (.ofVm m 0x28F (vector opVaCmpeq))
  | .vaCmplt m => some (.ofVm m 0x290 (vector opVaCmplt))
  | .vaCmple m => some (.ofVm m 0x291 (vector opVaCmple))
  | .vaSel m => some (.ofVm m 0x292 (vector opVaSel))
  | .vaCvt m => some (.ofVm m 0x293 (vector opVaCvt))
  | .vaScale m => some (.ofVm m 0x294 (vector opVaScale))
  | .vaQuant m => some (.ofVm m 0x295 (vector opVaQuant))
  | .vaDequant m => some (.ofVm m 0x296 (vector opVaDequant))
  | .vaAmax m => some (.ofVm m 0x297 (vector opVaAmax))
  | .vaRsum m => some (.ofVm m 0x298 (vector opVaRsum))
  | .vaRmax m => some (.ofVm m 0x299 (vector opVaRmax))
  | .vaRmin m => some (.ofVm m 0x29A (vector opVaRmin))
  | .vaDot m => some (.ofVm m 0x29B (vector opVaDot))
  | .vaBcast m => some (.ofVm m 0x29C (vector opVaBcast))
  | .vaPerm m => some (.ofVm m 0x29D (vector opVaPerm))
  | .vaZip m => some (.ofVm m 0x29E (vector opVaZip))
  | .vaUnzip m => some (.ofVm m 0x29F (vector opVaUnzip))
  | .vaSlide m => some (.ofVm m 0x2A0 (vector opVaSlide))
  | .vaPack m => some (.ofVm m 0x2A1 (vector opVaPack))
  | .vaUnpackLo m => some (.ofVm m 0x2A2 (vector opVaUnpackLo))
  | .vaUnpackHi m => some (.ofVm m 0x2A3 (vector opVaUnpackHi))
  | .vaClamp m => some (.ofVm m 0x2A4 (vector opVaClamp))
  | .vaRound m => some (.ofVm m 0x2A5 (vector opVaRound))
  | .vaMov m => some (.ofVm m 0x2A6 (vector opVaMov))
  | .sfExp m => some (.ofVm m 0x300 opSfExp)
  | .sfExp2 m => some (.ofVm m 0x301 opSfExp2)
  | .sfLn m => some (.ofVm m 0x302 opSfLn)
  | .sfLog2 m => some (.ofVm m 0x303 opSfLog2)
  | .sfRcp m => some (.ofVm m 0x304 opSfRcp)
  | .sfRsqrt m => some (.ofVm m 0x305 opSfRsqrt)
  | .sfSqrt m => some (.ofVm m 0x306 opSfSqrt)
  | .sfDiv m => some (.ofVm m 0x307 opSfDiv)
  | .sfSin m => some (.ofVm m 0x308 opSfSin)
  | .sfCos m => some (.ofVm m 0x309 opSfCos)
  | .sfTanh m => some (.ofVm m 0x30A opSfTanh)
  | .sfSigmoid m => some (.ofVm m 0x30B opSfSigmoid)
  | .sfGelu m => some (.ofVm m 0x30C opSfGelu)
  | .sfSilu m => some (.ofVm m 0x30D opSfSilu)
  | .sfErf m => some (.ofVm m 0x30E opSfErf)
  | .sfSoftplus m => some (.ofVm m 0x30F opSfSoftplus)
  | .mLdv m => some (.ofMv m 0x340 (load 128 0))
  | .mLdvh m => some (.ofMv m 0x341 (load 64 0))
  | .mLdvq m => some (.ofMv m 0x342 (load 32 0))
  | .mLd64 m => some (.ofMv m 0x343 (load 8 0))
  | .mLd32 m => some (.ofMv m 0x344 (load 4 32))
  | .mLd32u m => some (.ofMv m 0x345 (load 4 0))
  | .mLd16 m => some (.ofMv m 0x346 (load 2 16))
  | .mLd16u m => some (.ofMv m 0x347 (load 2 0))
  | .mLd8 m => some (.ofMv m 0x348 (load 1 8))
  | .mLd8u m => some (.ofMv m 0x349 (load 1 0))
  | .mStv m => some (.ofMv m 0x34A (store 128))
  | .mStvh m => some (.ofMv m 0x34B (store 64))
  | .mStvq m => some (.ofMv m 0x34C (store 32))
  | .mSt64 m => some (.ofMv m 0x34D (store 8))
  | .mSt32 m => some (.ofMv m 0x34E (store 4))
  | .mSt16 m => some (.ofMv m 0x34F (store 2))
  | .mSt8 m => some (.ofMv m 0x350 (store 1))
  | .mXlt m => some (.ofMv m 0x351 xlt)
  | .mHrel m => some (.ofMv m 0x352 hrel)
  | .mTlook m => some (.ofMv m 0x353 tlook)
  | .mTins m => some (.ofMv m 0x354 tins)
  | .mTdel m => some (.ofMv m 0x355 tdel)
  | .mSwpost m => some (.ofMv m 0x356 swpost)
  | .mSwadd m => some (.ofMv m 0x357 swadd)
  | .mSwrd m => some (.ofMv m 0x358 swrd)
  | .mSwwait m => some (.ofMv m 0x359 swwait)
  | .mJwait m => some (.ofMv m 0x35A jwait)
  | .mJset m => some (.ofMv m 0x35B jset)
  | .mAadd m => some (.ofMv m 0x35C atomic)
  | .mAmax m => some (.ofMv m 0x35D atomic)
  | .mAmaxf m => some (.ofMv m 0x35E atomic)
  | .mAmin m => some (.ofMv m 0x35F atomic)
  | .mAxchg m => some (.ofMv m 0x360 atomic)
  | .mAcas m => some (.ofMv m 0x361 atomic)
  | .mAand m => some (.ofMv m 0x362 atomic)
  | .mAor m => some (.ofMv m 0x363 atomic)
  | .mPhase m => some (.ofMv m 0x364 phase)
  | .mXfence m => some (.ofMv m 0x365 xfence)
  | .mArd m => some (.ofMv m 0x366 atomic)
  | .meMm m => some (.ofMv m 0x380 meTrigger)
  | .meMmz m => some (.ofMv m 0x381 meTrigger)
  | .meMmt m => some (.ofMv m 0x382 meTrigger)
  | .meMmq m => some (.ofMv m 0x383 meTrigger)
  | .meKlatch m => some (.ofMv m 0x384 meTrigger)
  | .meTzero m => some (.ofMv m 0x385 meTrigger)
  | .meTrow m => some (.ofMv m 0x386 (directWrite false))
  | .meTcol m => some (.ofMv m 0x387 (directWrite true))
  | .meTrowr m => some (.ofMv m 0x388 (directRead false))
  | .meTcolr m => some (.ofMv m 0x389 (directRead true))
  | .meTshape m => some (.ofMv m 0x38A setShape)
  | .meTload m => some (.ofMv m 0x38B meTrigger)
  | .meTstore m => some (.ofMv m 0x38C meTrigger)
  | .meTcvt m => some (.ofMv m 0x38D meTrigger)
  | .meTadd m => some (.ofMv m 0x38E meTrigger)
  | .meTscale m => some (.ofMv m 0x38F meTrigger)
  | .meTamax m => some (.ofMv m 0x390 meTrigger)
  | .ceCopy m => some (.ofMv m 0x3A0 ceTrigger)
  | .ceGather m => some (.ofMv m 0x3A1 ceTrigger)
  | .ceScatter m => some (.ofMv m 0x3A2 ceTrigger)
  | .ceTget m => some (.ofMv m 0x3A3 ceTrigger)
  | .ceTsend m => some (.ofMv m 0x3A4 ceTrigger)
  | .ceFill m => some (.ofMv m 0x3A5 ceTrigger)
  | .ceMcast m => some (.ofMv m 0x3A6 ceTrigger)
  | .ceSfill m => some (.ofMv m 0x3A7 ceTrigger)
  | .ceDfill m => some (.ofMv m 0x3A8 ceTrigger)
  | .ceCput m => some (.ofMv m 0x3A9 ceTrigger)
  | .ceCancel m => some (.ofMv m 0x3AA ceTrigger)
  | .dxOpen m => some (.ofMv m 0x3B0 (transformTrigger 14))
  | .dxClose m => some (.ofMv m 0x3B1 (fun x s => gateOp x s 0))
  | .fcEnc m => some (.ofMv m 0x3B2 (transformTrigger 38))
  | .fcDec m => some (.ofMv m 0x3B3 (transformTrigger 38))
  | .tdWin m => some (.ofMv m 0x3B4 tdWindow)
  | .tdBlk m => some (.ofMv m 0x3B5 tdBlock)
  | .veRun m => some (.ofMv m 0x3B6 (transformTrigger 38))
  | .veStat m => some (.ofMv m 0x3B7 (transformTrigger 19))
  | .bkGo m => some (.ofMv m 0x3C0 (fun x s => gateOp x s 0))
  | .bkStop m => some (.ofMv m 0x3C1 (fun x s => gateOp x s 0))
  | .cuLpPush m => some (.ofMv m 0x3E0 lpPush)
  | .cuLpPop m => some (.ofMv m 0x3E1 lpPop)
  | .cuJump m => some (.ofMv m 0x3E2 cuJump)
  | .cuCall m => some (.ofMv m 0x3E3 cuCall)
  | .cuTrap m => some (.ofMv m 0x3E4 cuTrap)
  | .cuBrk m => some (.ofMv m 0x3E5 cuBrk)
  | .cuHalt m => some (.ofMv m 0x3E6 cuHalt)
  | .cuWdog m => some (.ofMv m 0x3E7 cuWdog)
  | _ => none

/-- The body of an address slot. -/
def slotBodyOf : Instr → Option SlotBody
  | .lend d => some (slotLend d.toNat)
  | .sbase a n => some (slotSbase a n)
  | .sstr a l n => some (slotSstr a l n)
  | .sstri a l imm => some (slotSstri a l imm)
  | .sspace a kind idx => some (slotSspace a kind idx)
  | .swlev a b => some (slotSwlev a b)
  | .srst a => some (slotSrst a)
  | _ => none

end Sys2Proof.Machine
end

