-- ==== Sys2Proof/Machine/Issue.lean ====
section
/-!
DEFINITION. The issue of a bundle (R183, R188, R216 to R225), marks (R347, R348), the completion of a phase barrier
(R130 to R133) and the watchdog (R236).
-/

namespace Sys2Proof.Machine

/-! ### Step 2: results that fall due -/

/-- Every ring shifts by one (R220). -/
def Ring.shift (r : Ring) : Ring := { d0 := none, d1 := r.d0, d2 := r.d1, d3 := r.d2 }

def shiftAll (t : Tab Ring) : Tab Ring :=
  (List.range 8).foldl (fun (u : Tab Ring) k => u.put .empty k ((t.get .empty k).shift)) t

/-- The flags of a result are set, and an `xlt` installs its handle (R38, R210), even where the result is discarded. -/
def settleResult (a : Arch) (d : Due) : Arch :=
  let a := a.raise d.flags
  match d.inst with
  | some (h, x) => a.setHandle h x
  | none => a

/-- A result enters its ring and its port (R220, R221). -/
def enterDue (a : Arch) (d : Due) : Arch :=
  let v := d.val.getD 0
  settleResult { a with rings := a.rings.put .empty d.bus { (a.ring d.bus) with d0 := some v }, res := a.res.put 0 d.port v } d

/-- Results due at one count, in issue order: of two of one slot the later issued enters, the other is discarded (R222). -/
def enterDues : List Due → Arch → Arch
  | [], a => a
  | d :: r, a => enterDues r (if r.any fun x => x.bus == d.bus then settleResult a d else enterDue a d)

def dueNow (a : Arch) : List Due := a.due.filter fun d => d.dueAt == a.count

def enterAll (a : Arch) : Arch :=
  enterDues (dueNow a) { a with rings := shiftAll a.rings, due := a.due.filter fun d => d.dueAt != a.count }

/-- A result due now that is late freezes the bundle; a failed walk faults (R38, R218). -/
def needDue : List Due → Res Unit
  | [] => .ok ()
  | d :: r =>
    match d.bad, d.val with
    | some f, _ => .error (.faultAt f d.bundle d.count)
    | none, none => .error (.freeze .late d.tag 15)
    | none, some _ => needDue r

/-- Step 2 of R183. -/
def stepRings (s : State) (c : Nat) : Res State := do
  let k := s.core c
  let _ ← needFolio k 33
  let l := dueNow k.arch
  let _ ← if l.any (fun d => d.inst.isSome) then needFolio k 32 else pure ()
  let _ ← needDue l
  let k := { k with arch := enterAll k.arch }.dirty 33
  pure (s.setCore c (if l.any (fun d => d.inst.isSome) then k.dirty 32 else k))

/-! ### Step 3: the taken leaf (R177 to R179) -/

/-- Loop-last (R230). -/
def loopLast (a : Arch) : Bool := match a.loops.getLast? with | some l => l.idx + 1 == l.count | none => false

def testValue (k : Core) (t : Test) : Bool :=
  let v :=
    if t.kind = 0 then k.arch.p.get false t.idx
    else if t.kind = 1 then k.arch.s.get 0 t.idx != 0
    else if t.kind = 2 then loopLast k.arch
    else joinReached (k.join t.idx) (k.arch.jcmp.setWidth 32)
  v != t.inv

/-- First true test of a chain. -/
def chainLeaf : List Bool → Nat → Nat
  | [], i => i
  | b :: r, i => if b then i else chainLeaf r (i + 1)

/-- Taken leaf of a shape (Table 8.9a). -/
def takenLeaf (fork : Bool) (t : List Bool) : Nat :=
  let x := fun i => t.getD i false
  if fork = false then chainLeaf t 0
  else if t.length = 2 then (if x 0 then (if x 1 then 0 else 1) else 2)
  else if t.length = 3 then (if x 0 then (if x 1 then 0 else 1) else if x 2 then 2 else 3)
  else (if x 0 then (if x 1 then (if x 3 then 0 else 1) else 2) else if x 2 then 3 else 4)

/-- The taken leaf: its number, and its target and pops; with C = 0 it falls through. -/
def chooseLeaf (k : Core) (b : Bundle) : Res (Nat × Leaf) :=
  match b.tree with
  | none => .ok (0, { target := 5, pop := 0 })
  | some t => do
    let _ ← if t.tests.any (fun x => x.kind == 0 || x.kind == 1) then needFolio k 32 else pure ()
    let i := takenLeaf t.fork (t.tests.map (testValue k))
    pure (i, t.leaves.getD i { target := 5, pop := 0 })

/-- Whether a move or the slot executes (R174, R182). -/
def slotRuns (x : Slot) (b : Bundle) (leaf : Nat) : Bool := b.tree.isNone || x.mask.testBit leaf

/-! ### Steps 4 to 6 -/

/-- What an executing move does with the value it has read. -/
inductive Part where
  | write (bus dst : Nat) (v : Val)
  | run (t : Trigger) (v : Val)

/-- Source, keep and bus of a move. -/
def moveSource (i : Instr) : Option (Nat × Bool × Nat) :=
  match i with
  | .move m _ => some (m.src.toNat, m.keep, m.bus.val)
  | _ => (triggerOf i).map fun t => (t.src, t.keep, t.bus)

/-- The parts of a bundle run one after another. Of the freezes the first to be resolved is kept, and the first check that
fails and the first fault of the steps stand beside it (R183, R218, R350). -/
structure Run' where
  s : State
  wait : Option (Freeze × Nat × Nat)
  bad : Option Stop
  late : Option Stop

/-- Freezes that end by themselves come before those that a mark waits for behind its commit, a phase last (R130). -/
def freezeRank (w : Freeze) : Nat := if w = .phase then 2 else if waitsAtMark w then 1 else 0

def keepWait (a : Option (Freeze × Nat × Nat)) (why : Freeze) (arg w : Nat) : Option (Freeze × Nat × Nat) :=
  match a with
  | none => some (why, arg, w)
  | some x => if freezeRank why < freezeRank x.1 then some (why, arg, w) else some x

/-- Run one part; a part that would freeze or fault leaves the state, but for its walks. -/
def Run'.then (r : Run') (f : State → Res State) : Run' :=
  match f r.s with
  | .ok t => { r with s := t }
  | .error e =>
    let r := { r with s := e.walked r.s }
    match e.bare with
    | .freeze why arg w => { r with wait := keepWait r.wait why arg w }
    | e => if stepFault e then { r with late := some (r.late.getD e) } else { r with bad := some (r.bad.getD e) }

def Run'.all (r : Run') : List (State → Res State) → Run'
  | [] => r
  | f :: l => (r.then f).all l

/-- What stops the bundle. A freeze comes before every fault, since a frozen bundle performs none of its steps (R218);
only a check that fails comes before the freezes that a mark has behind its commit (R350). DEDUCED (log entry 17). -/
def Run'.stop? (r : Run') (mark : Bool) : Option Stop :=
  match r.wait, r.bad with
  | some (why, arg, w), bad => some (if mark && waitsAtMark why then bad.getD (.freeze why arg w) else .freeze why arg w)
  | none, some e => some e
  | none, none => r.late

/-- Ports whose latches a destination feeds: the triggers whose checks a value that has not been read could decide. -/
def feeds (dst port : Nat) : Bool :=
  if dst < 0x100 then false
  else if dst < 0x102 ∨ dst = 0x113 ∨ dst = 0x114 then inRange port 0x200 0x80
  else if dst < 0x10B then inRange port 0x280 0x80
  else if dst < 0x10D then inRange port 0x300 0x40
  else if dst < 0x113 then inRange port 0x340 0x40
  else if dst < 0x128 ∨ dst = 0x132 then inRange port 0x3A0 0x10
  else if dst < 0x12E ∨ dst = 0x133 then inRange port 0x380 0x20
  else if dst < 0x131 then inRange port 0x3B0 0x10
  else if dst = 0x131 then inRange port 0x3C0 0x10
  else inRange port 0x340 0x40 || isCuTrig port

/-- Triggers that have no operand yet because a move into their latches could not read its source (R218). -/
def unfed (s : State) (c : Nat) (moves : List Slot) (port : Nat) : Bool :=
  moves.any fun x => match x.instr with
    | .move m dst => feeds dst.toNat port && (match readSource s c m.src.toNat with | .error (.freeze ..) => true | _ => false)
    | _ => false

/-- Step 4: the values of the executing moves, as the state stands. -/
def readParts (s : State) (c : Nat) : List Slot → Option (Freeze × Nat × Nat) → Res (List Part × Option (Freeze × Nat × Nat))
  | [], w => .ok ([], w)
  | x :: r, w =>
    match moveSource x.instr with
    | none => readParts s c r w
    | some (src, _, _) =>
      match atPart x.place (readSource s c src) with
      | .ok v => do
        let (l, w) ← readParts s c r w
        match x.instr, triggerOf x.instr with
        | .move m dst, _ => pure (.write m.bus.val dst.toNat v :: l, w)
        | _, some t => pure (.run t v :: l, w)
        | _, none => pure (l, w)
      | .error (.freeze why arg at') => readParts s c r (keepWait w why arg at')
      | .error e => .error e

/-- The pop of `dx.out`: once, if an executing move reads it without keep. -/
def popOnce (c : Nat) (l : List Slot) (s : State) : Res State :=
  match (l.filterMap fun x => moveSource x.instr).find? fun m => m.1 == 0x0B8 && !m.2.1 with
  | some m => (popHead (s.core c) m.2.2).map (s.setCore c)
  | none => .ok s

/-- The taken leaf's pops (R224, R229). -/
def leafPops (c n : Nat) (s : State) : Res State :=
  let a := (s.core c).arch
  if a.loops.length < n then .error (stop cLoopUnderflow 2 9)
  else .ok (s.modArch c fun a => { a with loops := a.loops.take (a.loops.length - n) })

def writePart (c : Nat) : Part → Option (State → Res State)
  | .write bus dst v => some fun s => (atPart bus (needDest (s.core c) dst)).map fun _ => writeDest s c dst v
  | .run .. => none

def runPart (c : Nat) (pre : Arch) (hold : Nat → Bool) (cu : Bool) : Part → Option (State → Res State)
  | .run t v => if isCuTrig t.port == cu && !hold t.port then some fun s => atPart t.bus (startTrigger { c := c, bus := t.bus, port := t.port, b := v, w := t.width, pre := pre } t.body s) else none
  | .write .. => none

/-- The address slot acts (R182); a `lend` leaves the choice of the next PC to step 7. -/
def slotPart (c : Nat) (pre : Arch) (fall : Bool) (x : Slot) : State → Res State := fun s =>
  match slotBodyOf x.instr with
  | none => .ok s
  | some f =>
    match x.instr with
    | .lend _ => if fall then (f c pre s).map fun t => t.modArch c fun a => { a with pc := pre.pc } else .ok s
    | _ => f c pre s

/-- The start of the loop that an executing `lend` iterates (R223 item 4). -/
def lendTarget (a : Arch) (x : Option Slot) : Option (BitVec 11) :=
  match x.map Slot.instr with
  | some (Instr.lend d) => if lendIterates a d.toNat then (lendHits a d.toNat).map (·.start) else none
  | _ => none

/-- Port and count of the control-unit trigger among the parts. -/
def cuPart (l : List Part) : Option (Nat × Nat) :=
  l.findSome? fun p => match p with | .run t v => if isCuTrig t.port then some (t.port, bits v.lo 31 0) else none | .write .. => none

/-- Step 7: the next PC (R223). `a` is the state after step 6, its PC the one a control-unit trigger left. -/
def nextPc (a : Arch) (pc : BitVec 11) (b : Bundle) (leaf : Leaf) (cu : Option (Nat × Nat)) (lend : Option (BitVec 11)) : Res Arch :=
  if leaf.target ≤ 4 then .ok (a.jumpTo (b.lits.getD leaf.target 0 % 2048))
  else if leaf.target = 6 then
    match a.calls with
    | r :: l => .ok { a with pc := r, calls := l }
    | [] => .error (stop cTrap 0xFFFF 9)
  else
    match cu, lend with
    | some (0x3E2, _), _ => .ok a
    | some (0x3E3, _), _ => .ok a
    | _, some t => .ok { a with pc := t }
    | some (0x3E0, 0), none => .ok (a.jumpTo (bits a.lend 10 0 + 1))
    | _, none => .ok { a with pc := pc + 1 }

/-- Both memory units trigger `phase` in one bundle (R129). -/
def twoPhases (l : List Part) : Bool := (l.filter fun p => match p with | .run t _ => t.port == 0x364 | .write .. => false).length == 2

/-- The bundle observes a join counter or a sync word, which orders the loads before it with those after it (R127). -/
def observes (b : Bundle) (moves : List Slot) : Bool :=
  (match b.tree with | some t => t.tests.any fun x => x.kind == 3 | none => false) ||
    moves.any fun x => (match moveSource x.instr with | some m => inRange m.1 0x0E0 16 | none => false) || (match triggerOf x.instr with | some t => t.port == 0x358 | none => false)

/-- A core after its bundle has issued; a single step ends in a debug halt (R364). -/
def Core.issued (k : Core) (a : Arch) (seen : Bool) : Core :=
  { k with arch := a, epoch := if seen then k.epoch + 1 else k.epoch, marked := false, freeze := .none, waitVa := none, debugHalt := k.debugHalt || k.stepping, stepping := false }

/-- Steps 2 to 7 of R183 for a bundle that has passed its checks, a mark or not. -/
def issueSteps (s : State) (c : Nat) (mark : Bool) (b : Bundle) : Res State := do
  let s ← stepRings s c
  let (i, leaf) ← atPart 9 (chooseLeaf (s.core c) b)
  let pre := (s.core c).arch
  let moves := b.slots.filter fun x => slotRuns x b i
  let slot := match b.adr with | some x => if slotRuns x b i then some x else none | none => none
  let (parts, wait) ← readParts s c moves none
  let fall := leaf.target == 5
  let hold := unfed s c moves
  let bad := if twoPhases parts then some (stop cIllegalMode 9 6) else none
  let r := ({ s := s, wait := wait, bad := bad, late := none } : Run').all ([popOnce c moves, leafPops c leaf.pop] ++ parts.filterMap (writePart c))
  let lend := if fall then lendTarget (r.s.core c).arch slot else none
  let r := r.all ((slot.toList.map fun x s => atPart 8 (slotPart c pre fall x s)) ++ parts.filterMap (runPart c pre hold false) ++ parts.filterMap (runPart c pre hold true))
  match r.stop? mark with
  | some e => .error (.behind r.s e)
  | none => do
    let a ← upon r.s <| nextPc (r.s.core c).arch pre.pc b leaf (cuPart parts) lend
    pure (r.s.modCore c fun k => k.issued { a with count := pre.count + 1 } (observes b moves))

/-! ### Marks (R347, R142) -/

def isAtomicTrig (p : Nat) : Bool := (decide (0x35C ≤ p) && decide (p ≤ 0x363)) || p == 0x366

/-- Triggers that make the bundle that holds them a mark. -/
def isMarkTrig (p : Nat) : Bool := p == 0x359 || p == 0x35A || p == 0x364 || p == 0x3E6 || p == 0x38A || isAtomicTrig p

def holdsPort (b : BitVec 512) (f : Nat → Bool) : Bool := (List.range 8).any fun k => bPresent b k && f (bDst b k)

def isMarkBundle (a : Arch) (b : BitVec 512) : Bool := bMark b || a.count == 0 || holdsPort b isMarkTrig

/-! ### The issue of a bundle -/

/-- Why a core does not try to issue at all. -/
def mayIssue (k : Core) : Bool := k.run == .running && !k.stopping && !k.powerGated && (!k.debugHalt || k.stepping)

def frozenFetch (k : Core) : Option Nat := let f := k.arch.pc.toNat / 64; if (k.folio f).pres == Presence.present then none else some f

/-- BUNDLE_ISSUE for core `c`: the bundle at PC issues, freezes or faults. -/
def issue (s : State) (c : Nat) : State :=
  let k := s.core c
  if mayIssue k = false then s
  else if k.paced then takeFreeze s c .pacing 0 15
  else
    match frozenFetch k with
    | some f => takeFreeze s c .folio f 15
    | none =>
      let w := k.bundle
      match decodeBundle w with
      | .error (sub, part) => takeCoreFault s c (CFault.mk' cIllegalBundle sub part 0)
      | .ok b =>
        if isMarkBundle k.arch w then
          let f := fun t => issueSteps t c true b
          runMark s c (if holdsPort w isAtomicTrig then fun t => (f t).map (snapshot · c) else f)
        else
          match issueSteps s c false b with
          | .ok t => t
          | .error e => takeStop s c e

def execBundleIssue (s : State) : Host.Outcome State Fault Refusal := .next (issue s s.cur)

/-! ### Phase barriers (R131 to R133) -/

def State.gath? (s : State) (g : Nat) : Option Gath := s.gaths.find? fun x => x.id == g

def State.setGath (s : State) (g : Gath) : State := { s with gaths := s.gaths.map fun x => if x.id = g.id then g else x }

/-- The members that meet in a phase of a core, on this module (Table 6.1). -/
def barrierMembers (s : State) (c scope : Nat) : List Nat :=
  let l := s.membersOf (s.core c).member.gath
  if scope = 1 then l.filter fun d => quireOf d == quireOf c else l

/-- Other modules of a tick-launched gathering. -/
def otherModules (s : State) (g : Nat) : List Nat := match s.gath? g with | some x => if x.span then x.modules.filter fun m => m != s.module else [] | none => []

/-- A BARRIER packet to another module: gathering and number of the phase (log entry 28). -/
def barrierPacket (s : State) (g n : Nat) : Packet :=
  { Packet.zero with op := pBarrier, pasid := BitVec.ofNat 20 ((s.gath? g).map (·.pasid) |>.getD 0), operand := BitVec.ofNat 64 g, cmp := BitVec.ofNat 64 n }

/-- To each of the modules that the fabric reaches (R23). -/
def sendBarriers (g n : Nat) : List Nat → State → State
  | [], s => s
  | m :: r, s => sendBarriers g n r (if mayReach s s.members (4 * m) then sendSprayed s 0 (4 * m) (barrierPacket s g n) 384 0 else s)

/-- A FABRIC phase: the module's own arrival is told to the others once, and theirs are waited for. -/
def fabricPhase (s : State) (g : Nat) : State × Bool :=
  match s.gath? g with
  | none => (s, true)
  | some x =>
    let others := otherModules s g
    let told := x.fabric.contains (s.module, x.phases)
    if !told && others.any (fun m => !s.flowRoom (flowKey 0 (4 * m))) then (s, false)
    else
    let s := if told then s
      else (sendBarriers g x.phases others s).setGath { x with fabric := x.fabric ++ [(s.module, x.phases)] }
    (s, others.all fun m => x.fabric.contains (m, x.phases))

def completePhase (l : List Nat) (s : State) : State := l.foldl (fun s d => s.modCore d fun k => { k with phaseDone := true, arrived := none }) s

/-- PHASE_BARRIER_COMPLETE: once every member that meets has arrived, each one's phase bundle may issue. -/
def execPhaseBarrierComplete (core : Nat) (s : State) : Host.Outcome State Fault Refusal :=
  match (s.core core).arrived with
  | none => .next s
  | some sc =>
    let l := barrierMembers s core sc
    if !(l.all fun d => (s.core d).arrived == some sc) then .next s
    else if sc = 4 then
      let g := (s.core core).member.gath
      let (t, ok) := fabricPhase s g
      if ok then
        .next (completePhase l (match t.gath? g with | some x => t.setGath { x with phases := x.phases + 1, fabric := x.fabric.filter fun f => f.2 != x.phases } | none => t))
      else .next t
    else .next (completePhase l s)

/-! ### The watchdog (R236) -/

/-- WATCHDOG_EXPIRY at the next bundle boundary; it does not run in a debug halt, and a core that is being stopped has
passed its last boundary (R361). A single step leaves the debug halt until its bundle has issued (R364). -/
def execWatchdogExpiry (core : Nat) (s : State) : Host.Outcome State Fault Refusal :=
  let k := s.core core
  if k.wdog.isNone ∨ k.run ≠ .running ∨ k.stopping = true ∨ (k.debugHalt && !k.stepping) = true then .next s
  else .next ((takeCoreFault s core (CFault.mk' cWatchdog 1 15 0)).modCore core fun k => { k with wdog := none })

end Sys2Proof.Machine
end

