-- ==== Sys2Proof/Machine/Shootdown.lean ====
section
/-!
DEFINITION. Shoot-downs (R41 to R45), migration (R46, R47), copy-on-write duplication (R48, R49) and ATS invalidations
(R52).
-/

namespace Sys2Proof.Machine

/-! ### Requests (R43) -/

/-- Status word of a translation-control block. -/
def ControlBlock.reject (b : ControlBlock) (e : Nat) : ControlBlock := { b with err := e, done := true }

/-- A REVOKE of the device itself over a PASID's whole range. -/
def Shoot.own (pasid : Nat) : Shoot := { pasid := pasid, all := true, lo := 0, hi := 0, refresh := false, block := none, ats := none, tear := false, acked := [] }

/-- A shoot-down joins those that the hub serves in arrival order. -/
def State.addShoot (s : State) (r : Shoot) : State := { s with shoots := s.shoots ++ [r] }

/-- Why a request has no effect: bounds out of order, then misaligned or not canonical. Both bounds must be canonical: Table 2.9
asks it of sd_lo, and its err 3 speaks of a bound; one that breaks both has err 2, an order the spec does not give (DESIGN CHOICE,
log entry 58). -/
def boundsFault (all : Bool) (lo hi : Nat) : Option Nat :=
  if all then none
  else if hi ≤ lo then some 2
  else if lo % 0x10000 ≠ 0 ∨ hi % 0x10000 ≠ 0 ∨ canonical lo = false ∨ canonical hi = false then some 3
  else none

/-- SHOOTDOWN_GO: the three words of block 0 (host) or 1 (policy core) are written. -/
def execShootdownGo (policy : Bool) (lo hi ctl : Word) (s : State) : Host.Outcome State Fault Refusal :=
  let n := if policy then 1 else 0
  let b := s.blocks.get .zero n
  let put := fun (s : State) (b : ControlBlock) => { s with blocks := s.blocks.put .zero n b }
  let b := { b with lo := lo, hi := hi, ctl := ctl &&& 0x3FFFFF }
  if bit ctl 31 = false then .next (put s b)
  else if b.busy then .next (put s (b.reject 1))
  else
    match boundsFault (bit ctl 21) lo.toNat hi.toNat with
    | some e => .next (put s (b.reject e))
    | none =>
      let r : Shoot := { Shoot.own (bits ctl 19 0) with all := bit ctl 21, lo := lo.toNat, hi := hi.toNat, refresh := bit ctl 20, block := some n }
      .next ((put s { b with err := 0, done := false, busy := true }).addShoot r)

/-! ### What a unit does (R44) -/

def Shoot.handle (r : Shoot) (h : Handle) : Handle :=
  if h.valid && r.hits h.va h.bytes then (if r.refresh then { h with stale := true } else { h with valid := false }) else h

def Shoot.handles (r : Shoot) (t : Tab Handle) : Tab Handle :=
  t.cells.foldl (fun (u : Tab Handle) x => u.put .zero x.1 (r.handle x.2)) t

/-- A walk whose handle is not installed yet restarts after the drop. -/
def restartWalk (d : Due) : Due :=
  match d.inst with
  | some (n, h) => { d with val := none, inst := none, req := .xlt (BitVec.ofNat 64 (h.va + ((d.val.getD 0).toNat % 2 ^ 40))) n }
  | none => d

def Shoot.arch (r : Shoot) (a : Arch) : Arch := { a with handles := r.handles a.handles, due := a.due.map restartWalk }

def Shoot.gate (r : Shoot) (g : List Gated) : List Gated :=
  g.map fun e => match e with
    | .store x => .store { x with shadow := x.shadow.map r.handle }
    | _ => e

/-- Step 2: live and snapshot copies and shadows, and the S0 folios of contexts that were pre-empted on the core. -/
def Shoot.core (r : Shoot) (s : State) (k : Core) : Core :=
  let mine := k.run != .off && k.member.pasid == r.pasid
  let k := if mine then { k with arch := r.arch k.arch, snap := r.arch k.snap, gate := r.gate k.gate } else k
  { k with held := k.held.map fun x =>
      match x.data, (s.saved.find? fun v => v.gath == x.gath && v.rank == x.rank).map (·.member.pasid) with
      | .s0 a, some p => if p = r.pasid then { x with data := .s0 { a with handles := r.handles a.handles } } else x
      | _, _ => x }

/-- Loads and atomics of a core in flight with a place in the range. -/
def inFlight (r : Shoot) (k : Core) : List Due :=
  if k.run != .off && k.member.pasid == r.pasid then
    (k.snap.due ++ k.arch.due).filter fun d => (match d.req with | .load .. => true | .atomic .. => true | _ => false) && r.hits d.page 0x10000
  else []

/-- Step 3 for a core: accesses that carry a place in the range are performed at their homes. -/
def drainCore (r : Shoot) (s : State) (c : Nat) : State :=
  let k := s.core c
  let s := (inFlight r k).foldl (fun s d => lateArrival s c d.tag) s
  ((s.core c).pub.filter fun e => e.pages.any (r.drains k.member.pasid)).foldl (fun s e => performGranule s c e.place) s

def drainBank (r : Shoot) (s : State) (e : Nat) : State :=
  match (s.bank e).list.bind fun x => findList s x.2 with
  | some l => if l.pasid = r.pasid then performWrites s e (fun w => r.hits w.page 0x10000) else s
  | none => s

/-- Cores of a die that stand in the state. -/
def coresOf (s : State) (die : Nat) : List Nat := (s.cores.cells.map (·.1)).filter fun c => dieOf c == die

def banksOf (s : State) (die : Nat) : List Nat := (s.banks.cells.map (·.1)).filter fun e => bankDie e == die

/-- Steps 1 to 3 of an agent: 0 to 3 a die's, 4 the hub. -/
def shootAgent (s : State) (r : Shoot) (agent : Nat) : State :=
  let s := { s with caches := s.caches.filter fun x => !(x.agent == agent && x.pasid == r.pasid && r.hits x.base (pageBytes (leafSize x.leaf))) }
  let l := coresOf s agent
  let s := l.foldl (fun s c => s.setCore c (r.core s (s.core c))) s
  let s := l.foldl (drainCore r) s
  (banksOf s agent).foldl (drainBank r) s

/-- A control block that is DRAINING, and whose outstanding count is 0, leaves the table (R333); of a PASID that tears down only
after step 4 (R50). -/
def removeDrained (s : State) : State :=
  { s with qcbs := { cells := s.qcbs.cells.filter fun x => !(x.2.state == 2 && x.2.outst == 0 && !(s.pasids.get .none x.2.pasid).tearing) } }

/-- What follows the fifth acknowledgement: a block's done; the invalidation completion of ATS (R52); step 5 of a teardown
(R50), whose PASID no target holds an entry of any longer (R65). -/
def shootDone (s : State) (r : Shoot) : State :=
  let s := match r.block with
    | some n => { s with blocks := s.blocks.put .zero n { s.blocks.get .zero n with done := true, busy := false } }
    | none => s
  let s := match r.ats with
    | some (lo, hi) => { s with hostOut := s.hostOut ++ [.invalidated r.pasid lo hi] }
    | none => s
  if r.tear then
    removeDrained { s with
      targets := s.targets.filter fun x => x.2.1 != r.pasid, pasids := s.pasids.set r.pasid { s.pasids.get .none r.pasid with tearing := false } }
  else s

/-- Every access of the agent's cores with a place in the range is performed. -/
def drained (s : State) (r : Shoot) (agent : Nat) : Bool := (coresOf s agent).all fun c => (inFlight r (s.core c)).isEmpty

/-- SHOOTDOWN_AGENT_ACK: a unit carries out the request being served and acknowledges, once all is drained: a load that stands
behind a peer's absent folio is waited for. With all five, done. -/
def execShootdownAgentAck (agent : Nat) (s : State) : Host.Outcome State Fault Refusal :=
  match s.shoots with
  | [] => .next s
  | r :: rest =>
    if 4 < agent ∨ r.acked.contains agent then .next s
    else
      let t := shootAgent s r agent
      if drained t r agent = false then .next t
      else if r.acked.length < 4 then .next { t with shoots := { r with acked := agent :: r.acked } :: rest }
      else .next (shootDone { t with shoots := rest } r)

/-- ATS_INVALIDATION: a REVOKE over the covering 64 KiB-aligned range, and the completion after it (R52). -/
def execAtsInvalidation (pasid : Nat) (lo hi : Word) (s : State) : Host.Outcome State Fault Refusal :=
  .next (s.addShoot { Shoot.own pasid with
    all := false, lo := lo.toNat / 0x10000 * 0x10000, hi := (hi.toNat + 0xFFFF) / 0x10000 * 0x10000, ats := some (lo.toNat, hi.toNat) })

/-! ### Waiters (R47 to R49) -/

/-- What a waiter waits for: the page's virtual address, the agent whose walk met it, the PASID, and whether it waits to write a
copy-on-write page. -/
structure Wanted where
  agent : Nat
  va : Nat
  pasid : Nat
  cow : Bool

/-- The address at which an engine operation's unit stops. -/
def opWanted (s : State) (c id : Nat) : Option Wanted :=
  (s.op c id).bind fun o =>
    let p := (s.core c).member.pasid
    match if isFifoOp o.port then fifoUnit s c id o else opUnit s c id o with
    | .error e =>
      match e.bare with
      | .migrating agent va => some { agent := agent, va := va, pasid := p, cow := false }
      | .cow agent va => some { agent := agent, va := va, pasid := p, cow := true }
      | _ => none
    | .ok _ => none

def isMigrating (s : State) (pasid va : Nat) : Bool := match leafOf s pasid va with | some (_, e) => leafMigrating e | none => false

def wanted (s : State) : Waiter → Option Wanted
  | .core c =>
    let k := s.core c
    if k.run ≠ .running then none
    else
      match k.freeze, k.waitVa with
      | .stale, some va => some { agent := dieOf c, va := va, pasid := k.member.pasid, cow := false }
      | .cow, some va => some { agent := dieOf c, va := va, pasid := k.member.pasid, cow := true }
      | _, _ => none
  | .op c id => (s.op c id).bind fun o => if o.waiting then opWanted s c id else none
  | .bank e =>
    match (s.bank e).wait, (s.bank e).list.bind fun x => findList s x.2 with
    | .migrating va write, some l => some { agent := bankDie e, va := va, pasid := l.pasid, cow := write }
    | _, _ => none
  | .walk agent pasid va => some { agent := agent, va := va, pasid := pasid, cow := false }

/-- The waiter tries again. -/
def wake (s : State) : Waiter → State
  | .core c => s.modCore c fun k => { k with freeze := .none, waitVa := none, waitAt := 15 }
  | .op c id => s.modOp c id fun o => { o with waiting := false }
  | .bank e => s.modBank e fun b => match b.wait with | .migrating .. => { b with wait := .none } | _ => b
  | .walk agent pasid va => { s with timedOut := s.timedOut.filter fun x => x != (agent, pasid, va / 0x10000) }

/-- An operation that nothing holds any more tries again. -/
def wakeOp (s : State) : Waiter → State
  | .op c id => wake s (.op c id)
  | _ => s

/-- The waiter faults: a core rolls back, an operation or a list parks. A walk for no bundle or engine faults when it is tried
again (log entry 59). -/
def failWaiter (s : State) (code sub va : Nat) : Waiter → State
  | .core c => takeCoreFault s c (CFault.mk' code sub (s.core c).waitAt va)
  | .op c id =>
    match s.op c id with
    | some o => unitFault (takeEStop s c id (eFault code sub va)) c o (eFault code sub va)
    | none => s
  | .bank e => parkBank s e code sub
  | .walk agent pasid va => if s.walkTimedOut agent pasid va then s else { s with timedOut := s.timedOut ++ [(agent, pasid, va / 0x10000)] }

/-- The walk of what is waited for has faulted: its agent no longer holds the page's leaf (R35). -/
def failWanted (s : State) (x : Wanted) (sub : Nat) (w : Waiter) : State := failWaiter (dropFaulted s x.agent x.pasid x.va) cTranslate sub x.va w

/-- Walks of `xlt` that a core has in progress and that meet migrating. -/
def stuckWalks (s : State) (c : Nat) : List Due :=
  (s.core c).arch.due.filter fun d => match d.req with | .xlt va _ => isMigrating s (s.core c).member.pasid va.toNat | _ => false

/-- MIGRATING_REWALK: a page that no longer migrates ends the wait, and so does one that an operation's unit, tried again, no
longer waits for: its next try meets what the leaf now says. -/
def execMigratingRewalk (w : Waiter) (s : State) : Host.Outcome State Fault Refusal :=
  match wanted s w with
  | some x => if isMigrating s x.pasid x.va then .next s else .next (wake s w)
  | none => .next (wakeOp s w)

/-- MIGRATING_TIMEOUT: 10 ms after the walk first met the bit, TRANSLATE_FAULT subcode 10; for an unfinished `xlt` as its
walk's fault (R38). -/
def execMigratingTimeout (w : Waiter) (s : State) : Host.Outcome State Fault Refusal :=
  match wanted s w, w with
  | some x, _ => if isMigrating s x.pasid x.va then .next (failWanted s x 10 w) else .next s
  | none, .core c =>
    .next ((stuckWalks s c).foldl (fun s d =>
      match d.req with
      | .xlt va _ => fillBoth (dropFaulted s (dieOf c) (s.core c).member.pasid va.toNat) c d.tag fun d => { d with req := .none, bad := some (CFault.mk' cTranslate 10 d.bus va.toNat) }
      | _ => s) s)
  | none, _ => .next s

/-! ### Duplication (R49) -/

/-- Free frames of a PASID, by page size (Table 2.3). -/
def poolKey (pasid size : Nat) : Nat := pasid * 4 + size

/-- A page of a PASID, as the snapshot's frame list names it. -/
def pageKey (pasid va : Nat) : Nat := pasid * 2 ^ 64 + va

/-- A leaf on another frame, with cow and migrating clear and dirty set. -/
def moveLeaf (e : Word) (frame : Nat) : Word :=
  let keep : Word := ~~~ ((BitVec.ofNat 64 ((2 ^ 36 - 1) * 2 ^ 16)) ||| 0x18)
  (e &&& keep) ||| BitVec.ofNat 64 (frame * 2 ^ 16) ||| 0x40

/-- The bytes of a page, 64 KiB at a time. -/
def State.readPage (s : State) (pasid : Nat) (e : Word) : List Byte :=
  (List.range (pageBytes (leafSize e) / 0x10000)).flatMap fun i => s.readAt (leafPlace s pasid e (0x10000 * i)) 0x10000

def State.writePage (s : State) (pasid : Nat) (e : Word) (d : List Byte) : State :=
  (List.range (pageBytes (leafSize e) / 0x10000)).foldl (fun s i => s.writeAt (leafPlace s pasid e (0x10000 * i)) ((d.drop (0x10000 * i)).take 0x10000)) s

/-- Duplicate the page of an address: steps 1 to 6. -/
def duplicate (s : State) (pasid va a : Nat) (e : Word) (frame : Nat) : State :=
  let n := pageBytes (leafSize e)
  let s := s.writePage pasid (moveLeaf e frame) (s.readPage pasid e)
  let s := s.write64 { host := false, addr := a } (moveLeaf e frame)
  let s := s.addShoot { Shoot.own pasid with all := false, lo := pageBase va (leafSize e), hi := pageBase va (leafSize e) + n, refresh := true }
  { s with snapFrames := s.snapFrames ++ [(pageKey pasid (pageBase va (leafSize e)), e)] }

/-- COW_DUPLICATE. A leaf whose cow is already 0 takes no frame; one that migrates is waited for. Where the pool is empty, the
leaf is left with migrating clear, as it was before step 1: R49 does not say (DESIGN CHOICE, log entry 58). -/
def execCowDuplicate (w : Waiter) (s : State) : Host.Outcome State Fault Refusal :=
  match wanted s w with
  | none => .next (wakeOp s w)
  | some x =>
    match leafOf s x.pasid x.va with
    | none => .next (wake s w)
    | some (a, e) =>
      if leafMigrating e then .next s
      else if x.cow = false ∨ leafCow e = false then .next (wake s w)
      else
        match s.pools.get [] (poolKey x.pasid (leafSize e)) with
        | [] => .next (failWanted s x 11 w)
        | f :: r => .next (wake (duplicate { s with pools := s.pools.put [] (poolKey x.pasid (leafSize e)) r } x.pasid x.va a e f) w)

end Sys2Proof.Machine
end

