-- ==== Sys2Proof/Machine/Ending.lean ====
section
/-!
DEFINITION. The command processor's own accesses to memory, packets and their completion (R337), colophons (R341), and the
end of gatherings, jobs and graphs: completion (R146, R339, R343), kill (R148, R353), and the removal of their contexts
(R50, R358).
-/

namespace Sys2Proof.Machine

/-! ### Accesses of the hub and of targets (R32, R47 to R49) -/

/-- Why an access of an agent outside the cores does not happen: a fault, or it waits for a page that migrates (R47) or for
another module's answer. The state holds what stays of the try. -/
inductive HStop where
  | fault (code sub : Nat) (s : State)
  | wait (s : State)

def HStop.state : HStop → State
  | .fault _ _ s => s
  | .wait s => s

abbrev HRes (α : Type) := Except HStop α

/-- Work of the hub: done, or waiting with what it has asked for. -/
abbrev Work := Except State State

/-- What stays of a try that waits or faults: its walks, and the requests it has sent. -/
def State.keep (s t : State) : State :=
  let u := s.keepWalks t
  { u with
    flows := t.flows, tx := t.tx, timedOut := s.timedOut.filter t.timedOut.contains,
    hubRuns := s.hubRuns ++ t.hubRuns.filter fun x => !s.hubRuns.contains x }

def settleWork (s : State) : Work → State
  | .ok t => t
  | .error t => s.keep t

/-- A translation that does not answer: a fault, or a wait of at most 10 ms (R47). -/
def hubStop (s : State) (agent pasid va : Nat) : XFail → HStop
  | .fault code sub => .fault code sub (markFaulted s agent pasid va)
  | _ => if s.walkTimedOut agent pasid va then .fault cTranslate 10 (markFaulted (s.forgetTimeOut agent pasid va) agent pasid va) else .wait s

/-- Duplicate the page of a write under cow (R48, R49); a leaf that migrates is waited for. -/
def agentDuplicate (s : State) (agent pasid va : Nat) : HRes State :=
  match leafOf s pasid va with
  | none => .ok s
  | some (a, e) =>
    if leafMigrating e then .error (hubStop s agent pasid va .migrating)
    else if leafCow e = false then .ok s
    else
      match s.pools.get [] (poolKey pasid (leafSize e)) with
      | [] => .error (hubStop s agent pasid va (.fault cTranslate 11))
      | f :: r => .ok (duplicate { s with pools := s.pools.put [] (poolKey pasid (leafSize e)) r } pasid va a e f)

/-- The leaf of an address for an agent. -/
def agentLeaf (s : State) (ag : Agent) (pasid va : Nat) (write : Bool) : HRes (State × Word) :=
  match translate s ag pasid va write with
  | .ok x => .ok x
  | .error (.cow t) => do
    let s ← agentDuplicate t ag.cache pasid va
    match walk s ag pasid va write with
    | .ok x => .ok x
    | .error f => .error (hubStop s ag.cache pasid va f)
  | .error f => .error (hubStop s ag.cache pasid va f)

def hubLeaf (s : State) (pasid va : Nat) (write : Bool) : HRes (State × Word) := agentLeaf s hubAgent pasid va write

/-- Node and offset of a remote window's leaf (R383). -/
def windowNode (e : Word) (va : Nat) : Nat × Nat :=
  let phys := leafFrame e * 0x10000 + va % pageBytes (leafSize e)
  (phys / 2 ^ 37 % 2 ^ 15, phys % 2 ^ 37)

/-! ### Requests of the hub through remote windows (R383) -/

/-- The hub's request: READ, WRITE, or ATOMIC `aadd` of an operand, which stands in `data` of a request that does not write. -/
def hubRequest (write : Bool) (node off n : Nat) (data : List Byte) : Request :=
  { write := write, dest := { node := node, va := off, tid := 0, mapver := 0, geom := none, retried := false }, nth := 0, len := n, data := data }

def hubPacket (pasid : Nat) (q : Request) : Packet :=
  if !q.write && !q.data.isEmpty then
    { q.packet pasid with op := pAtomic, data := [], aop := 0, w32 := false, operand := BitVec.ofNat 64 (ofLeBytes q.data) }
  else q.packet pasid

/-- The request of a run stands for this one; a try that is repeated does not send its write again, though its bytes, say a
time, differ. -/
def HubRun.serves (x : HubRun) (pasid : Nat) (q : Request) : Bool :=
  x.pasid == pasid && x.run.write == q.write && x.run.dest.node == q.dest.node && x.run.dest.va == q.dest.va && x.run.len == q.len &&
    (x.run.data.isEmpty == q.data.isEmpty)

/-- Send a request of the hub once, when its flow has room (R381). -/
def hubSend (s : State) (pasid : Nat) (q : Request) : State :=
  let key := flowKey 0 q.dest.node
  if s.hubRuns.any (fun x => x.serves pasid q) || !s.flowRoom key then s
  else
    let r : Run := { dest := q.dest, nth := 0, fseq := (s.flow key).seq, len := q.len, write := q.write, data := q.data, answer := none }
    { sendSprayed s 0 q.dest.node (hubPacket pasid q) 384 0 with hubRuns := s.hubRuns ++ [{ pasid := pasid, run := r, nak := none }] }

/-- Take the answer of a request; without one it is waited for. -/
def hubTake (s : State) (pasid : Nat) (q : Request) : HRes (State × List Byte) :=
  match s.hubRuns.find? fun x => x.serves pasid q with
  | some x =>
    let t := { s with hubRuns := s.hubRuns.erase x }
    match x.nak, x.run.answer with
    | some (code, sub), _ => .error (.fault code sub t)
    | none, some d => .ok (t, d)
    | none, none => .error (.wait s)
  | none => .error (.wait s)

def hubTakes (pasid : Nat) : List Request → State → HRes (State × List Byte)
  | [], s => .ok (s, [])
  | q :: r, s => do
    let (s, a) ← hubTake s pasid q
    let (s, b) ← hubTakes pasid r s
    pure (s, a ++ b)

/-- Requests carry at most 4,096 bytes (R380). -/
def hubParts (write : Bool) (node : Nat) : Nat → Nat → Nat → List Byte → List Request
  | 0, _, _, _ => []
  | f + 1, off, n, d =>
    if n = 0 then [] else let m := min n 4096; hubRequest write node off m (d.take m) :: hubParts write node f (off + m) (n - m) (d.drop m)

/-- Where an access of an agent of the hub lies: here, or at another module's window. -/
def hubPlace (s : State) (ag : Agent) (pasid va : Nat) (write : Bool) : HRes (State × Target) := do
  let (s, e) ← agentLeaf s ag pasid va write
  if leafKind e = 4 then
    let (node, off) := windowNode e va
    if node / 4 = s.module then
      match s.windows.get none pasid with
      | none => .error (.fault cTranslate 7 s)
      | some w => do
        let (s, e) ← agentLeaf s (fabricAgent (node % 4) (if write then 54 else 55)) pasid (w + off) write
        pure (s, .here (leafPlace s pasid e (w + off)))
    else if mayReach s s.domain node then pure (s, .there { node := node, va := off, tid := 0, mapver := 0, geom := none, retried := false })
    else .error (.fault cUnreachable 1 s)
  else pure (s, .here (leafPlace s pasid e va))

/-- One part of a read, inside one 64 KiB page. -/
def hubReadPart (s : State) (ag : Agent) (pasid va n : Nat) : HRes (State × List Byte) := do
  let (s, t) ← hubPlace s ag pasid va false
  match t with
  | .here p => pure (s, s.readAt p n)
  | .there d =>
    let l := hubParts false d.node (n / 4096 + 1) d.va n []
    hubTakes pasid l (l.foldl (fun s q => hubSend s pasid q) s)

def hubReads (ag : Agent) (pasid : Nat) : List (Nat × Nat) → State → HRes (State × List Byte)
  | [], s => .ok (s, [])
  | (va, n) :: r, s => do
    let (s, d) ← hubReadPart s ag pasid va n
    let (s, b) ← hubReads ag pasid r s
    pure (s, d ++ b)

def agentRead (s : State) (ag : Agent) (pasid va n : Nat) : HRes (State × List Byte) := hubReads ag pasid (ranges va n) s

def hubRead (s : State) (pasid va n : Nat) : HRes (State × List Byte) := agentRead s hubAgent pasid va n

def hubWritePart (s : State) (ag : Agent) (pasid va : Nat) (d : List Byte) : HRes State := do
  let (s, t) ← hubPlace s ag pasid va true
  match t with
  | .here p => pure (s.writeAt p d)
  | .there x =>
    let l := hubParts true x.node (d.length / 4096 + 1) x.va d.length d
    let (s, _) ← hubTakes pasid l (l.foldl (fun s q => hubSend s pasid q) s)
    pure s

def hubWrites (ag : Agent) (pasid : Nat) : List (Nat × Nat) → List Byte → State → HRes State
  | [], _, s => .ok s
  | (va, n) :: r, d, s => do
    let s ← hubWritePart s ag pasid va (d.take n)
    hubWrites ag pasid r (d.drop n) s

def agentWrite (s : State) (ag : Agent) (pasid va : Nat) (d : List Byte) : HRes State := hubWrites ag pasid (ranges va d.length) d s

def hubWrite (s : State) (pasid va : Nat) (d : List Byte) : HRes State := agentWrite s hubAgent pasid va d

def hubRead64 (s : State) (pasid va : Nat) : HRes (State × Word) := do
  let (s, d) ← hubRead s pasid va 8
  pure (s, BitVec.ofNat 64 (ofLeBytes d))

/-- A write that the end of some work makes: one that faults is lost (log entry 33), one that waits holds up the work. -/
def noteDone (s : State) : HRes State → Work
  | .ok t => .ok t
  | .error (.fault _ _ t) => .ok (s.keep t)
  | .error (.wait t) => .error t

def hubNote (s : State) (pasid va : Nat) (d : List Byte) : Work := noteDone s (hubWrite s pasid va d)

/-- Add to a 64-bit word, atomically; at another module by an ATOMIC request. -/
def hubAdd (s : State) (pasid va : Nat) (v : Word) : Work :=
  noteDone s (do
    let (t, p) ← hubPlace s hubAgent pasid va true
    match p with
    | .here _ => do
      let (t, x) ← hubRead64 t pasid va
      hubWrite t pasid va (leBytes 8 (x + v).toNat)
    | .there d => do
      let q := hubRequest false d.node d.va 8 (leBytes 8 v.toNat)
      let (t, _) ← hubTake (hubSend t pasid q) pasid q
      pure t)

/-! ### Packets (R334 to R337) -/

def State.packet? (s : State) (id : Nat) : Option QPacket := s.packets.find? fun p => p.id == id

def QPacket.type (p : QPacket) : Nat := bits (p.words.getD 0 0) 7 0
def QPacket.bar (p : QPacket) : Bool := bit (p.words.getD 0 0) 9
def QPacket.sig (p : QPacket) : Bool := bit (p.words.getD 0 0) 10
def QPacket.len (p : QPacket) : Nat := bits (p.words.getD 0 0) 31 16

/-- A body word: one beyond the length reads as 0 (R336). -/
def QPacket.word (p : QPacket) (off : Nat) : Word := if off < 8 + 8 * p.len then p.words.getD (off / 8) 0 else 0

/-- The completion signal of a body: LAUNCH, JOB and COPY at 0x20, GRAPH at 0x18, SIGNAL and WAIT the word they name. -/
def QPacket.signal (p : QPacket) : Nat :=
  let t := p.type
  if t = 1 ∨ t = 2 ∨ t = 4 then (p.word 0x20).toNat else if t = 3 then (p.word 0x18).toNat else if t = 5 ∨ t = 6 then (p.word 0x08).toNat else 0

/-- A packet completes: its signal, if it has one, is decremented by 1 (R337). -/
def completePacket (s : State) (p : QPacket) : Work :=
  let s := { s with packets := s.packets.filter fun x => x.id != p.id }
  if p.sig ∧ p.signal ≠ 0 then hubAdd s p.pasid p.signal (-1) else .ok s

def completePacketId (s : State) (id : Nat) : Work := match s.packet? id with | some p => completePacket s p | none => .ok s

/-! ### Colophons (R341) -/

/-- What a colophon says of an end. -/
structure Verdict where
  status : Nat
  code : Nat
  sub : Nat
  bundle : Nat
  idx : Nat
deriving DecidableEq, Repr

def stOk : Nat := 0
def stLoadFail : Nat := 1
def stFault : Nat := 2
def stAborted : Nat := 3
def stWhileLimit : Nat := 4
def stBadPacket : Nat := 5
def stTableFull : Nat := 6
def stKilled : Nat := 7

def Verdict.of (status : Nat) : Verdict := { status := status, code := 0, sub := 0, bundle := 0, idx := 0 }

/-- Table 16.9. The measured energy is free (log entry 11). -/
def colophonBytes (s : State) (v : Verdict) (flags done exit : Nat) : List Byte :=
  leBytes 8 (fld v.status 56 + fld v.code 48 + fld (v.sub % 2 ^ 16) 32 + flags % 8) ++ leBytes 8 done ++ leBytes 8 (fld exit 32 + v.bundle % 2 ^ 11) ++
    leBytes 8 s.time ++ leBytes 8 (Config.energyOf s.fresh) ++ leBytes 8 v.idx ++ leBytes 16 0

def writeColophon (s : State) (pasid va : Nat) (v : Verdict) (flags done exit : Nat) : Work :=
  if va = 0 then .ok s else hubNote { s with fresh := s.fresh + 1 } pasid va (colophonBytes s v flags done exit)

/-! ### Removal of a gathering's contexts -/

/-- Drop the folios that cores hold for a gathering; a core that had an OWED entry for one finds it ABSENT (R50, R358). -/
def dropHeld (g : Nat) (k : Core) : Core :=
  let gone := (k.held.filter fun x => x.gath == g).map (·.folio)
  let k := gone.foldl (fun k f => if (k.folio f).pres = .owed then k.setFolio f { pres := .absent, dirty := false } else k) k
  { k with held := k.held.filter fun x => x.gath != g }

/-- Cores of this module that stand in the state. -/
def allCores (s : State) : List Nat := s.cores.cells.map (·.1)

/-- A core whose member is gone: it keeps what it holds for other contexts, the bytes of its scratchpad (R80), and its debugger. -/
def Core.vacate (k : Core) : Core := { Core.idle with scratch := k.scratch, held := k.held, debugger := k.debugger, powerGated := k.powerGated, energy := k.energy + 1 }

/-- The lists of a member leave the bank engines. -/
def endLists (l : List BankList) (s : State) : State := l.foldl endOnEngines s

/-- Timetabled packets of operations that have ended leave with them. -/
def dropTimetabled (l : List Op) (s : State) : State := { s with timetabled := s.timetabled.filter fun t => !(l.any fun o => o.id == t.op) }

/-- End a member on its core: its publish buffer is performed, its engines and lists are ended, its folios freed. -/
def endMember (s : State) (c : Nat) : State :=
  let s := endLists (s.core c).lists (performAll (settleAtomics s c) c)
  dropTimetabled (s.core c).ops (s.modCore c Core.vacate)

/-- Remove a gathering: on its cores, saved, and everywhere its folios are held. -/
def removeGath (s : State) (g : Nat) : State :=
  let s := (s.membersOf g).foldl endMember s
  let gone := s.saved.filter fun v => v.gath == g
  let s := dropTimetabled (gone.flatMap fun v => v.ops) (endLists (gone.flatMap fun v => v.lists) s)
  let s := (allCores s).foldl (fun s c => if (s.core c).held.any (fun x => x.gath == g) then s.modCore c (dropHeld g) else s) s
  { s with saved := s.saved.filter fun v => v.gath != g, gaths := s.gaths.filter fun x => x.id != g, vault := s.vault.filter fun x => x.gath != g, readies := s.readies.filter fun x => x.1 != g }

/-! ### Ends of jobs and graphs -/

def State.job? (s : State) (id : Nat) : Option Job := s.jobs.find? fun x => x.id == id
def State.setJob (s : State) (j : Job) : State := { s with jobs := s.jobs.map fun x => if x.id = j.id then j else x }

/-- Exit statuses other than 0 of the members that have halted. -/
def memberExits (s : State) (g : Gath) : List (Nat × Nat × BitVec 32) :=
  let here := ((s.membersOf g.id).filter fun c => (s.core c).run == .halted).map fun c => (g.jobidx, (s.core c).member.rank, (s.core c).exit)
  let away := (s.saved.filter fun v => v.gath == g.id && v.halted).map fun v => (g.jobidx, v.rank, v.exit)
  (here ++ away).filter fun x => x.2.2 != 0

/-- Excess of a gathering's measured energy over its estimate; the measure is free (log entry 11). -/
def excessOf (stamp : Nat) (g : Gath) : Nat := if g.admitted then Config.energyOf stamp - g.estimate else 0

/-- Reconciliation of a gathering that ends (R344): the excess is debited from the following windows and sets flag 2. -/
def settleEnergy (s : State) (g : Gath) : State := { s with budget := { s.budget with debt := s.budget.debt + excessOf s.fresh g } }
def endFlags (s : State) (g : Gath) : Nat := g.flags ||| (if 0 < excessOf s.fresh g then 4 else 0)

/-- What an ended instance adds to its job: its flags and exit statuses. -/
def Job.ends (j : Job) (s : State) (g : Gath) (exits : List (Nat × Nat × BitVec 32)) : Job := { j with flags := j.flags ||| endFlags s g, exits := j.exits ++ exits }

/-- A gathering ends: it is removed, its energy reconciled, and its job has its flags and exit statuses. -/
def retireGath (s : State) (g : Gath) : State :=
  let exits := memberExits s g
  let t := settleEnergy (removeGath s g.id) g
  let t := match g.owner.job.bind t.job? with | some j => t.setJob (j.ends t g exits) | none => t
  { t with fresh := t.fresh + 1 }

def retireGaths (l : List Nat) (s : State) : State := l.foldl (fun s id => match s.gath? id with | some g => retireGath s g | none => s) s

def jobGaths (s : State) (j : Nat) : List Nat := (s.gaths.filter fun g => g.owner.job == some j).map (·.id)

/-- What a job still runs is cancelled. -/
def cancelJob (s : State) (id : Nat) : State := retireGaths (jobGaths s id) s

def removeJob (s : State) (id : Nat) : State := { s with jobs := s.jobs.filter fun x => x.id != id }

/-- First non-zero exit status, by lowest instance and then lowest rank (Table 16.9). -/
def firstExit (l : List (Nat × Nat × BitVec 32)) : Nat :=
  let key := fun (x : Nat × Nat × BitVec 32) => x.1 * 512 + x.2.1
  match (l.filter fun x => x.2.2 != 0).foldl (fun a x => match a with
      | none => some x
      | some y => if key x < key y then some x else some y) none with
  | some x => x.2.2.toNat
  | none => 0

/-- Instances completed, as the JCB says, and the colophon's address. -/
def jobTail (s : State) (j : Job) : HRes (State × Nat × Nat) := do
  let (s, d) ← hubRead64 s j.pasid (j.jcb + 0x08)
  let (s, c) ← hubRead64 s j.pasid (j.jcb + 0x28)
  pure (s, d.toNat, c.toNat)

/-- The job's instances completed and its colophon; 0 where the JCB is not readable. -/
def jobDone (s : State) (j : Job) : Except State (State × Nat × Nat) :=
  match jobTail s j with
  | .ok x => .ok x
  | .error (.fault _ _ t) => .ok (s.keep t, 0, 0)
  | .error (.wait t) => .error t

/-- What an ended job adds to its graph. -/
def Graph.ends (g : Graph) (j : Job) (done : Nat) : Graph := { g with done := g.done + done, flags := g.flags ||| j.flags, exits := g.exits ++ j.exits }

/-- The jobs that a graph's other branches still run end with it: what they have completed counts (R341). -/
def cancelJobs : List Nat → State → Graph → Except State (State × Graph)
  | [], s, g => .ok (s, g)
  | id :: r, s, g =>
    let s := cancelJob s id
    match s.job? id with
    | none => cancelJobs r s g
    | some j => do
      let (s, done, _) ← jobDone s j
      cancelJobs r (removeJob s id) (g.ends j done)

/-- A graph ends: its jobs are cancelled, its colophon written, its packet completed (R343). -/
def endGraph (s : State) (g : Graph) (v : Verdict) : Work := do
  let (s, g) ← cancelJobs ((s.jobs.filter fun j => match j.graph with | some x => x.1 == g.id | none => false).map (·.id)) s g
  let s := { s with graphs := s.graphs.filter fun x => x.id != g.id }
  let s ← writeColophon s g.pasid g.colophon v g.flags g.done (firstExit g.exits)
  completePacketId s g.packet

def State.graph? (s : State) (id : Nat) : Option Graph := s.graphs.find? fun x => x.id == id
def State.setGraph (s : State) (g : Graph) : State := { s with graphs := s.graphs.map fun x => if x.id = g.id then g else x }

/-- A branch goes on at a node; a second branch starts at another, if it is not 0. The graph completes when none is left. -/
def branchTo (s : State) (g : Graph) (branch : Nat) (next : List Nat) : Work :=
  let others := g.branches.filter fun b => b.1 != branch
  let new := match next with
    | [] => []
    | a :: r => (branch, a) :: (r.zip (List.range r.length)).map fun x => (s.fresh + x.2, x.1)
  let g := { g with branches := others ++ new }
  let s := ({ s with fresh := s.fresh + next.length }).setGraph g
  if g.branches.isEmpty then endGraph s g (.of stOk) else .ok s

/-- A job ends: what it still runs is cancelled, its colophon is written, and its packet completes or its graph goes on. -/
def endJob (s : State) (j : Job) (v : Verdict) : Work := do
  let s := cancelJob (s.setJob j) j.id
  let j := (s.job? j.id).getD j
  let (s, done, colo) ← jobDone (removeJob s j.id) j
  let s ← writeColophon s j.pasid colo v j.flags done (firstExit j.exits)
  match j.packet, j.graph with
  | some p, _ => completePacketId s p
  | none, some (gid, branch) =>
    match s.graph? gid with
    | none => .ok s
    | some g =>
      let g := g.ends j done
      if v.status ≠ stOk then endGraph s g v
      else
        match (g.branches.find? fun b => b.1 == branch) with
        | none => .ok s
        | some (_, va) =>
          match hubRead s g.pasid va 24 with
          | .ok (s, n) =>
            let a := ofLeBytes ((n.drop 8).take 8)
            let b := ofLeBytes ((n.drop 16).take 8)
            branchTo s g branch (if b = 0 then [a] else [a, b])
          | .error (.fault code sub t) => endGraph (s.keep t) g { status := stFault, code := code, sub := sub, bundle := 0, idx := 0 }
          | .error (.wait t) => .error t
  | none, none => .ok s

/-! ### Ends of gatherings -/

/-- A gathering ends otherwise than by the halt of its members: a launch completes, a job ends (Table 16.8). -/
def failGath (s : State) (g : Gath) (v : Verdict) : Work :=
  let v := { v with idx := g.jobidx }
  let exits := memberExits s g
  let flags := endFlags s g
  let s := retireGath s g
  match g.owner.packet, g.owner.job with
  | some p, _ => do
    let s ← writeColophon s g.pasid g.colophon v flags 0 (firstExit exits)
    completePacketId s p
  | none, some j => match s.job? j with | some j => endJob s j v | none => .ok s
  | none, none => .ok s

/-- The fault that a member's record states: code, subcode and bundle (R353). -/
def gathFault (s : State) (g : Nat) : Option Record :=
  ((s.membersOf g).map fun c => (s.core c).slot 0).findSome? id

/-- A kill by the policy core: FAULT with a member's record, where one is FAULTED; else KILLED. -/
def killVerdict (s : State) (g : Nat) : Verdict :=
  match gathFault s g, (s.saved.filter fun v => v.gath == g).findSome? fun v => v.ep.slots.get none 0 with
  | some r, _ => { status := stFault, code := r.code, sub := r.sub, bundle := r.bundle, idx := 0 }
  | none, some r => { status := stFault, code := r.code, sub := r.sub, bundle := r.bundle, idx := 0 }
  | none, none => .of stKilled

def endWith (s : State) (gath : Nat) (v : Verdict) : Work := match s.gath? gath with | some g => failGath s g v | none => .ok s

def endAllWith (v : Verdict) : List Nat → State → Work
  | [], s => .ok s
  | g :: r, s => do
    let s ← endWith s g v
    endAllWith v r s

def killWith (s : State) (gath : Nat) (v : Verdict) : State := settleWork s (endWith s gath v)

/-- KILL_GATHERING (R353, Table 6.3). -/
def execKillGathering (gath : Nat) (s : State) : Host.Outcome State Fault Refusal := .next (killWith s gath (killVerdict s gath))

/-- What an ended instance adds to its job's block. -/
def instanceEnded (j : Job) (entry : Nat) : Job :=
  { j with blocks := j.blocks.map (fun b => if b.entry = entry then { b with ended := b.ended + 1 } else b) }

/-- A member has halted, and what it released has completed; a completed stream may leave entries that nothing reads. -/
def memberDone (k : Core) : Bool := k.run == .halted && k.lists.isEmpty && k.ops.all fun o => isFifoOp o.port && o.st == .follow

/-- A gathering whose members have all ended leaves: its launch completes, or its job counts an instance. -/
def endInstance (s : State) (g : Gath) : Work :=
  let exits := memberExits s g
  let flags := endFlags s g
  let t := retireGath s g
  match g.owner.packet, g.owner.job with
  | some p, _ => do
    let u ← writeColophon t g.pasid g.colophon (.of stOk) flags 1 (firstExit exits)
    completePacketId u p
  | none, some j => .ok (match t.job? j with | some x => t.setJob (instanceEnded x g.owner.block) | none => t)
  | none, none => .ok t

/-- INSTANCE_COMPLETE: every member has halted, and every engine operation and list they released has completed. The publish
buffers are performed as by a phase; a gathering that spans modules then meets the others as at FABRIC scope (R146). -/
def execInstanceComplete (gath : Nat) (s : State) : Host.Outcome State Fault Refusal :=
  match s.gath? gath with
  | none => .next s
  | some g =>
    let l := s.membersOf gath
    if g.state ≠ .running ∨ !(l.all fun c => memberDone (s.core c)) then .next s
    else
      let t := l.foldl (fun s c => performAll (settleAtomics s c) c) s
      let (t, met) := if g.span then fabricPhase t gath else (t, true)
      .next (if met then settleWork t (endInstance t g) else t)

/-! ### The end of a process (R50) -/

/-- PASID_TEARDOWN: steps 1 to 3, and the REVOKE of step 4, after which step 5 comes (R50); the walks of the PASID find no
tables. Nothing is reported to the process. -/
def execPasidTeardown (pasid : Nat) (s : State) : Host.Outcome State Fault Refusal :=
  let s := retireGaths ((s.gaths.filter fun g => g.pasid == pasid).map (·.id)) s
  .next (({ s with
    jobs := s.jobs.filter (fun j => j.pasid != pasid), graphs := s.graphs.filter (fun g => g.pasid != pasid), packets := s.packets.filter (fun p => p.pasid != pasid),
    checkpoint := s.checkpoint.filter (fun c => c.pasid != pasid), hubRuns := s.hubRuns.filter (fun x => x.pasid != pasid),
    qcbs := { cells := s.qcbs.cells.map fun x => if x.2.pasid = pasid then (x.1, { x.2 with state := 2 }) else x },
    pasids := s.pasids.set pasid { PasidBinding.none with tearing := true } } : State).addShoot { Shoot.own pasid with tear := true })

end Sys2Proof.Machine
end

