-- ==== Sys2Proof/Machine/Context.lean ====
section
/-!
DEFINITION. Presence and the context image (R355 to R360): folios, pushes and pulls; pre-emption and restore (R361 to R363);
and the debugger (R364).
-/

namespace Sys2Proof.Machine

/-! ### Folios (Table 18.6) -/

/-- The entries of a table with keys in [lo, hi). -/
def tabPart {α : Type} (t : Tab α) (lo hi : Nat) : Tab α := { cells := t.cells.filter fun c => decide (lo ≤ c.1) && decide (c.1 < hi) }

/-- A table with its keys in [lo, hi) replaced. -/
def tabReplace {α : Type} (t : Tab α) (lo hi : Nat) (u : Tab α) : Tab α :=
  u.cells.foldl (fun (t : Tab α) c => t.set c.1 c.2) { cells := t.cells.filter fun c => decide (c.1 < lo) || decide (hi ≤ c.1) }

/-- The state in folio S0. -/
def Arch.s0Part (a : Arch) : Arch := { Arch.entry with s := a.s, p := a.p, lat := a.lat, cfg := a.cfg, handles := a.handles, streams := a.streams }

/-- The state in folio S1. -/
def Arch.s1Part (a : Arch) : Arch := { Arch.entry with rings := a.rings, res := a.res, due := a.due }

/-- The state that is in no folio: it is saved in the sequencer block (Table 18.8), or, for what waits for a tag folio, beside it
(log entry 61). -/
def Arch.blockPart (a : Arch) : Arch :=
  { Arch.entry with pc := a.pc, count := a.count, loops := a.loops, calls := a.calls, lend := a.lend, jcmp := a.jcmp, fstat := a.fstat, tagOps := a.tagOps }

/-- Tiles of a folio: first and one past the last. -/
def folioTiles (shape f : Nat) : Nat × Nat := ((f - 36) * (4096 / tileBytes shape), (f - 36 + 1) * (4096 / tileBytes shape))

/-- What a core's folio holds. -/
def folioData (k : Core) (f : Nat) : Folio :=
  if f < 32 then .code (tabPart k.imem (64 * f) (64 * f + 64)) k.fill
  else if f = 32 then .s0 k.arch.s0Part
  else if f = 33 then .s1 k.arch.s1Part
  else if f < 36 then .vec (tabPart k.arch.v (32 * (f - 34)) (32 * (f - 34) + 32))
  else if f < 52 then .tile (tabPart k.tiles (4096 * (f - 36)) (4096 * (f - 36) + 4096)) (tabPart k.defined (folioTiles k.shape f).1 (folioTiles k.shape f).2)
  else if f < 60 then .latch (if f % 2 = 0 then k.klatch.get none ((f - 52) / 2) else none)
  else if f < 62 then .tags (tabPart k.arch.tags (512 * (f - 60)) (512 * (f - 60) + 512))
  else .scratch (tabPart k.scratch (4096 * (f - 61)) (4096 * (f - 61) + 4096))

/-- Put a folio's content into a register state. -/
def Arch.install (a : Arch) (f : Nat) : Folio → Arch
  | .s0 x => { a with s := x.s, p := x.p, lat := x.lat, cfg := x.cfg, handles := x.handles, streams := x.streams }
  | .s1 x => { a with rings := x.rings, res := x.res, due := x.due }
  | .vec t => { a with v := tabReplace a.v (32 * (f - 34)) (32 * (f - 34) + 32) t }
  | .tags t => { a with tags := tabReplace a.tags (512 * (f - 60)) (512 * (f - 60) + 512) t }.settleTags f
  | _ => a

/-- Put a folio's content into a core, live and in its snapshot. -/
def Core.install (k : Core) (f : Nat) (d : Folio) : Core :=
  let k := { k with arch := k.arch.install f d, snap := k.snap.install f d }
  match d with
  | .code t fill => { k with imem := tabReplace k.imem (64 * f) (64 * f + 64) t, fill := fill }
  | .tile t defs =>
    { k with tiles := tabReplace k.tiles (4096 * (f - 36)) (4096 * (f - 36) + 4096) t, defined := tabReplace k.defined (folioTiles k.shape f).1 (folioTiles k.shape f).2 defs }
  | .latch l => if f % 2 = 0 then { k with klatch := k.klatch.set ((f - 52) / 2) l } else k
  | .scratch t => { k with scratch := tabReplace k.scratch (4096 * (f - 61)) (4096 * (f - 61) + 4096) t }
  | _ => k

/-- Operations wait for a tag folio, so that it is dirty once it is PRESENT. -/
def Core.owesTags (k : Core) (f : Nat) : Bool := k.arch.tagOps.any fun o => o.folio == f

/-- Words of `n` bytes each from a table. -/
def tabBytes {w : Nat} (t : Tab (BitVec w)) (dflt : Nat → BitVec w) (lo count n : Nat) : List Byte :=
  (upto lo count).flatMap fun i => leBytes n (t.get (dflt i) i).toNat

/-- Exactly 4,096 bytes. -/
def fit4096 (b : List Byte) : List Byte := b.take 4096 ++ List.replicate (4096 - b.length) 0

/-- The bytes of a folio. The manual gives no layout for S0, S1 and latch folios (log entry 6). -/
def folioBytes (stamp f : Nat) : Folio → List Byte
  | .code t fill => tabBytes t (fun _ => fill) (64 * f) 64 64
  | .vec t => tabBytes t (fun _ => 0) (32 * (f - 34)) 32 128
  | .tags t => tabBytes t tagReset (512 * (f - 60)) 512 8
  | .scratch t => tabBytes t (fun _ => 0) (4096 * (f - 61)) 4096 1
  | .tile t _ => tabBytes t (fun _ => 0) (4096 * (f - 36)) 4096 1
  | _ => fit4096 (Config.folioImage stamp f)

/-- A table of words read from bytes. -/
def tabOfBytes {w : Nat} (dflt : Nat → BitVec w) (lo count n : Nat) (b : List Byte) : Tab (BitVec w) :=
  (List.range count).foldl (fun (t : Tab (BitVec w)) i => t.put (dflt (lo + i)) (lo + i) (BitVec.ofNat w (leField b (n * i) n))) .empty

/-- The content that a folio's bytes stand for; `kept` is what this module pushed as these bytes. Where the manual gives no
layout, other bytes stand for a free content, and other tile bytes for defined tiles (log entry 6). -/
def folioOfBytes (f shape : Nat) (fill : BitVec 512) (kept : Option Folio) (b : List Byte) : Folio :=
  if f < 32 then .code (tabOfBytes (fun _ => fill) (64 * f) 64 64 b) fill
  else if f = 34 ∨ f = 35 then .vec (tabOfBytes (fun _ => 0) (32 * (f - 34)) 32 128 b)
  else if f = 60 ∨ f = 61 then .tags (tabOfBytes tagReset (512 * (f - 60)) 512 8 b)
  else if 62 ≤ f then .scratch (tabOfBytes (fun _ => 0) (4096 * (f - 61)) 4096 1 b)
  else kept.getD
    (if f = 32 then .s0 (unknownArch b).s0Part
     else if f = 33 then .s1 (unknownArch b).s1Part
     else if f < 52 then
       .tile (tabOfBytes (fun _ => 0) (4096 * (f - 36)) 4096 1 b)
         ((upto (folioTiles shape f).1 ((folioTiles shape f).2 - (folioTiles shape f).1)).foldl (fun (t : Tab Bool) i => t.set i true) .empty)
     else .latch (unknownLatch b))

/-! ### Locations (Table 18.7) -/

def MapEntry.loc (e : MapEntry) : Loc := { kind := e.kind, node := e.node, addr := e.addr }

/-- Whether a device range of `n` bytes lies in the memory of a location kind. -/
def locMapped (kind a n : Nat) : Bool := let m := if kind = 1 then 2 else 5; kindHolds m a && kindHolds m (a + n - 1)

/-- A location that refuses an access: FABRIC_UNREACHABLE where its module does not answer. -/
def refused (s : State) : HStop := .fault cTranslate 6 s

/-- A location of kind 2: at the node of a member module (R23), under the save PASID (log entry 6). -/
def farLoc (s : State) (write : Bool) (l : Loc) (n : Nat) (b : List Byte) : HRes (State × List Byte) :=
  if mayReach s s.members l.node then
    let q := hubParts write l.node (n / 4096 + 1) l.addr n b
    hubTakes s.savePasid q (q.foldl (fun s q => hubSend s s.savePasid q) s)
  else .error (.fault cUnreachable 1 s)

/-- Write bytes to a location. -/
def writeLoc (s : State) (l : Loc) (b : List Byte) : HRes State :=
  if l.kind = 0 then hubWrite s s.savePasid l.addr b
  else if l.kind = 2 then (farLoc s true l b.length b).map (·.1)
  else if l.kind ≤ 3 ∧ locMapped l.kind l.addr b.length = true then .ok (s.writeAt { host := false, addr := l.addr } b)
  else .error (refused s)

/-- Read 4,096 bytes of a location. -/
def readLoc (s : State) (pasid : Nat) (l : Loc) : HRes (State × List Byte) :=
  if l.kind = 0 then hubRead s pasid l.addr 4096
  else if l.kind = 2 then farLoc s false l 4096 []
  else if l.kind ≤ 3 ∧ locMapped l.kind l.addr 4096 = true then .ok (s, s.readAt { host := false, addr := l.addr } 4096)
  else .error (refused s)

/-- What a member's folio held when this module pushed it as these bytes; the manual gives no layout for its content. -/
def vaultFind (s : State) (g r f : Nat) (b : List Byte) : Option Folio :=
  (s.vault.find? fun x => x.gath == g && x.rank == r && x.folio == f && x.bytes == b).map (·.data)

def vaultPut (s : State) (x : Held) : State :=
  let b := folioBytes x.stamp x.folio x.data
  { s with vault := { gath := x.gath, rank := x.rank, folio := x.folio, bytes := b, data := x.data } ::
      s.vault.filter fun y => !(y.gath == x.gath && y.rank == x.rank && y.folio == x.folio && y.bytes == b) }

/-! ### The layout of what is saved -/

/-- A map entry's 16 bytes (Table 18.7). -/
def MapEntry.bytes (e : MapEntry) : List Byte := leBytes 8 e.addr ++ leBytes 8 (fld e.digest.toNat 32 + fld (e.kind % 16) 28 + fld (e.node % 2 ^ 15) 13 + fld (e.core % 512) 4)

/-- A record slot's 64 bytes (Table 18.3); a free slot has valid 0. -/
def slotBytes : Option Record → List Byte
  | some r => r.words.flatMap (leBytes 8)
  | none => List.replicate 64 0

/-- The 4 KiB of an endpaper (Table 18.5). -/
def Endpaper.bytes (p : Endpaper) (m : Member) : List Byte :=
  leBytes 8 (fld 0x5A4C4550 32 + 1) ++ leBytes 8 (fld (m.ctx % 2 ^ 32) 32 + m.gath % 2 ^ 32) ++
    leBytes 8 (fld (m.pasid % 2 ^ 20) 32 + fld (p.coreid % 512) 23 + fld (m.rank % 512) 14 + p.state % 4) ++
    leBytes 8 p.seqblk ++ leBytes 8 p.engblk ++ leBytes 8 p.ibase ++ leBytes 8 (fld (p.ikind % 16) 60 + fld (p.inode % 2 ^ 15) 45) ++ leBytes 8 p.gen ++
    List.replicate 0xC0 0 ++ ((List.range 141).flatMap fun f => (p.map.get .zero f).bytes) ++ List.replicate 0x30 0 ++
    (List.range 24).flatMap fun n => slotBytes (p.slots.get none n)

/-- A loop-stack entry (Table 10.2). -/
def Loop.bytes (l : Loop) : List Byte := leBytes 8 (fld l.idx.toNat 32 + l.count.toNat) ++ leBytes 8 (fld l.stop.toNat 16 + l.start.toNat)

/-- Bytes filled with zeros to a length. -/
def padTo (n : Nat) (b : List Byte) : List Byte := b.take n ++ List.replicate (n - b.length) 0

/-- The sequencer block (Table 18.8); a call stack's latest entry is its last (log entry 6). -/
def seqBytes (a : Arch) (wdog : Option Nat) (shape : Nat) : List Byte :=
  padTo 0x400 (padTo 0x80 (leBytes 8 a.pc.toNat ++ leBytes 8 a.count ++ padTo 0x60 (a.loops.flatMap Loop.bytes) ++ padTo 0x10 (a.calls.reverse.flatMap fun x => leBytes 2 x.toNat)) ++
    leBytes 8 a.lend.toNat ++ leBytes 8 a.jcmp.toNat ++ leBytes 8 a.fstat.toNat ++ leBytes 8 (wdog.getD 0) ++ leBytes 8 shape)

def joinBytes (joins : Tab (BitVec 32)) : List Byte := (List.range 16).flatMap fun j => leBytes 4 (joins.get 0 j).toNat

/-- The engine block: the counters and `ce.stat` stand at its start; how the operations and lists stand in their ranges is
not given, so that those bytes are free (log entry 6). -/
def engBytes (stamp : Nat) (joins : Tab (BitVec 32)) (ceStat : Word) : List Byte :=
  padTo 0x400 (padTo 0x80 (joinBytes joins ++ leBytes 8 ceStat.toNat) ++ padTo 0x320 (Config.folioImage stamp 141))

/-! ### The endpaper of a member, saved or resident -/

def savedMember (s : State) (g r : Nat) : Option Saved := s.saved.find? fun v => v.gath == g && v.rank == r

def memberEp (s : State) (g r : Nat) : Option Endpaper :=
  match savedMember s g r with
  | some v => some v.ep
  | none => (memberCore s g r).map fun c => (s.core c).ep

def modEp (s : State) (g r : Nat) (f : Endpaper → Endpaper) : State :=
  match savedMember s g r with
  | some _ => { s with saved := s.saved.map fun v => if v.gath = g ∧ v.rank = r then { v with ep := f v.ep } else v }
  | none => match memberCore s g r with | some c => s.modCore c fun k => { k with ep := f k.ep } | none => s

/-- Counts made while the issuer of a list is saved stand in its written engine block (R108); a location that refuses them loses
them. -/
def writeJoins (s : State) (id : Nat) : Work :=
  match s.saved.find? fun v => hasList v.lists id with
  | some v => noteDone s (writeLoc s { kind := v.ep.ikind, node := v.ep.inode, addr := v.ep.engblk } (joinBytes v.joins))
  | none => .ok s

/-- BJOIN adds 1 to the issuer's counter (R115), live or in its saved engine block. -/
def execBjoin (j : BitVec 4) (s : State) : Host.Outcome State Fault Refusal :=
  match (s.bank s.eng).list, bankRun (bjoinStep j.toNat) s with
  | some (_, id), .next t => .next (match writeJoins t id with | .ok u => u | .error u => s.keep u)
  | _, x => x

/-- BANK_LIST_COMPLETE: a list that every engine has ended counts once (R108). -/
def execBankListComplete (core op : Nat) (s : State) : Host.Outcome State Fault Refusal :=
  match findList s op with
  | none => .next s
  | some l =>
    let counted := fun (d : Desk) => d.joins.put 0 l.j (d.joins.get 0 l.j + 1)
    if l.left ≠ 0 ∨ l.counted then .next s
    else
      match listCore s op with
      | some c => .next (if c = core then modDesk s op fun d => { d with lists := d.lists.filter fun x => x.id != op, joins := counted d } else s)
      | none => .next (settleWork s (writeJoins (modDesk s op fun d => { d.setList { l with counted := true } with joins := counted d }) op))

def Endpaper.entry (p : Endpaper) (f : Nat) : MapEntry := p.map.get .zero f
def Endpaper.setEntry (p : Endpaper) (f : Nat) (e : MapEntry) : Endpaper := { p with map := p.map.put .zero f e }

/-- Where a push goes (R360). -/
def pushLoc (p : Endpaper) (f : Nat) : Loc :=
  let e := p.entry f
  if e.kind < 4 then e.loc else { kind := p.ikind, node := p.inode, addr := p.ibase + 4096 * f }

/-! ### Pushes (R360) -/

def heldFolio (k : Core) (f : Nat) : Option Held := k.held.find? fun x => x.folio == f

/-- Copies of one member's folio. -/
def Held.same (x y : Held) : Bool := x.folio == y.folio && x.gath == y.gath && x.rank == y.rank

/-- The copy leaves the core, which another member's copy of that number does not (R295): a folio that no touch waits for is
ABSENT. -/
def unhold (k : Core) (h : Held) : Core :=
  let k := { k with held := k.held.filter fun x => !x.same h }
  if (k.folio h.folio).pres = .owed ∧ heldFolio k h.folio = none then k.setFolio h.folio { pres := .absent, dirty := false } else k

def noTiles : Folio → Bool
  | .tile _ defs => defs.cells.isEmpty
  | _ => false

/-- A push writes the bytes, computes the digest and rewrites the entry. A tile folio without a defined tile is entered
as undefined (kind 6). -/
def pushFolio (s : State) (x : Held) : HRes State :=
  match memberEp s x.gath x.rank with
  | none => .ok s
  | some p =>
    if noTiles x.data then .ok (modEp s x.gath x.rank fun p => p.setEntry x.folio { MapEntry.zero with kind := 6 })
    else do
      let l := pushLoc p x.folio
      let b := folioBytes x.stamp x.folio x.data
      let s ← writeLoc s l b
      pure (modEp (vaultPut s x) x.gath x.rank fun p => p.setEntry x.folio { addr := l.addr, digest := digest32 b, kind := l.kind, node := l.node, core := 0 })

def pullDetail (f : Nat) (e : MapEntry) : Nat := fld f 48 + fld e.kind 44 + fld e.node 29 + (if e.kind = 4 then fld e.core 20 else 0)

/-- The record of a failed push, in the owner's endpaper (Table 18.4). -/
def pushRecord (s : State) (c : Nat) (x : Held) (l : Loc) (sub : Nat) : Record :=
  let m := ((savedMember s x.gath x.rank).map (·.member)).getD (((memberCore s x.gath x.rank).map fun c => (s.core c).member).getD .zero)
  { code := cPushFail, sub := sub, cls := 0, coreid := c, whereAt := 15, bundle := 0, count := 0, port := 0, j := 0, progress := 0, mark := 0, addr := l.addr,
    detail := pullDetail x.folio { MapEntry.zero with kind := l.kind, node := l.node }, aux := 0, time := s.time, gathid := x.gath, ctxid := m.ctx, op := 0 }

/-- A push that fails: the copy is discarded, and its owner has the record and is killed (R351, R354, R360). -/
def pushFail (s : State) (c : Nat) (x : Held) (sub : Nat) : Work :=
  let l := match memberEp s x.gath x.rank with | some p => pushLoc p x.folio | none => MapEntry.zero.loc
  let s := modEp s x.gath x.rank fun p => { p with state := 3, slots := p.slots.set 0 (some (pushRecord s c x l sub)) }
  endWith (s.modCore c fun k => unhold k x) x.gath { status := stFault, code := cPushFail, sub := sub, bundle := 0, idx := 0 }

/-- A core's copy of a folio is pushed: subcode 1 where another module does not answer, 2 where the location refuses. -/
def pushOut (s : State) (c : Nat) (x : Held) : Work :=
  match pushFolio s x with
  | .ok t => .ok (t.modCore c fun k => unhold k x)
  | .error (.wait t) => .error t
  | .error (.fault code _ t) => pushFail (s.keep t) c x (if code = cUnreachable then 1 else 2)

/-- FOLIO_PUSH_COMPLETE: `err` 0, or the subcode of a failure; only a remote location can be unreachable (R355). -/
def execFolioPushComplete (core folio err : Nat) (s : State) : Host.Outcome State Fault Refusal :=
  match (s.core core).held.find? fun x => x.folio == folio && x.pushing with
  | none => .next s
  | some x =>
    let kind := match memberEp s x.gath x.rank with | some p => (pushLoc p folio).kind | none => 0
    if err = 0 then .next (settleWork s (pushOut s core x))
    else if err = 2 ∨ (err = 1 ∧ kind = 2) then .next (settleWork s (pushFail s core x err))
    else .next s

/-- BACKGROUND_PUSH of a dirty OWED folio. -/
def execBackgroundPush (core folio : Nat) (s : State) : Host.Outcome State Fault Refusal :=
  .next (s.modCore core fun k => { k with held := k.held.map fun x => if x.folio = folio ∧ x.dirty = true then { x with pushing := true } else x })

/-! ### Pulls (R359) -/

def pullFault (f : Nat) (e : MapEntry) (sub w : Nat) : CFault :=
  { code := cPullFail, sub := sub, whereAt := w, addr := if e.kind < 4 then e.addr else 0, detail := pullDetail f e, aux := 0 }

/-- The folio, as core × 141 + number, that the bundle at PC of core `d` waits for: its own, or a peer's that it reads. -/
def Core.awaits (k : Core) (d : Nat) : Option Nat :=
  if k.run ≠ .running then none
  else if k.freeze = .folio then k.waitVa.map fun f => 141 * d + f
  else if k.freeze = .peer then k.waitVa
  else none

/-- A core whose bundle waits for the folio, or waited for it when a pre-emption stopped it (Table 18.11), faults: its own core,
or a reader of the peer's scratchpad (R20). -/
def failCore (c f : Nat) (bad : CFault) (s : State) (d : Nat) : State :=
  let k := s.core d
  if k.awaits d = some (141 * c + f) then takeCoreFault s d { bad with whereAt := k.waitAt }
  else if k.run ≠ .running then s
  else
    match k.stalled with
    | some (x, part, bundle, count) => if x = 141 * c + f then takeFault s d { bad with whereAt := part } bundle count else s
    | none => s

/-- Members of an `mcast` that wait for the folio fail alone, each once (R144). -/
def failMembers (c f : Nat) (bad : CFault) (d : Nat) (s : State) (o : Op) : State :=
  let waits := (o.late.filter fun x => x.2.1 == c && (lateFolios o x.2.2.1 x.2.2.2.length).contains f).map (·.1)
  let counts := (o.taken.filter fun x => x.2.1 == c && (spadFolios (ceSw o) 16).contains f).map (·.1)
  (waits ++ counts).eraseDups.foldl (fun s n => failMember d o.id n cPullFail bad.sub s) s

/-- An operation that waits for the folio as its own source or destination parks. -/
def failOp (c f : Nat) (bad : CFault) (d : Nat) (s : State) (o : Op) : State :=
  let s := failMembers c f bad d s o
  if !o.want.contains (c, f) then s
  else match s.op d o.id with
    | some o => unitFault (parkOp s d o { bad with whereAt := 15 }) d o (.fault bad)
    | none => s

def failBank (c f : Nat) (bad : CFault) (s : State) (e : Nat) : State :=
  if (s.bank e).wait = .folio c f then parkBank s e cPullFail bad.sub else s

/-- A pull fails: the folio is ABSENT, and each toucher has the fault. -/
def pullFail (s : State) (c f sub : Nat) : State :=
  let bad := pullFault f ((s.core c).ep.entry f) sub 15
  let s := s.modCore c fun k => k.setFolio f { pres := .absent, dirty := false }
  let s := (allCores s).foldl (failCore c f bad) s
  let s := (allCores s).foldl (fun s d => (s.core d).ops.foldl (failOp c f bad d) s) s
  (s.banks.cells.map (·.1)).foldl (failBank c f bad) s

/-- A walk of a pulled S0's handle: none while it waits for a page that migrates (R47). -/
def s0Walk (s : State) (die pasid : Nat) (h : Handle) : Option (State × Handle) :=
  match rewalkFor s die pasid h with
  | .ok x => some x
  | .error (.fault ..) => some (dropFaulted s die pasid h.va, { h with valid := false })
  | .error _ => if s.walkTimedOut die pasid h.va then some (dropFaulted (s.forgetTimeOut die pasid h.va) die pasid h.va, { h with valid := false }) else none

/-- The handles of a pulled S0 are re-walked before it is PRESENT; a failed walk leaves its handle invalid (Table 2.10). -/
def rewalkHandles (die pasid : Nat) : List Nat → State → Arch → Option (State × Arch)
  | [], s, a => some (s, a)
  | n :: r, s, a =>
    if (a.handle n).valid = false then rewalkHandles die pasid r s a
    else
      match s0Walk s die pasid (a.handle n) with
      | none => none
      | some (s, h) => rewalkHandles die pasid r s (a.setHandle n h)

/-- What a pulled folio holds once it is PRESENT: none while a handle's page is waited for. -/
def pulledData (s : State) (die pasid : Nat) : Folio → Option (State × Folio)
  | .s0 a => (rewalkHandles die pasid (List.range 32) s a).map fun x => (x.1, .s0 x.2)
  | d => some (s, d)

/-- Bytes of an instruction folio: beyond the kernel's last bundle stands the fill (R225). -/
def codeBytes (m : Member) (fill : BitVec 512) (f : Nat) (b : List Byte) : List Byte :=
  let n := 64 * (min 64 (m.bundles - 64 * f))
  b.take n ++ tabBytes (Tab.empty : Tab (BitVec 512)) (fun _ => fill) 0 (64 - n / 64) 64

/-- How a pull comes out. -/
inductive Pulled where
  | wait (s : State)
  | fail (s : State) (sub : Nat)
  | ok (s : State) (d : Folio)

/-- A pull of a member's folio to a core. An entry of kind 4 first has the holder push its copy. -/
def pullFolio (s : State) (c : Nat) (m : Member) (ep : Endpaper) (shape : Nat) (fill : BitVec 512) (f : Nat) : Pulled :=
  let e := ep.entry f
  let done := fun (s : State) (d : Folio) => match pulledData s (dieOf c) m.pasid d with | some (t, d) => Pulled.ok t d | none => .wait s
  if e.kind = 4 then
    if (heldFolio (s.core e.core) f).isNone then .wait s
    else .wait (s.modCore e.core fun h => { h with held := h.held.map fun x => if x.folio = f ∧ x.gath = m.gath ∧ x.rank = m.rank then { x with pushing := true } else x })
  else if e.kind = 5 then
    if f = 34 ∨ f = 35 then .ok s (.vec .empty) else if 62 ≤ f then .ok s (.scratch .empty) else .fail s 2
  else if e.kind = 6 then (if 36 ≤ f ∧ f < 52 then .ok s (.tile .empty .empty) else .fail s 2)
  else if 6 < e.kind then .fail s 2
  else
    match readLoc s (if f < 32 then m.pasid else s.savePasid) e.loc with
    | .error (.wait t) => .wait (s.keep t)
    | .error (.fault _ _ t) => .fail (s.keep t) 1
    | .ok (t, b) =>
      let b := if f < 32 then codeBytes m fill f b else b
      if digest32 b ≠ e.digest then .fail t 2 else done t (folioOfBytes f shape fill (vaultFind t m.gath m.rank f b) b)

/-- The member whose pull of the folio was IN_FLIGHT when it left the core (R361). -/
def leftPull (s : State) (c f : Nat) : Option Saved := s.saved.find? fun v => v.coreid == c && v.pulls.contains f

/-- The pull of a member that has left is over. -/
def endLeftPull (s : State) (v : Saved) (f : Nat) : State :=
  { s with saved := s.saved.map fun x => if x.gath = v.gath ∧ x.rank = v.rank then { x with pulls := x.pulls.filter fun p => p != f } else x }

/-- It ends as a clean copy that the core holds for its owner (Table 18.9), unless the core's own member has taken the
folio. -/
def holdLeft (s : State) (c f : Nat) (v : Saved) (d : Folio) : State :=
  (endLeftPull { s with fresh := s.fresh + 1 } v f).modCore c fun k =>
    let p := (k.folio f).pres
    if k.run ≠ .off ∧ (p = .present ∨ p = .inFlight) then k
    else
      let k := { k with held := { gath := v.gath, rank := v.rank, folio := f, data := d, dirty := false, stamp := s.fresh, pushing := false } :: k.held }
      if k.run = .off then k else k.setFolio f { pres := .owed, dirty := false }

/-- FOLIO_PULL_COMPLETE: of a member that has left the core with the pull IN_FLIGHT, or of the one that it runs. -/
def execFolioPullComplete (core folio : Nat) (s : State) : Host.Outcome State Fault Refusal :=
  let k := s.core core
  if (heldFolio k folio).isSome then .next s
  else
    match leftPull s core folio with
    | some v =>
      .next (match pullFolio s core v.member v.ep v.shape k.fill folio with
        | .wait t => t
        | .fail t _ => endLeftPull t v folio
        | .ok t d => holdLeft t core folio v d)
    | none =>
      if k.run = .off ∨ (k.folio folio).pres ≠ .inFlight then .next s
      else
        .next (match pullFolio s core k.member k.ep k.shape k.fill folio with
          | .wait t => t
          | .fail t sub => pullFail t core folio sub
          | .ok t d => t.modCore core fun k => (k.install folio d).setFolio folio { pres := .present, dirty := k.owesTags folio })

/-- PULL_TIMEOUT: only a remote location can stay silent (R355). -/
def execPullTimeout (core folio : Nat) (s : State) : Host.Outcome State Fault Refusal :=
  let k := s.core core
  if k.run ≠ .off ∧ (k.folio folio).pres = .inFlight ∧ (heldFolio k folio).isNone ∧ (k.ep.entry folio).kind = 2 then .next (pullFail s core folio 1) else .next s

/-! ### Pre-emption (R361) -/

/-- Loads and atomics of a snapshot that are still due are performed at their homes. -/
def settleDue (s : State) (c : Nat) : State :=
  (s.core c).snap.due.foldl (fun s d => match d.req with | .none => s | .xlt .. => s | _ => lateArrival s c d.tag) s

/-- Entries of a stream that were delivered and not popped before the mark are fetched again after the restore (R318);
one before a decode error is read again, not delivered as zeros. -/
def rewindStream (k : Core) (o : Op) : Op :=
  if isFifoOp o.port then
    let n := max o.counted o.prog
    let p := o.prog - ((k.popped ++ k.fifo).filter fun e => e.op == o.id).length
    { o with prog := p, counted := n, err := if p + o.failed.length < n then none else o.err }
  else o

/-- An engine operation as the engine block holds it: at a unit boundary. A unit that waits or is parked keeps what other
modules have answered it, so that it does not ask again (log entry 60). -/
def Op.saved (o : Op) : Op := { o with waiting := false, want := [], st := match o.st with | .running => .queued | x => x }

/-- A list that no engine has started leaves the queues and is recorded; a running one is detached (R108). -/
def detachList (s : State) (l : BankList) : State := if l.started then s else endOnEngines s l
def BankList.saved (l : BankList) : BankList := if l.started then { l with detached := true } else l

/-- Default place of a member's image (log entry 6). -/
def defaultBase (m : Member) : Nat := 0x100000000 + (m.gath * 384 + m.rank) * 0x100000

/-- What the command processor writes into an endpaper at a save (R355): a kind-0 location, unless the policy core has
chosen another. -/
def saveEndpaper (c : Nat) (k : Core) : Endpaper :=
  let p := if k.ep.chosen then k.ep else { k.ep with ibase := defaultBase k.member, ikind := 0, inode := 0 }
  { p with gen := p.gen + 1, coreid := c, state := 1, seqblk := p.ibase + 4096 * 141, engblk := p.ibase + 4096 * 141 + 1024 }

/-- Every PRESENT folio is OWED: held with its dirty bit, and its entry names this core; but for a tile folio whose tiles are all
undefined, which is dropped (R276). -/
def holdFolios (stamp : Nat) (k : Core) : List Held :=
  (List.range 141).filterMap fun f =>
    if (k.folio f).pres = .present ∧ noTiles (folioData k f) = false then
      some { gath := k.member.gath, rank := k.member.rank, folio := f, data := folioData k f, dirty := (k.folio f).dirty, stamp := stamp + f, pushing := false }
    else none

/-- A dropped tile folio is entered as undefined (kind 6). -/
def dropMap (k : Core) (p : Endpaper) : Endpaper :=
  (upto 36 16).foldl (fun p f => if (k.folio f).pres = .present ∧ (k.folio f).dirty = true ∧ noTiles (folioData k f) = true then p.setEntry f { MapEntry.zero with kind := 6 } else p) p

def owedMap (s : State) (c : Nat) (l : List Held) (p : Endpaper) : Endpaper :=
  l.foldl (fun p x => if x.dirty then p.setEntry x.folio { MapEntry.zero with kind := 4, node := s.node (dieOf c), core := c } else p) p

/-- The part of a member that the eager blocks and folio 0 hold (Table 18.8), and what the command processor keeps of it
beside them (log entry 61). -/
def savedOf (c : Nat) (k : Core) (p : Endpaper) : Saved :=
  { gath := k.member.gath, rank := k.member.rank, member := k.member, coreid := c, arch := k.arch.blockPart, phaseDone := k.phaseDone, shape := k.shape,
    joins := k.joins, ceStat := k.ceStat, wdog := k.wdog, ops := k.ops.map fun o => (rewindStream k o).saved, lists := k.lists.map BankList.saved,
    folio0 := tabPart k.scratch 0 0x1000, veDone := k.veDone, veMetric := k.veMetric, faulted := k.run == .faulted, halted := k.run == .halted, exit := k.exit, ep := p,
    pulls := (List.range 141).filter fun f => (k.folio f).pres == .inFlight }

/-- A walk that has not installed its handle runs again after the restore. -/
def Arch.walksAgain (a : Arch) : Arch := { a with due := a.due.map restartWalk }

/-- The folio that the bundle at PC waits for, the part that waits, and the bundle and its count. -/
def Core.stall (k : Core) (c : Nat) : Option (Nat × Nat × Nat × Nat) := (k.awaits c).map fun f => (f, k.waitAt, k.arch.pc.toNat, k.arch.count)

/-- Step 1: the member stops issuing and rolls back, once. -/
def stopMember (s : State) (c : Nat) : State :=
  if (s.core c).stopping then s
  else (withdrawFabric s c).modCore c fun k => { (if k.run = .faulted ∨ k.run = .halted then k else k.rollback) with stopping := true, stalled := k.stall c }

/-- Steps 2 and 3: results still due, and the publish buffer. -/
def drainMember (s : State) (c : Nat) : State := performAll (settleDue s c) c

/-- Step 4: a unit that has asked other modules is finished where it can be. -/
def finishUnits (s : State) (c : Nat) : State :=
  (s.core c).ops.foldl (fun s o => if o.runs.isEmpty ∨ isFifoOp o.port = true then s else stepOp s c o.id) s

/-- No operation of a core waits for an answer. -/
def unitsSettled (k : Core) : Bool := k.ops.all fun o => o.runs.all fun r => r.answer.isSome

/-- Step 4, lists; and the state that is saved. -/
def haltMember (s : State) (c : Nat) : State :=
  let s := s.modCore c fun k => if k.run = .halted then k else { k with arch := k.snap.walksAgain }
  (s.core c).lists.foldl detachList s

/-- Step 6: the sequencer and engine blocks, folio 0 and the endpaper are written (log entry 6); a location that refuses them
loses them. -/
def writeEager (s : State) (v : Saved) : Work := do
  let loc := fun (a : Nat) => ({ kind := v.ep.ikind, node := v.ep.inode, addr := a } : Loc)
  let s ← noteDone s (writeLoc s (loc v.ep.seqblk) (seqBytes v.arch v.wdog v.shape))
  let s ← noteDone s (writeLoc s (loc v.ep.engblk) (engBytes s.fresh v.joins v.ceStat))
  let s ← noteDone s (writeLoc s (loc (v.ep.ibase + 4096 * 142)) (tabBytes v.folio0 (fun _ => 0) 0 4096 1))
  noteDone s (writeLoc s (loc (v.ep.ibase + 4096 * 143)) (v.ep.bytes v.member))

/-- Steps 5 and 6 for one member: the core is vacated, and holds the folios. The debugger of a halted core is told (R364). -/
def saveMember (s : State) (c : Nat) : Work := do
  let k := s.core c
  let own := holdFolios s.fresh k
  let v := savedOf c k (owedMap s c own (dropMap k (saveEndpaper c k)))
  let s ← writeEager s v
  let s := { s with saved := s.saved ++ [v], fresh := s.fresh + 142, hostOut := s.hostOut ++ (if k.debugHalt then [HostMsg.preempted c] else []) }
  pure (s.modCore c fun k => { k.vacate with held := own ++ k.held })

def saveMembers : List Nat → State → Work
  | [], s => .ok s
  | c :: r, s => do
    let s ← saveMember s c
    saveMembers r s

/-- Pre-empt a gathering as a whole: every member stops and settles before any is saved. -/
def preempt (s : State) (g : Gath) : Work :=
  let l := s.membersOf g.id
  let s := l.foldl finishUnits (l.foldl drainMember (l.foldl stopMember s))
  if l.all fun c => unitsSettled (s.core c) then
    match saveMembers l (l.foldl haltMember s) with
    | .ok t => .ok (t.setGath { g with state := .saved, on := [], fabric := ((t.gath? g.id).map (·.fabric)).getD g.fabric })
    | .error t => .error (s.keep t)
  else .error s

/-- PREEMPT_REQUEST. While an operation waits for another module's answer the members are stopped, and the request is made
again. -/
def execPreemptRequest (gath : Nat) (s : State) : Host.Outcome State Fault Refusal :=
  match s.gath? gath with
  | some g => .next (if g.state = .running then (match preempt s g with | .ok t => t | .error t => t) else s)
  | none => .next s

/-! ### Restore (R363) -/

/-- A load still due from a peer names the core that now holds that member. -/
def movePeer (old : List (Nat × Nat)) (on : List Nat) (d : Due) : Due :=
  match d.req with
  | .peer e off size sx => { d with req := .peer ((old.find? fun x => x.1 == e).elim e fun x => on.getD x.2 e) off size sx }
  | _ => d

/-- So does what the core, another core or the vault keeps of the gathering's S1 folios. -/
def Folio.movePeers (old : List (Nat × Nat)) (on : List Nat) : Folio → Folio
  | .s1 a => .s1 { a with due := a.due.map (movePeer old on) }
  | d => d

/-- The state of every map entry of the core (step 2); a pull that is still IN_FLIGHT there goes on. -/
def restoreFolios (a : Arch) (own : List Held) (others : List Held) (pulls : List Nat) : Tab FolioState :=
  (List.range 141).foldl (fun (t : Tab FolioState) f =>
    let x : FolioState := match own.find? fun h => h.folio == f with
      | some h => { pres := .present, dirty := h.dirty || a.tagOps.any fun o => o.folio == f }
      | none => { pres := if pulls.contains f then .inFlight else if others.any fun h => h.folio == f then .owed else .absent, dirty := false }
    t.set f x) .empty

/-- A recorded list joins the queues of the member's die again; one that has ended without a start does not (R108). -/
def requeueList (c : Nat) (s : State) (l : BankList) : State := if l.started ∨ l.left = 0 then s else enqueueList c l.id (listEngines l.stack l.mask) s

/-- A list restored with its member. One that has not started starts again on the same stack of the member's new die (DESIGN
CHOICE, log entry 21). -/
def BankList.restored (c : Nat) (l : BankList) : BankList :=
  if l.started then { l with detached := false } else { l with stack := 2 * dieOf c + l.stack % 2 }

/-- A granule that a member of an `mcast` has still to take, or to count, goes to the core that holds the member now. -/
def Op.restored (c : Nat) (o : Op) : Op :=
  let at' := fun (n e : Nat) => ((mcastMembers c o).find? fun m => m.1 == n).elim e (·.2)
  { o with late := o.late.map (fun x => (x.1, at' x.1 x.2.1, x.2.2)), taken := o.taken.map fun x => (x.1, at' x.1 x.2.1, x.2.2) }

def restoreCore (v : Saved) (k : Core) (c : Nat) : Core :=
  let own := k.held.filter fun x => x.gath == v.gath && x.rank == v.rank
  let others := k.held.filter fun x => !(x.gath == v.gath && x.rank == v.rank)
  let b : Core :=
    { k.vacate with
      held := others, arch := v.arch, snap := v.arch, marked := true, phaseDone := v.phaseDone, shape := v.shape, joins := v.joins, ceStat := v.ceStat, wdog := v.wdog,
      ops := v.ops.map (Op.restored c), lists := (v.lists.filter fun l => !l.counted).map (BankList.restored c), scratch := v.folio0, veDone := v.veDone, veMetric := v.veMetric, exit := v.exit, ep := { v.ep with coreid := c, state := if v.faulted then 2 else 0 },
      member := v.member, run := if v.faulted then .faulted else if v.halted then .halted else .running, folios := restoreFolios v.arch own others (if v.coreid = c then v.pulls else []) }
  own.foldl (fun k x => k.install x.folio x.data) b

/-- Restore one member on a core; the free fill of instruction memory is the loader's (R225). -/
def restoreMember (fill : BitVec 512) (s : State) (v : Saved) (c : Nat) : State :=
  let s := s.modCore c fun k => { restoreCore v k c with fill := fill }
  (s.core c).lists.foldl (requeueList c) s

/-- `b0: lit0 -> cu.trap` with lit0 = 0xFFFE (R225). -/
def fillBundle : BitVec 512 := BitVec.ofNat 512 (2 ^ 4 + (0x0A0 * 2 ^ 13 + 0x3E4 * 4) * 2 ^ 16 + 0xFFFE * 2 ^ 352)

/-- A core on which a member can be placed. -/
def freeCore (s : State) (c : Nat) : Bool :=
  decide (c < Config.cores) && (s.core c).run == .off && !(s.core c).powerGated && !s.deadDies.contains (dieOf c) && bit s.status (56 + dieOf c)

/-- Clean copies that other cores hold leave them: once the member runs elsewhere its image alone stands for such a folio. -/
def dropClean (g : Nat) (k : Core) : Core := (k.held.filter fun x => x.gath == g && !x.dirty).foldl (fun k x => unhold k x) k

/-- CONTEXT_RESTORE of every member of a saved gathering, on free cores by rank. -/
def execContextRestore (gath : Nat) (on : List Nat) (s : State) : Host.Outcome State Fault Refusal :=
  match s.gath? gath with
  | none => .next s
  | some g =>
    let vs := s.saved.filter fun v => v.gath == gath
    if g.state ≠ .saved ∨ on.length ≠ vs.length ∨ !on.Nodup ∨ !(on.all (freeCore s)) then .next s
    else
      let old := vs.map fun v => (v.coreid, v.rank)
      let t := vs.foldl (fun s v => restoreMember fillBundle s v (on.getD v.rank 0)) { s with saved := s.saved.filter fun v => v.gath != gath }
      let t := on.foldl (fun s c => s.modCore c fun k =>
        let f := fun (a : Arch) => { a with due := a.due.map (movePeer old on) }
        { k with arch := f k.arch, snap := f k.snap }) t
      let t := (allCores t).foldl (fun s c => s.modCore c fun k =>
        let k := dropClean gath k
        { k with held := k.held.map fun x => if x.gath = gath then { x with data := x.data.movePeers old on } else x }) t
      let t := { t with vault := t.vault.map fun (x : Kept) => if x.gath = gath then { x with data := x.data.movePeers old on } else x }
      .next (t.setGath { g with state := .running, on := on })

/-! ### The policy core and the debugger -/

/-- CORE_FAULT_RESUME; a module without its policy extension resolves no fault (R392). -/
def execCoreFaultResume (core : Nat) (s : State) : Host.Outcome State Fault Refusal := .next (if s.policyLoaded then resumeCore s core else s)

def execDebugAttach (core : Nat) (s : State) : Host.Outcome State Fault Refusal := .next (s.modCore core fun k => { k with debugger := true })

def execDebugHalt (core : Nat) (s : State) : Host.Outcome State Fault Refusal :=
  .next (s.modCore core fun k => if k.debugger then { k with debugHalt := true, stepping := false } else k)

/-- SINGLE_STEP of a halted core: the next bundle that issues halts it again. -/
def execSingleStep (core : Nat) (s : State) : Host.Outcome State Fault Refusal :=
  .next (s.modCore core fun k => if k.debugHalt then { k with stepping := true } else k)

def execDebugResume (core : Nat) (s : State) : Host.Outcome State Fault Refusal :=
  .next (s.modCore core fun k => { k with debugHalt := false, stepping := false })

end Sys2Proof.Machine
end

