-- ==== Sys2Proof/Machine/Command.lean ====
section
/-!
DEFINITION. The command processor (spec/16): queues and packets (R331 to R337), kernels and launches (R328 to R330), energy
admission (R344), jobs and distributors (R338, R339) and the graph walker (R342, R343).
-/

namespace Sys2Proof.Machine

/-! ### Queue control blocks (R331 to R334) -/

/-- Home slot of a queue (R332). -/
def qcbHome (pasid queue : Nat) : Nat := Nat.xor (pasid * 0x9E3779B1 % 2 ^ 32) (queue * 0x85EBCA77 % 2 ^ 32) % 4096

def State.qcb (s : State) (i : Nat) : Qcb := s.qcbs.get .free i
def State.setQcb (s : State) (i : Nat) (q : Qcb) : State := { s with qcbs := s.qcbs.put .free i q }

/-- The eight slots of a key. -/
def qcbSlots (pasid queue : Nat) : List Nat := (List.range 8).map fun i => (qcbHome pasid queue + i) % 4096

def qcbFind (s : State) (pasid queue : Nat) : Option Nat :=
  (qcbSlots pasid queue).find? fun i => (s.qcb i).state != 0 && (s.qcb i).pasid == pasid && (s.qcb i).queue == queue

/-- Management counters that the rules name. -/
def cntNotify : Nat := 0
/-- flits of a reserved type, by link -/
def cntReserved (port : Nat) : Nat := 16 + port
def cntArrival : Nat := 2
/-- corrected soft errors of a stack (R99) -/
def cntSoft (stack : Nat) : Nat := 64 + stack
def State.count (s : State) (n : Nat) : State := { s with counters := s.counters.put 0 n (s.counters.get 0 n + 1) }

/-- The window of R334. -/
def notifyOk (q : Qcb) (v : Nat) : Bool := decide ((v + 2 ^ 32 - q.rd) % 2 ^ 32 ≤ 2 ^ q.m) && decide ((v + 2 ^ 32 - q.wr) % 2 ^ 32 < 2 ^ 31)

/-- NOTIFY_WRITE. -/
def execNotifyWrite (aperture queue : Nat) (v : BitVec 32) (s : State) : Host.Outcome State Fault Refusal :=
  match (s.apertures.get none aperture).bind fun pasid => qcbFind s pasid queue with
  | none => .next (s.count cntNotify)
  | some i =>
    let q := s.qcb i
    if q.state = 1 ∧ notifyOk q v.toNat = true then .next (s.setQcb i { q with wr := v.toNat, stopped := false })
    else .next (s.setQcb i { q with rej := (q.rej + 1) % 2 ^ 32 })

/-! ### Packets (R334 to R337) -/

/-- Whether a body word or header holds a reserved bit, or a value its type does not allow (R335, R336). -/
def badPacket (p : QPacket) : Bool :=
  let h := p.words.getD 0 0
  let zero := fun (l : List Nat) => l.any fun o => p.word o != 0
  p.type == 0 || decide (10 ≤ p.type) || bits h 63 32 != 0 || bits h 15 11 != 0 || decide (7 < p.len) ||
    (if p.type = 1 ∨ p.type = 2 then
      bits (p.word 0x10) 30 9 != 0 || p.word 0x38 != 0 || bits (p.word 0x10) 8 0 == 0 || decide (224 < bits (p.word 0x28) 7 0) ||
        (bits (p.word 0x28) 7 0 != 0 && p.word 0x30 == 0)
    else if p.type = 3 then zero [0x20, 0x28, 0x30, 0x38]
    else if p.type = 4 then zero [0x28, 0x30, 0x38]
    else if p.type = 5 ∨ p.type = 6 then zero [0x18, 0x20, 0x28, 0x30, 0x38]
    else if p.type = 7 then zero [0x10, 0x18, 0x20, 0x28, 0x30, 0x38]
    else if p.type = 8 then bits (p.word 0x10) 31 2 != 0 || bit (p.word 0x10) 0
    else false)

/-- The colophon a packet names: a JOB's stands in its JCB. -/
def packetColophon (s : State) (p : QPacket) : Except State (State × Nat) :=
  if p.type = 1 then .ok (s, (p.word 0x18).toNat)
  else if p.type = 2 then
    (match hubRead64 s p.pasid ((p.word 0x18).toNat + 0x28) with
     | .ok (t, c) => .ok (t, c.toNat)
     | .error (.fault _ _ t) => .ok (s.keep t, 0)
     | .error (.wait t) => .error t)
  else if p.type = 3 then .ok (s, (p.word 0x10).toNat)
  else if p.type = 8 then .ok (s, (p.word 0x28).toNat)
  else .ok (s, 0)

/-- Complete a packet at once with a status (R335). -/
def refusePacket (s : State) (p : QPacket) (v : Verdict) : Work := do
  let (s, c) ← packetColophon s p
  let s ← writeColophon s p.pasid c v 0 0 0
  completePacket s p

/-- The slot at rd. -/
def slotVa (q : Qcb) : Nat := q.ring + 64 * (q.rd % 2 ^ q.m)

/-- Whether the hub holds a translation of the slot with which it can read and clear it. -/
def slotCached (s : State) (q : Qcb) : Bool :=
  match cacheFind s 4 q.pasid (slotVa q) with
  | some x => (leafCheck hubAgent x.leaf).isNone && leafDirty x.leaf && !leafCow x.leaf
  | none => false

/-- The eight words of a slot. -/
def slotWords (b : List Byte) : List Word := (List.range 8).map fun i => BitVec.ofNat 64 (leField b (8 * i) 8)

/-- A packet enters the queue's list, or is refused at once. -/
def acceptPacket (s : State) (p : QPacket) : Work := if badPacket p then refusePacket s p (.of stBadPacket) else .ok { s with packets := s.packets ++ [p] }

/-- PACKET_FETCH for the queue of a control block. Without a translation the fetcher asks for one (R333). -/
def execPacketFetch (slot : Nat) (s : State) : Host.Outcome State Fault Refusal :=
  let q := s.qcb slot
  if q.state ≠ 1 ∨ q.stopped = true ∨ q.rd = q.wr then .next s
  else if slotCached s q = false then .next (if q.outst = 0 then s.setQcb slot { q with outst := 1 } else s)
  else
    match hubRead s q.pasid (slotVa q) 64 with
    | .error e => .next (s.keep e.state)
    | .ok (t, b) =>
      let w := slotWords b
      let h := w.getD 0 0
      if bit h 8 = false then .next (s.setQcb slot { q with stopped := true })
      else
        match hubWrite t q.pasid (slotVa q) (leBytes 8 (h &&& ~~~ 0x100).toNat) with
        | .error e => .next (s.keep e.state)
        | .ok t =>
          let t := { t.setQcb slot { q with rd := (q.rd + 1) % 2 ^ 32 } with fresh := t.fresh + 1 }
          .next (settleWork s (acceptPacket t { id := s.fresh, slot := slot, pasid := q.pasid, words := w, started := false }))

/-- FETCHER_TRANSLATION_RETURN. -/
def execFetcherTranslationReturn (slot : Nat) (s : State) : Host.Outcome State Fault Refusal :=
  let q := s.qcb slot
  if q.outst = 0 ∨ q.state = 0 then .next s
  else if q.state = 2 then .next (removeDrained (s.setQcb slot { q with outst := q.outst - 1 }))
  else
    match hubLeaf s q.pasid (slotVa q) true with
    | .error (.wait t) => .next (s.keep t)
    | .error (.fault _ _ t) => .next ((s.keep t).setQcb slot { q with outst := q.outst - 1, stopped := true })
    | .ok (t, _) => .next (t.setQcb slot { q with outst := q.outst - 1 })

/-- The packets of a queue, in rd order, that have not completed. -/
def queuePackets (s : State) (slot : Nat) : List QPacket := s.packets.filter fun p => p.slot == slot

/-- Head packet: the first that has not been launched. -/
def headPacket (s : State) (slot : Nat) : Option QPacket := (queuePackets s slot).find? fun p => !p.started

/-- Every earlier packet of the queue has completed. -/
def isOldest (s : State) (p : QPacket) : Bool := match queuePackets s p.slot with | x :: _ => x.id == p.id | [] => false

/-- A head packet whose bar, if it has one, is lifted; a CHECKPOINT always waits (R387). -/
def isHead (s : State) (p : QPacket) : Bool :=
  (match headPacket s p.slot with | some x => x.id == p.id | none => false) && ((!p.bar && p.type != 8) || isOldest s p)

/-- A packet is launched: its queue's priority falls back, and its turn in the round robin is over (R337). -/
def launchPacket (s : State) (p : QPacket) : State :=
  let q := s.qcb p.slot
  let s := s.setQcb p.slot { q with cur := q.prio, turn := s.fresh }
  { s with fresh := s.fresh + 1, packets := s.packets.map fun x => if x.id = p.id then { x with started := true } else x }

/-! ### Placement (R328) and energy (R344) -/

def inService (s : State) : Nat := ((List.range 4).filter fun d => bit s.status (56 + d) && !s.deadDies.contains d).length * 96

def freeOn (s : State) (die : Nat) : List Nat := (upto (96 * die) 96).filter (freeCore s)

/-- Insert into a falling list. -/
def insertDesc (x : Nat) : List Nat → List Nat
  | [] => [x]
  | y :: r => if y ≤ x then x :: y :: r else y :: insertDesc x r

/-- How many of the largest are needed to reach n. -/
def takeLargest (n : Nat) : List Nat → Nat → Nat
  | [], k => k
  | x :: r, k => if n = 0 then k else takeLargest (n - x) r (k + 1)

def rising : List Nat → Bool
  | a :: b :: r => decide (a < b) && rising (b :: r)
  | _ => true

/-- Cores of a list in each quire of some dies. -/
def quireCounts (l : List Nat) (dies : List Nat) : List Nat :=
  ((List.range 32).filter fun q => dies.contains (q / 8)).map fun q => ((upto (12 * q) 12).filter l.contains).length

/-- Whole quires that n cores fill on some dies, and quires that they then touch: as many whole ones as there are, the rest on
the fewest (R328, R345). -/
def quireFill (s : State) (n : Nat) (dies : List Nat) : Nat × Nat :=
  let free := (quireCounts (dies.flatMap (freeOn s)) dies).foldr insertDesc []
  let w := min (n / 12) (free.filter fun x => x == 12).length
  (w, w + takeLargest (n - 12 * w) (free.drop w) 0)

def subsets : List Nat → List (List Nat)
  | [] => [[]]
  | x :: r => (subsets r).map (x :: ·) ++ subsets r

/-- Choices of k of some dies that have n free cores. -/
def dieChoices (s : State) (n k : Nat) (dies : List Nat) : List (List Nat) :=
  (subsets dies).filter fun l => l.length == k && decide (n ≤ (l.flatMap (freeOn s)).length)

/-- The first fill is at least as good: more whole quires, then fewer quires. -/
def fillsBefore (a b : Nat × Nat) : Bool := decide (b.1 < a.1) || (a.1 == b.1 && decide (a.2 ≤ b.2))

/-- Whether a placement among some dies meets R328: free cores in rising order, on the fewest dies, whole quires first, the
rest on the fewest quires. -/
def placementOk (s : State) (n : Nat) (among on : List Nat) : Bool :=
  let dies := (List.range 4).filter fun d => on.any fun c => dieOf c == d
  let best := takeLargest n ((among.map fun d => (freeOn s d).length).foldr insertDesc []) 0
  let used := quireCounts on dies
  on.length == n && rising on && on.all (freeCore s) && dies.all among.contains && dies.length == best &&
    (dieChoices s n best among).all fun l => fillsBefore ((used.filter fun x => x == 12).length, (used.filter fun x => x != 0).length) (quireFill s n l)

def fitsNow (s : State) (n : Nat) : Bool := decide (n ≤ ((List.range 4).flatMap (freeOn s)).length)

/-- Admission of an estimate against the window and the queue's cap (R344). -/
def energyOk (s : State) (slot est : Nat) : Bool :=
  let b := s.budget
  let q := s.qcb slot
  (decide (est ≤ b.left) || (decide (b.allowance < est) && b.empty)) && (q.ecap == 0 || decide (q.used + est ≤ q.ecap))

def debit (s : State) (slot est : Nat) : State :=
  let s := { s with budget := { s.budget with left := s.budget.left - est, empty := false } }
  s.setQcb slot { s.qcb slot with used := (s.qcb slot).used + est }

/-! ### Kernels (R329). The manual does not give the image's layout: log entry 26. -/

structure Kernel where
  bundles : List (BitVec 512)
  energy : Nat
  /-- scratchpad data and sync-word presets -/
  data : List (Nat × List Byte)

/-- Data segments: each a word of offset and length, then its bytes, padded to 8. -/
def readData (pasid : Nat) : Nat → Nat → State → HRes (State × List (Nat × List Byte))
  | 0, _, s => .ok (s, [])
  | n + 1, va, s => do
    let (s, w) ← hubRead64 s pasid va
    let len := min (bits w 63 32) Config.scratchBytes
    let (s, d) ← hubRead s pasid (va + 8) len
    let (s, r) ← readData pasid n (va + 8 + (len + 7) / 8 * 8) s
    pure (s, (bits w 31 0, d) :: r)

/-- A header of 64 bytes (number of bundles and energy estimate; number of data segments), the bundles, the segments. Bundles beyond
the 2,048 of instruction memory, and segments beyond 4,096, are left out (DESIGN CHOICE, log entry 26). -/
def readKernel (s : State) (pasid va : Nat) : HRes (State × Kernel) := do
  let (s, w) ← hubRead64 s pasid va
  let (s, m) ← hubRead64 s pasid (va + 8)
  let n := min (bits w 31 0) Config.bundles
  let (s, b) ← hubRead s pasid (va + 64) (64 * n)
  let (s, d) ← readData pasid (min m.toNat 4096) (va + 64 + 64 * n) s
  pure (s, { bundles := (List.range n).map fun i => BitVec.ofNat 512 (leField b (64 * i) 64), energy := bits w 63 32, data := d })

/-- A bundle that fails the loader's checks: its index and subcode (R190). Of several the first is reported, which is the model's
choice (log entry 65). -/
def badBundle : List (BitVec 512) → Nat → Option (Nat × Nat)
  | [], _ => none
  | b :: r, i => match checkBundle b with | some (sub, _) => some (i, sub) | none => badBundle r (i + 1)

/-- Load a kernel, or the verdict that ends its launch. -/
def loadKernel (s : State) (pasid va : Nat) : Except State (State × Except Verdict Kernel) :=
  match readKernel s pasid va with
  | .error (.wait t) => .error t
  | .error (.fault code sub t) => .ok (s.keep t, .error { status := stLoadFail, code := code, sub := sub, bundle := 0, idx := 0 })
  | .ok (t, k) =>
    match badBundle k.bundles 0 with
    | some (i, sub) => .ok (t, .error { status := stLoadFail, code := cIllegalBundle, sub := sub, bundle := i, idx := 0 })
    | none => .ok (t, .ok k)

/-- The launch-argument block (Table 1.8). -/
def argumentBlock (s : State) (g : Gath) : List Byte :=
  leBytes 4 g.args.length ++ leBytes 4 1 ++ leBytes 8 g.jcb ++ leBytes 8 (s.pasids.get .none g.pasid).table ++ leBytes 8 0 ++ g.args ++
    List.replicate (224 - g.args.length) 0

/-- Scratchpad at kernel entry: the image's data, then the argument block, over what the scratchpad held (R80). -/
def entryScratch (s : State) (g : Gath) (k : Kernel) (old : Tab Byte) : Tab Byte :=
  tabWrite (k.data.foldl (fun t d => tabWrite t d.1 (d.2.take (Config.scratchBytes - d.1))) old) 0 (argumentBlock s g)

def entryCode (k : Kernel) : Tab (BitVec 512) := { cells := (List.range k.bundles.length).zip k.bundles }

/-- Map entries of the instruction folios: their bytes in the image, kind 0 (R358). -/
def codeMap (image : Nat) (imem : Tab (BitVec 512)) (n : Nat) : Tab MapEntry :=
  let blank := digest32 (folioBytes 0 0 (.code .empty fillBundle))
  (List.range 32).foldl (fun (t : Tab MapEntry) f =>
    let d := if 64 * f < n then digest32 (folioBytes 0 f (.code (tabPart imem (64 * f) (64 * f + 64)) fillBundle)) else blank
    t.put .zero f { MapEntry.zero with addr := image + 64 + 4096 * f, digest := d }) .empty

/-- A member at kernel entry, waiting for the release. -/
def entryCore (k : Core) (g : Gath) (c rank : Nat) (scratch : Tab Byte) (imem : Tab (BitVec 512)) (map : Tab MapEntry) (n : Nat) : Core :=
  { k.vacate with
    imem := imem, fill := fillBundle, scratch := scratch, run := .loaded, ep := { Endpaper.zero with coreid := c, map := map },
    member := { gath := g.id, size := g.n, rank := rank, jobidx := g.jobidx, ctx := g.ctx, pasid := g.pasid, image := g.image + 64, bundles := n } }

/-- A core's copies for other contexts leave it before a kernel is loaded there. -/
def evictAll (c : Nat) : List Held → State → Work
  | [], s => .ok s
  | x :: r, s => do
    let s ← if x.dirty then pushOut s c x else .ok (s.modCore c fun k => unhold k x)
    evictAll c r s

def evict (s : State) (c : Nat) : Work := evictAll c (s.core c).held s

def evictCores : List Nat → State → Work
  | [], s => .ok s
  | c :: r, s => do
    let s ← evict s c
    evictCores r s

def loadMembers (g : Gath) (k : Kernel) (on : List Nat) (s : State) : Work := do
  let imem := entryCode k
  let map := codeMap g.image imem k.bundles.length
  let s ← evictCores on s
  pure ((on.zip (List.range on.length)).foldl (fun s x => s.modCore x.1 fun c => entryCore c g x.1 x.2 (entryScratch s g k c.scratch) imem map k.bundles.length) s)

/-! ### Launches (R329, R330) -/

/-- Counts from a value of the fabric time counter to another, modulo 2^64 (R375). -/
def ticksFrom (a b : Nat) : Nat := (b + 2 ^ 64 - a) % 2 ^ 64

/-- The counter has reached a value, or gone beyond it. -/
def reached (now t : Nat) : Bool := decide (ticksFrom t now < 2 ^ 63)

def laterTick (now t : Nat) : Nat := if reached now t then now else t

/-- The control block to which a gathering's energy is debited. -/
def packetSlot (s : State) (id : Nat) : Nat := match s.packet? id with | some p => p.slot | none => 4096
def gathSlot (s : State) (g : Gath) : Nat :=
  match g.owner.packet, g.owner.job.bind s.job? with
  | some p, _ => packetSlot s p
  | none, some j =>
    match j.packet, j.graph.bind fun x => s.graph? x.1 with
    | some p, _ => packetSlot s p
    | none, some x => packetSlot s x.packet
    | none, none => 4096
  | none, none => 4096

/-- Whether a head packet could launch now (R337): a LAUNCH whose kernel has not been read yet, if cores are free. -/
def couldLaunch (s : State) (p : QPacket) : Bool :=
  isHead s p &&
    (if p.type = 1 then
      (match s.gaths.find? fun g => g.owner.packet == some p.id with
       | some g => fitsNow s g.n && energyOk s p.slot g.estimate
       | none => fitsNow s (bits (p.word 0x10) 8 0))
    else p.type != 8 || s.checkpoint.isNone)

/-- Whether queue `a` goes before queue `b`: higher cur, then the one whose turn is longer ago. -/
def goesBefore (a b : Qcb) : Bool := decide (b.cur < a.cur) || (a.cur == b.cur && decide (a.turn < b.turn))

/-- The head packet that the command processor takes. -/
def mayLaunch (s : State) (p : QPacket) : Bool :=
  isHead s p && !((s.packets.filter fun x => x.slot != p.slot && couldLaunch s x).any fun x => goesBefore (s.qcb x.slot) (s.qcb p.slot))

/-- Run a packet's start: of the given type, taken in its turn. -/
def onLaunch (id type : Nat) (s : State) (f : QPacket → State → Work) : Host.Outcome State Fault Refusal :=
  match s.packet? id with
  | none => .next s
  | some p => if p.type ≠ type ∨ p.started = true ∨ mayLaunch s p = false then .next s else .next (settleWork s (f p (launchPacket s p)))

/-- The user arguments of a body: `ablen` bytes at the args VA. -/
def readArgs (s : State) (pasid : Nat) (w : Nat → Word) : HRes (State × List Byte) :=
  if bits (w 0x28) 7 0 = 0 then .ok (s, []) else hubRead s pasid (w 0x30).toNat (bits (w 0x28) 7 0)

/-- Modules that a tick launch may span, and its gathering's identifier (log entry 28). -/
def spanModules (s : State) : List Nat := s.domain
def spanId (tick : Nat) : Nat := tick / 256 % 2 ^ 32

/-- What ends a launch before any core is touched. -/
def refuseLaunch (s : State) (p : QPacket) (span : Bool) (n : Nat) : Option Verdict :=
  if span && !fullService s then some (.of stAborted)
  else if inService s < n then some { status := stLoadFail, code := 0, sub := 1, bundle := 0, idx := 0 }
  else if span && s.gaths.any (fun g => g.id == spanId (bits (p.word 0x28) 63 8 * 256)) then some (.of stAborted)
  else none

/-- An identifier that no live gathering has (R328). -/
def freshId (s : State) : Nat :=
  (((List.range (s.gaths.length + 1)).map fun i => (s.fresh + i) % 2 ^ 32).find? fun n => !(s.gaths.any fun g => g.id == n)).getD 0

def newGath (s : State) (pasid image n jobidx jcb estimate : Nat) (args : List Byte) (owner : Owner) : Gath :=
  { id := freshId s, state := .waiting, pasid := pasid, ctx := pasid, image := image, n := n, on := [], jobidx := jobidx, tick := 0, span := false, count := 1, modules := [s.module],
    estimate := estimate, admitted := false, owner := owner, args := args, jcb := jcb, colophon := 0, flags := 0, fabric := [], phases := 0 }

def addGath (s : State) (g : Gath) : State := { s with gaths := s.gaths ++ [g], fresh := s.fresh + 1 }

/-- LAUNCH_PACKET: the checks of a launch; its gathering then waits for its cores, the packet at the head of its queue. -/
def execLaunchPacket (id : Nat) (s : State) : Host.Outcome State Fault Refusal :=
  match s.packet? id with
  | none => .next s
  | some p =>
    if p.type ≠ 1 ∨ isHead s p = false ∨ s.gaths.any (fun g => g.owner.packet == some id) = true then .next s
    else
      let span := bit (p.word 0x10) 31
      let n := bits (p.word 0x10) 8 0
      match refuseLaunch s p span n with
      | some v => .next (settleWork s (refusePacket s p v))
      | none =>
        match loadKernel s p.pasid (p.word 0x08).toNat with
        | .error t => .next (s.keep t)
        | .ok (t, .error v) => .next (settleWork s (refusePacket t p v))
        | .ok (t, .ok k) =>
          match readArgs t p.pasid p.word with
          | .error (.wait t) => .next (s.keep t)
          | .error (.fault code sub u) => .next (settleWork s (refusePacket (t.keep u) p { status := stLoadFail, code := code, sub := sub, bundle := 0, idx := 0 }))
          | .ok (t, args) =>
            let tick := bits (p.word 0x28) 63 8 * 256
            let g := newGath t p.pasid (p.word 0x08).toNat n 0 0 k.energy args { packet := some id, job := none, block := 0 }
            let g := { g with colophon := (p.word 0x18).toNat, tick := tick }
            .next (addGath t (if span then { g with id := spanId tick, span := true, count := Config.launchModules p.words, modules := spanModules t } else g))

/-- Other modules of a gathering that the fabric reaches (R23). -/
def readyModules (s : State) (g : Gath) : List Nat := g.modules.filter fun m => m != s.module && mayReach s s.members (4 * m)

/-- A queue waits: at its head packet, or with a job's instance that the energy budget defers (R337). -/
def queueWaits (s : State) (slot : Nat) : Bool :=
  (headPacket s slot).isSome || s.gaths.any fun g => g.state == .waiting && g.owner.job.isSome && gathSlot s g == slot && !energyOk s slot g.estimate

/-- QUEUE_AGING of a queue that has waited 1 ms. -/
def execQueueAging (slot : Nat) (s : State) : Host.Outcome State Fault Refusal :=
  if queueWaits s slot then .next (s.setQcb slot { s.qcb slot with cur := min 7 ((s.qcb slot).cur + 1) }) else .next s

/-- READY to every other module that a tick launch may span (R330). -/
def sendReady (g : Gath) (s : State) : State :=
  (readyModules s g).foldl (fun s m =>
    sendSprayed s 0 (4 * m) { Packet.zero with op := pReady, pasid := BitVec.ofNat 20 g.pasid, operand := BitVec.ofNat 64 g.id } 384 0) s

/-- The next instance of a block, while it has one (R339). -/
def nextInstance (s : State) (j : Job) (entry : Nat) : State :=
  match j.blocks.find? fun b => b.entry == entry with
  | none => s
  | some b =>
    if b.n ≤ b.started then s
    else
      let s := s.setJob { j with blocks := j.blocks.map fun x => if x.entry = entry then { x with started := x.started + 1 } else x }
      addGath s (newGath s j.pasid j.image j.n (b.first + b.started) j.jcb j.estimate j.args { packet := none, job := some j.id, block := entry })

/-- A die on which n cores stand as R328 asks of the whole module: no die fills its quires better (R345). -/
def dieServes (s : State) (die n : Nat) : Bool :=
  decide (n ≤ (freeOn s die).length) && (dieChoices s n 1 (List.range 4)).all fun l => fillsBefore (quireFill s n [die]) (quireFill s n l)

/-- Dies on which a gathering may stand: an instance stands on its block's, where that meets R328 (log entry 35). -/
def placeDies (s : State) (g : Gath) : List Nat :=
  match (g.owner.job.bind s.job?).bind fun j => j.blocks.find? fun b => b.entry == g.owner.block with
  | some b => if dieServes s b.die g.n then [b.die] else List.range 4
  | none => List.range 4

/-- Whether a waiting gathering may be placed: a launch's packet is taken in its turn. -/
def mayPlace (s : State) (g : Gath) (on : List Nat) : Bool :=
  placementOk s g.n (placeDies s g) on && energyOk s (gathSlot s g) g.estimate &&
    (!g.span || (readyModules s g).all fun m => s.flowRoom (flowKey 0 (4 * m))) &&
    (match g.owner.packet, g.owner.job.bind s.job? with
     | some id, _ => (match s.packet? id with | some p => mayLaunch s p | none => false)
     | none, some j => j.blocks.any fun b => b.entry == g.owner.block
     | none, none => false)

/-- The queue of a job that has launched an instance falls back to its priority (R337). -/
def resetCur (s : State) (slot : Nat) : State := if slot < 4096 then s.setQcb slot { s.qcb slot with cur := (s.qcb slot).prio } else s

/-- A gathering's members are loaded: its T is chosen, READY sent; its packet has launched, or its block's next instance is to be
placed. -/
def placed (s : State) (g : Gath) (on : List Nat) : State :=
  let g := { g with state := .loaded, on := on, admitted := true, tick := if g.span then g.tick else (s.time + 7000) % 2 ^ 64 }
  let s := s.setGath g
  let s := if g.span then sendReady g s else s
  match g.owner.packet.bind s.packet?, g.owner.job.bind s.job? with
  | some p, _ => launchPacket s p
  | none, some j => nextInstance (resetCur s (gathSlot s g)) j g.owner.block
  | none, none => s

/-- GATHERING_PLACE: steps 1 to 4 of R329 on the chosen cores, by rank. -/
def execGatheringPlace (gath : Nat) (on : List Nat) (s : State) : Host.Outcome State Fault Refusal :=
  match s.gath? gath with
  | none => .next s
  | some g =>
    if g.state ≠ .waiting ∨ mayPlace s g on = false then .next s
    else
      .next (settleWork s (do
        let (t, k) ← loadKernel s g.pasid g.image
        match k with
        | .error v => failGath t g v
        | .ok k => do
          let t ← loadMembers g k on t
          pure (placed (debit t (gathSlot t g) g.estimate) g on)))

/-- The other modules whose READY for a tick launch is here. -/
def readyFrom (s : State) (g : Gath) : List Nat := g.modules.filter fun m => m != s.module && s.readies.contains (g.id, m)

/-- READY from every other module of the launch: one less than its module count (R330). -/
def holdsReady (s : State) (g : Gath) : Bool := decide (g.count ≤ (readyFrom s g).length + 1)

/-- GATHERING_RELEASE when the counter reaches T (R329 step 5); of a tick launch only with every READY, whose senders are the
modules that its FABRIC phases meet across. -/
def execGatheringRelease (gath : Nat) (s : State) : Host.Outcome State Fault Refusal :=
  match s.gath? gath with
  | none => .next s
  | some g =>
    if g.state ≠ .loaded ∨ (g.span = true ∧ (holdsReady s g = false ∨ (reached s.time g.tick = true ∧ s.time ≠ g.tick))) then .next s
    else
      let s := { s with time := laterTick s.time g.tick }
      let modules := if g.span then s.module :: readyFrom s g else g.modules
      .next (((s.membersOf gath).foldl (fun s c => s.modCore c fun k => { k with run := .running }) s).setGath { g with state := .running, modules := modules })

/-- TICK_LAUNCH_TIMEOUT (R330): a launch not released, or released without its phases being able to complete, is ABORTED. -/
def execTickLaunchTimeout (gath : Nat) (s : State) : Host.Outcome State Fault Refusal :=
  match s.gath? gath with
  | none => .next s
  | some g =>
    if g.span = false ∨ reached s.time g.tick = false ∨ (g.state = .running ∧ g.phases ≠ 0) then .next s
    else .next (settleWork s (failGath s g (.of stAborted)))

/-! ### The plain packets (R336) -/

/-- COPY_PACKET. A copy that faults moves nothing and completes (log entry 33). -/
def execCopyPacket (id : Nat) (s : State) : Host.Outcome State Fault Refusal :=
  onLaunch id 4 s fun p t =>
    match hubRead t p.pasid (p.word 0x08).toNat (p.word 0x18).toNat with
    | .error (.wait u) => .error u
    | .error (.fault _ _ u) => completePacket (t.keep u) p
    | .ok (t, d) => do
      let t ← hubNote t p.pasid (p.word 0x10).toNat d
      completePacket t p

/-- SIGNAL_PACKET. -/
def execSignalPacket (id : Nat) (s : State) : Host.Outcome State Fault Refusal :=
  onLaunch id 5 s fun p t => do
    let t ← hubAdd t p.pasid (p.word 0x08).toNat (p.word 0x10)
    completePacket t p

/-- A WAIT completes if its condition holds: the word, signed, is at most v. -/
def tryWait (s : State) (p : QPacket) : Work :=
  match hubRead64 s p.pasid (p.word 0x08).toNat with
  | .ok (t, x) => if x.toInt ≤ (p.word 0x10).toInt then completePacket t p else .ok t
  | .error (.fault _ _ t) => .ok (s.keep t)
  | .error (.wait t) => .ok (s.keep t)

/-- WAIT_PACKET: launched in its turn; it completes once its condition holds. -/
def execWaitPacket (id : Nat) (s : State) : Host.Outcome State Fault Refusal :=
  match s.packet? id with
  | none => .next s
  | some p =>
    if p.type ≠ 6 then .next s
    else if p.started then .next (settleWork s (tryWait s p))
    else onLaunch id 6 s fun p t => tryWait t p

/-- ENERGY_PACKET. -/
def execEnergyPacket (id : Nat) (s : State) : Host.Outcome State Fault Refusal :=
  onLaunch id 7 s fun p t => completePacket (t.setQcb p.slot { t.qcb p.slot with ecap := (p.word 0x08).toNat }) p

/-- BARRIER_PACKET completes when every earlier packet of the queue has. -/
def execBarrierPacket (id : Nat) (s : State) : Host.Outcome State Fault Refusal :=
  match s.packet? id with
  | none => .next s
  | some p =>
    if p.type ≠ 9 then .next s
    else if p.started then .next (if isOldest s p then settleWork s (completePacket s p) else s)
    else onLaunch id 9 s fun p t => if isOldest t p then completePacket t p else .ok t

/-! ### Jobs (R338, R339) -/

/-- Start the job of a JOB body; the words of the body by offset. -/
def startJob (s : State) (pasid : Nat) (w : Nat → Word) (packet : Option Nat) (graph : Option (Nat × Nat)) : Work :=
  let j : Job :=
    { id := s.fresh, pasid := pasid, ctx := pasid, jcb := (w 0x18).toNat, image := (w 0x08).toNat, n := bits (w 0x10) 8 0, args := [], estimate := 0, packet := packet, graph := graph,
      entries := 0, blocks := [], redo := [], flags := 0, exits := [] }
  let s := { s with fresh := s.fresh + 1, jobs := s.jobs ++ [j] }
  if inService s < j.n then endJob s j { status := stLoadFail, code := 0, sub := 1, bundle := 0, idx := 0 }
  else
    match loadKernel s pasid j.image with
    | .error t => .error t
    | .ok (t, .error v) => endJob t j v
    | .ok (t, .ok k) =>
      match readArgs t pasid w with
      | .error (.wait u) => .error u
      | .error (.fault code sub u) => endJob (t.keep u) j { status := stLoadFail, code := code, sub := sub, bundle := 0, idx := 0 }
      | .ok (t, args) =>
        match hubRead64 t pasid j.jcb with
        | .error (.wait u) => .error u
        | .error (.fault code sub u) => endJob (t.keep u) j { status := stFault, code := code, sub := sub, bundle := 0, idx := 0 }
        | .ok (t, expected) =>
          let j := { j with args := args, estimate := k.energy }
          let t := t.setJob j
          if expected = 0 then endJob t j (.of stOk) else .ok t

/-- JOB_PACKET. -/
def execJobPacket (id : Nat) (s : State) : Host.Outcome State Fault Refusal :=
  onLaunch id 2 s fun p t => startJob t p.pasid p.word (some id) none

/-- The words of a JCB: expected, completed, cursor, btab, bcap. -/
structure Jcb where
  expected : Nat
  completed : Nat
  cursor : Nat
  btab : Nat
  bcap : Nat

def readJcb (s : State) (j : Job) : HRes (State × Jcb) := do
  let (s, b) ← hubRead s j.pasid j.jcb 0x30
  pure (s, { expected := leField b 0 8, completed := leField b 8 8, cursor := leField b 0x10 8, btab := leField b 0x18 8, bcap := leField b 0x20 4 })

/-- Table 16.7. -/
def blockEntry (done void : Bool) (die n first : Nat) : Nat := fld (bnat done) 63 + fld (bnat void) 62 + fld die 56 + fld (n - 1) 48 + first % 2 ^ 48

def jobFault (s : State) (j : Job) : HStop → Work
  | .fault code sub t => endJob (s.keep t) j { status := stFault, code := code, sub := sub, bundle := 0, idx := 0 }
  | .wait t => .error t

/-- The range that is handed out next: a voided one first, else from the cursor. -/
def nextRange (j : Job) (b : Jcb) : Option (Nat × Nat × Bool) :=
  match j.redo with
  | (first, n) :: _ => some (first, n, true)
  | [] => if b.cursor < b.expected then some (b.cursor, min 64 (b.expected - b.cursor), false) else none

/-- The master writes an entry and gives the block to a die. -/
def handOut (s : State) (j : Job) (b : Jcb) (die first n : Nat) (redo : Bool) : HRes State := do
  let s ← hubWrite s j.pasid (b.btab + 8 * j.entries) (leBytes 8 (blockEntry false false die n first))
  let s ← if redo then pure s else hubWrite s j.pasid (j.jcb + 0x10) (leBytes 8 (b.cursor + n))
  let j := { j with entries := j.entries + 1, redo := if redo then j.redo.drop 1 else j.redo,
                    blocks := j.blocks ++ [{ entry := j.entries, die := die, first := first, n := n, started := 0, ended := 0 }] }
  pure (nextInstance (s.setJob j) j (j.entries - 1))

/-- A die has cores free for an instance, placed as R328 asks; one of more than 96 cores needs several dies (log entry 35). -/
def dieFits (s : State) (die n : Nat) : Bool := if 96 < n then fitsNow s n else dieServes s die n

/-- BLOCK_HANDOUT. -/
def execBlockHandout (job die : Nat) (s : State) : Host.Outcome State Fault Refusal :=
  match s.job? job with
  | none => .next s
  | some j =>
    if 4 ≤ die ∨ bit s.status (56 + die) = false ∨ s.deadDies.contains die = true ∨ dieFits s die j.n = false then .next s
    else
      match readJcb s j with
      | .error e => .next (settleWork s (jobFault s j e))
      | .ok (t, b) =>
        match nextRange j b with
        | none => .next s
        | some (first, n, redo) =>
          if b.bcap ≤ j.entries then .next (settleWork s (endJob t j (.of stTableFull)))
          else
            match handOut t j b die first n redo with
            | .ok u => .next u
            | .error e => .next (settleWork s (jobFault s j e))

/-- BLOCK_REPORT of a block whose instances have all ended. -/
def execBlockReport (job k : Nat) (s : State) : Host.Outcome State Fault Refusal :=
  match s.job? job with
  | none => .next s
  | some j =>
    match j.blocks.find? fun b => b.entry == k with
    | none => .next s
    | some x =>
      if x.ended ≠ x.n then .next s
      else
        match readJcb s j with
        | .error e => .next (settleWork s (jobFault s j e))
        | .ok (t, b) =>
          let w := do
            let t ← hubWrite t j.pasid (b.btab + 8 * k) (leBytes 8 (blockEntry true false x.die x.n x.first))
            hubWrite t j.pasid (j.jcb + 0x08) (leBytes 8 (b.completed + x.n))
          match w with
          | .error e => .next (settleWork s (jobFault s j e))
          | .ok u =>
            let j := { j with blocks := j.blocks.filter fun y => y.entry != k }
            let u := u.setJob j
            if b.completed + x.n = b.expected then .next (settleWork s (endJob u j (.of stOk))) else .next u

/-- Mark the entries of lost blocks void; one that waits holds up the fence. -/
def markVoid (j : Job) (btab : Nat) : List Block → State → Work
  | [], s => .ok s
  | b :: r, s => do
    let s ← hubNote s j.pasid (btab + 8 * b.entry) (leBytes 8 (blockEntry false true b.die b.n b.first))
    markVoid j btab r s

/-- A gathering of a block. -/
def ofBlock (j : Job) (b : Block) (g : Gath) : Bool := g.owner.job == some j.id && b.entry == g.owner.block

/-- The blocks of a lost die are void, and so are those of which an instance stands there (log entry 35); their ranges are
handed out again. -/
def voidBlocks (s : State) (die : Nat) (j : Job) : Work :=
  let hit := fun (b : Block) => b.die == die || s.gaths.any fun g => ofBlock j b g && g.on.any fun c => dieOf c == die
  let lost := j.blocks.filter hit
  if lost.isEmpty then .ok s
  else do
    let gone := (s.gaths.filter fun g => lost.any fun b => ofBlock j b g).map (·.id)
    let s := retireGaths gone s
    let j := (s.job? j.id).getD j
    let s ← match readJcb s j with
      | .ok (t, c) => markVoid j c.btab lost t
      | .error (.fault _ _ t) => .ok (s.keep t)
      | .error (.wait t) => .error t
    pure (s.setJob { j with blocks := j.blocks.filter (fun b => !hit b), redo := j.redo ++ lost.map (fun (b : Block) => (b.first, b.n)), flags := j.flags ||| 2 })

def voidJobs (die : Nat) : List Job → State → Work
  | [], s => .ok s
  | j :: r, s => do
    let s ← voidBlocks s die j
    voidJobs die r s

def noRoom : Verdict := { status := stLoadFail, code := 0, sub := 1, bundle := 0, idx := 0 }

/-- Jobs that can no longer fit end. -/
def endJobs : List Nat → State → Work
  | [], s => .ok s
  | id :: r, s => do
    let s ← match s.job? id with | some j => endJob s j noRoom | none => .ok s
    endJobs r s

/-- Gatherings and jobs that can no longer fit the cores in service end (R328). -/
def endOversized (s : State) : Work := do
  let s ← endAllWith noRoom ((s.gaths.filter fun g => g.state == .waiting && decide (inService s < g.n)).map (·.id)) s
  endJobs ((s.jobs.filter fun j => decide (inService s < j.n)).map (·.id)) s

/-- What a fence of a die ends; all of it is made again where a page that it writes migrates (R47). -/
def fenceDie (s : State) (die : Nat) : Work := do
  let s ← voidJobs die s.jobs { s with deadDies := s.deadDies ++ [die] }
  let s ← endAllWith (.of stKilled) ((s.gaths.filter fun g => g.on.any fun c => dieOf c == die).map (·.id)) s
  endOversized s

/-- DIE_FENCE. A launched gathering with a member there is killed (log entry 35). -/
def execDieFence (die : Nat) (s : State) : Host.Outcome State Fault Refusal :=
  if 4 ≤ die ∨ s.deadDies.contains die = true then .next s else .next (settleWork s (fenceDie s die))

/-! ### The graph walker (R342, R343) -/

/-- GRAPH_PACKET. -/
def execGraphPacket (id : Nat) (s : State) : Host.Outcome State Fault Refusal :=
  onLaunch id 3 s fun p t =>
    .ok { t with
      fresh := t.fresh + 2,
      graphs := t.graphs ++ [{ id := t.fresh, pasid := p.pasid, packet := id, colophon := (p.word 0x10).toNat, branches := [(t.fresh + 1, (p.word 0x08).toNat)], done := 0, flags := 0, exits := [] }] }

/-- A malformed node, which R343 does not define: one whose kind Table 16.10 does not list, or a JOIN that counts to 0 (DESIGN
CHOICE, log entry 58). Reserved fields are ignored (R9). -/
def badNode (b : List Byte) : Bool :=
  let w := BitVec.ofNat 64 (leField b 0 8)
  let kind := bits w 7 0
  kind == 0 || decide (5 < kind) || (kind == 4 && bits w 31 16 == 0)

def graphFault (s : State) (g : Graph) : HStop → Work
  | .fault code sub t => endGraph (s.keep t) g { status := stFault, code := code, sub := sub, bundle := 0, idx := 0 }
  | .wait t => .error t

/-- A branch at a node of the given kind takes its step; a node that cannot be read, or is malformed, ends the graph. -/
def onNode (graph branch kind : Nat) (s : State) (f : Graph → Nat → List Byte → State → Work) : Host.Outcome State Fault Refusal :=
  match s.graph? graph with
  | none => .next s
  | some g =>
    match g.branches.find? fun b => b.1 == branch with
    | none => .next s
    | some (_, va) =>
      if s.jobs.any (fun j => j.graph == some (graph, branch)) then .next s
      else if va % 64 ≠ 0 then .next (settleWork s (endGraph s g (.of stBadPacket)))
      else
        match hubRead s g.pasid va 64 with
        | .error e => .next (settleWork s (graphFault s g e))
        | .ok (t, b) =>
          if badNode b then .next (settleWork s (endGraph t g (.of stBadPacket)))
          else if leField b 0 1 ≠ kind then .next s
          else .next (settleWork s (f g va b t))

/-- The walker prepares the node's JCB. -/
def prepareJcb (s : State) (pasid jcb n : Nat) : HRes State := do
  let s ← hubWrite s pasid jcb (leBytes 8 n ++ leBytes 16 0)
  let (s, b) ← hubRead s pasid jcb 0x28
  hubWrite s pasid (leField b 0x18 8) (List.replicate (8 * leField b 0x20 4) 0)

/-- KERNEL_NODE. -/
def execKernelNode (graph branch : Nat) (s : State) : Host.Outcome State Fault Refusal :=
  onNode graph branch 1 s fun g _ b s =>
    match hubRead s g.pasid (leField b 0x18 8) 64 with
    | .error e => graphFault s g e
    | .ok (t, r) =>
      let p : QPacket := { id := 0, slot := 0, pasid := g.pasid, words := slotWords r, started := false }
      if p.type ≠ 2 ∨ badPacket p = true then endGraph t g (.of stBadPacket)
      else
        match prepareJcb t g.pasid (p.word 0x18).toNat (bits (p.word 0x10) 63 32) with
        | .error e => graphFault t g e
        | .ok t => startJob t g.pasid p.word none (some (graph, branch))

/-- COND_NODE. -/
def execCondNode (graph branch : Nat) (s : State) : Host.Outcome State Fault Refusal :=
  onNode graph branch 2 s fun g _ b s =>
    match hubRead64 s g.pasid (leField b 0x18 8) with
    | .error e => graphFault s g e
    | .ok (t, x) => branchTo t g branch [if x ≠ 0 then leField b 8 8 else leField b 0x10 8]

/-- WHILE_NODE. -/
def execWhileNode (graph branch : Nat) (s : State) : Host.Outcome State Fault Refusal :=
  onNode graph branch 3 s fun g va b s =>
    let set := fun (t : State) (n dest : Nat) =>
      match hubWrite t g.pasid (va + 0x24) (leBytes 4 n) with
      | .error e => graphFault t g e
      | .ok t => branchTo t g branch [dest]
    match hubRead64 s g.pasid (leField b 0x18 8) with
    | .error e => graphFault s g e
    | .ok (t, x) =>
      if x = 0 then set t 0 (leField b 0x10 8)
      else if leField b 0x24 4 < leField b 4 4 then set t (leField b 0x24 4 + 1) (leField b 8 8)
      else endGraph t g (.of stWhileLimit)

/-- JOIN_NODE. -/
def execJoinNode (graph branch : Nat) (s : State) : Host.Outcome State Fault Refusal :=
  onNode graph branch 4 s fun g va b s =>
    let n := leField b 0x20 4 + 1
    let last := n == leField b 2 2
    match hubWrite s g.pasid (va + 0x20) (leBytes 4 (if last then 0 else n)) with
    | .error e => graphFault s g e
    | .ok t => branchTo t g branch (if last then [leField b 8 8] else [])

/-- END_NODE. -/
def execEndNode (graph branch : Nat) (s : State) : Host.Outcome State Fault Refusal := onNode graph branch 5 s fun g _ _ s => branchTo s g branch []

/-! ### The budget unit (R344, R395) -/

/-- ENERGY_WINDOW_END: reconciliation, and the next window with its allowance. -/
def execEnergyWindowEnd (s : State) : Host.Outcome State Fault Refusal :=
  let b := s.budget
  let run := s.gaths.filter fun g => g.state == .running
  let debt := b.debt + (run.map fun g => excessOf (s.fresh + g.id) g).foldl (· + ·) 0
  let left := b.nextAllowance - debt
  .next { s with
    fresh := s.fresh + 1,
    budget := { b with allowance := b.nextAllowance, left := left, debt := debt - b.nextAllowance, window := b.window + 1, empty := true, pacing := false },
    gaths := s.gaths.map (fun g => if g.state = .running ∧ 0 < excessOf (s.fresh + g.id) g then { g with flags := g.flags ||| 4 } else g),
    qcbs := { cells := s.qcbs.cells.map fun x => (x.1, { x.2 with used := 0 }) },
    cores := { cells := s.cores.cells.map fun x => (x.1, { x.2 with paced := false }) } }

/-- ENERGY_PACING: freeze cycles on running cores. -/
def execEnergyPacing (on : Bool) (s : State) : Host.Outcome State Fault Refusal :=
  .next { s with
    budget := { s.budget with pacing := on },
    cores := { cells := s.cores.cells.map fun x => (x.1, { x.2 with paced := on && x.2.run == .running }) } }

end Sys2Proof.Machine
end

