-- ==== Sys2Proof/Machine/Fabric.lean ====
section
/-!
DEFINITION. The Novver fabric: flows with their windows (R381, R382), what a target does with a request (R65, R66, R383) and a
requester with its answer (R67, R380), links and their recovery (R373, R374), timetabled transfers (R378, R379), and the
host's BAR4 accesses (R385).
-/

namespace Sys2Proof.Machine

/-! ### Flows (R381) -/

def pMine (p : Packet) (s : State) : Bool := p.dst.toNat / 4 == s.module
def pDie (p : Packet) : Nat := p.dst.toNat % 4
/-- The flow on whose packets this module sends answers, and at whose window it receives. -/
def pKey (p : Packet) : Nat := flowKey (pDie p) p.src.toNat

/-- Distance of a packet's number from the window's base. -/
def Flow.ahead (f : Flow) (fseq : Nat) : Nat := (fseq + 2 ^ 32 - f.base) % 2 ^ 32

/-- The window test of R381. -/
inductive Window where
  | fresh
  | duplicate
  /-- neither: 64 or more ahead of the base -/
  | beyond
deriving DecidableEq, Repr

def Flow.window (f : Flow) (fseq : Nat) : Window :=
  let d := f.ahead fseq
  if d < 64 then (if f.bitmap.getLsbD d then .duplicate else .fresh)
  else if d < 2 ^ 31 then .beyond else .duplicate

/-- Advance the base past the set bits that run on from it. -/
def slideWindow : Nat → Flow → Flow
  | 0, f => f
  | n + 1, f => if f.bitmap.getLsbD 0 then slideWindow n { f with base := (f.base + 1) % 2 ^ 32, bitmap := f.bitmap >>> 1 } else f

/-- Mark a number received. -/
def Flow.mark (f : Flow) (fseq : Nat) : Flow :=
  if f.ahead fseq < 64 then slideWindow 64 { f with bitmap := f.bitmap ||| (1#64 <<< f.ahead fseq) } else f

/-- The SACK of a flow's window. -/
def sackPacket (s : State) (key : Nat) : Packet :=
  let f := s.flow key
  { Packet.zero with
    op := pSack, dst := BitVec.ofNat 15 (key % 32768), src := BitVec.ofNat 15 (s.node (key / 32768)), fseq := BitVec.ofNat 32 f.base,
    va := BitVec.ofNat 57 (f.bitmap.toNat % 2 ^ 57), mapver := BitVec.ofNat 32 (f.bitmap.toNat / 2 ^ 57) }

def sendSack (s : State) (key : Nat) : State := { s with tx := s.tx ++ [sackPacket s key] }

/-- Accept a packet: its bit is set and the SACK returned. -/
def acceptSeq (s : State) (key fseq : Nat) : State :=
  let s := s.setFlow key ((s.flow key).mark fseq)
  sendSack s key

def isAnswer (op : BitVec 4) : Bool := op == pRdata || op == pAresp || op == pMoved || op == pNak

/-- The answer to a request that is still kept: answers name the request's number in their cmp field (log entry 29). -/
def keptAnswer (s : State) (p : Packet) : Option Packet :=
  ((s.flow (pKey p)).unacked.find? fun u => isAnswer u.1.op && u.1.cmp.toNat == p.fseq.toNat).map (·.1)

/-- A duplicate is not performed; the SACK, and the answer if it is kept, are sent again (R382). -/
def resendAnswer (s : State) (p : Packet) : State :=
  let s := sendSack s (pKey p)
  match keptAnswer s p with
  | some a => { s with tx := s.tx ++ [a] }
  | none => s

/-- An answer to a request, in the reverse flow. -/
def answer (s : State) (p a : Packet) : State :=
  sendSprayed s (pDie p) p.src.toNat { a with pasid := p.pasid, tid := p.tid, cmp := BitVec.ofNat 64 p.fseq.toNat } 384 0

def answerNak (s : State) (p : Packet) (code sub : Nat) : State :=
  answer s p { Packet.zero with op := pNak, va := p.va, operand := BitVec.ofNat 64 (fld code 56 + fld (sub % 2 ^ 16) 40) }

def answerMoved (s : State) (p : Packet) (w : Nat) : State := answer s p { Packet.zero with op := pMoved, va := p.va, mapver := BitVec.ofNat 32 w }

/-! ### What a target reaches (R32, R383) -/

/-- Places of a range; a run of a bank-local tensor asks for pages of kind 1 (Table 3.2 subcode 10). -/
def agentPlaces (ag : Agent) (pasid : Nat) (write bankLocal : Bool) : List (Nat × Nat) → State → HRes (State × List (Place × Nat))
  | [], s => .ok (s, [])
  | (va, n) :: r, s => do
    let (s, e) ← agentLeaf s ag pasid va write
    if bankLocal && leafKind e != 1 then .error (.fault cTidInvalid 10 s)
    else
      let (s, l) ← agentPlaces ag pasid write bankLocal r s
      pure (s, (leafPlace s pasid e va, n) :: l)

/-- Virtual address of a request: a shard run's own, sign-extended, else its offset in the PASID's window. -/
def requestVa (s : State) (p : Packet) (run : Bool) : HRes Nat :=
  if run then .ok (askedOf p).va
  else match s.windows.get none p.pasid.toNat with | some w => .ok (w + p.va.toNat) | none => .error (.fault cTranslate 7 s)

def writePlaces : List (Place × Nat) → List Byte → State → State
  | [], _, s => s
  | (p, n) :: r, d, s => writePlaces r (d.drop n) (s.writeAt p (d.take n))

/-- Serve a READ, WRITE or ATOMIC at its home; the bytes of its answer. A failing `acas` writes nothing. -/
def serve (s : State) (p : Packet) (run bankLocal : Bool) : HRes (State × List Byte) := do
  let va ← requestVa s p run
  if p.op = pAtomic then
    let size := if p.w32 then 4 else 8
    if va % size ≠ 0 then .error (.fault cIllegalAddress 5 s)
    else
      let (s, e) ← agentLeaf s (fabricAgent (pDie p) 53) p.pasid.toNat va (p.aop != 10)
      let q := leafPlace s p.pasid.toNat e va
      let old := ofLeBytes (s.readAt q size)
      let new := atomicNew (0x35C + p.aop.toNat) size old p.operand.toNat p.cmp.toNat
      pure (if p.aop = 10 ∨ (p.aop = 5 ∧ old ≠ p.cmp.toNat % 2 ^ (8 * size)) then s else s.writeAt q (leBytes size new), leBytes 8 old)
  else
    let write := p.op == pWrite
    let (s, l) ← agentPlaces (fabricAgent (pDie p) (if write then 54 else 55)) p.pasid.toNat write bankLocal (ranges va (Packet.len p)) s
    if write then pure (writePlaces l p.data s, []) else pure (s, l.flatMap fun x => s.readAt x.1 x.2)

/-- Accept a request that has been served, and answer a READ or ATOMIC. -/
def acceptServed (s : State) (p : Packet) (d : List Byte) : State :=
  let s := acceptSeq s (pKey p) p.fseq.toNat
  if p.op = pRead then answer s p { Packet.zero with op := pRdata, va := p.va, len1 := p.len1, data := d }
  else if p.op = pAtomic then answer s p { Packet.zero with op := pAresp, va := p.va, operand := BitVec.ofNat 64 (ofLeBytes d) }
  else s

/-- Serve a request for this module once, or answer it with a NAK. -/
def serveRequest (s : State) (p : Packet) (run bankLocal : Bool) : State :=
  match serve s p run bankLocal with
  | .ok (t, d) => acceptServed t p d
  | .error (.fault code sub t) => answerNak (s.keep t) p code sub
  | .error (.wait t) => s.keep t

/-- Requests that an answer may follow: they are taken when the reverse flow has room for it (R381). -/
def mayAnswer (op : BitVec 4) : Bool := op == pRead || op == pWrite || op == pAtomic

/-- What is common to sprayed packets that arrive: they are for this module, and in the window. -/
def onArrival (s : State) (p : Packet) (f : State) : Host.Outcome State Fault Refusal :=
  if (pMine p s) = false then .next s
  else if (keptAnswer s p).isSome then .next (resendAnswer s p)
  else
    match (s.flow (pKey p)).window p.fseq.toNat with
    | .fresh => .next (if mayAnswer p.op && !s.flowRoom (pKey p) then s else f)
    | .duplicate => .next (resendAnswer s p)
    | .beyond => .next s

/-! ### Shard runs at their target (R65, R66) -/

/-- A request with a TID, a version or a resolution is a shard run. -/
def isRun (p : Packet) : Bool := p.tid != 0 || p.mapver != 0 || p.run.isSome

/-- A table read of a decision that does not answer; it waits at most 10 ms for the page of the table that migrates (R47). -/
def decisionStop (q : Asked) (m : Missed) : HStop := hubStop m.state (q.node % 4) q.pasid m.va m.why

/-- Table 3.6 for a run that a packet brings, once per run. -/
def decide' (s : State) (p : Packet) (again : Bool) : HRes (State × Decision) :=
  match decideOnce s p.src.toNat (askedOf p) again with
  | .ok x => .ok x
  | .error m => .error (decisionStop (askedOf p) m)

def dropRun (s : State) (p : Packet) : State := { s with runs := s.runs.filter fun x => x.p != p }

def holdRun (s : State) (p : Packet) : State := if s.runs.any fun x => x.p == p then s else { s with runs := s.runs ++ [{ p := p, own := none }] }

/-- Decide a run and act on the decision. -/
def runOnce (s : State) (p : Packet) (again : Bool) : State :=
  match decide' s p again with
  | .error (.wait t) => s.keep t
  | .error (.fault code sub t) => answerNak (dropRun (s.keep t) p) p code sub
  | .ok (t, .serve bankLocal) => serveRequest (dropRun t p) p true bankLocal
  | .ok (t, .moved w) => answerMoved (dropRun t p) p w
  | .ok (t, .hold) => holdRun t p

/-- RUN_RECEIVE. -/
def execRunReceive (p : Packet) (s : State) : Host.Outcome State Fault Refusal :=
  if (p.op ≠ pRead ∧ p.op ≠ pWrite) ∨ p.timetabled = true ∨ (p.op = pWrite ∧ p.data.length ≠ (Packet.len p)) then .next s
  else if s.runs.any (fun x => x.p == p) then .next s
  else onArrival s p (runOnce s p false)

/-! ### Timetabled packets at their target (R378, R379) -/

/-- Bytes of a packet whose 32-byte granules are complete once `n` bytes have arrived. -/
def completeBytes (p : Packet) (n : Nat) : Nat := if (Packet.len p) ≤ n then (Packet.len p) else (p.va.toNat + n) / 32 * 32 - p.va.toNat

/-- Whether a timetabled packet is served: a shard run meets Table 3.6 here too (R66); one that is held stands among the held
runs, and one that is moved writes nothing (log entry 62). -/
def spanServed (s : State) (p : Packet) : HRes (State × Bool) :=
  if isRun p then
    match decide' s p false with
    | .ok (t, .serve bankLocal) => .ok (t, bankLocal)
    | .ok (t, .moved _) => .error (.fault cShardMiss 2 t)
    | .ok (t, .hold) => .error (.wait (holdRun t p))
    | .error e => .error e
  else .ok (s, false)

/-- Perform bytes [a, b) of a timetabled packet. -/
def performSpan (s : State) (p : Packet) (d : List Byte) (a b : Nat) : HRes State :=
  if b ≤ a then .ok s
  else do
    let (s, bankLocal) ← spanServed s p
    let va ← requestVa s p (isRun p)
    let (s, l) ← agentPlaces (fabricAgent (pDie p) 54) p.pasid.toNat true bankLocal (ranges (va + a) (b - a)) s
    pure (writePlaces l ((d.drop a).take (b - a)) s)

/-- The core at whose word a packet arrives: one that runs a member of the issuer's gathering, which stands on the module that
the packet comes from (R301, log entry 43). -/
def arrivalCore (s : State) (p : Packet) : Option Nat :=
  let c := p.swcore.toNat
  let k := s.core c
  if syncOk p.sw.toNat && k.run != .off && k.member.pasid == p.pasid.toNat && k.member.gath == p.gath &&
      (match s.gath? k.member.gath with | some g => (if g.span then g.modules else [s.module]).contains (p.src.toNat / 4) | none => false)
  then some c else none

/-- The folio of the word that a packet's arrival needs. -/
def arrivalFolio (s : State) (p : Packet) : Option (Nat × List Nat) :=
  if p.swv then
    match arrivalCore s p with
    | some c => if (s.core c).allPresent (spadFolios p.sw.toNat 16) then none else some (c, spadFolios p.sw.toNat 16)
    | none => none
  else none

/-- The arrival at the word that a HEAD names; another core's is dropped and counted (R301). -/
def packetArrival (s : State) (p : Packet) (err : Bool) : State :=
  if p.swv = false then s
  else
    match arrivalCore s p with
    | some c => if err then arriveErr s c p.sw.toNat (Packet.len p) else arrive s c p.sw.toNat (Packet.len p)
    | none => s.count cntArrival

/-- The granules of a packet that are complete and not performed: false where they wait; broken where they are refused. -/
def landGranules (s : State) (a : Assembly) : State × Assembly × Bool :=
  let n := completeBytes a.head a.got.length
  match performSpan s a.head a.got a.landed n with
  | .ok t => (t, { a with landed := max a.landed n }, true)
  | .error (.fault _ _ t) => (s.keep t, { a with broken := true, landed := max a.landed n }, true)
  | .error (.wait t) => ({ s.keep t with runs := t.runs }, a, false)

/-- The end of a timetabled packet for this module: its last granules, and its arrival, with ERR if a flit was lost. False
where it waits. -/
def landPacket (s : State) (a : Assembly) : State × Bool :=
  match arrivalFolio s a.head with
  | some (c, fs) => (s.modCore c fun k => k.touchAll fs, false)
  | none =>
    let (s, a, ok) := landGranules s a
    if ok then (packetArrival s a.head a.broken, true) else (s, false)

/-- Packets of one circuit: their granules are performed in the order in which it brings them (R140). -/
def sameCircuit (a b : Packet) : Bool := a.src == b.src && a.circ == b.circ

/-- An earlier packet of the circuit has still to land. -/
def landsBehind (s : State) (p : Packet) : Bool := s.landing.any fun a => sameCircuit a.head p

/-- A timetabled packet has ended: it lands, or waits to. -/
def endTimetabled (s : State) (a : Assembly) : State :=
  if landsBehind s a.head then { s with landing := s.landing ++ [a] }
  else let r := landPacket s a; if r.2 then r.1 else { r.1 with landing := r.1.landing ++ [a] }

/-- Packets that wait to land are tried again, each circuit's in order. -/
def retryLanding (s : State) : State := s.landing.foldl endTimetabled { s with landing := [] }

/-! ### Held runs (R66) -/

/-- A held run of this module itself, or of a timetabled packet, is decided again; its operation, or the packet's landing, meets
the decision. -/
def ownOnce (s : State) (x : HeldRun) : State :=
  match decide' s x.p true with
  | .ok (t, .hold) => t
  | .ok (t, _) => dropRun t x.p
  | .error (.wait t) => s.keep t
  | .error (.fault _ _ t) => dropRun (s.keep t) x.p

/-- A run that no answer goes back for. -/
def HeldRun.quiet (x : HeldRun) : Bool := x.own.isSome || x.p.timetabled

/-- SHARD_HOLD_REREAD of the k-th held run. -/
def execShardHoldReread (k : Nat) (s : State) : Host.Outcome State Fault Refusal :=
  match s.runs[k]? with
  | some x => .next (if x.quiet then retryLanding (ownOnce s x) else if s.flowRoom (pKey x.p) then runOnce s x.p true else s)
  | none => .next s

/-- A run is moved, whichever of its requests asks (R66). A timetabled packet that waits as it writes nothing (log entry 62). -/
def markMoved (s : State) (p : Packet) (w : Nat) : State :=
  let s := match p.run with
    | some g => { s with decided := (p.src.toNat, g.id, some w) :: s.decided }
    | none => s
  { s with landing := s.landing.map fun a => if p.timetabled ∧ a.head = p then { a with broken := true, landed := Packet.len p } else a }

/-- The answer to a held run whose time is up, if there is one to give. -/
def closeHeld (s : State) (x : HeldRun) (f : State → State) : State := let t := dropRun s x.p; if x.quiet then t else f t

/-- SHARD_HOLD_TIMEOUT: SHARD_MOVED carrying the target's version, once the reverse flow has room for it (R381). -/
def execShardHoldTimeout (k : Nat) (s : State) : Host.Outcome State Fault Refusal :=
  match s.runs[k]? with
  | none => .next s
  | some x =>
    if !x.quiet && !s.flowRoom (pKey x.p) then .next s
    else
      let q := askedOf x.p
      match targetEntry s (q.node % 4) q.pasid q.tid q.mapver false with
      | .ok (t, e) => .next (retryLanding (closeHeld (markMoved t x.p e.mapver) x fun t => answerMoved t x.p e.mapver))
      | .error m =>
        match decisionStop q m with
        | .fault code sub t => .next (closeHeld (s.keep t) x fun t => answerNak t x.p code sub)
        | .wait t => .next (s.keep t)

/-! ### Requests through windows (R383) -/

/-- FABRIC_WRITE. -/
def execFabricWrite (p : Packet) (s : State) : Host.Outcome State Fault Refusal :=
  if p.op ≠ pWrite ∨ p.data.length ≠ (Packet.len p) then .next s
  else if p.timetabled then .next (if pMine p s then endTimetabled s { head := p, got := p.data, broken := false, skipped := 0, landed := 0 } else s)
  else onArrival s p (serveRequest s p false false)

/-- FABRIC_READ. -/
def execFabricRead (p : Packet) (s : State) : Host.Outcome State Fault Refusal :=
  if p.op ≠ pRead then .next s else onArrival s p (serveRequest s p false false)

/-- ATOMIC. -/
def execAtomic (p : Packet) (s : State) : Host.Outcome State Fault Refusal :=
  if p.op ≠ pAtomic ∨ 10 < p.aop.toNat ∨ (8 ≤ p.aop.toNat ∧ p.aop.toNat < 10) then .next s else onArrival s p (serveRequest s p false false)

/-! ### Answers at their requester -/

/-- Who sent a request: an operation of a core, or the hub. -/
inductive Asker where
  | op (core id : Nat)
  | hub
deriving DecidableEq, Repr

def Run.isFor (r : Run) (node fseq : Nat) : Bool := r.dest.node == node && r.fseq == fseq

/-- The sender of the request that a packet answers. -/
def requester (s : State) (p : Packet) : Option Asker :=
  match (coresOf s (pDie p)).findSome? fun c =>
    ((s.core c).ops.find? fun o => o.runs.any fun r => r.isFor p.src.toNat p.cmp.toNat).map fun o => Asker.op c o.id with
  | some a => some a
  | none => if pDie p = 0 ∧ s.hubRuns.any (fun x => x.run.isFor p.src.toNat p.cmp.toNat) = true then some .hub else none

def Run.answered (node fseq : Nat) (d : List Byte) (r : Run) : Run := if r.isFor node fseq && r.answer.isNone then { r with answer := some d } else r

def answerRun (node fseq : Nat) (d : List Byte) (o : Op) : Op := { o with runs := o.runs.map (Run.answered node fseq d) }

/-- A request's answer reaches who sent it. -/
def answered (s : State) (a : Asker) (node fseq : Nat) (d : List Byte) : State :=
  match a with
  | .op c id => s.modOp c id (answerRun node fseq d)
  | .hub => { s with hubRuns := s.hubRuns.map fun x => { x with run := x.run.answered node fseq d } }

/-- The answer of a shard run's request has come: that of SHARD_MOVED drops the TID, whatever has become of the operation
(R64). -/
def takeAsked (s : State) (p : Packet) : State :=
  (coresOf s (pDie p)).foldl (fun s c =>
    let mine := fun (x : Nat × Nat × Nat) => x.1 == p.src.toNat && x.2.1 == p.cmp.toNat
    let l := (s.core c).asked
    let s := if p.op = pMoved then (l.filter mine).foldl (fun s x => dropTid s c x.2.2) s else s
    if l.any mine then s.modCore c fun k => { k with asked := l.filter fun x => !mine x } else s) s

/-- An answer is taken once, and its SACK returned. -/
def takeAnswer (p : Packet) (s : State) (f : Asker → State → State) : Host.Outcome State Fault Refusal :=
  if (pMine p s) = false then .next s
  else
    match (s.flow (pKey p)).window p.fseq.toNat with
    | .beyond => .next s
    | .duplicate => .next (sendSack s (pKey p))
    | .fresh =>
      let t := takeAsked (acceptSeq s (pKey p) p.fseq.toNat) p
      match requester t p with
      | some a => .next (f a t)
      | none => .next t

/-- RDATA. -/
def execRdata (p : Packet) (s : State) : Host.Outcome State Fault Refusal :=
  if p.op ≠ pRdata then .next s else takeAnswer p s fun a t => answered t a p.src.toNat p.cmp.toNat p.data

/-- ARESP. -/
def execAresp (p : Packet) (s : State) : Host.Outcome State Fault Refusal :=
  if p.op ≠ pAresp then .next s else takeAnswer p s fun a t => answered t a p.src.toNat p.cmp.toNat (leBytes 8 p.operand.toNat)

/-- A request leaves its operation, which asks again when it goes on. -/
def forgetRun (node fseq : Nat) (o : Op) : Op := { o with runs := o.runs.filter fun r => !r.isFor node fseq }

/-- A fault of the ME's fetch of a remote operand is its cause (R292). -/
def asCause (o : Op) (f : CFault) : CFault :=
  if o.isMe && o.port != 0x390 then { f with code := cOperandFault, sub := f.code * 256 + f.sub } else f

/-- A cancelled operation whose granule cannot be finished lands nothing more (R311). -/
def Op.ended (o : Op) : Op := if o.isParked then o else { o with st := .queued }

/-- A fault that a request met at its target, or on the way (R380, R381): the operation parks with it. One that has parked, or
that fetches ahead of its turn (R283), only asks again. The record of a shard run that its target refused names the target's node (R65), where that
of a SHARD_MISS has it (log entry 30). -/
def remoteFault (s : State) (a : Asker) (code sub va node fseq : Nat) : State :=
  match a with
  | .op c id =>
    let run := (s.op c id).any fun o => o.runs.any fun r => r.isFor node fseq && r.dest.geom.isSome
    let s := s.modOp c id (forgetRun node fseq)
    match s.op c id with
    | none => s
    | some o =>
      if o.err.isSome then s.modOp c id Op.ended
      else if o.isParked || !engineFree (s.core c) o then s
      else
        let f := asCause o { CFault.mk' code sub 15 va with detail := if run && code != cUnreachable then fld node 37 else 0 }
        unitFault (parkOp s c o f) c o (.fault f)
  | .hub => { s with hubRuns := s.hubRuns.map fun x => if x.run.isFor node fseq then { x with nak := some (code, sub) } else x }

/-- NAK (R380). -/
def execNak (p : Packet) (s : State) : Host.Outcome State Fault Refusal :=
  if p.op ≠ pNak then .next s
  else takeAnswer p s fun a t => remoteFault t a (bits p.operand 63 56) (bits p.operand 55 40) (askedOf p).va p.src.toNat p.cmp.toNat

/-- A SHARD_MOVED for one run of an operation (R67); the TID leaves the cache whatever has become of the operation (R64). -/
def movedRun (s : State) (c id : Nat) (r : Run) (w : Nat) : State :=
  match s.op c id with
  | none => s
  | some o =>
    let forgotten := fun (s : State) => s.modOp c id (forgetRun r.dest.node r.fseq)
    if o.err.isSome then (forgotten (dropTid s c r.dest.tid)).modOp c id Op.ended
    else if o.isParked then forgotten (dropTid s c r.dest.tid)
    else
      match runMoved s c id r.dest w with
      | .hold t => t
      | e => if !engineFree (s.core c) o then forgotten (dropTid s c r.dest.tid) else takeEStop (forgotten (s.modOp c id fun o => { o with moved := [] })) c id (e.mapFault (asCause o))

/-- SHARD_MOVED_RECEIVE for the oldest unanswered run of an operation. -/
def execShardMovedReceive (core op : Nat) (version : BitVec 32) (s : State) : Host.Outcome State Fault Refusal :=
  match (s.op core op).bind fun o => o.runs.find? fun r => r.answer.isNone with
  | some r => .next (movedRun s core op r version.toNat)
  | none => .next s

/-- MOVED: SHARD_MOVED for the run whose request it answers. -/
def execMoved (p : Packet) (s : State) : Host.Outcome State Fault Refusal :=
  if p.op ≠ pMoved then .next s
  else takeAnswer p s fun a t =>
    match a with
    | .op c id =>
      match (t.op c id).bind fun o => o.runs.find? fun r => r.isFor p.src.toNat p.cmp.toNat with
      | some r => movedRun t c id r p.mapver.toNat
      | none => t
    | .hub => t

/-- SHARD_REQUESTER_REREAD: an operation that waits for its entry to reach a version reads it again. -/
def execShardRequesterReread (core op : Nat) (s : State) : Host.Outcome State Fault Refusal :=
  match s.op core op with
  | some o => .next (if o.moved.all fun x => x.coords.isEmpty then s else stepOp s core op)
  | none => .next s

/-- The record of an entry that stayed old: the run that was moved, and its versions (Table 18.4). -/
def staleFault (o : Op) (x : Lost) : CFault :=
  asCause o (shardFault 3 x.dest.tid x.dest.node ((x.dest.geom.map (·.first)).getD []) x.dest.mapver x.version)

/-- The requester's entry, read again, is still older than the version that a SHARD_MOVED carried. -/
def stillOld (s : State) (c id : Nat) (o : Op) (x : Lost) : Bool :=
  let ag := if o.isMe then meFetcher (dieOf c) else ceReader (dieOf c) false
  match readTable s c id ag ((s.pasids.get .none (s.core c).member.pasid).table + 128 * x.dest.tid) 128 with
  | .ok (_, b) => olderVersion (tidOfBytes b).mapver x.version
  | .error _ => false

/-- SHARD_REQUESTER_TIMEOUT: an entry that has not caught up raises SHARD_MISS subcode 3 (R67). -/
def execShardRequesterTimeout (core op : Nat) (s : State) : Host.Outcome State Fault Refusal :=
  match s.op core op with
  | some o =>
    match o.moved.find? fun x => engineFree (s.core core) o && !x.coords.isEmpty && stillOld s core op o x with
    | some x => .next (takeEStop (s.modOp core op fun o => { o with moved := [] }) core op (.fault (staleFault o x)))
    | none => .next s
  | none => .next s

/-! ### SACK, timers, barriers -/

/-- Whether a SACK covers a number. -/
def covers (p : Packet) (fseq : Nat) : Bool :=
  let d := (fseq + 2 ^ 32 - p.fseq.toNat) % 2 ^ 32
  let map : Nat := p.va.toNat + p.mapver.toNat % 128 * 2 ^ 57
  if d < 64 then map.testBit d else decide (2 ^ 31 ≤ d)

/-- A covered packet is released: a WRITE counts toward its operation; a MOVED or NAK that has reached its requester closes
its request's number. -/
def releasePacket (key : Nat) (s : State) (u : Packet × Nat × Nat × Nat) : State :=
  let p := u.1
  if p.op = pWrite then
    if u.2.2.1 < Config.cores then
      answered (s.modCore u.2.2.1 fun k => { k with asked := k.asked.filter fun x => !(x.1 == p.dst.toNat && x.2.1 == p.fseq.toNat) })
        (.op u.2.2.1 u.2.2.2) p.dst.toNat p.fseq.toNat []
    else answered s .hub p.dst.toNat p.fseq.toNat []
  else if p.op = pMoved ∨ p.op = pNak then acceptSeq s key p.cmp.toNat
  else s

/-- SACK. -/
def execSack (p : Packet) (s : State) : Host.Outcome State Fault Refusal :=
  if p.op ≠ pSack ∨ (pMine p s) = false then .next s
  else
    let f := s.flow (pKey p)
    let hit := f.unacked.filter fun u => covers p u.1.fseq.toNat
    let t := s.setFlow (pKey p) { f with unacked := f.unacked.filter fun u => !covers p u.1.fseq.toNat }
    .next (hit.foldl (releasePacket (pKey p)) t)

/-- A packet of a flow that no core has sent is a request of the hub, which sends from die 0, and no answer. -/
def isHubRequest (key : Nat) (p : Packet) : Bool := key / 32768 == 0 && (p.op == pWrite || p.op == pRead || p.op == pAtomic)

/-- SPRAY_RETRANSMIT_TIMER of packet `fseq` of flow `dst` (die × 32,768 + node): four resends, then FABRIC_UNREACHABLE. -/
def execSprayRetransmitTimer (dst fseq : Nat) (s : State) : Host.Outcome State Fault Refusal :=
  let f := s.flow dst
  match f.unacked.find? fun u => u.1.fseq.toNat == fseq with
  | none => .next s
  | some (p, n, c, id) =>
    if n < 5 then
      .next { s.setFlow dst { f with unacked := f.unacked.map fun u => if u.1.fseq.toNat = fseq then (p, n + 1, c, id) else u } with tx := s.tx ++ [p] }
    else
      let t := s.setFlow dst { f with unacked := f.unacked.filter fun u => u.1.fseq.toNat != fseq }
      let node := p.dst.toNat
      let mine := if c < Config.cores then (t.op c id).any fun o => o.runs.any fun r => r.isFor node fseq else isHubRequest dst p
      .next (if mine then remoteFault t (if c < Config.cores then .op c id else .hub) cUnreachable 1 (askedOf p).va node fseq else t)

/-- FABRIC_BARRIER: another module's arrival at a FABRIC-scope phase (R383). -/
def execFabricBarrier (p : Packet) (s : State) : Host.Outcome State Fault Refusal :=
  if p.op ≠ pBarrier then .next s
  else
    let t := acceptSeq s (pKey p) p.fseq.toNat
    let a := (p.src.toNat / 4, p.cmp.toNat)
    onArrival s p (match t.gath? p.operand.toNat with
      | some g => if g.fabric.contains a then t else t.setGath { g with fabric := g.fabric ++ [a] }
      | none => t)

/-- READY (R330). -/
def execReady (p : Packet) (s : State) : Host.Outcome State Fault Refusal :=
  if p.op ≠ pReady then .next s
  else
    let t := acceptSeq s (pKey p) p.fseq.toNat
    let a := (p.operand.toNat, p.src.toNat / 4)
    onArrival s p (if t.readies.contains a then t else { t with readies := t.readies ++ [a] })

/-- A packet that its flits have brought whole. -/
def deliverPacket (p : Packet) (s : State) : Host.Outcome State Fault Refusal :=
  let run := isRun p
  if p.op = pWrite then (if run && !p.timetabled then execRunReceive p s else execFabricWrite p s)
  else if p.op = pRead then (if run then execRunReceive p s else execFabricRead p s)
  else if p.op = pRdata then execRdata p s
  else if p.op = pAtomic then execAtomic p s
  else if p.op = pAresp then execAresp p s
  else if p.op = pSack then execSack p s
  else if p.op = pMoved then execMoved p s
  else if p.op = pNak then execNak p s
  else if p.op = pBarrier then execFabricBarrier p s
  else if p.op = pReady then execReady p s
  else .next s

def delivered (p : Packet) (s : State) : State := match deliverPacket p s with | .next t => t | _ => s

/-! ### Routers (R372, R376): router 0 is the hub's, 1 + d that of die d (log entry 40) -/

/-- Input of an output port in a slot (R376); 31 is FREE. -/
def slotInput (table : List (BitVec 128)) (slot out : Nat) : Nat := match table[slot]? with | some e => bits e (5 * out + 4) (5 * out) | none => 31

/-- Outputs of a router that take an input in a slot. -/
def routerOutputs (s : State) (router slot input : Nat) : List Nat :=
  (List.range (if router = 0 then 23 else 12)).filter fun o => slotInput (s.slotTabs.get [] router) slot o == input

/-- Where the routers bring a flit: a link, or an end on this module. -/
inductive Exit where
  | link (port : Nat)
  | here
deriving DecidableEq, Repr

/-- The exits of a flit at an input of a router, over at most `n` routers: hub outputs 0 to 17 are links, 18 to 21 dies, 22 the
hub's agents; die output 8 is the hub, 9 and 10 the ring neighbours, the others quires and HBM. -/
def routes (s : State) (slot : Nat) : Nat → Nat → Nat → List Exit
  | 0, _, _ => []
  | n + 1, router, input =>
    (routerOutputs s router slot input).flatMap fun o =>
      if router = 0 then (if o < 18 then [.link o] else if o < 22 then routes s slot n (o - 17) 8 else [.here])
      else if o = 8 then routes s slot n 0 (17 + router)
      else if o = 9 then routes s slot n (1 + router % 4) 10
      else if o = 10 then routes s slot n (1 + (router + 2) % 4) 9
      else [.here]

def State.slot (s : State) : Nat := s.time % 256

/-- Links by which a flit of a core leaves in this slot, from its quire's port of its die's router. -/
def injectLinks (s : State) (die quire : Nat) : List Nat :=
  (routes s s.slot 8 (1 + die) quire).filterMap fun e => match e with | .link p => some p | .here => none

/-! ### Links (R373, R374) -/

def State.link (s : State) (port : Nat) : Link := s.links.get .zero port
def State.setLink (s : State) (port : Nat) (l : Link) : State := { s with links := s.links.put .zero port l }
def State.modLink (s : State) (port : Nat) (f : Link → Link) : State := s.setLink port (f (s.link port))

/-- A slot that carries no HEAD, DATA or VOID flit (R375). -/
def guardSlot (i : Nat) : Bool := i % 32 == 31

/-- A link's slot that no input has (R376). -/
def freeSlot (s : State) (port : Nat) : Bool := slotInput (s.slotTabs.get [] 0) s.slot port == 31 && !guardSlot s.slot

/-- A link's slot has not carried a flit yet, and the link is not retraining. -/
def slotOpen (s : State) (port : Nat) : Bool := !(s.link port).retraining && (s.link port).slotAt != some s.time

/-- A flit leaves on a port, numbered and kept; a retraining link carries nothing. -/
def sendFlit (s : State) (port : Nat) (f : BitVec 512) : State :=
  let l := s.link port
  if l.retraining then s
  else
    let x := numberFlit f l.txSeq
    s.setLink port { l with txSeq := (l.txSeq + 1) % 4096, kept := l.kept ++ [(l.txSeq, x)], slotAt := some s.time, out := l.out ++ [x] }

/-- The oldest control flit, or resend, leaves if this slot may carry it: control in FREE and guard slots, a resend in FREE ones. -/
def drainQueue (s : State) (port : Nat) : State :=
  let l := s.link port
  match l.queue with
  | [] => s
  | (resend, f) :: r =>
    if slotOpen s port && (freeSlot s port || (!resend && guardSlot s.slot)) then
      if resend then s.setLink port { l with queue := r, slotAt := some s.time, out := l.out ++ [f] }
      else sendFlit (s.setLink port { l with queue := r }) port f
    else s

def queueFlit (s : State) (port : Nat) (resend : Bool) (f : BitVec 512) : State :=
  if (s.link port).retraining then s else drainQueue (s.modLink port fun l => { l with queue := l.queue ++ [(resend, f)] }) port

/-- Every link's queue in a new slot. -/
def drainQueues (s : State) : State := (List.range 18).foldl drainQueue s

/-- Link control: the number of the flit it is about in bits [11:0] of the body, a stage or half in [13:12], parity from bit 16
(log entry 40). -/
def controlFlit (type lseq n : Nat) (parity : BitVec 128) : BitVec 512 := mkFlit type 0 (BitVec.ofNat 448 (lseq % 4096 + fld (n % 4) 12 + fld parity.toNat 16))

def sendControl (s : State) (port type lseq n : Nat) (parity : BitVec 128) : State := queueFlit s port false (controlFlit type lseq n parity)

/-- A repair request: the sender answers with a supplement, the flit itself, or LOST; of the kept flits of the number the newest is
meant. -/
def repair (s : State) (port lseq n : Nat) : State :=
  match (s.link port).kept.reverse.find? fun x => x.1 == lseq with
  | none => sendControl s port fLost lseq 0 0
  | some (_, f) =>
    let parity := rsParity (leBytes 64 f.toNat)
    if n = 1 then sendControl s port fSupp lseq 0 (BitVec.ofNat 128 (leField parity 0 16))
    else if n = 2 then sendControl s port fSupp lseq 1 (BitVec.ofNat 128 (leField parity 16 16))
    else queueFlit s port true f

/-- LREQ. -/
def execLreq (port lseq n : Nat) (s : State) : Host.Outcome State Fault Refusal := .next (repair s port lseq n)

/-! ### Flits that the router passes on (R376) -/

/-- Links on which the router passes on a flit that comes at an input of the hub's router in a slot. -/
def passLinks (s : State) (slot port : Nat) : List Nat := (routes s slot 8 0 port).filterMap fun e => match e with | .link p => some p | .here => none

def Link.lane (l : Link) (stream : Nat) : Lane := l.lanes.get .empty stream
def State.modLane (s : State) (port stream : Nat) (f : Lane → Lane) : State :=
  s.modLink port fun l => { l with lanes := l.lanes.put .empty stream (f (l.lane stream)) }

/-- The oldest flit of a port whose circuit this slot belongs to leaves, if its links have the slot open: one flit a slot (R373), and
a circuit's flits in that circuit's slots only (R378). -/
def drainTransit (s : State) (port : Nat) : State :=
  let now := passLinks s s.slot port
  match (s.link port).transit.find? fun x => ((s.link port).lane x.2.1).slots.contains s.slot && passLinks s x.1 port == now with
  | none => s
  | some x =>
    if now.isEmpty || !now.all (slotOpen s) then s
    else now.foldl (fun s p => sendFlit s p x.2.2) (s.modLink port fun l => { l with transit := l.transit.erase x })

/-- Every port's flits in a new slot. -/
def drainTransits (s : State) : State := (List.range 18).foldl drainTransit s

/-- Flits of a timetabled packet that are still to be passed on after this one. -/
def passingAfter (n : Nat) (f : BitVec 512) : Nat :=
  if flitType f = fHead then (let p := packetOfHeader (flitBody f); if p.timetabled && hasPayload p.op then (Packet.len p + 55) / 56 else 0)
  else if flitType f = fData ∨ flitType f = fLost then n - 1 else n

/-- A flit of a stream is to be passed on as the table of a slot says. -/
def passOn (s : State) (port slot stream : Nat) (f : BitVec 512) : State :=
  if (passLinks s slot port).isEmpty then s
  else
    let s := s.modLane port stream fun l => { l with passing := passingAfter l.passing f, slots := if l.slots.contains slot then l.slots else slot :: l.slots }
    drainTransit (s.modLink port fun l => { l with transit := l.transit ++ [(slot, stream, f)] }) port

/-! ### Packets from flits -/

/-- Bytes that a DATA flit brings to a packet, or a lost one would have. -/
def flitTake (a : Assembly) : Nat := min 56 ((Packet.len a.head) - a.got.length - a.skipped)

/-- A packet whose every byte has come or is lost: a broken one is a sprayed packet that is sent again (R381), or a timetabled
one whose arrival carries ERR (R379); it may have to wait to land. -/
def endAssembly (s : State) (a : Assembly) : State :=
  if a.head.timetabled then (if pMine a.head s then endTimetabled s a else s)
  else if a.broken then s else delivered { a.head with data := a.got } s

/-- Bytes come in order: those of a timetabled packet for this module are performed granule by granule, behind its circuit's earlier
packets. -/
def takeData (s : State) (port stream : Nat) (a : Assembly) (f : BitVec 512) : State :=
  let n := flitTake a
  let b : Assembly := if a.broken then { a with skipped := a.skipped + n } else { a with got := a.got ++ (leBytes 56 (flitBody f).toNat).take n }
  let (s, b) := if b.head.timetabled && pMine b.head s && !landsBehind s b.head && decide (b.got.length < Packet.len b.head) then (let r := landGranules s b; (r.1, r.2.1)) else (s, b)
  if (Packet.len b.head) ≤ b.got.length + b.skipped then endAssembly (s.modLane port stream fun l => { l with part := none }) b
  else s.modLane port stream fun l => { l with part := some b }

/-- A HEAD, with what its packet carries beside its header: a packet of its stream that has not ended had flits lost. -/
def takeHead (s : State) (port : Nat) (x : InFlit) : State :=
  let s := match ((s.link port).lane x.stream).part with
    | some a => endAssembly s { a with broken := true }
    | none => s
  let p := { packetOfHeader (flitBody x.bits) with run := x.run, gath := x.gath }
  if hasPayload p.op then s.modLane port x.stream fun l => { l with part := some { head := p, got := [], broken := false, skipped := 0, landed := 0 } }
  else delivered p (s.modLane port x.stream fun l => { l with part := none })

/-- A HEAD or DATA flit that ends on this module, or LOST in the place of one (R379). -/
def takeHere (port : Nat) (s : State) (x : InFlit) : State :=
  if flitType x.bits = fHead then takeHead s port x
  else
    match ((s.link port).lane x.stream).part with
    | none => s
    | some a =>
      if flitType x.bits = fData then takeData s port x.stream a x.bits
      else if flitType x.bits = fLost then takeData s port x.stream { a with broken := true } 0
      else s

/-- A flit taken in order: the hub's router passes it on as the table of the slot in which it came says (R376); in a slot that the
table leaves FREE it ends here. -/
def takeFlit (port : Nat) (s : State) (x : InFlit) (slot : Nat) : State :=
  let ends := (routerOutputs s 0 slot port).isEmpty || (routes s slot 8 0 port).contains .here
  let s := passOn s port slot x.stream x.bits
  if ends then takeHere port s x else s

/-! ### Recovery (Table 21.2) -/

/-- The LOST flit that stands in a lost flit's place (R379). -/
def lostMark (stream : Nat) : InFlit := { stream := stream, bits := mkFlit fLost 0 0, run := none, gath := 0 }

/-- The flits of a stream that no damaged one holds back are taken; the rest stays held. -/
def releaseLane (port stream : Nat) : List LaneItem → State → State
  | [], s => s.modLane port stream fun l => { l with items := [] }
  | .got x slot :: r, s => releaseLane port stream r (takeFlit port s x slot)
  | .waits n :: r, s => s.modLane port stream fun l => { l with items := .waits n :: r }

/-- Something takes the place of the damaged flit `n` among the items of its stream. -/
def inPlace (n : Nat) (y : LaneItem) (l : List LaneItem) : List LaneItem := l.map fun i => if i = .waits n then y else i

def lostFlit (s : State) (port lseq : Nat) : State :=
  match (s.link port).damaged.find? fun d => d.lseq == lseq with
  | none => s
  | some d =>
    let s := s.modLink port fun l => { l with damaged := l.damaged.filter fun x => x.lseq != lseq }
    releaseLane port d.flit.stream (inPlace lseq (.got (lostMark d.flit.stream) d.slot) ((s.link port).lane d.flit.stream).items) s

/-- A flit, good or damaged, takes a place in the reorder buffer behind the damaged flit that holds its stream; the 17th to come has
that one abandoned (R379). -/
def holdFlit (s : State) (port stream : Nat) (i : LaneItem) : State :=
  let l := ((s.link port).lane stream).items
  let s := s.modLane port stream fun y => { y with items := l ++ [i] }
  match l with
  | .waits n :: r => if r.length < 16 then s else lostFlit s port n
  | _ => s

/-- Link control and VOID or IDLE flits act as they come; the others in the order of their stream. Stream 0 is the link's own:
control and resends. LOST of another stream stands in the place of a flit that was lost before this link. -/
def putFlit (s : State) (port : Nat) (x : InFlit) (slot : Nat) : State :=
  let w := (flitBody x.bits).toNat
  if flitType x.bits = fLreq then repair s port (w % 4096) (w / 2 ^ 12 % 4)
  else if flitType x.bits = fLost ∧ x.stream = 0 then lostFlit s port (w % 4096)
  else
    if ((s.link port).lane x.stream).items.isEmpty then takeFlit port s x slot else holdFlit s port x.stream (.got x slot)

def setDamaged (s : State) (port : Nat) (d : Damaged) : State :=
  s.modLink port fun l => { l with damaged := l.damaged.map fun x => if x.lseq = d.lseq then d else x }

/-- SUPP: parity half 0 or 1; a decode with a matching CRC yields the flit, else the next LREQ goes out. -/
def suppDecode (s : State) (port lseq part : Nat) (parity : BitVec 128) : State × Option (Damaged × BitVec 512) :=
  match (s.link port).damaged.find? fun d => d.lseq == lseq with
  | none => (s, none)
  | some d =>
    if d.waitNo ≠ part + 1 ∨ 2 ≤ part then (s, none)
    else
      let lo := match d.parity with | some x => x | none => parity
      let hi := if part = 1 then some (leBytes 16 parity.toNat) else none
      let f := BitVec.ofNat 512 (ofLeBytes (rsDecode (leBytes 64 d.flit.bits.toNat) (leBytes 16 lo.toNat) hi))
      if crcOk f then (s, some (d, f))
      else (sendControl (setDamaged s port { d with waitNo := part + 2, parity := some lo }) port fLreq lseq (part + 2) 0, none)

/-- A damaged flit is delivered in its place; `act` is what a flit of the link's own stream does. -/
def deliverDamaged (act : State → InFlit → Nat → State) (s : State) (port : Nat) (d : Damaged) (f : BitVec 512) : State :=
  let s := s.modLink port fun l => { l with damaged := l.damaged.filter fun x => x.lseq != d.lseq }
  let x := { d.flit with bits := f }
  let items := ((s.link port).lane x.stream).items
  if !items.contains (.waits d.lseq) then act s x d.slot
  else if 7 ≤ flitType f then releaseLane port x.stream (items.filter fun i => i != .waits d.lseq) (s.count (cntReserved port))
  else releaseLane port x.stream (inPlace d.lseq (.got x d.slot) items) s

/-- A flit with a good CRC acts: one of a reserved type is counted (R373), SUPP recovers a damaged flit, which then acts in turn. -/
def actFlit (port : Nat) : Nat → State → InFlit → Nat → State
  | 0, s, _, _ => s
  | n + 1, s, x, slot =>
    let w := (flitBody x.bits).toNat
    if 7 ≤ flitType x.bits then s.count (cntReserved port)
    else if flitType x.bits = fSupp then
      match suppDecode s port (w % 4096) (w / 2 ^ 12 % 4) (BitVec.ofNat 128 (w / 2 ^ 16)) with
      | (s, some (d, f)) => deliverDamaged (actFlit port n) s port d f
      | (s, none) => s
    else putFlit s port x slot

/-- Each flit that acts in turn leaves the damaged ones. -/
def arrived (s : State) (port : Nat) (x : InFlit) (slot : Nat) : State := actFlit port ((s.link port).damaged.length + 1) s x slot

def recovered (s : State) (port : Nat) (d : Damaged) (f : BitVec 512) : State := deliverDamaged (fun s x slot => arrived s port x slot) s port d f

def supp (s : State) (port lseq part : Nat) (parity : BitVec 128) : State :=
  match suppDecode s port lseq part parity with
  | (s, some (d, f)) => recovered s port d f
  | (s, none) => s

def execSupp (port lseq part : Nat) (parity : BitVec 128) (s : State) : Host.Outcome State Fault Refusal := .next (supp s port lseq part parity)

/-- LOST: the sender no longer holds the flit. -/
def execLost (port lseq : Nat) (s : State) : Host.Outcome State Fault Refusal := .next (lostFlit s port lseq)

/-- Flits of a circuit that were on their way to a link that retrains, of a packet that the router passes on: LOST stands in the
place of the first of them (R379). -/
def passLost (port : Nat) (s : State) (stream : Nat) : State :=
  let l := (s.link port).lane stream
  match l.slots with
  | slot :: _ => if 0 < l.passing then passOn s port slot stream (mkFlit fLost 0 0) else s
  | [] => s

/-- LINK_RETRAIN: every flit not yet delivered is lost: damaged ones, and those on their way, which leave the packets being
assembled, here or where a circuit ends, broken. -/
def retrain (s : State) (port : Nat) : State :=
  let s := (s.link port).damaged.foldl (fun s d => lostFlit s port d.lseq) s
  let s := ((s.link port).lanes.cells.map (·.1)).foldl (passLost port) s
  s.modLink port fun l =>
    { l with
      retraining := true, kept := [], queue := [],
      lanes := { cells := l.lanes.cells.map fun x => (x.1, { x.2 with part := x.2.part.map fun a => { a with broken := true } }) } }

def execLinkRetrain (port : Nat) (s : State) : Host.Outcome State Fault Refusal := .next (retrain s port)

def execLinkRetrainDone (port : Nat) (s : State) : Host.Outcome State Fault Refusal := .next (s.modLink port fun l => { l with retraining := false })

/-- FLIT_RETENTION_EXPIRY of the oldest kept flit of a number: 4,096 numbers come round within 32 µs. -/
def execFlitRetentionExpiry (port lseq : Nat) (s : State) : Host.Outcome State Fault Refusal :=
  .next (s.modLink port fun l => { l with kept := match l.kept.find? fun x => x.1 == lseq with | some x => l.kept.erase x | none => l.kept })

/-- A CRC mismatch. In a slot of the link's own, while a resend is due, it is that resend: LREQ 3 again, and the third time the
link retrains. Any other is a first one: LREQ 1. -/
def badFlit (s : State) (port : Nat) (x : InFlit) : State :=
  let l := s.link port
  match if x.stream = 0 then l.damaged.find? fun d => d.waitNo == 3 else none with
  | some d =>
    if d.resends = 2 then retrain s port
    else sendControl (setDamaged s port { d with resends := d.resends + 1 }) port fLreq d.lseq 3 0
  | none =>
    let d : Damaged := { lseq := l.rxSeq, flit := x, slot := s.slot, waitNo := 1, parity := none, resends := 0 }
    let s := s.setLink port { l with rxSeq := (l.rxSeq + 1) % 4096, damaged := l.damaged ++ [d] }
    let s := if x.stream = 0 then s else holdFlit s port x.stream (.waits d.lseq)
    sendControl s port fLreq d.lseq 1 0

/-- A flit with a good CRC: a resend, or a new one. -/
def goodFlit (s : State) (port : Nat) (x : InFlit) : State :=
  let l := s.link port
  match if x.stream = 0 then l.damaged.find? fun d => d.waitNo == 3 && d.lseq == flitLseq x.bits else none with
  | some d => recovered s port d x.bits
  | none => arrived (s.setLink port { l with rxSeq := (flitLseq x.bits + 1) % 4096 }) port x s.slot

/-- FLIT_RECEIVE: a flit of a stream, taken when its CRC agrees, else damaged. -/
def execFlitReceive (port : Nat) (flit : InFlit) (s : State) : Host.Outcome State Fault Refusal :=
  if (s.link port).retraining then .next s
  else
    let s := retryLanding s
    .next (if crcOk flit.bits then goodFlit s port flit else badFlit s port flit)

/-! ### Injection (R376 to R378) -/

/-- Send a flit on links, each of which has this slot open. -/
def sendOn (l : List Nat) (f : BitVec 512) (s : State) : State := l.foldl (fun s p => sendFlit s p f) s

/-- A core has an operation on the circuit whose data is still to come (R378). -/
def onCirc (k : Core) (circ : Nat) : Bool := k.ops.any fun o => timetable o == circ && !o.joined && !o.isParked && o.err.isNone

/-- Links by which the operations of a circuit leave in this slot. -/
def voidLinks (s : State) (circ : Nat) : List Nat :=
  (((s.cores.cells.filter fun x => onCirc x.2 circ).flatMap fun x => injectLinks s (dieOf x.1) (quireOf x.1 % 8)).eraseDups).filter (slotOpen s)

/-- CIRCUIT_SLOT_INJECT: in an injection slot the circuit's next flit leaves, or VOID while its operation fetches; the slot tables
carry it. -/
def execCircuitSlotInject (circ : Nat) (s : State) : Host.Outcome State Fault Refusal :=
  let c := s.circuits.get .none circ
  if c.valid = false ∨ c.slots.getLsbD s.slot = false ∨ guardSlot s.slot = true then .next s
  else
    match s.timetabled.find? fun t => t.circ == circ with
    | none => .next (sendOn (voidLinks s circ) (mkFlit fVoid 0 0) s)
    | some t =>
      let l := injectLinks s (dieOf t.core) (quireOf t.core % 8)
      if !l.all (slotOpen s) then .next s
      else
        match t.flits with
        | [] => .next { s with timetabled := s.timetabled.erase t }
        | f :: r =>
          let u := sendOn l f s
          .next { u with timetabled := if r.isEmpty then u.timetabled.erase t else u.timetabled.map fun x => if x = t then { t with flits := r } else x }

/-! ### The host (R147, R384, R385) -/

/-- Parts of a host access, each in one slice of 1 GiB: slice, offset in it, bytes. -/
def sliceParts : Nat → Nat → Nat → List (Nat × Nat × Nat)
  | 0, _, _ => []
  | f + 1, off, n =>
    if n = 0 then [] else let m := min n (2 ^ 30 - off % 2 ^ 30); (off / 2 ^ 30, off % 2 ^ 30, m) :: sliceParts f (off + m) (n - m)

/-- Bytes that the host reads; an unbound slice stops it. -/
def hostReads : List (Nat × Nat × Nat) → State → HRes (State × List Byte)
  | [], s => .ok (s, [])
  | (i, off, n) :: r, s =>
    match s.slices.get none i with
    | none => .error (.fault cTranslate 9 s)
    | some (pasid, base) => do
      let (s, d) ← agentRead s hostAgent pasid (base + off) n
      let (s, b) ← hostReads r s
      pure (s, d ++ b)

/-- A part that faults has no effect. -/
def hostWrites : List (Nat × Nat × Nat) → List Byte → State → Work
  | [], _, s => .ok s
  | (i, off, n) :: r, d, s => do
    let s ← match s.slices.get none i with
      | none => .ok s
      | some (pasid, base) => noteDone s (agentWrite s hostAgent pasid (base + off) (d.take n))
    hostWrites r (d.drop n) s

/-- HOST_BAR4_ACCESS: through bound slices, under their PASIDs' tables; a read's completion goes to the host. A read that faults
brings no data (log entry 33). -/
def execHostBar4Access (off len : Nat) (write : Option (List Byte)) (s : State) : Host.Outcome State Fault Refusal :=
  match write with
  | some d => .next (settleWork s (hostWrites (sliceParts (d.length / 2 ^ 30 + 2) off d.length) d s))
  | none =>
    match hostReads (sliceParts (len / 2 ^ 30 + 2) off len) s with
    | .ok (t, d) => .next { t with hostOut := t.hostOut ++ [.data d] }
    | .error e => .next (s.keep e.state)

end Sys2Proof.Machine
end

