-- ==== Sys2Proof/Machine/Firmware.lean ====
section
/-!
DEFINITION. Checkpoints (R387 to R390), the firmware commands of the mailbox (R393), bring-up (R394), power (R116, R395), and
the errors reported to the policy core (R99, R384).
-/

namespace Sys2Proof.Machine

/-! ### The mailbox (Table 22.4): word i at offset 0x1000 + 8 × i -/

/-- The outcome of a firmware command. -/
inductive Command where
  | done (s : State)
  | err (n : Nat) (s : State)
  /-- it waits, busy -/
  | wait (s : State)

def mailOp (op : Nat) : Word := BitVec.ofNat 64 (fld op 56)

/-- The words that the host writes: the command and the arguments that it has. -/
def mailArgs (op : Nat) (args : List Word) : List Word := mailOp op :: args

def setMail (s : State) : List Word → Nat → State
  | [], _ => s
  | w :: r, i => setMail { s with mailbox := s.mailbox.put 0 i w } r (i + 1)

def mailStatus (s : State) (w : Word) : State := { s with mailbox := s.mailbox.put 0 8 w }

/-- How a command that runs goes on: it ends, or stays busy with its op and arguments. -/
def commandEnd (op : Nat) (args : List Word) (s : State) : Command → State
  | .done t => mailStatus { t with command := none } 2
  | .err n t => mailStatus { s.keep t with command := none } (BitVec.ofNat 64 (fld n 8 + 2))
  | .wait t => mailStatus { s.keep t with command := some (op, args) } 1

/-- The host writes arguments and op with go. While a command runs, go is rejected with err 1; the words stay written. -/
def firmware (op : Nat) (args : List Word) (s : State) (f : State → Command) : Host.Outcome State Fault Refusal :=
  let t := setMail s (mailArgs op args) 0
  if bit (s.mailbox.get 0 8) 0 then .next (mailStatus t 0x101) else .next (commandEnd op args t (f t))

/-- Read firmware's own data: its addresses are of the save PASID (log entry 41). -/
def firmwareRead (s : State) (va n : Nat) (f : State → List Byte → Command) : Command :=
  match hubRead s s.savePasid va n with
  | .ok (t, d) => f t d
  | .error (.wait t) => .wait t
  | .error (.fault _ _ t) => .err 2 t

/-- PASID_BIND; a PASID that is still tearing down, its REVOKE or its control blocks, is waited for (R51). -/
def pasidBindCommand (pasid root table : Word) (s : State) : Command :=
  if 2 ^ 20 ≤ pasid.toNat ∨ root.toNat % 0x200000 ≠ 0 ∨ 2 ^ 52 ≤ root.toNat ∨ table.toNat % 4096 ≠ 0 ∨ canonical table.toNat = false then .err 2 s
  else if (s.pasids.get .none pasid.toNat).tearing || s.qcbs.cells.any (fun x => x.2.state == 2 && x.2.pasid == pasid.toNat) then .wait s
  else .done { s with pasids := s.pasids.set pasid.toNat { root := some root.toNat, table := table.toNat, tearing := false } }

def execPasidBind (pasid root table : Word) (s : State) : Host.Outcome State Fault Refusal := firmware 1 [pasid, root, table] s (pasidBindCommand pasid root table)

/-- QCB_CREATE (R332, R333). -/
def qcbCreateCommand (pasid queue m ring prio ecap : Word) (s : State) : Command :=
  if 2 ^ 20 ≤ pasid.toNat ∨ 65536 ≤ queue.toNat ∨ m.toNat < 4 ∨ 20 < m.toNat ∨ ring.toNat % 0x10000 ≠ 0 ∨ canonical ring.toNat = false ∨ 8 ≤ prio.toNat then .err 2 s
  else
    match qcbFind s pasid.toNat queue.toNat, (qcbSlots pasid.toNat queue.toNat).find? fun i => (s.qcb i).state == 0 with
    | none, some i =>
      .done (s.setQcb i { Qcb.free with state := 1, prio := prio.toNat, cur := prio.toNat, pasid := pasid.toNat, queue := queue.toNat, m := m.toNat, ring := ring.toNat, ecap := ecap.toNat })
    | _, _ => .err 3 s

def execQcbCreate (pasid queue m ring prio ecap : Word) (s : State) : Host.Outcome State Fault Refusal := firmware 2 [pasid, queue, m, ring, prio, ecap] s (qcbCreateCommand pasid queue m ring prio ecap)

/-- QCB_DESTROY (R333). -/
def qcbDestroyCommand (pasid queue : Word) (s : State) : Command :=
  match qcbFind s pasid.toNat queue.toNat with
  | none => .err 2 s
  | some i => .done (removeDrained (s.setQcb i { s.qcb i with state := 2 }))

def execQcbDestroy (pasid queue : Word) (s : State) : Host.Outcome State Fault Refusal := firmware 3 [pasid, queue] s (qcbDestroyCommand pasid queue)

/-! ### HBM maps (R100 to R102) -/

def regionBad (r : Word) : Bool :=
  bits r 63 62 == 3 || bits r 58 21 != 0 || (bits r 63 62 != 2 && bits r 61 59 != 0) || decide (5 < bits r 61 59)

/-- 64 MiB units of a stack that a region holds. -/
def regionHolds (r : Word) (u : Nat) : Bool := bit r 20 && decide (bits r 9 0 ≤ u) && decide (u ≤ bits r 9 0 + bits r 19 10)

/-- The valid regions cover every offset exactly once, and no reserved field or value is used (R101). -/
def mapOk (l : List Word) : Bool :=
  !(l.any regionBad) && (List.range 1024).all (fun u => (l.filter fun r => regionHolds r u).length == 1) &&
    l.all fun r => !bit r 20 || decide (bits r 9 0 + bits r 19 10 < 1024)

/-- HBM_MAP. -/
def hbmMapCommand (stack va : Word) (s : State) : Command :=
  if 8 ≤ stack.toNat then .err 2 s
  else firmwareRead s va.toNat 128 fun s d =>
    let l := (List.range 16).map fun i => BitVec.ofNat 64 (leField d (8 * i) 8)
    if mapOk l then .done { s with newRegions := s.newRegions.set stack.toNat l } else .err 3 s

def execHbmMap (stack va : Word) (s : State) : Host.Outcome State Fault Refusal := firmware 4 [stack, va] s (hbmMapCommand stack va)

def inStack (st : Nat) (p : Place) : Bool := !p.host && p.addr / 0x1000000000 == st

/-- Accesses on their way to a stack. -/
def stackBusy (s : State) (st : Nat) : Bool :=
  s.cores.cells.any (fun x => (x.2.arch.due ++ x.2.snap.due).any fun d => match d.req with | .load p _ _ => inStack st p | .atomic p _ _ _ _ => inStack st p | _ => false) ||
    s.banks.cells.any fun b => b.2.writes.any fun w => inStack st w.place

/-- A region whose mode, lgn, base or size changed, or that came or went. -/
def regionChanged (a b : Word) : Bool := (a &&& 0xF8000000001FFFFF) != (b &&& 0xF8000000001FFFFF)

/-- Bytes of a region are undefined until written. -/
def scrambleRegion (st : Nat) (r : Word) (s : State) : State :=
  if bit r 20 then
    let lo := st * 0x1000000000 + bits r 9 0 * 0x4000000
    { s with mem := s.mem.scramble lo (lo + (bits r 19 10 + 1) * 0x4000000) s.fresh, fresh := s.fresh + 1 }
  else s

/-- HBM_MAP_EFFECT, once no access to the stack is in flight. -/
def execHbmMapEffect (stack : Nat) (s : State) : Host.Outcome State Fault Refusal :=
  match s.newRegions.find? stack with
  | none => .next s
  | some l =>
    if stackBusy s stack then .next s
    else
      .next ((List.range 16).foldl (fun s k =>
        let old := s.regions.get (regionReset (16 * stack + k)) (16 * stack + k)
        let new := l.getD k 0
        let s := if regionChanged old new then scrambleRegion stack new (scrambleRegion stack old s) else s
        { s with regions := s.regions.put (regionReset (16 * stack + k)) (16 * stack + k) new }) { s with newRegions := s.newRegions.drop stack })

/-! ### Slot tables and circuits (R376, R377): router 0 is the hub's, 1 + d that of die d (log entry 40) -/

def entryBad (hub guard : Bool) (e : BitVec 128) : Bool :=
  let input := fun o => bits e (5 * o + 4) (5 * o)
  bits e 127 115 != 0 || (List.range 23).any fun o =>
    (decide (23 ≤ input o) && input o != 31) || (guard && input o != 31) || (!hub && decide (12 ≤ o) && input o != 31)

def guardedCircuit (c : Circuit) : Bool := c.valid && (List.range 8).any fun k => c.slots.getLsbD (32 * k + 31)

/-- SLOT_TABLE. -/
def slotTableCommand (router va time : Word) (s : State) : Command :=
  if 5 ≤ router.toNat ∨ time.toNat % 256 ≠ 0 then .err 2 s
  else firmwareRead s va.toNat 4096 fun s d =>
    let l := (List.range 256).map fun i => BitVec.ofNat 128 (leField d (16 * i) 16)
    if ((List.range 256).zip l).any (fun x => entryBad (router.toNat == 0) (guardSlot x.1) x.2) || s.circuits.cells.any (fun x => guardedCircuit x.2) then .err 3 s
    else .done { s with slotNext := s.slotNext.set router.toNat l, slotTime := time.toNat }

def execSlotTable (router va time : Word) (s : State) : Host.Outcome State Fault Refusal := firmware 5 [router, va, time] s (slotTableCommand router va time)

/-- The value of the counter at which new tables take effect: the activation time, or where it has gone by, the next multiple of
256. -/
def activation (now t : Nat) : Nat := if reached now t then (now + 255) / 256 * 256 % 2 ^ 64 else t

/-- A packet of a circuit that a port receives or passes on: in its assembly, among the flits that a damaged one holds, or on its
way through. -/
def Lane.busy (l : Lane) : Bool := (match l.part with | some a => a.head.timetabled | none => false) || !l.items.isEmpty || decide (0 < l.passing)

/-- A circuit transfer is in flight: sent, on its way through, received or still to land. -/
def circuitsBusy (s : State) : Bool :=
  !s.timetabled.isEmpty || !s.landing.isEmpty || s.links.cells.any fun x => !x.2.transit.isEmpty || x.2.lanes.cells.any fun y => y.2.busy

/-- SLOT_TABLE_ACTIVATE, while no circuit transfer is in flight; from then on other slots tell the circuits. -/
def execSlotTableActivate (s : State) : Host.Outcome State Fault Refusal :=
  if s.slotNext.cells.isEmpty ∨ circuitsBusy s then .next s
  else .next { s with
    links := { cells := s.links.cells.map fun x => (x.1, { x.2 with lanes := { cells := (x.2.lanes.cells.map fun y => (y.1, { y.2 with slots := [] })).filter fun y => y.2 != .empty } }) },
    time := activation s.time s.slotTime, slotTabs := s.slotNext.cells.foldl (fun (t : Tab (List (BitVec 128))) x => t.set x.1 x.2) s.slotTabs, slotNext := .empty }

/-- CIRCUIT; reserved bits of the entry are ignored (R9). -/
def circuitCommand (circ va : Word) (s : State) : Command :=
  if circ.toNat = 0 ∨ 256 ≤ circ.toNat then .err 2 s
  else firmwareRead s va.toNat 64 fun s d =>
    let c : Circuit := { slots := BitVec.ofNat 256 (leField d 0 32), target := leField d 32 2 % 2 ^ 15, valid := leField d 34 1 % 2 == 1 }
    if guardedCircuit c then .err 3 s
    else .done { s with circuits := s.circuits.put .none circ.toNat c }

def execCircuit (circ va : Word) (s : State) : Host.Outcome State Fault Refusal := firmware 6 [circ, va] s (circuitCommand circ va)

/-! ### Bindings -/

/-- NOTIFY_BIND. -/
def notifyBindCommand (aperture pasid : Word) (s : State) : Command :=
  if 4096 ≤ aperture.toNat ∨ 2 ^ 20 ≤ pasid.toNat then .err 2 s else .done { s with apertures := s.apertures.set aperture.toNat (some pasid.toNat) }

def execNotifyBind (aperture pasid : Word) (s : State) : Host.Outcome State Fault Refusal := firmware 7 [aperture, pasid] s (notifyBindCommand aperture pasid)

/-- SLICE_BIND. -/
def sliceBindCommand (slice pasid base : Word) (s : State) : Command :=
  if 64 ≤ slice.toNat ∨ 2 ^ 20 ≤ pasid.toNat then .err 2 s else .done { s with slices := s.slices.set slice.toNat (some (pasid.toNat, base.toNat)) }

def execSliceBind (slice pasid base : Word) (s : State) : Host.Outcome State Fault Refusal := firmware 8 [slice, pasid, base] s (sliceBindCommand slice pasid base)

/-- WINDOW: a base aligned to 128 GiB (R383). -/
def windowCommand (pasid base : Word) (s : State) : Command :=
  if 2 ^ 20 ≤ pasid.toNat ∨ base.toNat % 2 ^ 37 ≠ 0 ∨ canonical base.toNat = false then .err 2 s else .done { s with windows := s.windows.set pasid.toNat (some base.toNat) }

def execWindow (pasid base : Word) (s : State) : Host.Outcome State Fault Refusal := firmware 9 [pasid, base] s (windowCommand pasid base)

/-- Bytes and their signature. -/
def withSignature (m : List Byte) : List Byte := m ++ leBytes 3309 (Config.signature m).toNat

/-- IDENTITY: the measurement over the nonce and its signature are written behind the nonce (log entry 41). -/
def identityCommand (va : Word) (s : State) : Command :=
  firmwareRead s va.toNat 32 fun s nonce =>
    let m := shake256 (Config.measurement s.policyLoaded ++ nonce) 32
    match hubWrite s s.savePasid (va.toNat + 32) (withSignature m) with
    | .ok t => .done t
    | .error (.wait t) => .wait t
    | .error (.fault _ _ t) => .err 2 t

def execIdentity (va : Word) (s : State) : Host.Outcome State Fault Refusal := firmware 0x0A [va] s (identityCommand va)

/-- Set bits of a bitmap, bit n of byte n / 8 being module n's. -/
def bitmapList (b : List Byte) : List Nat :=
  ((List.range b.length).zip b).flatMap fun x => ((List.range 8).filter fun i => x.2.getLsbD i).map fun i => 8 * x.1 + i

/-- FABRIC_MEMBERS (R23, R24). -/
def fabricMembersCommand (members domain : Word) (s : State) : Command :=
  firmwareRead s members.toNat 1024 fun s a =>
    firmwareRead s domain.toNat 1024 fun s b =>
      let m := bitmapList a
      let d := bitmapList b
      if d.all (m.contains ·) && decide (d.length ≤ 256) && d.contains s.module then .done { s with members := m, domain := d } else .err 2 s

def execFabricMembers (members domain : Word) (s : State) : Host.Outcome State Fault Refusal := firmware 0x0B [members, domain] s (fabricMembersCommand members domain)

/-! ### Checkpoints (R387 to R390) -/

/-- Pages of a shard, by walks of the command processor from its first address (R33): virtual address and bytes; or the walk's
fault. -/
def shardPages (pasid : Nat) : Nat → Nat → Nat → State → HRes (State × List (Nat × Nat))
  | 0, _, _, s => .ok (s, [])
  | n + 1, va, stop, s =>
    if stop ≤ va then .ok (s, [])
    else
      match walk s hubAgent pasid va false with
      | .error f => .error (hubStop s hubAgent.cache pasid va f)
      | .ok (t, e) =>
        if leafSize e = 3 then .error (.fault cTranslate 6 t)
        else
          let base := pageBase va (leafSize e)
          let size := pageBytes (leafSize e)
          (shardPages pasid n (base + size) stop t).map fun r => (r.1, (base, size) :: r.2)

def allPages (pasid : Nat) : List (Nat × Nat) → State → HRes (State × List (Nat × Nat))
  | [], s => .ok (s, [])
  | (va, len) :: r, s => do
    let (s, a) ← shardPages pasid (len / 0x10000 + 1) va (va + len) s
    let (s, b) ← allPages pasid r s
    pure (s, a ++ b)

/-- Change a leaf with one 8-byte store. -/
def setLeaf (s : State) (pasid va : Nat) (f : Word → Word) : State :=
  match leafOf s pasid va with
  | some (a, e) => s.write64 { host := false, addr := a } (f e)
  | none => s

/-- Shards stand one after another from an NV offset. -/
def placeShards : List (Nat × Nat) → Nat → List (Nat × Nat × Nat)
  | [], _ => []
  | (va, n) :: r, o => (va, n, o) :: placeShards r (o + n)

/-- Shard data lie in one of three areas of the module's space behind the manifests (log entry 42). -/
def areaBytes : Nat := 0x2A80000000
def nvBase (area : Nat) : Nat := 0x80000000 + area * areaBytes
def nvAddr : Nat := 0x20000000000

/-- The old frames of a snapshot's list that are not needed go back to their pools. -/
def releaseFrames (s : State) (pasid : Nat) : State :=
  let mine := s.snapFrames.filter fun x => x.1 / 2 ^ 64 == pasid
  let put := fun (t : Tab (List Nat)) (x : Nat × Word) =>
    let k := poolKey pasid (leafSize x.2)
    t.put [] k (t.get [] k ++ [leafFrame x.2])
  { s with snapFrames := s.snapFrames.filter (fun x => x.1 / 2 ^ 64 != pasid), pools := mine.foldl put s.pools }

/-- The snapshot (R388 steps 1 to 3): cow in every leaf, one REFRESH for each shard. -/
def takeSnapshot (s : State) (pasid : Nat) (shards pages : List (Nat × Nat)) : State :=
  let s := pages.foldl (fun s p => setLeaf s pasid p.1 fun e => e ||| 0x10) (releaseFrames s pasid)
  shards.foldl (fun s x => s.addShoot { Shoot.own pasid with all := false, lo := x.1, hi := x.1 + x.2, refresh := true }) s

/-! ### Control state (R390) -/

/-- Words of a queue control block (Table 16.2). -/
def Qcb.word (q : Qcb) (i : Nat) : Nat :=
  if i = 0 then fld q.state 62 + fld q.prio 59 + fld q.cur 56 + fld q.pasid 36 + fld q.queue 20 + q.m
  else if i = 1 then q.ring
  else if i = 2 then fld q.rd 32 + q.wr
  else if i = 3 then fld q.outst 32 + q.rej
  else if i = 4 then q.ecap
  else 0

def Qcb.bytes (q : Qcb) : List Byte := (List.range 16).flatMap fun i => leBytes 8 (q.word i)

/-- Every resident gathering is pre-empted. -/
def preemptAll (s : State) : State := (s.gaths.filter fun g => g.state == .running).foldl (fun s g => match preempt s g with | .ok t => t | .error t => t) s

/-- Nothing is resident, no circuit transfer is in flight, and every flow's window is acknowledged. -/
def cutReady (s : State) : Bool :=
  s.gaths.all (fun g => g.state != .running && g.state != .loaded) && !circuitsBusy s && s.flows.cells.all fun f => f.2.unacked.isEmpty

/-- Folios that cores hold for saved members, clean ones too (Table 18.9). -/
def owedFolios (s : State) : List Held :=
  (allCores s).flatMap fun c => (s.core c).held.filter fun x => !noTiles x.data && (savedMember s x.gath x.rank).isSome

/-- Bytes of a saved member's endpaper, sequencer and engine blocks, and folio 0. -/
def Saved.bytes (v : Saved) (stamp : Nat) : List Byte :=
  v.ep.bytes v.member ++ seqBytes v.arch v.wdog v.shape ++ engBytes stamp v.joins v.ceStat ++ tabBytes v.folio0 (fun _ => 0) 0 4096 1

/-- In the extra shard an owed folio's map entry names its place there; a tile folio without a defined tile is undefined. -/
def cutEntries (base : Nat) : List (Held × Nat) → List Saved → List Saved
  | [], l => l
  | (x, i) :: r, l =>
    let b := folioBytes x.stamp x.folio x.data
    let e : MapEntry := { addr := nvAddr + base + 4096 * i, digest := digest32 b, kind := 3, node := 0, core := 0 }
    cutEntries base r (l.map fun v => if v.gath = x.gath ∧ v.rank = x.rank then { v with ep := v.ep.setEntry x.folio e } else v)

def emptyEntries (s : State) (v : Saved) : Saved :=
  let l := (allCores s).flatMap fun c => (s.core c).held.filter fun x => noTiles x.data && x.gath == v.gath && x.rank == v.rank
  { v with ep := l.foldl (fun p x => p.setEntry x.folio { MapEntry.zero with kind := 6 }) v.ep, pulls := [] }

/-- Bytes of a member in the extra shard. -/
def memberBytes : Nat := 0x2800

/-- What the extra shard holds, from an NV offset: the members, the owed folios, the control blocks. -/
def cutControl (s : State) (base : Nat) : Control × List Byte :=
  let owed := owedFolios s
  let saved := cutEntries (base + memberBytes * s.saved.length) (owed.zip (List.range owed.length)) (s.saved.map (emptyEntries s))
  ({ saved := saved, gaths := s.gaths.filter fun g => g.state == .saved, qcbs := s.qcbs },
   saved.flatMap (fun v => v.bytes s.fresh) ++ owed.flatMap (fun x => folioBytes x.stamp x.folio x.data) ++ s.qcbs.cells.flatMap fun x => x.2.bytes)

/-- This module knows what its owed folios' bytes stand for. -/
def knowOwed (s : State) : State := (owedFolios s).foldl vaultPut s

/-! ### CHECKPOINT -/

/-- Generations on the NV module: the newest of them. -/
def newestGen (s : State) : Option Nat :=
  ((List.range 2).filterMap fun i => let m := s.manifests.get .empty i; if m.state = 1 ∨ m.state = 2 then some m.gen else none).foldl (fun a g => some (match a with | some x => max x g | none => g)) none

/-- Whether a generation number exceeds every one there. -/
def newGen (s : State) (gen : Nat) : Bool := match newestGen s with | some g => decide (g < gen) | none => true

/-- An area that holds the shards of neither slot's generation. -/
def freeArea (s : State) : Nat :=
  let used := ((List.range 2).map (s.manifests.get .empty ·)).filter fun m => m.state == 1 || m.state == 2
  ((List.range 3).find? fun a => !(used.any fun m => m.area == a)).getD 0

def planShards (b : List Byte) (n : Nat) : List (Nat × Nat) := (List.range n).map fun i => (leField b (16 * i) 8, leField b (16 * i + 8) 8)

def planBad (l : List (Nat × Nat)) : Bool := l.any fun x => x.1 % 0x10000 != 0 || x.2 % 0x10000 != 0

/-- The verdict of a fault that ends a checkpoint's packet: of a shard's walk TRANSLATE_FAULT, whatever the walk's own code (R388). -/
def planFault (code sub : Nat) : Verdict := { status := stFault, code := code, sub := sub, bundle := 0, idx := 0 }

/-- Read a CHECKPOINT's plan and walk every page of its shards: the shards and the pages, or the verdict that ends the packet. -/
def checkpointPlan (s : State) (p : QPacket) : Except State (State × Except Verdict (List (Nat × Nat) × List (Nat × Nat))) :=
  let n := bits (p.word 0x10) 63 32
  if n = 0 ∨ 65536 < n ∨ newGen s (p.word 0x18).toNat = false then .ok (s, .error (.of stBadPacket))
  else
    match hubRead s p.pasid (p.word 0x08).toNat (16 * n) with
    | .error (.wait t) => .error t
    | .error (.fault code sub t) => .ok (s.keep t, .error (planFault code sub))
    | .ok (s, b) =>
      let shards := planShards b n
      if planBad shards then .ok (s, .error (.of stBadPacket))
      else
        match allPages p.pasid shards s with
        | .error (.wait t) => .error t
        | .error (.fault _ sub t) => .ok (s.keep t, .error (planFault cTranslate sub))
        | .ok (t, pages) => .ok (t, .ok (shards, pages.eraseDups))

/-- Start a generation: the extra shard of a cut is written, the snapshot taken, and the packet completed. -/
def startCheckpoint (s : State) (p : QPacket) (shards pages : List (Nat × Nat)) : Work :=
  let area := freeArea s
  let base := nvBase area
  let (ctl, b) := if bit (p.word 0x10) 1 then (let x := cutControl s base; (some x.1, x.2)) else (none, [])
  let extra := (b.length + 0xFFFF) / 0x10000 * 0x10000
  let s := if bit (p.word 0x10) 1 then (knowOwed s).writeAt { host := false, addr := nvAddr + base } (padTo extra b) else s
  let s := takeSnapshot s p.pasid shards pages
  let c : Checkpoint :=
    { gen := (p.word 0x18).toNat, area := area, pasid := p.pasid, shards := placeShards shards (base + extra), extra := extra, control := ctl, pages := pages,
      dsig := (p.word 0x20).toNat, colophon := (p.word 0x28).toNat, stage := if pages.isEmpty then 1 else 0 }
  refusePacket { s with checkpoint := some c } p (.of stOk)

/-- CHECKPOINT_PACKET; a second one waits for the first. With cut = 1 it first has every resident gathering pre-empted, and waits
until circuits and flows have drained. -/
def execCheckpointPacket (id : Nat) (s : State) : Host.Outcome State Fault Refusal :=
  match s.packet? id with
  | none => .next s
  | some p =>
    if p.type ≠ 8 ∨ p.started = true ∨ s.checkpoint.isSome = true ∨ mayLaunch s p = false then .next s
    else
      match checkpointPlan s p with
      | .error t => .next (s.keep t)
      | .ok (t, .error v) => .next (settleWork s (refusePacket (launchPacket t p) p v))
      | .ok (t, .ok (shards, pages)) =>
        if bit (p.word 0x10) 1 && s.gaths.any (fun g => g.state == .running) then .next (preemptAll s)
        else if bit (p.word 0x10) 1 && !cutReady s then .next s
        else .next (settleWork s (startCheckpoint (launchPacket t p) p shards pages))

/-- A page's bytes under a leaf: at its node through a window (R383), or in this module's memory or the host's. -/
def readLeaf (s : State) (pasid va : Nat) (e : Word) : HRes (State × List Byte) :=
  let n := pageBytes (leafSize e)
  let (node, off) := windowNode e va
  if leafKind e ≠ 4 then .ok (s, s.readPage pasid e)
  else if node / 4 = s.module then
    match s.windows.get none pasid with
    | none => .error (.fault cTranslate 7 s)
    | some w => agentRead s (fabricAgent (node % 4) 55) pasid (w + off) n
  else if mayReach s s.domain node then
    let l := hubParts false node (n / 4096 + 1) off n []
    hubTakes pasid l (l.foldl (fun s q => hubSend s pasid q) s)
  else .error (.fault cUnreachable 1 s)

/-- The copier holds a page that still has its cow: migrating is set while its bytes are read (R388). -/
def holdPage (s : State) (pasid va : Nat) : State :=
  match leafOf s pasid va with
  | some (_, e) => if leafCow e then setLeaf s pasid va fun e => e ||| 0x8 else s
  | none => s

/-- The source of a page's bytes: the page itself, its cow and migrating cleared by one store; or the old frame, if a duplication
took cow away first, which then goes back to its pool. A page that has lost its leaf is a fault. -/
def copySource (s : State) (pasid va : Nat) : HRes (State × List Byte) :=
  match leafOf s pasid va with
  | none => .error (.fault cTranslate 2 s)
  | some (_, e) =>
    if leafCow e then (readLeaf s pasid va e).map fun x => (setLeaf x.1 pasid va fun e => e &&& ~~~ 0x18, x.2)
    else
      match s.snapFrames.find? fun x => x.1 == pageKey pasid va with
      | some x =>
        let k := poolKey pasid (leafSize x.2)
        (readLeaf s pasid va x.2).map fun y => ({ y.1 with snapFrames := y.1.snapFrames.erase x, pools := y.1.pools.put [] k (y.1.pools.get [] k ++ [leafFrame x.2]) }, y.2)
      | none => readLeaf s pasid va e

/-- A page's bytes go to every shard that they are part of. -/
def writeShards (va : Nat) (d : List Byte) (s : State) : List (Nat × Nat × Nat) → State
  | [] => s
  | (a, len, off) :: r =>
    let lo := max a va
    let hi := min (a + len) (va + d.length)
    writeShards va d (if lo < hi then s.writeAt { host := false, addr := nvAddr + off + (lo - a) } ((d.drop (lo - va)).take (hi - lo)) else s) r

/-- A generation is given up: the slot keeps its older content, and frames that were not copied go back (Table 22.2). -/
def discard (s : State) (c : Checkpoint) : State := releaseFrames { s with checkpoint := none } c.pasid

/-- Bytes of a generation's shards. -/
def Checkpoint.bytes (c : Checkpoint) : Nat := c.extra + (c.shards.map fun x => x.2.1).foldl (· + ·) 0

/-- CHECKPOINT_PAGE_COPY of the next page; a page that has lost its leaf, or a generation that the module has no room for, is a
fault (Table 22.2, log entry 42). -/
def execCheckpointPageCopy (s : State) : Host.Outcome State Fault Refusal :=
  match s.checkpoint with
  | none => .next s
  | some c =>
    match c.pages with
    | [] => .next s
    | (va, n) :: r =>
      if isMigrating s c.pasid va && !c.copying then .next s
      else if areaBytes < c.bytes then .next (discard s c)
      else
        let u := holdPage s c.pasid va
        match copySource u c.pasid va with
        | .error (.wait t) => .next { u.keep t with checkpoint := some { c with copying := isMigrating u c.pasid va } }
        | .error (.fault _ _ t) => .next (discard (setLeaf (u.keep t) c.pasid va fun e => e &&& ~~~ 0x8) c)
        | .ok (t, d) => .next { writeShards va (d.take n) t c.shards with checkpoint := some { c with pages := r, stage := if r.isEmpty then 1 else 0, copying := false } }

/-- VA, length, NV offset and digest of every shard, the extra one first, at VA 0 (log entry 42). -/
def shardRecords (s : State) (c : Checkpoint) : List (Nat × Nat × Nat × List Byte) :=
  ((if c.control.isSome then [(0, c.extra, nvBase c.area)] else ([] : List (Nat × Nat × Nat))) ++ c.shards).map fun (x : Nat × Nat × Nat) =>
    (x.1, x.2.1, x.2.2, shake256 (s.readAt { host := false, addr := nvAddr + x.2.2 } x.2.1) 32)

/-- Everything of a manifest but its signature (R389, log entry 42). -/
def manifestBody (s : State) (gen : Nat) (l : List (Nat × Nat × Nat × List Byte)) : List Byte :=
  leBytes 4 0x5A4C434B ++ leBytes 4 1 ++ leBytes 8 gen ++ leBytes 8 l.length ++ leBytes 8 (4 * s.module) ++ leBytes 8 s.time ++ leBytes 24 0 ++
    l.flatMap fun x => leBytes 8 x.1 ++ leBytes 8 x.2.1 ++ leBytes 8 x.2.2.1 ++ x.2.2.2

/-- A manifest's bytes; its signature is free (log entry 10). -/
def manifestBytes (s : State) (gen : Nat) (l : List (Nat × Nat × Nat × List Byte)) : List Byte := withSignature (manifestBody s gen l)

/-- A manifest slot of the NV module. -/
def slotAddr (i : Nat) : Place := { host := false, addr := nvAddr + i * 0x40000000 }

/-- A slot is valid when the magic, the signature and every shard digest check (R389). -/
def slotValid (s : State) (i : Nat) : Bool :=
  let n := leField (s.readAt (slotAddr i) 64) 16 8
  let body := s.readAt (slotAddr i) (64 + 56 * n)
  leField body 0 4 == 0x5A4C434B && decide (n ≤ 65537) && s.readAt (slotAddr i) (64 + 56 * n + 3309) == withSignature body &&
    (List.range n).all fun k =>
      shake256 (s.readAt { host := false, addr := nvAddr + leField body (64 + 56 * k + 16) 8 } (leField body (64 + 56 * k + 8) 8)) 32 == (body.drop (64 + 56 * k + 24)).take 32

/-- The slot that a restore takes: the valid one of higher gen (R389). -/
def restoreSlot (s : State) : Option Nat :=
  ((List.range 2).filter fun i => ((s.manifests.get .empty i).state == 1 || (s.manifests.get .empty i).state == 2) && slotValid s i).foldl
    (fun a i => match a with
      | some j => if (s.manifests.get .empty j).gen < (s.manifests.get .empty i).gen then some i else a
      | none => some i) none

/-- The manifest that a checkpoint writes. -/
def Checkpoint.manifest (c : Checkpoint) (s : State) (state : Nat) : Manifest :=
  { gen := c.gen, area := c.area, state := state, shards := shardRecords s c, control := c.control }

/-- A generation becomes VALID, the other slot's SUPERSEDED. -/
def State.commitSlot (s : State) (i : Nat) (m : Manifest) : State :=
  let other := s.manifests.get .empty (1 - i)
  { s with manifests := (s.manifests.set i m).set (1 - i) (if other.state = 1 then { other with state := 2 } else other) }

/-- MANIFEST_COMMIT: written last and read back; `ok` says whether it verifies. -/
def execManifestCommit (ok : Bool) (s : State) : Host.Outcome State Fault Refusal :=
  match s.checkpoint with
  | none => .next s
  | some c =>
    if c.stage ≠ 1 then .next s
    else
      let i := c.gen % 2
      let t := discard (s.writeAt (slotAddr i) (manifestBytes s c.gen (shardRecords s c))) c
      if ok then .next (settleWork s (hubAdd (t.commitSlot i (c.manifest s 1)) c.pasid c.dsig (-1)))
      else
        .next (settleWork s (writeColophon { t with manifests := t.manifests.set i (c.manifest s 3) } c.pasid c.colophon (planFault cPushFail 2) 0 0 0))

/-! ### Power and bring-up -/

/-- POWER_LOSS: what the NV module has acknowledged survives (R116); an unfinished generation is discarded. The host, its memory
and ATS, and the wires are outside the module. -/
def execPowerLoss (s : State) : Host.Outcome State Fault Refusal :=
  .next { State.reset with
    agenda := s.agenda, fresh := s.fresh, module := s.module, host := s.host, ats := s.ats, manifests := s.manifests, vault := s.vault, tx := s.tx, reports := s.reports,
    hostOut := s.hostOut, mem := { cells := s.mem.cells.filter fun c => kindHolds 5 c.1 && c.2 != 0, scram := [] } }

/-- The contexts and queues of a restored generation: its gatherings stand saved, to be restored with their folios ABSENT, and
complete nothing (R391, log entry 42). -/
def restoreControl (c : Control) (s : State) : State :=
  { s with
    saved := s.saved ++ c.saved, qcbs := c.qcbs,
    gaths := s.gaths ++ c.gaths.map fun g => { g with owner := { packet := none, job := none, block := 0 } } }

/-- BRING_UP: self-test has passed; the policy extension is loaded if its signature verifies (R392, R394); the control state of the
generation that a restore takes is there again. -/
def execBringUp (status : Word) (s : State) : Host.Outcome State Fault Refusal :=
  if s.status ≠ 0 then .next s
  else
    let t := { s with status := status &&& 0x0FFFFFFFF0000000, policyLoaded := Config.extensionOk }
    .next (match if bit status 28 then (restoreSlot s).bind fun i => (s.manifests.get .empty i).control else none with
      | some c => restoreControl c t
      | none => t)

/-- FULL_SERVICE: bit 63 of the status word. -/
def execFullService (s : State) : Host.Outcome State Fault Refusal :=
  if s.status = 0 then .next s else .next { s with status := s.status ||| 0x8000000000000000 }

/-- ENERGY_ALLOWANCE_WRITE (R395): at the next window, and never above the budget. -/
def execEnergyAllowanceWrite (v : Nat) (s : State) : Host.Outcome State Fault Refusal :=
  .next { s with budget := { s.budget with nextAllowance := min v Config.windowBudget } }

/-- POWER_GATING: the handles are cleared (R36). -/
def execPowerGating (core : Nat) (on : Bool) (s : State) : Host.Outcome State Fault Refusal :=
  .next (s.modCore core fun k =>
    if on then { k with powerGated := true, arch := { k.arch with handles := .empty }, snap := { k.snap with handles := .empty } } else { k with powerGated := false })

/-! ### Errors reported to the policy core -/

/-- Stack, pseudo-channel and pcl of a granule of HBM (R98, R100). -/
def granuleHome (s : State) (granule : Nat) : Option (Nat × Nat × Nat) :=
  let a := 32 * granule
  let st := a / 0x1000000000
  if 8 ≤ st then none else (regionOf s st (a % 0x1000000000)).map fun r => let x := channelOf r (a % 0x1000000000); (st, x.1, x.2)

/-- The policy core is told, and an interrupt raised for the management event (R384, log entry 33). -/
def report (r : Report) (s : State) : State := { s with reports := s.reports ++ [r], hostOut := s.hostOut ++ [.interrupt] }

/-- A colophon that states the error of a granule (R99, log entry 53). -/
def eccVerdict (granule : Nat) : Verdict :=
  { status := stKilled, code := (Config.eccFault granule).toNat / 2 ^ 16, sub := (Config.eccFault granule).toNat % 2 ^ 16, bundle := 0, idx := 0 }

/-- ECC_UNCORRECTABLE of a 32-byte granule that a gathering's agent read: reported, and the gathering killed (R99). -/
def execEccUncorrectable (granule gath : Nat) (s : State) : Host.Outcome State Fault Refusal :=
  let t := report (.ecc granule (granuleHome s granule)) s
  .next (settleWork s (endWith { t with ecc := if s.ecc.contains granule then s.ecc else granule :: s.ecc } gath (eccVerdict granule)))

/-- A corrected soft error is counted in its stack's counter (R99). -/
def softError (stack : Nat) (s : State) : State := if stack < 8 then s.count (cntSoft stack) else s

/-- HOST_LINK_UNCORRECTABLE_ERROR (R384). -/
def execHostLinkUncorrectableError (code : Nat) (s : State) : Host.Outcome State Fault Refusal := .next (report (.link code) s)

end Sys2Proof.Machine
end

