-- ==== Sys2Proof/Machine/Dispatch.lean ====
section
/-!
DEFINITION. What each instruction does: one arm per row of the table of operations and events.
-/

namespace Sys2Proof.Machine

def exec (i : Instr) (s : State) : Host.Outcome State Fault Refusal :=
  match i with
  | .bundleIssue => Sys2Proof.Machine.execBundleIssue s
  | .lateResultArrival core tag => Sys2Proof.Machine.execLateResultArrival core tag s
  | .xltWalkComplete core tag => Sys2Proof.Machine.execXltWalkComplete core tag s
  | .publishEntryPerform core granule => Sys2Proof.Machine.execPublishEntryPerform core granule s
  | .phaseBarrierComplete core => Sys2Proof.Machine.execPhaseBarrierComplete core s
  | .watchdogExpiry core => Sys2Proof.Machine.execWatchdogExpiry core s
  | .move m dst => Sys2Proof.Machine.execMove m dst s
  | .saAdd m => Sys2Proof.Machine.execSaAdd m s
  | .saSub m => Sys2Proof.Machine.execSaSub m s
  | .saMul m => Sys2Proof.Machine.execSaMul m s
  | .saMulh m => Sys2Proof.Machine.execSaMulh m s
  | .saMulhu m => Sys2Proof.Machine.execSaMulhu m s
  | .saDiv m => Sys2Proof.Machine.execSaDiv m s
  | .saDivu m => Sys2Proof.Machine.execSaDivu m s
  | .saRem m => Sys2Proof.Machine.execSaRem m s
  | .saRemu m => Sys2Proof.Machine.execSaRemu m s
  | .saAnd m => Sys2Proof.Machine.execSaAnd m s
  | .saOr m => Sys2Proof.Machine.execSaOr m s
  | .saXor m => Sys2Proof.Machine.execSaXor m s
  | .saAndn m => Sys2Proof.Machine.execSaAndn m s
  | .saShl m => Sys2Proof.Machine.execSaShl m s
  | .saShr m => Sys2Proof.Machine.execSaShr m s
  | .saSar m => Sys2Proof.Machine.execSaSar m s
  | .saRotl m => Sys2Proof.Machine.execSaRotl m s
  | .saMin m => Sys2Proof.Machine.execSaMin m s
  | .saMax m => Sys2Proof.Machine.execSaMax m s
  | .saMinu m => Sys2Proof.Machine.execSaMinu m s
  | .saMaxu m => Sys2Proof.Machine.execSaMaxu m s
  | .saSeq m => Sys2Proof.Machine.execSaSeq m s
  | .saSne m => Sys2Proof.Machine.execSaSne m s
  | .saSlt m => Sys2Proof.Machine.execSaSlt m s
  | .saSltu m => Sys2Proof.Machine.execSaSltu m s
  | .saSle m => Sys2Proof.Machine.execSaSle m s
  | .saSleu m => Sys2Proof.Machine.execSaSleu m s
  | .saSel m => Sys2Proof.Machine.execSaSel m s
  | .saPass m => Sys2Proof.Machine.execSaPass m s
  | .saClz m => Sys2Proof.Machine.execSaClz m s
  | .saCtz m => Sys2Proof.Machine.execSaCtz m s
  | .saPopc m => Sys2Proof.Machine.execSaPopc m s
  | .saSext8 m => Sys2Proof.Machine.execSaSext8 m s
  | .saSext16 m => Sys2Proof.Machine.execSaSext16 m s
  | .saSext32 m => Sys2Proof.Machine.execSaSext32 m s
  | .saZext8 m => Sys2Proof.Machine.execSaZext8 m s
  | .saZext16 m => Sys2Proof.Machine.execSaZext16 m s
  | .saZext32 m => Sys2Proof.Machine.execSaZext32 m s
  | .saBswap m => Sys2Proof.Machine.execSaBswap m s
  | .saMadd m => Sys2Proof.Machine.execSaMadd m s
  | .saFaddD m => Sys2Proof.Machine.execSaFaddD m s
  | .saFsubD m => Sys2Proof.Machine.execSaFsubD m s
  | .saFmulD m => Sys2Proof.Machine.execSaFmulD m s
  | .saFmaddD m => Sys2Proof.Machine.execSaFmaddD m s
  | .saFdivD m => Sys2Proof.Machine.execSaFdivD m s
  | .saFminD m => Sys2Proof.Machine.execSaFminD m s
  | .saFmaxD m => Sys2Proof.Machine.execSaFmaxD m s
  | .saFeqD m => Sys2Proof.Machine.execSaFeqD m s
  | .saFltD m => Sys2Proof.Machine.execSaFltD m s
  | .saFleD m => Sys2Proof.Machine.execSaFleD m s
  | .saCvtDi m => Sys2Proof.Machine.execSaCvtDi m s
  | .saCvtId m => Sys2Proof.Machine.execSaCvtId m s
  | .saCvtSd m => Sys2Proof.Machine.execSaCvtSd m s
  | .saCvtDs m => Sys2Proof.Machine.execSaCvtDs m s
  | .vaAdd m => Sys2Proof.Machine.execVaAdd m s
  | .vaSub m => Sys2Proof.Machine.execVaSub m s
  | .vaMul m => Sys2Proof.Machine.execVaMul m s
  | .vaFma m => Sys2Proof.Machine.execVaFma m s
  | .vaFms m => Sys2Proof.Machine.execVaFms m s
  | .vaMin m => Sys2Proof.Machine.execVaMin m s
  | .vaMax m => Sys2Proof.Machine.execVaMax m s
  | .vaAbs m => Sys2Proof.Machine.execVaAbs m s
  | .vaNeg m => Sys2Proof.Machine.execVaNeg m s
  | .vaAnd m => Sys2Proof.Machine.execVaAnd m s
  | .vaOr m => Sys2Proof.Machine.execVaOr m s
  | .vaXor m => Sys2Proof.Machine.execVaXor m s
  | .vaShl m => Sys2Proof.Machine.execVaShl m s
  | .vaShr m => Sys2Proof.Machine.execVaShr m s
  | .vaSar m => Sys2Proof.Machine.execVaSar m s
  | .vaCmpeq m => Sys2Proof.Machine.execVaCmpeq m s
  | .vaCmplt m => Sys2Proof.Machine.execVaCmplt m s
  | .vaCmple m => Sys2Proof.Machine.execVaCmple m s
  | .vaSel m => Sys2Proof.Machine.execVaSel m s
  | .vaCvt m => Sys2Proof.Machine.execVaCvt m s
  | .vaScale m => Sys2Proof.Machine.execVaScale m s
  | .vaQuant m => Sys2Proof.Machine.execVaQuant m s
  | .vaDequant m => Sys2Proof.Machine.execVaDequant m s
  | .vaAmax m => Sys2Proof.Machine.execVaAmax m s
  | .vaRsum m => Sys2Proof.Machine.execVaRsum m s
  | .vaRmax m => Sys2Proof.Machine.execVaRmax m s
  | .vaRmin m => Sys2Proof.Machine.execVaRmin m s
  | .vaDot m => Sys2Proof.Machine.execVaDot m s
  | .vaBcast m => Sys2Proof.Machine.execVaBcast m s
  | .vaPerm m => Sys2Proof.Machine.execVaPerm m s
  | .vaZip m => Sys2Proof.Machine.execVaZip m s
  | .vaUnzip m => Sys2Proof.Machine.execVaUnzip m s
  | .vaSlide m => Sys2Proof.Machine.execVaSlide m s
  | .vaPack m => Sys2Proof.Machine.execVaPack m s
  | .vaUnpackLo m => Sys2Proof.Machine.execVaUnpackLo m s
  | .vaUnpackHi m => Sys2Proof.Machine.execVaUnpackHi m s
  | .vaClamp m => Sys2Proof.Machine.execVaClamp m s
  | .vaRound m => Sys2Proof.Machine.execVaRound m s
  | .vaMov m => Sys2Proof.Machine.execVaMov m s
  | .sfExp m => Sys2Proof.Machine.execSfExp m s
  | .sfExp2 m => Sys2Proof.Machine.execSfExp2 m s
  | .sfLn m => Sys2Proof.Machine.execSfLn m s
  | .sfLog2 m => Sys2Proof.Machine.execSfLog2 m s
  | .sfRcp m => Sys2Proof.Machine.execSfRcp m s
  | .sfRsqrt m => Sys2Proof.Machine.execSfRsqrt m s
  | .sfSqrt m => Sys2Proof.Machine.execSfSqrt m s
  | .sfDiv m => Sys2Proof.Machine.execSfDiv m s
  | .sfSin m => Sys2Proof.Machine.execSfSin m s
  | .sfCos m => Sys2Proof.Machine.execSfCos m s
  | .sfTanh m => Sys2Proof.Machine.execSfTanh m s
  | .sfSigmoid m => Sys2Proof.Machine.execSfSigmoid m s
  | .sfGelu m => Sys2Proof.Machine.execSfGelu m s
  | .sfSilu m => Sys2Proof.Machine.execSfSilu m s
  | .sfErf m => Sys2Proof.Machine.execSfErf m s
  | .sfSoftplus m => Sys2Proof.Machine.execSfSoftplus m s
  | .mLdv m => Sys2Proof.Machine.execMLdv m s
  | .mLdvh m => Sys2Proof.Machine.execMLdvh m s
  | .mLdvq m => Sys2Proof.Machine.execMLdvq m s
  | .mLd64 m => Sys2Proof.Machine.execMLd64 m s
  | .mLd32 m => Sys2Proof.Machine.execMLd32 m s
  | .mLd32u m => Sys2Proof.Machine.execMLd32u m s
  | .mLd16 m => Sys2Proof.Machine.execMLd16 m s
  | .mLd16u m => Sys2Proof.Machine.execMLd16u m s
  | .mLd8 m => Sys2Proof.Machine.execMLd8 m s
  | .mLd8u m => Sys2Proof.Machine.execMLd8u m s
  | .mStv m => Sys2Proof.Machine.execMStv m s
  | .mStvh m => Sys2Proof.Machine.execMStvh m s
  | .mStvq m => Sys2Proof.Machine.execMStvq m s
  | .mSt64 m => Sys2Proof.Machine.execMSt64 m s
  | .mSt32 m => Sys2Proof.Machine.execMSt32 m s
  | .mSt16 m => Sys2Proof.Machine.execMSt16 m s
  | .mSt8 m => Sys2Proof.Machine.execMSt8 m s
  | .mXlt m => Sys2Proof.Machine.execMXlt m s
  | .mHrel m => Sys2Proof.Machine.execMHrel m s
  | .mTlook m => Sys2Proof.Machine.execMTlook m s
  | .mTins m => Sys2Proof.Machine.execMTins m s
  | .mTdel m => Sys2Proof.Machine.execMTdel m s
  | .mSwpost m => Sys2Proof.Machine.execMSwpost m s
  | .mSwadd m => Sys2Proof.Machine.execMSwadd m s
  | .mSwrd m => Sys2Proof.Machine.execMSwrd m s
  | .mSwwait m => Sys2Proof.Machine.execMSwwait m s
  | .mJwait m => Sys2Proof.Machine.execMJwait m s
  | .mJset m => Sys2Proof.Machine.execMJset m s
  | .mAadd m => Sys2Proof.Machine.execMAadd m s
  | .mAmax m => Sys2Proof.Machine.execMAmax m s
  | .mAmaxf m => Sys2Proof.Machine.execMAmaxf m s
  | .mAmin m => Sys2Proof.Machine.execMAmin m s
  | .mAxchg m => Sys2Proof.Machine.execMAxchg m s
  | .mAcas m => Sys2Proof.Machine.execMAcas m s
  | .mAand m => Sys2Proof.Machine.execMAand m s
  | .mAor m => Sys2Proof.Machine.execMAor m s
  | .mPhase m => Sys2Proof.Machine.execMPhase m s
  | .mXfence m => Sys2Proof.Machine.execMXfence m s
  | .mArd m => Sys2Proof.Machine.execMArd m s
  | .meMm m => Sys2Proof.Machine.execMeMm m s
  | .meMmz m => Sys2Proof.Machine.execMeMmz m s
  | .meMmt m => Sys2Proof.Machine.execMeMmt m s
  | .meMmq m => Sys2Proof.Machine.execMeMmq m s
  | .meKlatch m => Sys2Proof.Machine.execMeKlatch m s
  | .meTzero m => Sys2Proof.Machine.execMeTzero m s
  | .meTrow m => Sys2Proof.Machine.execMeTrow m s
  | .meTcol m => Sys2Proof.Machine.execMeTcol m s
  | .meTrowr m => Sys2Proof.Machine.execMeTrowr m s
  | .meTcolr m => Sys2Proof.Machine.execMeTcolr m s
  | .meTshape m => Sys2Proof.Machine.execMeTshape m s
  | .meTload m => Sys2Proof.Machine.execMeTload m s
  | .meTstore m => Sys2Proof.Machine.execMeTstore m s
  | .meTcvt m => Sys2Proof.Machine.execMeTcvt m s
  | .meTadd m => Sys2Proof.Machine.execMeTadd m s
  | .meTscale m => Sys2Proof.Machine.execMeTscale m s
  | .meTamax m => Sys2Proof.Machine.execMeTamax m s
  | .meFollowOn core op => Sys2Proof.Machine.execMeFollowOn core op s
  | .ceCopy m => Sys2Proof.Machine.execCeCopy m s
  | .ceGather m => Sys2Proof.Machine.execCeGather m s
  | .ceScatter m => Sys2Proof.Machine.execCeScatter m s
  | .ceTget m => Sys2Proof.Machine.execCeTget m s
  | .ceTsend m => Sys2Proof.Machine.execCeTsend m s
  | .ceFill m => Sys2Proof.Machine.execCeFill m s
  | .ceMcast m => Sys2Proof.Machine.execCeMcast m s
  | .ceSfill m => Sys2Proof.Machine.execCeSfill m s
  | .ceDfill m => Sys2Proof.Machine.execCeDfill m s
  | .ceCput m => Sys2Proof.Machine.execCeCput m s
  | .ceCancel m => Sys2Proof.Machine.execCeCancel m s
  | .ceGranuleLand core op => Sys2Proof.Machine.execCeGranuleLand core op s
  | .dxOpen m => Sys2Proof.Machine.execDxOpen m s
  | .dxClose m => Sys2Proof.Machine.execDxClose m s
  | .fcEnc m => Sys2Proof.Machine.execFcEnc m s
  | .fcDec m => Sys2Proof.Machine.execFcDec m s
  | .tdWin m => Sys2Proof.Machine.execTdWin m s
  | .tdBlk m => Sys2Proof.Machine.execTdBlk m s
  | .veRun m => Sys2Proof.Machine.execVeRun m s
  | .veStat m => Sys2Proof.Machine.execVeStat m s
  | .dxEntryDeliver core op => Sys2Proof.Machine.execDxEntryDeliver core op s
  | .bkGo m => Sys2Proof.Machine.execBkGo m s
  | .bkStop m => Sys2Proof.Machine.execBkStop m s
  | .cuLpPush m => Sys2Proof.Machine.execCuLpPush m s
  | .cuLpPop m => Sys2Proof.Machine.execCuLpPop m s
  | .cuJump m => Sys2Proof.Machine.execCuJump m s
  | .cuCall m => Sys2Proof.Machine.execCuCall m s
  | .cuTrap m => Sys2Proof.Machine.execCuTrap m s
  | .cuBrk m => Sys2Proof.Machine.execCuBrk m s
  | .cuHalt m => Sys2Proof.Machine.execCuHalt m s
  | .cuWdog m => Sys2Proof.Machine.execCuWdog m s
  | .lend d => Sys2Proof.Machine.execLend d s
  | .sbase a n => Sys2Proof.Machine.execSbase a n s
  | .sstr a l n => Sys2Proof.Machine.execSstr a l n s
  | .sstri a l imm => Sys2Proof.Machine.execSstri a l imm s
  | .sspace a kind idx => Sys2Proof.Machine.execSspace a kind idx s
  | .swlev a b => Sys2Proof.Machine.execSwlev a b s
  | .srst a => Sys2Proof.Machine.execSrst a s
  | .bankListStart engine => Sys2Proof.Machine.execBankListStart engine s
  | .bload xb src off => Sys2Proof.Machine.execBload xb src off s
  | .bmac p => Sys2Proof.Machine.execBmac p s
  | .bmact p => Sys2Proof.Machine.execBmact p s
  | .bmacq tq shift p => Sys2Proof.Machine.execBmacq tq shift p s
  | .bscale perlane xb factor => Sys2Proof.Machine.execBscale perlane xb factor s
  | .bstore ofmt n1 off => Sys2Proof.Machine.execBstore ofmt n1 off s
  | .bsend ofmt n1 coreid off sw swv => Sys2Proof.Machine.execBsend ofmt n1 coreid off sw swv s
  | .bzero acc mask => Sys2Proof.Machine.execBzero acc mask s
  | .bjoin j => Sys2Proof.Machine.execBjoin j s
  | .bfence => Sys2Proof.Machine.execBfence s
  | .bred d => Sys2Proof.Machine.execBred d s
  | .bsync sw gen => Sys2Proof.Machine.execBsync sw gen s
  | .bend => Sys2Proof.Machine.execBend s
  | .bankWaitRelease engine => Sys2Proof.Machine.execBankWaitRelease engine s
  | .bankListComplete core op => Sys2Proof.Machine.execBankListComplete core op s
  | .engineOpComplete core op => Sys2Proof.Machine.execEngineOpComplete core op s
  | .engineOpResume core slot => Sys2Proof.Machine.execEngineOpResume core slot s
  | .engineOpCancel core slot => Sys2Proof.Machine.execEngineOpCancel core slot s
  | .coreFaultResume core => Sys2Proof.Machine.execCoreFaultResume core s
  | .killGathering gath => Sys2Proof.Machine.execKillGathering gath s
  | .shootdownGo policy lo hi ctl => Sys2Proof.Machine.execShootdownGo policy lo hi ctl s
  | .shootdownAgentAck agent => Sys2Proof.Machine.execShootdownAgentAck agent s
  | .migratingRewalk w => Sys2Proof.Machine.execMigratingRewalk w s
  | .migratingTimeout w => Sys2Proof.Machine.execMigratingTimeout w s
  | .cowDuplicate w => Sys2Proof.Machine.execCowDuplicate w s
  | .pasidTeardown pasid => Sys2Proof.Machine.execPasidTeardown pasid s
  | .fetcherTranslationReturn slot => Sys2Proof.Machine.execFetcherTranslationReturn slot s
  | .atsInvalidation pasid lo hi => Sys2Proof.Machine.execAtsInvalidation pasid lo hi s
  | .runReceive p => Sys2Proof.Machine.execRunReceive p s
  | .shardHoldReread k => Sys2Proof.Machine.execShardHoldReread k s
  | .shardHoldTimeout k => Sys2Proof.Machine.execShardHoldTimeout k s
  | .shardMovedReceive core op version => Sys2Proof.Machine.execShardMovedReceive core op version s
  | .shardRequesterReread core op => Sys2Proof.Machine.execShardRequesterReread core op s
  | .shardRequesterTimeout core op => Sys2Proof.Machine.execShardRequesterTimeout core op s
  | .eccUncorrectable granule gath => Sys2Proof.Machine.execEccUncorrectable granule gath s
  | .hbmMapEffect stack => Sys2Proof.Machine.execHbmMapEffect stack s
  | .folioPullComplete core folio => Sys2Proof.Machine.execFolioPullComplete core folio s
  | .pullTimeout core folio => Sys2Proof.Machine.execPullTimeout core folio s
  | .folioPushComplete core folio err => Sys2Proof.Machine.execFolioPushComplete core folio err s
  | .backgroundPush core folio => Sys2Proof.Machine.execBackgroundPush core folio s
  | .preemptRequest gath => Sys2Proof.Machine.execPreemptRequest gath s
  | .contextRestore gath on => Sys2Proof.Machine.execContextRestore gath on s
  | .debugAttach core => Sys2Proof.Machine.execDebugAttach core s
  | .debugHalt core => Sys2Proof.Machine.execDebugHalt core s
  | .singleStep core => Sys2Proof.Machine.execSingleStep core s
  | .debugResume core => Sys2Proof.Machine.execDebugResume core s
  | .notifyWrite aperture queue v => Sys2Proof.Machine.execNotifyWrite aperture queue v s
  | .packetFetch slot => Sys2Proof.Machine.execPacketFetch slot s
  | .launchPacket id => Sys2Proof.Machine.execLaunchPacket id s
  | .jobPacket id => Sys2Proof.Machine.execJobPacket id s
  | .graphPacket id => Sys2Proof.Machine.execGraphPacket id s
  | .copyPacket id => Sys2Proof.Machine.execCopyPacket id s
  | .signalPacket id => Sys2Proof.Machine.execSignalPacket id s
  | .waitPacket id => Sys2Proof.Machine.execWaitPacket id s
  | .energyPacket id => Sys2Proof.Machine.execEnergyPacket id s
  | .checkpointPacket id => Sys2Proof.Machine.execCheckpointPacket id s
  | .barrierPacket id => Sys2Proof.Machine.execBarrierPacket id s
  | .gatheringPlace gath on => Sys2Proof.Machine.execGatheringPlace gath on s
  | .gatheringRelease gath => Sys2Proof.Machine.execGatheringRelease gath s
  | .tickLaunchTimeout gath => Sys2Proof.Machine.execTickLaunchTimeout gath s
  | .queueAging slot => Sys2Proof.Machine.execQueueAging slot s
  | .instanceComplete gath => Sys2Proof.Machine.execInstanceComplete gath s
  | .blockHandout job die => Sys2Proof.Machine.execBlockHandout job die s
  | .blockReport job k => Sys2Proof.Machine.execBlockReport job k s
  | .dieFence die => Sys2Proof.Machine.execDieFence die s
  | .kernelNode graph branch => Sys2Proof.Machine.execKernelNode graph branch s
  | .condNode graph branch => Sys2Proof.Machine.execCondNode graph branch s
  | .whileNode graph branch => Sys2Proof.Machine.execWhileNode graph branch s
  | .joinNode graph branch => Sys2Proof.Machine.execJoinNode graph branch s
  | .endNode graph branch => Sys2Proof.Machine.execEndNode graph branch s
  | .energyWindowEnd => Sys2Proof.Machine.execEnergyWindowEnd s
  | .energyPacing on => Sys2Proof.Machine.execEnergyPacing on s
  | .pasidBind pasid root table => Sys2Proof.Machine.execPasidBind pasid root table s
  | .qcbCreate pasid queue m ring prio ecap => Sys2Proof.Machine.execQcbCreate pasid queue m ring prio ecap s
  | .qcbDestroy pasid queue => Sys2Proof.Machine.execQcbDestroy pasid queue s
  | .hbmMap stack va => Sys2Proof.Machine.execHbmMap stack va s
  | .slotTable router va time => Sys2Proof.Machine.execSlotTable router va time s
  | .slotTableActivate => Sys2Proof.Machine.execSlotTableActivate s
  | .circuit circ va => Sys2Proof.Machine.execCircuit circ va s
  | .notifyBind aperture pasid => Sys2Proof.Machine.execNotifyBind aperture pasid s
  | .sliceBind slice pasid base => Sys2Proof.Machine.execSliceBind slice pasid base s
  | .window pasid base => Sys2Proof.Machine.execWindow pasid base s
  | .identity va => Sys2Proof.Machine.execIdentity va s
  | .fabricMembers members domain => Sys2Proof.Machine.execFabricMembers members domain s
  | .checkpointPageCopy => Sys2Proof.Machine.execCheckpointPageCopy s
  | .manifestCommit ok => Sys2Proof.Machine.execManifestCommit ok s
  | .powerLoss => Sys2Proof.Machine.execPowerLoss s
  | .bringUp status => Sys2Proof.Machine.execBringUp status s
  | .fullService => Sys2Proof.Machine.execFullService s
  | .flitReceive port flit => Sys2Proof.Machine.execFlitReceive port flit s
  | .lreq port lseq n => Sys2Proof.Machine.execLreq port lseq n s
  | .supp port lseq part parity => Sys2Proof.Machine.execSupp port lseq part parity s
  | .lost port lseq => Sys2Proof.Machine.execLost port lseq s
  | .linkRetrain port => Sys2Proof.Machine.execLinkRetrain port s
  | .flitRetentionExpiry port lseq => Sys2Proof.Machine.execFlitRetentionExpiry port lseq s
  | .circuitSlotInject circ => Sys2Proof.Machine.execCircuitSlotInject circ s
  | .fabricWrite p => Sys2Proof.Machine.execFabricWrite p s
  | .fabricRead p => Sys2Proof.Machine.execFabricRead p s
  | .rdata p => Sys2Proof.Machine.execRdata p s
  | .atomic p => Sys2Proof.Machine.execAtomic p s
  | .aresp p => Sys2Proof.Machine.execAresp p s
  | .sack p => Sys2Proof.Machine.execSack p s
  | .moved p => Sys2Proof.Machine.execMoved p s
  | .nak p => Sys2Proof.Machine.execNak p s
  | .fabricBarrier p => Sys2Proof.Machine.execFabricBarrier p s
  | .ready p => Sys2Proof.Machine.execReady p s
  | .sprayRetransmitTimer dst fseq => Sys2Proof.Machine.execSprayRetransmitTimer dst fseq s
  | .hostBar4Access off len write => Sys2Proof.Machine.execHostBar4Access off len write s
  | .linkRetrainDone port => Sys2Proof.Machine.execLinkRetrainDone port s
  | .energyAllowanceWrite v => Sys2Proof.Machine.execEnergyAllowanceWrite v s
  | .powerGating core on => Sys2Proof.Machine.execPowerGating core on s
  | .hostLinkUncorrectableError code => Sys2Proof.Machine.execHostLinkUncorrectableError code s

end Sys2Proof.Machine
end

