-- ==== Sys2Proof/Machine/Manage.lean ====
section
/-!
DEFINITION. What the host does at the management region (R8, R43, R101, R331, R393, R394), the answers of its ATS (R384), and what
the policy core writes into endpapers (R355, R368). The opcode table has no row for these; they stand on the agenda beside its
events.
-/

namespace Sys2Proof.Machine

/-- Write 1 to clear: `done` of a control block's status word (R8). -/
def ControlBlock.clears (b : ControlBlock) (v : Word) : ControlBlock := if bit v 1 then { b with done := false } else b

/-- Words 0x00 to 0x18 of a control block (Table 2.9); go is write-only. -/
def ControlBlock.word (b : ControlBlock) (i : Nat) : Word :=
  if i = 0 then b.lo else if i = 1 then b.hi else if i = 2 then b.ctl
  else if i = 3 then BitVec.ofNat 64 (fld b.err 8 + fld (bnat b.done) 1 + bnat b.busy)
  else 0

/-- Clear `done` of block 0 or 1, or (2) of the mailbox. -/
def clearDone (unit : Nat) (v : Word) (s : State) : State :=
  if unit < 2 then { s with blocks := s.blocks.put .zero unit ((s.blocks.get .zero unit).clears v) }
  else if bit v 1 then mailStatus s (s.mailbox.get 0 8 &&& ~~~ 2)
  else s

/-- The completion of a host read of one word. -/
def toHost (w : Word) (s : State) : State := { s with hostOut := s.hostOut ++ [.data (leBytes 8 w.toNat)] }

/-- The region register k, 16 × stack + region. -/
def State.region (s : State) (k : Nat) : Word := s.regions.get (regionReset k) k

/-- What a command does (Table 22.5); an op that the table does not list is err 4. -/
def commandBody (op : Nat) (args : List Word) (s : State) : Command :=
  let a := fun i => args.getD i 0
  match op with
  | 1 => pasidBindCommand (a 0) (a 1) (a 2) s
  | 2 => qcbCreateCommand (a 0) (a 1) (a 2) (a 3) (a 4) (a 5) s
  | 3 => qcbDestroyCommand (a 0) (a 1) s
  | 4 => hbmMapCommand (a 0) (a 1) s
  | 5 => slotTableCommand (a 0) (a 1) (a 2) s
  | 6 => circuitCommand (a 0) (a 1) s
  | 7 => notifyBindCommand (a 0) (a 1) s
  | 8 => sliceBindCommand (a 0) (a 1) (a 2) s
  | 9 => windowCommand (a 0) (a 1) s
  | 10 => identityCommand (a 0) s
  | 11 => fabricMembersCommand (a 0) (a 1) s
  | _ => .err 4 s

/-- The command that runs tries again. -/
def commandTurn (s : State) : State :=
  match s.command with
  | some (op, args) => commandEnd op args s (commandBody op args s)
  | none => s

/-- A write of a mailbox word: an argument stays; op stays too, and with go it starts the command over the arguments that
stand there. -/
def mailWrite (i : Nat) (v : Word) (s : State) : Host.Outcome State Fault Refusal :=
  if i = 0 then
    let op := bits v 63 56
    let args := (List.range 7).map fun n => s.mailbox.get 0 (n + 1)
    if bit v 0 then firmware op args s (commandBody op args) else .next (setMail s (mailArgs op []) 0)
  else if i < 8 then .next { s with mailbox := s.mailbox.put 0 i v }
  else .next s

/-! ### The loader of global images (R157, R398) -/

/-- Add a base to the 8-byte little-endian field at an offset of an image. -/
def relocate (base : Nat) (b : List Byte) (off : Nat) : List Byte :=
  b.take off ++ leBytes 8 (leField b off 8 + base) ++ b.drop (off + 8)

/-- The loader writes an image's first byte at its address, as the command processor writes; where it chooses the address, it
relocates the image's address fields and reports the entry node. -/
def loadImage (pasid : Nat) (g : GlobalImage) (s : State) : Work :=
  match g.va with
  | some va => if va % 0x10000 = 0 ∧ canonical va = true then hubNote s pasid va g.bytes else .ok s
  | none =>
    let va := 0x10000 * Config.loadPage s.fresh
    match hubWrite s pasid va (g.fields.foldl (relocate va) g.bytes) with
    | .ok t => .ok { t with fresh := t.fresh + 1, hostOut := t.hostOut ++ [.loaded (va + g.entry)] }
    | .error (.fault _ _ t) => .ok (s.keep t)
    | .error (.wait t) => .error t

def hostAct (a : HostAct) (s : State) : Host.Outcome State Fault Refusal :=
  match a with
  | .status unit v => .next (clearDone unit v s)
  | .unknownCommand op args => if op = 0 ∨ 0x0B < op then firmware op args s (.err 4 ·) else .next s
  | .mail i v => mailWrite i v s
  | .readBlock unit w => .next (toHost (if unit < 2 then (s.blocks.get .zero unit).word w else s.mailbox.get 0 w) s)
  | .readQcb slot w => .next (toHost (BitVec.ofNat 64 ((s.qcb slot).word w)) s)
  | .readCounter n => .next (toHost (BitVec.ofNat 64 (s.counters.get 0 n)) s)
  | .readRegion k => .next (toHost (s.region k) s)
  | .readStatus => .next (toHost s.status s)
  | .readNv off n =>
    .next (if off + n ≤ 0x8000000000 then { s with hostOut := s.hostOut ++ [.data (s.readAt { host := false, addr := nvAddr + off } n)] } else s)
  | .load pasid image => .next (settleWork s (loadImage pasid image s))
  | .ats pasid frame answer => .next { s with ats := s.ats.set (pasid * 2 ^ 36 + frame) answer }

/-- The policy core's writes. A module without its extension rewrites no entry: it resolves no fault (R392). -/
def policyAct (a : PolicyAct) (s : State) : State :=
  match a with
  | .image gath rank kind node base =>
    if kind < 4 then modEp s gath rank fun p => { p with ibase := base, ikind := kind, inode := node, chosen := true } else s
  | .entry gath rank folio e => if s.policyLoaded then modEp s gath rank fun p => p.setEntry folio e else s

/-- The fabric time counter goes on, modulo 2^64 (R375); queued link control and flits on their way leave in new slots, and packets that wait to land
try again. -/
def passTime (n : Nat) (s : State) : State := retryLanding (drainTransits (drainQueues { s with time := (s.time + n) % 2 ^ 64 }))

end Sys2Proof.Machine
end

