-- ==== Sys2Proof/Machine/Step.lean ====
section
/-!
DEFINITION. One step of the module: the agent that the agenda names makes one move. With nothing on the agenda the current
core issues a bundle.
-/

namespace Sys2Proof.Machine

def step (s : State) : Host.Outcome State Fault Refusal :=
  match s.agenda with
  | [] => exec .bundleIssue s
  | .core c :: r => if c < Config.cores then exec .bundleIssue { s with agenda := r, cur := c } else .fault .illFormed
  | .bank e :: r =>
    if e < 512 then
      let s := { s with agenda := r, eng := e }
      match bankTurn s e with
      | .idle => .next s
      | .park code sub => .next (parkBank s e code sub)
      | .run i => exec i s
    else .fault .illFormed
  | .eng c id :: r => if c < Config.cores then engineTurn { s with agenda := r } c id else .fault .illFormed
  | .ev i :: r => if i.wf && (encode i).isNone then exec i { s with agenda := r } else .fault .illFormed
  | .firmware :: r => .next (commandTurn { s with agenda := r })
  | .time n :: r => .next (passTime n { s with agenda := r })
  | .softError stack :: r => .next (softError stack { s with agenda := r })
  | .host a :: r => hostAct a { s with agenda := r }
  | .policy a :: r => .next (policyAct a { s with agenda := r })

/-- Core 0 fetches this bundle next. -/
def State.withBundle (s : State) (b : BitVec 512) : State :=
  let k := s.core 0
  let k := { k with
    run := .running, powerGated := false, debugHalt := false, stepping := false, paced := false, imem := k.imem.set k.arch.pc.toNat b,
    folios := k.folios.set (k.arch.pc.toNat / 64) { pres := .present, dirty := false } }
  { s.setCore 0 k with agenda := [], cur := 0 }

/-- A list of core 0 that bank engine 0 runs, its next command this word. -/
def State.withCommand (s : State) (w : Word) : State :=
  let l : BankList :=
    { id := s.fresh, off := 0, mask := 1, stack := 0, j := 0, bundle := 0, count := 0, mv := 0, pasid := 0, left := 1, started := true, detached := false, counted := false,
      err := none, parked := 0, slot := none, targets := [(0, 0)], gath := 0, rank := 0, image := [] }
  let s := s.modCore 0 fun k => { k with run := .running, lists := [l] }
  { s.setBank 0 { Bank.idle with list := some (0, s.fresh), hdr := [1, 0, 0, 0], cmds := [w] } with agenda := [.bank 0], fresh := s.fresh + 1 }

/-- The state whose next step fetches and runs this instruction: a move or address slot alone in its bundle, a bank
command, or a bundle. -/
def State.withFetchWord (s : State) (nbits w : Nat) : State :=
  if nbits = 24 then s.withBundle (oneSlotBundle (wordPlace (BitVec.ofNat 24 w)) (BitVec.ofNat 24 w))
  else if nbits = 64 then s.withCommand (BitVec.ofNat 64 w)
  else if nbits = 512 then s.withBundle (BitVec.ofNat 512 w)
  else s

end Sys2Proof.Machine
end

