-- ==== Sys2Proof/Safety.lean ====
section
/-!
DEFINITION. The terms in which statements about the machine are made: what a move reads, which folios are PRESENT, what a
step leaves alone, and the invariant of the module.
-/

namespace Sys2Proof.Machine

/-- A step that does not stop. -/
def Goes (s : State) : Prop := ∃ t, step s = .next t

/-- The current core. -/
def State.here (s : State) : Core := s.core s.cur

/-- The folios named are PRESENT on the current core (R358). -/
def Present (s : State) (l : List Nat) : Prop := ∀ f ∈ l, (s.here.folio f).pres = .present

/-- A move reads its source: `v` is its value and `t` the state after it, with `dx.out` popped where the move pops it
(R172, R316). -/
def Reads (s : State) (bus : Fin 8) (src : BitVec 11) (keep : Bool) (v : Val) (t : State) : Prop :=
  readSource s s.cur src.toNat = .ok v ∧
    (if src.toNat = 0x0B8 ∧ keep = false then (popHead s.here bus.val).map (s.setCore s.cur) else .ok s) = .ok t

/-- Operands of a vector operation (R240, R241). -/
def vectorArgs (t : State) (bus w : Nat) (b : Val) : VArgs :=
  { mode := Mode.of (t.here.arch.config (0x104 + 3 * (bus - 2))), unit := bus, count := t.here.arch.count, w := w,
    a := t.here.arch.latch (0x102 + 3 * (bus - 2)), b := b, c := t.here.arch.latch (0x103 + 3 * (bus - 2)) }

/-- The entry of a result that comes later than its issue, `lat` bundles on (R220). -/
def lateEntry (k : Core) (tag bus lat : Nat) (req : Req) (page : Nat) : Due :=
  { tag := tag, bus := bus, port := busResult bus, dueAt := k.arch.count + lat, val := none, flags := 0, req := req, inst := none, bad := none,
    bundle := k.arch.pc.toNat, count := k.arch.count, epoch := k.epoch, page := page }

/-- Everything but the cores and the counter of free values is as before: every memory, table, queue and engine of the
module. -/
def SameModule (s t : State) : Prop := { t with cores := s.cores, fresh := s.fresh } = s

/-- Every byte of device and host memory reads as before. -/
def SameMemory (s t : State) : Prop := ∀ p, t.byteAt p = s.byteAt p

/-- Every core but the current one is as before. -/
def SameOthers (s t : State) : Prop := ∀ d, d ≠ s.cur → t.core d = s.core d

/-- Every register that a program names, but for the results still due, is as before. -/
def Arch.SameButDue (a b : Arch) : Prop := { b with due := a.due } = a

/-- The core is as before but for the results still due. -/
def Core.SameButDue (k l : Core) : Prop := { l with arch := { l.arch with due := k.arch.due } } = k

/-- The core is as before but for its store gate. -/
def Core.SameButGate (k l : Core) : Prop := { l with gate := k.gate } = k

/-- No setting has raised the energy allowance above the budget (R395). -/
def State.BudgetOk (s : State) : Prop := s.budget.allowance ≤ Config.windowBudget ∧ s.budget.nextAllowance ≤ Config.windowBudget

/-- The invariant of the module: both memories in canonical form, the energy allowance within the budget. -/
def State.Inv (s : State) : Prop := s.MemOk ∧ s.BudgetOk

end Sys2Proof.Machine
end

