-- ==== Sys2Proof/Certificates/Slice0/Obligations.lean ====
section
/-!
DEFINITION. The statements for the provers, one for each operation of the ZL9 or group of operations, and those about the machine as a whole.
-/

open Sys2Proof Sys2Proof.Machine

/-! ### Encoding -/

/-- Words written out from Tables 8.2, 8.9, 8.15 and 5.6 decode to the instructions they stand for: a move into s5, `add` of SA, `fma` of VA at 512 bits,
`div` of SF, `st64` of M0, `mm` of the ME, `copy` of the CE, `open` of DX, `trap` of CU, `lend 2`, `sstri` with immediate -1, BMAC and BSEND. The
model’s own readings in it: log entry 14. -/
def Obligations.WordsDecode : Prop :=
  decodeTableWord 24 0b00000000011_00000000101_00 = some (.move { bus := 0, src := 3, keep := false } 5) ∧
  decode (.slot 0 0b00000000011_01000000000_00) = some (.saAdd { bus := 0, src := 3, keep := false }) ∧
  decode (.slot 2 0b00001000000_01010000011_01) = some (.vaFma { bus := 2, src := 0x040, w := 1 }) ∧
  decode (.slot 5 0b00001000001_01100000111_00) = some (.sfDiv { bus := 5, src := 0x041, w := 0 }) ∧
  decode (.slot 6 0b00000000111_01101001101_00) = some (.mSt64 { bus := 6, src := 7, keep := false }) ∧
  decode (.slot 7 0b00010111000_01110000000_10) = some (.meMm { bus := 7, src := 0x0B8, keep := true }) ∧
  decode (.slot 6 0b00010100101_01110100000_00) = some (.ceCopy { bus := 6, src := 0x0A5, keep := false }) ∧
  decode (.slot 7 0b00000000000_01110110000_00) = some (.dxOpen { bus := 7, src := 0, keep := false }) ∧
  decode (.slot 0 0b00010100000_01111100100_00) = some (.cuTrap { bus := 0, src := 0x0A0, keep := false }) ∧
  decode (.slot 8 0b0001_00000000000000000_010) = some (.lend 2) ∧
  decode (.slot 8 0b0100_101_11_00_1111111111111) = some (.sstri 5 3 0x1FFF) ∧
  decode (.bank 0b000010_01_01010_10_1_11_01111111_000111_11111111_000011_000000000000000101) =
    some (.bmac { xb := 1, wfmt := 10, afmt := 2, sc := true, sxb := 3, e8 := 127, nr1 := 7, k1 := 255, koff := 3, row := 5 }) ∧
  decode (.bank 0b000111_1_000011_000000101_0000000000000100000_000000000000110_0000000_1) = some (.bsend true 3 5 32 6 true)

/-- Every well-formed instruction that has words is read back from them with every operand: moves on every bus they may use, address-slot operations and
bank commands. No bit of a word is dropped: what a word decodes to encodes as that word again, on the bus or in the slot it was read from. -/
def Obligations.DecodeEncode : Prop :=
  (∀ (i : Instr) (e : Encoding), i.wf = true → encode i = some e → decode e = some i) ∧
  ((∀ (place : Fin 8) (w : BitVec 24) (i : Instr), decode (.slot place.val w) = some i → encode i = some (.slot place.val w)) ∧
  (∀ (w : BitVec 24) (i : Instr), decode (.slot 8 w) = some i → encode i = some (.slot 8 w)) ∧
  ∀ (w : BitVec 64) (i : Instr), decode (.bank w) = some i → encode i = some (.bank w))

/-- R188's order of the static checks: a format other than 0 is subcode 1 of the whole bundle; else a CU trigger on a bus other than 0 is subcode 9, of
the lowest move that subcode 9 names; else the lowest subcode of Table 8.16 that holds is reported, and none where none holds. Of the table's
conditions on the bits: bit 14, bits [351:341], and an absent move or mask that is not zero give 2; a destination from 0x3E8 on gives 3; a literal as
destination 4; an ME trigger on a bus below 6 gives 5; two moves into one `s` register with C = 0 give 6; three vector triggers of 1,024 bits 7, at
the third; aop 8 to 15 gives 8; `cu.jump` or `cu.call` beside a first leaf that does not fall through 9; FORK with one test 10; a vector trigger of
width 11 gives 11. The model’s own readings in it: log entry 65. -/
def Obligations.LowestBundleFault : Prop :=
  ∀ b : BitVec 512,
    let stray := fun k : Nat => k < 8 ∧ 0 < k ∧ bPresent b k = true ∧ isCuTrig (bDst b k) = true
    (bFormat b ≠ 0 → checkBundle b = some (1, 15)) ∧
    (∀ k, bFormat b = 0 → stray k → ∃ w, w ≤ k ∧ bFault b 9 = some w ∧ checkBundle b = some (9, w)) ∧
    (bFormat b = 0 → (∀ k, ¬stray k) →
      (∀ n w, checkBundle b = some (n, w) ↔ 2 ≤ n ∧ n ≤ 11 ∧ bFault b n = some w ∧ ∀ j, 2 ≤ j → j < n → bFault b j = none) ∧
      (checkBundle b = none ↔ ∀ j, 2 ≤ j → j ≤ 11 → bFault b j = none)) ∧
    (b.getLsbD 14 = true ∨ b.extractLsb' 341 11 ≠ 0 → (bFault b 2).isSome = true) ∧
    (∀ k, k < 8 → bPresent b k = false → bMove b k ≠ 0 ∨ bMask b k ≠ 0 → ∃ w, w ≤ k ∧ bFault b 2 = some w) ∧
    (∀ k, k < 8 → bPresent b k = true → 0x3E8 ≤ bDst b k → ∃ w, w ≤ k ∧ bFault b 3 = some w) ∧
    (∀ k, k < 8 → bPresent b k = true → 0x0A0 ≤ bDst b k → bDst b k < 0x0A5 → ∃ w, w ≤ k ∧ bFault b 4 = some w) ∧
    (∀ k, k < 6 → bPresent b k = true → 0x380 ≤ bDst b k → bDst b k < 0x391 → ∃ w, w ≤ k ∧ bFault b 5 = some w) ∧
    (∀ i j, i < j → j < 8 → bPresent b i = true → bPresent b j = true → bDst b i = bDst b j → bDst b i < 0x40 → bCtl b = false → ∃ w, w ≤ i ∧ bFault b 6 = some w) ∧
    ((∀ k ∈ [2, 3, 4], bPresent b k = true ∧ 0x280 ≤ bDst b k ∧ bDst b k < 0x2A7 ∧ (bMove b k).extractLsb' 0 2 = 0) → ∃ w, w ≤ 4 ∧ bFault b 7 = some w) ∧
    (b.getLsbD 12 = true → 8 ≤ (b.extractLsb' 228 4).toNat → bFault b 8 = some 8) ∧
    (bPresent b 0 = true → bDst b 0 = 0x3E2 ∨ bDst b 0 = 0x3E3 → bCtl b = true → b.extractLsb' 232 3 = 0 → b.extractLsb' 270 3 ≠ 5 → bFault b 9 = some 0) ∧
    (bCtl b = true → b.extractLsb' 232 3 = 4 → bFault b 10 = some 9) ∧
    ∀ k, k < 8 → bPresent b k = true → 0x280 ≤ bDst b k → bDst b k < 0x2A7 → (bMove b k).extractLsb' 0 2 = 3 → ∃ w, w ≤ k ∧ bFault b 11 = some w

/-! ### Steps -/

/-- A step runs what its agent does next: a core its next bundle, a bank engine the command at its index, an engine operation one unit, an event its own
effect, the fabric time its advance, the firmware its command, a soft error its count, the host and the policy core their access; on the agenda it
comes first and leaves it; with an empty agenda the current core issues. A FIFO stream delivers an entry instead of a unit, an ME operation behind the
active one fetches ahead, and an operation of a core that is being stopped does nothing unless it has runs under way. The agenda is the model's (log
entry 1). A bank engine with a list and no wait runs the instruction that its next command word decodes to. The model’s own readings in it: log entry
13. -/
def Obligations.StepRuns : Prop :=
  ((∀ s : State, s.agenda = [] → step s = exec .bundleIssue s) ∧
  (∀ (s : State) (c : Nat) (r : List Act), s.agenda = .core c :: r → c < 384 → step s = exec .bundleIssue { s with agenda := r, cur := c }) ∧
  (∀ (s : State) (e : Nat) (r : List Act) (i : Instr), s.agenda = .bank e :: r → e < 512 → bankTurn { s with agenda := r, eng := e } e = .run i →
    step s = exec i { s with agenda := r, eng := e }) ∧
  (∀ (s : State) (e : Nat) (r : List Act) (code sub : Nat), s.agenda = .bank e :: r → e < 512 → bankTurn { s with agenda := r, eng := e } e = .park code sub →
    step s = .next (parkBank { s with agenda := r, eng := e } e code sub)) ∧
  (∀ (s : State) (i : Instr) (r : List Act), s.agenda = .ev i :: r → i.wf = true → encode i = none → step s = exec i { s with agenda := r }) ∧
  (∀ (s : State) (n : Nat) (r : List Act), s.agenda = .time n :: r → step s = .next (passTime n { s with agenda := r })) ∧
  (∀ (s : State) (c id : Nat) (r : List Act), s.agenda = .eng c id :: r → c < 384 →
    (s.op c id = none → step s = .next { s with agenda := r }) ∧
    ∀ o, s.op c id = some o →
      ((s.core c).stopping = true → o.runs = [] → step s = .next { s with agenda := r }) ∧
      ((s.core c).stopping = false ∨ o.runs ≠ [] →
        (o.port = 0x3B0 ∨ o.port = 0x3B5 → step s = exec (.dxEntryDeliver c id) { s with agenda := r }) ∧
        (o.port ≠ 0x3B0 → o.port ≠ 0x3B5 → o.isMe = true → o.live = true → engineFree (s.core c) o = false → step s = .next (prefetch { s with agenda := r } c id o)) ∧
        (o.port ≠ 0x3B0 → o.port ≠ 0x3B5 → o.isMe = false ∨ o.live = false ∨ engineFree (s.core c) o = true → step s = .next (stepOp { s with agenda := r } c id) ∧
          ∀ t, mcastLate { s with agenda := r } c id = { s with agenda := r } → mayRun (s.core c) o = true → o.prog < unitsOf { s with agenda := r } c id o →
            opUnit { s with agenda := r } c id o = .ok t → step s = .next (t.modOp c id Op.advance)))) ∧
  (∀ (s : State) (r : List Act), s.agenda = .firmware :: r → (s.command = none → step s = .next { s with agenda := r }) ∧
    ∀ op args, s.command = some (op, args) → step s = .next (commandEnd op args { s with agenda := r } (commandBody op args { s with agenda := r }))) ∧
  (∀ (s : State) (n : Nat) (r : List Act), s.agenda = .softError n :: r → n < 8 →
    step s = .next { s with agenda := r, counters := s.counters.put 0 (64 + n) (s.counters.get 0 (64 + n) + 1) }) ∧
  (∀ (s : State) (a : HostAct) (r : List Act), s.agenda = .host a :: r → step s = hostAct a { s with agenda := r }) ∧
  (∀ (s : State) (n : Nat) (r : List Act), s.agenda = .host (.readCounter n) :: r →
    step s = .next { s with agenda := r, hostOut := s.hostOut ++ [.data (leBytes 8 (s.counters.get 0 n % 2 ^ 64))] }) ∧
  ∀ (s : State) (gath rank folio : Nat) (e : MapEntry) (r : List Act), s.agenda = .policy (.entry gath rank folio e) :: r → s.policyLoaded = true →
    step s = .next (modEp { s with agenda := r } gath rank fun p => p.setEntry folio e)) ∧
  (∀ (s : State) (e id c : Nat) (l : BankList) (w : Word) (i : Instr),
    (s.bank e).list = some (c, id) → findList s id = some l → (s.bank e).wait = .none → headerFault l (s.bank e) = none →
      (s.bank e).cmds[(s.bank e).idx]? = some w → decode (.bank w) = some i → bankTurn s e = .run i)

/-- What the issue of a bundle that holds one trigger move and no control field adds to the trigger's own effect: results fall due and rings shift first,
and then the PC and the issue count advance by 1. A bundle with no moves, no slot and no control field issues and falls through. A bundle that fails a
static check faults ILLEGAL_BUNDLE with its subcode and part, before any effect. The taken leaf (R176 to R179): with the tests of Table 8.7 a CHAIN
takes the leaf of its first true test, or its last leaf, and a FORK the leaf of Table 8.9a. The leaf's pops come off the loop stack, or fault
LOOP_UNDERFLOW subcode 2; it jumps to bits [10:0] of its literal, falls through, or returns to the top of the call stack. The next PC in the order of
R223 where several could set it: a leaf that jumps goes before a `lend` and before an `lp.push` with count 0; with no leaf `cu.jump` goes before a
`lend` that iterates its loop, that `lend` before an `lp.push` with count 0, and this, to `cu.lend` + 1, before PC + 1. A `lend` that does not iterate
removes its loop. An `lp.push` with count 0 and no `lend` beside it goes to `cu.lend` + 1 and pushes nothing. The model’s own readings in it: log
entry 17. -/
def Obligations.BundlesIssue : Prop :=
  (∀ (s t u : State) (b : Bundle) (x : Slot) (tr : Trigger),
    mayIssue s.here = true → s.here.paced = false → frozenFetch s.here = none → decodeBundle s.here.bundle = .ok b → isMarkBundle s.here.arch s.here.bundle = false →
    b.tree = none → b.slots = [x] → b.adr = none → triggerOf x.instr = some tr → x.place = tr.bus → isCuTrig tr.port = false → isMarkTrig tr.port = false →
    stepRings s s.cur = .ok t → runTrigger s.cur tr.bus tr.src tr.keep tr.port tr.width tr.body t = .ok u →
      exec x.instr t = .next u ∧
      exec .bundleIssue s = .next (u.modCore s.cur fun k => k.issued { k.arch with pc := t.here.arch.pc + 1, count := t.here.arch.count + 1 } (observes b [x]))) ∧
  (∀ (s t : State),
    mayIssue s.here = true → s.here.paced = false → frozenFetch s.here = none → s.here.bundle = 0 → s.here.arch.count ≠ 0 → stepRings s s.cur = .ok t →
      exec .bundleIssue s = .next (t.modCore s.cur fun k => k.issued { k.arch with pc := k.arch.pc + 1, count := k.arch.count + 1 } false)) ∧
  (∀ (s : State) (sub part : Nat),
    mayIssue s.here = true → s.here.paced = false → frozenFetch s.here = none → decodeBundle s.here.bundle = .error (sub, part) →
      exec .bundleIssue s = .next (takeCoreFault s s.cur { code := 0x01, sub := sub, whereAt := part, addr := 0, detail := 0, aux := 0 })) ∧
  (∀ (s t : State) (b : Bundle) (tr : Tree) (leaf : Leaf) (i : Nat),
    mayIssue s.here = true → s.here.paced = false → frozenFetch s.here = none → decodeBundle s.here.bundle = .ok b → isMarkBundle s.here.arch s.here.bundle = false →
    b.tree = some tr → b.slots = [] → b.adr = none → stepRings s s.cur = .ok t → Present t [32] →
    let a := t.here.arch
    let val := fun n => match tr.tests[n]? with
      | some x => (if x.kind = 0 then a.p.get false x.idx else if x.kind = 1 then a.s.get 0 x.idx != 0
          else if x.kind = 2 then (match a.loops.getLast? with | some l => l.idx + 1 == l.count | none => false)
          else decide ((t.here.join x.idx - a.jcmp.setWidth 32).toNat < 2 ^ 31)) != x.inv
      | none => false
    let n := tr.tests.length
    (tr.fork = false → i ≤ n ∧ (∀ j, j < i → val j = false) ∧ (i < n → val i = true)) →
    (tr.fork = true → n = 2 → i = if val 0 then (if val 1 then 0 else 1) else 2) →
    (tr.fork = true → n = 3 → i = if val 0 then (if val 1 then 0 else 1) else if val 2 then 2 else 3) →
    (tr.fork = true → n = 4 → i = if val 0 then (if val 1 then (if val 3 then 0 else 1) else 2) else if val 2 then 3 else 4) →
    tr.leaves[i]? = some leaf →
    let goes := fun (pc : BitVec 11) (calls : List (BitVec 11)) => exec .bundleIssue s = .next (t.modCore s.cur fun k =>
      k.issued { k.arch with loops := k.arch.loops.take (a.loops.length - leaf.pop), pc := pc, calls := calls, count := a.count + 1 } (tr.tests.any fun x => x.kind == 3))
    (a.loops.length < leaf.pop → exec .bundleIssue s = .next (takeCoreFault s s.cur { code := 0x05, sub := 2, whereAt := 9, addr := 0, detail := 0, aux := 0 })) ∧
    (leaf.pop ≤ a.loops.length →
      (leaf.target ≤ 4 → goes (BitVec.ofNat 11 (bLit s.here.bundle leaf.target)) a.calls) ∧
      (leaf.target = 5 → goes (a.pc + 1) a.calls) ∧
      ∀ r l, leaf.target = 6 → a.calls = r :: l → goes r l)) ∧
  (∀ (s t : State) (b : Bundle) (l : Loop) (d : BitVec 3) (mask : Nat),
    mayIssue s.here = true → s.here.paced = false → frozenFetch s.here = none → decodeBundle s.here.bundle = .ok b → isMarkBundle s.here.arch s.here.bundle = false →
    stepRings s s.cur = .ok t →
    let a := t.here.arch
    let lend : Slot := { place := 8, instr := .lend d, mask := mask }
    let goes := fun (f : Arch → Prop) => ∃ u, exec .bundleIssue s = .next u ∧ f u.here.arch ∧ SameModule s u ∧ SameOthers s u
    a.loops.getLast? = some l → l.stop = a.pc → d.toNat = a.loops.length → b.adr = some lend →
      (b.tree = none → b.slots = [] →
        ((l.idx + 1).toNat < l.count.toNat → goes fun x => x.pc = l.start ∧ x.loops = a.loops.take (a.loops.length - 1) ++ [{ l with idx := l.idx + 1 }]) ∧
        (l.count.toNat ≤ (l.idx + 1).toNat → goes fun x => x.pc = a.pc + 1 ∧ x.loops = a.loops.take (a.loops.length - 1))) ∧
      (∀ (x : Slot) (m : Mv) (v : Val), b.slots = [x] → readSource t s.cur m.src.toNat = .ok v → m.src ≠ 0x0B8 → (l.idx + 1).toNat < l.count.toNat →
        (b.tree = none → x.instr = .cuJump m → goes fun y => y.pc = v.bits.setWidth 11) ∧
        (b.tree = none → x.instr = .cuLpPush m → v.bits.setWidth 32 = (0 : BitVec 32) → a.pc.toNat < (a.lend.setWidth 11 : BitVec 11).toNat → goes fun y => y.pc = l.start)) ∧
      ∀ (tr : Tree) (n : Nat), b.tree = some tr → (∀ x ∈ tr.leaves, x = { target := n, pop := 0 }) → n ≤ 4 → b.slots = [] → Present t [32] →
        goes fun x => x.pc = BitVec.ofNat 11 (bLit s.here.bundle n) ∧ x.loops = a.loops) ∧
  (∀ (s t : State) (b : Bundle) (x : Slot) (m : Mv) (v : Val),
    mayIssue s.here = true → s.here.paced = false → frozenFetch s.here = none → decodeBundle s.here.bundle = .ok b → isMarkBundle s.here.arch s.here.bundle = false →
    stepRings s s.cur = .ok t → b.tree = none → b.adr = none → b.slots = [x] → x.instr = .cuLpPush m → readSource t s.cur m.src.toNat = .ok v → m.src ≠ 0x0B8 →
    v.bits.setWidth 32 = (0 : BitVec 32) → t.here.arch.pc.toNat < (t.here.arch.lend.setWidth 11 : BitVec 11).toNat →
      ∃ u, exec .bundleIssue s = .next u ∧ u.here.arch.pc = t.here.arch.lend.setWidth 11 + 1 ∧ u.here.arch.loops = t.here.arch.loops)

/-- A result whose issue count has come enters position 0 of its slot's ring and its result port, sets its flags and leaves the list of results due; the
slot's older results move one position on. A result that is due and has not arrived freezes the bundle: nothing advances. An `xlt` whose count has
come installs its handle, valid as its walk left it, with its result; one whose walk failed raises that fault in place of the bundle, named by its own
bundle and count (R38). The model’s own readings in it: log entry 17. -/
def Obligations.ResultsFallDue : Prop :=
  (∀ (s : State) (d : Due) (v : Vec),
    Present s [33] → dueNow s.here.arch = [d] → d.val = some v → d.inst = none → d.bad = none → d.bus < 8 →
      ∃ t, stepRings s s.cur = .ok t ∧ (t.here.arch.ring d.bus).d0 = some v ∧ (t.here.arch.ring d.bus).d1 = (s.here.arch.ring d.bus).d0 ∧
        (t.here.arch.ring d.bus).d2 = (s.here.arch.ring d.bus).d1 ∧ (t.here.arch.ring d.bus).d3 = (s.here.arch.ring d.bus).d2 ∧
        t.here.arch.result d.port = v ∧ t.here.arch.fstat = fstatRaise s.here.arch.fstat d.flags ∧ d ∉ t.here.arch.due ∧
        t.here.arch.s = s.here.arch.s ∧ t.here.arch.p = s.here.arch.p ∧ t.here.arch.v = s.here.arch.v ∧ SameModule s t ∧ SameMemory s t ∧ SameOthers s t) ∧
  (∀ (s : State) (d : Due),
    mayIssue s.here = true → s.here.paced = false → frozenFetch s.here = none → s.here.bundle = 0 → s.here.arch.count ≠ 0 → Present s [33] →
    dueNow s.here.arch = [d] → d.val = none → d.inst = none → d.bad = none →
      ∃ t, exec .bundleIssue s = .next t ∧ t.here.freeze = .late ∧ t.here.arch = s.here.arch ∧ SameModule s t ∧ SameMemory s t) ∧
  (∀ (s : State) (d : Due), dueNow s.here.arch = [d] →
    (∀ v n h, Present s [32, 33] → d.val = some v → d.inst = some (n, h) → d.bad = none → d.bus < 8 →
      ∃ t, stepRings s s.cur = .ok t ∧ t.here.arch.handle n = h ∧ (∀ m, m ≠ n → t.here.arch.handle m = s.here.arch.handle m) ∧
        (t.here.arch.ring d.bus).d0 = some v ∧ t.here.arch.result d.port = v ∧ d ∉ t.here.arch.due ∧ (t.here.folio 32).dirty = true ∧ SameModule s t ∧ SameMemory s t ∧ SameOthers s t) ∧
    ∀ f, Present s [32, 33] → d.bad = some f → mayIssue s.here = true → s.here.paced = false → frozenFetch s.here = none → s.here.bundle = 0 → s.here.arch.count ≠ 0 →
      exec .bundleIssue s = .next (takeFault s s.cur f d.bundle d.count))

/-! ### Moves and arithmetic -/

/-- A register, ring position, result port, literal, stream token, loop index, join counter, the clock or the core's number reads by Table 8.13: narrow
values are zero-extended, single literals sign-extended, paired literals joined; q0, q1 and the scalar results read their low 64 bits, an empty ring
position and an inactive loop index 0. A stream's token is that of R239. A move whose source can be read writes its destination and nothing else
(Table 8.14): an `s` register the low 64 bits, a `v` register the value zero-extended to 1,024 bits, a `p` register whether bits [63:0] are not all
zero, `cu.lend` and `cu.jcmp` 64 bits; a vector or SF operand latch keeps the value with its class, a scalar or address latch 64 bits, `m0.o2` and
`m1.o2` 1,024 bits, a mode or configuration port 64 bits. -/
def Obligations.MovesReadAndWrite : Prop :=
  (∀ (s : State) (c : Nat),
    let a := (s.core c).arch
    let at' := fun f => ((s.core c).folio f).pres = .present
    let scalar := fun (p : Nat) (x : BitVec 64) => readSource s c p = .ok { bits := x.setWidth 1024, vector := false }
    let vector := fun (p : Nat) (x : BitVec 1024) => readSource s c p = .ok { bits := x, vector := true }
    let lit := fun n => BitVec.ofNat 32 (bLit (s.core c).bundle n)
    let ix := fun l => if l ≤ 5 then (match a.loops[l]? with | some x => x.idx.toNat | none => 0) else 0
    (∀ n, n < 64 → at' 32 → scalar n (a.s.get 0 n)) ∧
    (∀ n, n < 16 → at' 32 → scalar (0x0C0 + n) (if a.p.get false n then 1 else 0)) ∧
    (∀ n, n < 32 → at' 34 → vector (0x040 + n) (a.v.get 0 n)) ∧
    (∀ n, 32 ≤ n → n < 64 → at' 35 → vector (0x040 + n) (a.v.get 0 n)) ∧
    (∀ k, 2 ≤ k → k < 8 → at' 33 → vector (0x080 + 4 * k) ((a.ring k).d0.getD 0) ∧ vector (0x081 + 4 * k) ((a.ring k).d1.getD 0) ∧
      vector (0x082 + 4 * k) ((a.ring k).d2.getD 0) ∧ vector (0x083 + 4 * k) ((a.ring k).d3.getD 0)) ∧
    (∀ k, k < 2 → at' 33 → scalar (0x080 + 4 * k) (((a.ring k).d0.getD 0).setWidth 64) ∧ scalar (0x081 + 4 * k) (((a.ring k).d1.getD 0).setWidth 64) ∧
      scalar (0x082 + 4 * k) (((a.ring k).d2.getD 0).setWidth 64) ∧ scalar (0x083 + 4 * k) (((a.ring k).d3.getD 0).setWidth 64)) ∧
    (∀ n, n < 5 → scalar (0x0A0 + n) ((lit n).signExtend 64)) ∧ scalar 0x0A5 (lit 1 ++ lit 0) ∧ scalar 0x0A6 (lit 3 ++ lit 2) ∧ scalar 0x0A7 0 ∧
    (∀ n, n < 8 → at' 32 → a.loops.length ≤ 6 →
      let t := a.stream n
      scalar (0x0A8 + n) (BitVec.ofNat 64 (t.kind.toNat * 2 ^ 60 + (if t.kind = 1 then t.index.toNat % 16 * 2 ^ 56 else 0) + (if t.kind = 2 then t.index.toNat * 2 ^ 48 else 0) +
        (t.base.toNat + ix t.b.toNat * t.st0.toNat + ix (t.b.toNat + 1) * t.st1.toNat + ix (t.b.toNat + 2) * t.st2.toNat + ix (t.b.toNat + 3) * t.st3.toNat) % 2 ^ 40))) ∧
    (at' 33 → (∀ p ∈ [0x0B0, 0x0B1], scalar p ((a.result p).setWidth 64)) ∧ ∀ p ∈ [0x0B2, 0x0B3, 0x0B4, 0x0B5, 0x0B6, 0x0B7, 0x0B9, 0x0BA], vector p (a.result p)) ∧
    (∀ n, n < 6 → scalar (0x0D0 + n) (BitVec.ofNat 64 (ix n))) ∧ scalar 0x0D6 (BitVec.ofNat 64 a.loops.length) ∧
    (∀ n, n < 16 → scalar (0x0E0 + n) (((s.core c).join n).setWidth 64)) ∧
    scalar 0x0F0 (BitVec.ofNat 64 a.count) ∧ scalar 0x0F2 (BitVec.ofNat 64 c)) ∧
  (∀ (m : Mv) (dst : BitVec 11) (s t : State) (v : Val),
    (Instr.move m dst).wf = true → Reads s m.bus m.src m.keep v t → (∀ f, destFolio dst.toNat = some f → Present t [f]) →
      ∃ u, exec (.move m dst) s = .next u ∧
        (dst.toNat < 0x40 → u.here.arch = { t.here.arch with s := t.here.arch.s.put 0 dst.toNat (v.bits.setWidth 64) }) ∧
        (0x40 ≤ dst.toNat ∧ dst.toNat < 0x80 → u.here.arch = { t.here.arch with v := t.here.arch.v.put 0 (dst.toNat - 0x40) v.bits }) ∧
        (0xC0 ≤ dst.toNat ∧ dst.toNat < 0xD0 → u.here.arch = { t.here.arch with p := t.here.arch.p.put false (dst.toNat - 0xC0) (v.bits.setWidth 64 != 0) }) ∧
        (dst = 0x140 → u.here.arch = { t.here.arch with lend := v.bits.setWidth 64 }) ∧
        (dst = 0x142 → u.here.arch = { t.here.arch with jcmp := v.bits.setWidth 64 }) ∧
        (dst.toNat ∈ [0x102, 0x103, 0x105, 0x106, 0x108, 0x109, 0x10B] → u.here.arch = t.here.arch.setLatch dst.toNat v) ∧
        (dst.toNat ∈ [0x100, 0x101, 0x113, 0x114, 0x10D, 0x110] →
          u.here.arch = t.here.arch.setLatch dst.toNat { bits := (v.bits.setWidth 64).setWidth 1024, vector := false }) ∧
        (dst.toNat ∈ [0x10E, 0x111] → u.here.arch = t.here.arch.setLatch dst.toNat { bits := v.bits, vector := true }) ∧
        (dst.toNat ∈ [0x104, 0x107, 0x10A, 0x10C, 0x10F, 0x112] ∨ 0x120 ≤ dst.toNat ∧ dst.toNat < 0x134 →
          u.here.arch = t.here.arch.setConfig dst.toNat (v.bits.setWidth 64)) ∧
        { u.here with arch := t.here.arch, folios := t.here.folios } = t.here ∧ SameModule s u ∧ SameOthers s u)

/-- `fstat` reads at source port 0x0F6 as it stands; a write to destination 0x141 clears every flag whose bit is set in the value and changes nothing
else; kernel entry clears it. -/
def Obligations.FstatPort : Prop :=
  (∀ s c, readSource s c 0x0F6 = .ok { bits := (s.core c).arch.fstat.setWidth 1024, vector := false }) ∧
  (∀ (m : Mv) (s t : State) (v : Val), Reads s m.bus m.src m.keep v t →
    ∃ u, exec (.move m 0x141) s = .next u ∧
      (∀ i, i < 11 → u.here.arch.fstat.getLsbD i = (t.here.arch.fstat.getLsbD i && !v.bits.getLsbD i)) ∧
      (∀ i, 11 ≤ i → u.here.arch.fstat.getLsbD i = false) ∧
      { u.here.arch with fstat := t.here.arch.fstat } = t.here.arch ∧ { u.here with arch := t.here.arch } = t.here ∧ SameModule s u ∧ SameOthers s u) ∧
  ∀ k g c r data imem map n, (entryCore k g c r data imem map n).arch.fstat = 0

/-- The integer operations of SA (bus 0) and SB (bus 1): A is the unit's `.o` latch, B the value moved, C its `.o2` latch; the result wraps modulo 2^64
and falls due after the latency shown, with no flag. Division and remainder follow Table 9.7: by zero the quotient is all ones and the remainder the
dividend, with IDZ; the most negative number by -1 gives itself and remainder 0, with IOV; else signed division truncates toward zero and the
remainder has the sign of the dividend. `clz`, `ctz`, `popc` and `bswap`: the zeros above the highest and below the lowest set bit, 64 for the value
0, the number of set bits, and the bytes in reverse order. -/
def Obligations.ScalarInteger : Prop :=
  (∀ p ∈ ([(.saAdd, 1, fun a b _ => a + b), (.saSub, 1, fun a b _ => a - b), (.saMul, 3, fun a b _ => a * b),
      (.saMulh, 3, fun a b _ => ((a.signExtend 128 * b.signExtend 128) >>> 64).setWidth 64),
      (.saMulhu, 3, fun a b _ => ((a.setWidth 128 * b.setWidth 128) >>> 64).setWidth 64),
      (.saAnd, 1, fun a b _ => a &&& b), (.saOr, 1, fun a b _ => a ||| b), (.saXor, 1, fun a b _ => a ^^^ b), (.saAndn, 1, fun a b _ => a &&& ~~~b),
      (.saShl, 1, fun a b _ => a <<< (b.toNat % 64)), (.saShr, 1, fun a b _ => a >>> (b.toNat % 64)),
      (.saSar, 1, fun a b _ => a.sshiftRight (b.toNat % 64)), (.saRotl, 1, fun a b _ => a.rotateLeft (b.toNat % 64)),
      (.saMin, 1, fun a b _ => if a.toInt < b.toInt then a else b), (.saMax, 1, fun a b _ => if a.toInt < b.toInt then b else a),
      (.saMinu, 1, fun a b _ => if a.toNat < b.toNat then a else b), (.saMaxu, 1, fun a b _ => if a.toNat < b.toNat then b else a),
      (.saSeq, 1, fun a b _ => if a = b then 1 else 0), (.saSne, 1, fun a b _ => if a = b then 0 else 1),
      (.saSlt, 1, fun a b _ => if a.toInt < b.toInt then 1 else 0), (.saSltu, 1, fun a b _ => if a.toNat < b.toNat then 1 else 0),
      (.saSle, 1, fun a b _ => if a.toInt ≤ b.toInt then 1 else 0), (.saSleu, 1, fun a b _ => if a.toNat ≤ b.toNat then 1 else 0),
      (.saSel, 1, fun a b c => if c = 0 then b else a), (.saPass, 1, fun _ b _ => b),
      (.saSext8, 1, fun _ b _ => (b.setWidth 8).signExtend 64), (.saSext16, 1, fun _ b _ => (b.setWidth 16).signExtend 64),
      (.saSext32, 1, fun _ b _ => (b.setWidth 32).signExtend 64), (.saZext8, 1, fun _ b _ => b &&& 0xFF), (.saZext16, 1, fun _ b _ => b &&& 0xFFFF),
      (.saZext32, 1, fun _ b _ => b &&& 0xFFFFFFFF), (.saMadd, 3, fun a b c => a * b + c)] : List ((Mv → Instr) × Nat × (Word → Word → Word → Word))),
    ∀ (m : Mv) (s t : State) (v : Val), m.bus < 2 → Reads s m.bus m.src m.keep v t → Present t [32, 33] →
      exec (p.1 m) s = .next (deliver t s.cur m.bus.val (0x0B0 + m.bus.val) p.2.1
        ((p.2.2 (t.here.arch.latch (0x100 + m.bus.val)).lo (v.bits.setWidth 64) (t.here.arch.latch (0x113 + m.bus.val)).lo).setWidth 1024) 0)) ∧
  (∀ p ∈ ([(.saDiv, fun a b => if b = 0 then (BitVec.allOnes 64, 0x080) else (a.sdiv b, if a = BitVec.intMin 64 ∧ b = BitVec.allOnes 64 then 0x100 else 0)),
      (.saRem, fun a b => if b = 0 then (a, 0x080) else (a.srem b, if a = BitVec.intMin 64 ∧ b = BitVec.allOnes 64 then 0x100 else 0)),
      (.saDivu, fun a b => if b = 0 then (BitVec.allOnes 64, 0x080) else (a / b, 0)),
      (.saRemu, fun a b => if b = 0 then (a, 0x080) else (a % b, 0))] : List ((Mv → Instr) × (Word → Word → Word × Word))),
    ∀ (m : Mv) (s t : State) (v : Val), m.bus < 2 → Reads s m.bus m.src m.keep v t → Present t [32, 33] →
      exec (p.1 m) s = .next (deliver t s.cur m.bus.val (0x0B0 + m.bus.val) 12
        ((p.2 (t.here.arch.latch (0x100 + m.bus.val)).lo (v.bits.setWidth 64)).1.setWidth 1024)
        (p.2 (t.here.arch.latch (0x100 + m.bus.val)).lo (v.bits.setWidth 64)).2)) ∧
  (∀ p ∈ ([(.saClz, fun b x => ∃ n, x = BitVec.ofNat 64 n ∧ n ≤ 64 ∧ (∀ i, i < n → b.getLsbD (63 - i) = false) ∧ (n < 64 → b.getLsbD (63 - n) = true)),
      (.saCtz, fun b x => ∃ n, x = BitVec.ofNat 64 n ∧ n ≤ 64 ∧ (∀ i, i < n → b.getLsbD i = false) ∧ (n < 64 → b.getLsbD n = true)),
      (.saPopc, fun b x => x = BitVec.ofNat 64 ((List.range 64).countP b.getLsbD)),
      (.saBswap, fun b x => ∀ i j, i < 8 → j < 8 → x.getLsbD (8 * i + j) = b.getLsbD (8 * (7 - i) + j))] : List ((Mv → Instr) × (Word → Word → Prop))),
    ∀ (m : Mv) (s t : State) (v : Val), m.bus < 2 → Reads s m.bus m.src m.keep v t → Present t [32, 33] →
      ∃ x, p.2 (v.bits.setWidth 64) x ∧ exec (p.1 m) s = .next (deliver t s.cur m.bus.val (0x0B0 + m.bus.val) 1 (x.setWidth 1024) 0))

/-- The FP64 operations and conversions: the exact value rounded once, to nearest even or under C[1:0]; minimum, maximum and comparisons by R194; the
flags of the operation fall due with its result. The special operands of FP64: infinity minus infinity and zero times infinity give the canonical NaN
with NV, a finite non-zero value divided by a zero the infinity of the quotient's sign with DZ, a NaN operand the canonical NaN without a flag. -/
def Obligations.ScalarFloat : Prop :=
  (∀ p ∈ ([(.saFaddD, 4, fun a b _ => outD ((numD a).add (numD b) 0)), (.saFsubD, 4, fun a b _ => outD ((numD a).add (numD b).neg 0)),
      (.saFmulD, 4, fun a b _ => outD ((numD a).mul (numD b))), (.saFmaddD, 4, fun a b c => outD ((numD a).fma (numD b) (numD c) 0)),
      (.saFdivD, 14, fun a b _ => outD ((numD a).div (numD b))), (.saFminD, 4, fun a b _ => (pickD false a b, 0)), (.saFmaxD, 4, fun a b _ => (pickD true a b, 0)),
      (.saFeqD, 4, fun a b _ => (if (numD a).isNan ∨ (numD b).isNan then 0 else if (numD a).cmp (numD b) = 0 then 1 else 0, 0)),
      (.saFltD, 4, fun a b _ => (if (numD a).isNan ∨ (numD b).isNan then 0 else if (numD a).cmp (numD b) < 0 then 1 else 0, 0)),
      (.saFleD, 4, fun a b _ => (if (numD a).isNan ∨ (numD b).isNan then 0 else if (numD a).cmp (numD b) ≤ 0 then 1 else 0, 0)),
      (.saCvtDi, 4, fun _ b c => ofFlagged (fp64.out (.ofInt b.toInt) (c.toNat % 4) false)), (.saCvtId, 4, fun _ b c => ofFlagged (toIntFmt cInt64 (numD b) (c.toNat % 4))),
      (.saCvtSd, 4, fun _ b c => ofFlagged (fp32.out (numD b) (c.toNat % 4) (c.getLsbD 2))),
      (.saCvtDs, 4, fun _ b _ => ofFlagged (fp64.out (fp32.decode (b.toNat % 2 ^ 32)) 0 false))] : List ((Mv → Instr) × Nat × (Word → Word → Word → Word × Word))),
    ∀ (m : Mv) (s t : State) (v : Val), m.bus < 2 → Reads s m.bus m.src m.keep v t → Present t [32, 33] →
      let r := p.2.2 (t.here.arch.latch (0x100 + m.bus.val)).lo (v.bits.setWidth 64) (t.here.arch.latch (0x113 + m.bus.val)).lo
      exec (p.1 m) s = .next (deliver t s.cur m.bus.val (0x0B0 + m.bus.val) p.2.1 (r.1.setWidth 1024) r.2)) ∧
  ((∀ n, outD ((Machine.Num.inf n).add (.inf !n) 0) = (0x7FF8000000000000, 0x010)) ∧
  (∀ n m, outD ((Machine.Num.inf n).mul (.ofDyadic m 0 0)) = (0x7FF8000000000000, 0x010)) ∧
  (∀ (x z : Ex), x.n ≠ 0 → z.n = 0 → outD ((Machine.Num.fin x).div (.fin z)) = (if x.neg = z.neg then 0x7FF0000000000000 else 0xFFF0000000000000, 0x008)) ∧
  ∀ x : Machine.Num, outD (Machine.Num.nan.add x 0) = (0x7FF8000000000000, 0) ∧ outD (x.add .nan 0) = (0x7FF8000000000000, 0) ∧ outD (Machine.Num.nan.mul x) = (0x7FF8000000000000, 0) ∧
    outD (x.mul .nan) = (0x7FF8000000000000, 0) ∧ outD (Machine.Num.nan.div x) = (0x7FF8000000000000, 0) ∧ outD (x.div .nan) = (0x7FF8000000000000, 0))

/-- The vector operations on VA (bus 2), VB (bus 3) and VC (bus 4): where the mode latch passes the checks of Table 11.3 the result falls due after the
latency of the type; where it does not, ILLEGAL_MODE with the check's subcode. The lanes of the vector operations on the integer types, unsaturated
and with vector-class operands: element-wise arithmetic modulo the width, shifts by B modulo the width, compares and extrema by signedness, select,
logic, the permutes of R256 and the sum and extrema over the lanes; zeros above the lanes. FP32 sums and products are rounded once. The checks of
Table 11.3 in their order: X34 or a reserved code as type gives ILLEGAL_MODE subcode 1 on every vector operation; a code that the operation does not
accept 2 (a shift of a float, an add of INT4); an otype that is X34, reserved, not accepted, or not of half the width of type for pack, 3. -/
def Obligations.VectorRuns : Prop :=
  (∀ p ∈ ([(.vaAdd, opVaAdd, 2, 4), (.vaSub, opVaSub, 2, 4), (.vaMul, opVaMul, 2, 4), (.vaFma, opVaFma, 5, 5), (.vaFms, opVaFms, 5, 5), (.vaMin, opVaMin, 2, 4),
      (.vaMax, opVaMax, 2, 4), (.vaAbs, opVaAbs, 2, 2), (.vaNeg, opVaNeg, 2, 2), (.vaAnd, opVaAnd, 2, 2), (.vaOr, opVaOr, 2, 2), (.vaXor, opVaXor, 2, 2),
      (.vaShl, opVaShl, 2, 2), (.vaShr, opVaShr, 2, 2), (.vaSar, opVaSar, 2, 2), (.vaCmpeq, opVaCmpeq, 2, 2), (.vaCmplt, opVaCmplt, 2, 2), (.vaCmple, opVaCmple, 2, 2),
      (.vaSel, opVaSel, 2, 2), (.vaCvt, opVaCvt, 4, 4), (.vaScale, opVaScale, 4, 4), (.vaQuant, opVaQuant, 4, 4), (.vaDequant, opVaDequant, 4, 4),
      (.vaAmax, opVaAmax, 6, 6), (.vaRsum, opVaRsum, 6, 6), (.vaRmax, opVaRmax, 6, 6), (.vaRmin, opVaRmin, 6, 6), (.vaDot, opVaDot, 5, 5), (.vaBcast, opVaBcast, 3, 3),
      (.vaPerm, opVaPerm, 3, 3), (.vaZip, opVaZip, 3, 3), (.vaUnzip, opVaUnzip, 3, 3), (.vaSlide, opVaSlide, 3, 3), (.vaPack, opVaPack, 3, 3),
      (.vaUnpackLo, opVaUnpackLo, 3, 3), (.vaUnpackHi, opVaUnpackHi, 3, 3), (.vaClamp, opVaClamp, 2, 4), (.vaRound, opVaRound, 4, 4), (.vaMov, opVaMov, 2, 2)] :
      List ((Vm → Instr) × VectorOp × Nat × Nat)),
    ∀ (m : Vm) (s t : State) (v : Val), 2 ≤ m.bus → m.bus ≤ 4 → Reads s m.bus m.src false v t → Present t [32, 33] →
      let x := vectorArgs t m.bus.val (widthBits m.w) v
      (modeFault p.2.1 x.mode = none →
        exec (p.1 m) s = .next (deliver t s.cur m.bus.val (0x0B0 + m.bus.val) (if isFloat x.mode.type then p.2.2.2 else p.2.2.1) (BitVec.ofNat 1024 (p.2.1.f x).1) (p.2.1.f x).2)) ∧
      ∀ n, modeFault p.2.1 x.mode = some n →
        exec (p.1 m) s = .next (takeCoreFault s s.cur { code := 0x17, sub := n, whereAt := m.bus.val, addr := 0, detail := 0, aux := 0 })) ∧
  (let int := fun (sg : Bool) (w x : Nat) => if sg ∧ 2 ^ (w - 1) ≤ x then (x : Int) - 2 ^ w else (x : Int)
  let mask := fun (w : Nat) (p : Bool) => if p then 2 ^ w - 1 else 0
  let seq := fun (n : Nat) (b c : Nat → Nat) (k : Nat) => if k < n then b k else if k < 2 * n then c (k - n) else 0
  let lane := fun (v : Val) (w i : Nat) => v.bits.toNat / 2 ^ (w * i) % 2 ^ w
  (∀ p ∈ ([(.vaAdd, 2, fun w _ _ a b _ i => (a i + b i) % 2 ^ w), (.vaSub, 2, fun w _ _ a b _ i => (a i + 2 ^ w - b i) % 2 ^ w),
      (.vaMul, 2, fun w _ _ a b _ i => a i * b i % 2 ^ w), (.vaFma, 5, fun w _ _ a b c i => (a i * b i + c i) % 2 ^ w),
      (.vaFms, 5, fun w _ _ a b c i => (a i * b i + (2 ^ w - c i)) % 2 ^ w),
      (.vaMin, 2, fun w sg _ a b _ i => if int sg w (a i) ≤ int sg w (b i) then a i else b i), (.vaMax, 2, fun w sg _ a b _ i => if int sg w (a i) < int sg w (b i) then b i else a i),
      (.vaAbs, 2, fun w sg _ _ b _ i => if int sg w (b i) < 0 then (2 ^ w - b i) % 2 ^ w else b i), (.vaNeg, 2, fun w _ _ _ b _ i => (2 ^ w - b i) % 2 ^ w),
      (.vaAnd, 2, fun _ _ _ a b _ i => a i &&& b i), (.vaOr, 2, fun _ _ _ a b _ i => a i ||| b i), (.vaXor, 2, fun _ _ _ a b _ i => a i ^^^ b i), (.vaMov, 2, fun _ _ _ _ b _ i => b i),
      (.vaShl, 2, fun w _ _ a b _ i => a i * 2 ^ (b i % w) % 2 ^ w), (.vaShr, 2, fun w _ _ a b _ i => a i / 2 ^ (b i % w)),
      (.vaSar, 2, fun w _ _ a b _ i => (int true w (a i) / 2 ^ (b i % w) % 2 ^ w).toNat),
      (.vaCmpeq, 2, fun w _ _ a b _ i => mask w (a i == b i)), (.vaCmplt, 2, fun w sg _ a b _ i => mask w (decide (int sg w (a i) < int sg w (b i)))),
      (.vaCmple, 2, fun w sg _ a b _ i => mask w (decide (int sg w (a i) ≤ int sg w (b i)))), (.vaSel, 2, fun _ _ _ a b c i => if c i = 0 then b i else a i),
      (.vaBcast, 3, fun _ _ n a b _ _ => if a 0 < n then b (a 0) else 0), (.vaPerm, 3, fun _ _ n a b c i => seq n b c (a i)),
      (.vaZip, 3, fun _ _ _ a b _ i => if i % 2 = 0 then a (i / 2) else b (i / 2)), (.vaUnzip, 3, fun _ _ n _ b _ i => if i < n / 2 then b (2 * i) else b (2 * (i - n / 2) + 1)),
      (.vaSlide, 3, fun _ _ n a b c i => seq n b c (i + a 0)),
      (.vaRsum, 6, fun w _ n _ b _ i => if i = 0 then ((List.range n).map b).sum % 2 ^ w else 0)] :
      List ((Vm → Instr) × Nat × (Nat → Bool → Nat → (Nat → Nat) → (Nat → Nat) → (Nat → Nat) → Nat → Nat))),
    ∀ (m : Vm) (s t : State) (v : Val), 2 ≤ m.bus → m.bus ≤ 4 → Reads s m.bus m.src false v t → Present t [32, 33] →
      let x := vectorArgs t m.bus.val (widthBits m.w) v
      x.mode.type < 6 → x.mode.sat = false → m.w ≠ 3 → x.a.vector = true → x.b.vector = true → x.c.vector = true →
        let w := 8 * 2 ^ (x.mode.type / 2)
        let n := widthBits m.w / w
        ∃ r : BitVec 1024, exec (p.1 m) s = .next (deliver t s.cur m.bus.val (0x0B0 + m.bus.val) p.2.1 r 0) ∧ r.toNat < 2 ^ widthBits m.w ∧
          ∀ i, i < n → r.toNat / 2 ^ (w * i) % 2 ^ w = p.2.2 w (decide (x.mode.type % 2 = 0)) n (lane x.a w) (lane x.b w) (lane x.c w) i) ∧
  ∀ p ∈ ([(.vaAdd, fun a b => a.add b 0), (.vaSub, fun a b => a.add b.neg 0), (.vaMul, fun a b => a.mul b)] : List ((Vm → Instr) × (Machine.Num → Machine.Num → Flagged Machine.Num))),
    ∀ (m : Vm) (s t : State) (v : Val), 2 ≤ m.bus → m.bus ≤ 4 → Reads s m.bus m.src false v t → Present t [32, 33] →
      let x := vectorArgs t m.bus.val (widthBits m.w) v
      x.mode.type = 9 → x.mode.rm = 0 → m.w ≠ 3 → x.a.vector = true → x.b.vector = true →
        ∃ (r : BitVec 1024) (f : Word), exec (p.1 m) s = .next (deliver t s.cur m.bus.val (0x0B0 + m.bus.val) 4 r f) ∧ r.toNat < 2 ^ widthBits m.w ∧
          ∀ i, i < widthBits m.w / 32 → r.toNat / 2 ^ (32 * i) % 2 ^ 32 =
            (fp32.out (p.2 (fp32.decode (lane x.a 32 i)) (fp32.decode (lane x.b 32 i))).val 0 x.mode.sat).val) ∧
  (∀ (m : Vm) (s t : State) (v : Val), 2 ≤ m.bus → m.bus ≤ 4 → Reads s m.bus m.src false v t → Present t [32, 33] →
    let x := (vectorArgs t m.bus.val (widthBits m.w) v).mode
    let faults := fun (i : Vm → Instr) (n : Nat) => exec (i m) s = .next (takeCoreFault s s.cur { code := 0x17, sub := n, whereAt := m.bus.val, addr := 0, detail := 0, aux := 0 })
    (x.type = 0x12 ∨ 0x15 ≤ x.type → ∀ i ∈ ([.vaAdd, .vaSub, .vaMul, .vaFma, .vaFms, .vaMin, .vaMax, .vaAbs, .vaNeg, .vaAnd, .vaOr, .vaXor, .vaShl, .vaShr, .vaSar, .vaCmpeq, .vaCmplt, .vaCmple,
      .vaSel, .vaCvt, .vaScale, .vaQuant, .vaDequant, .vaAmax, .vaRsum, .vaRmax, .vaRmin, .vaDot, .vaBcast, .vaPerm, .vaZip, .vaUnzip, .vaSlide, .vaPack, .vaUnpackLo, .vaUnpackHi, .vaClamp,
      .vaRound, .vaMov] : List (Vm → Instr)), faults i 1) ∧
    (x.type < 0x12 → 6 ≤ x.type → ∀ i ∈ ([.vaShl, .vaShr, .vaSar] : List (Vm → Instr)), faults i 2) ∧
    (x.type ∈ [0x06, 0x07, 0x0C, 0x0D, 0x0E, 0x0F, 0x10, 0x11, 0x13, 0x14] → ∀ i ∈ ([.vaAdd, .vaSub, .vaMul, .vaFma, .vaFms, .vaMin, .vaMax, .vaAbs, .vaNeg, .vaCmpeq, .vaCmplt, .vaCmple, .vaSel,
      .vaScale, .vaQuant, .vaDequant, .vaAmax, .vaRsum, .vaRmax, .vaRmin, .vaBcast, .vaPerm, .vaZip, .vaUnzip, .vaSlide, .vaPack, .vaUnpackLo, .vaUnpackHi, .vaClamp, .vaRound] : List (Vm → Instr)), faults i 2) ∧
    (x.type ∈ [0x09, 0x0A, 0x0B] → x.otype = 0x12 ∨ 0x15 ≤ x.otype ∨ x.otype = 0x06 → ∀ i ∈ ([.vaCvt, .vaQuant, .vaDequant, .vaPack, .vaUnpackLo, .vaUnpackHi] : List (Vm → Instr)), faults i 3) ∧
    (x.type = 0x09 → x.otype ∈ [0x00, 0x0C, 0x0D] → ∀ i ∈ ([.vaPack, .vaUnpackLo, .vaUnpackHi] : List (Vm → Instr)), faults i 3))

/-- The special functions on bus 5: the type must be FP32, BF16 or FP16, else ILLEGAL_MODE; `rcp`, `sqrt` and `div` deliver the exact value rounded once,
the others their special and exact cases or an approximation; results fall due after 8 or 12 bundles. Special operands of Table 12.3: a NaN gives the
canonical NaN without a flag; a logarithm of zero is -∞ with DZ, the reciprocal root of zero an infinity of its sign with DZ; a logarithm or
reciprocal root of a negative value and the sine of an infinity are NaN with NV; exp of zero is 1, tanh of ±∞ is ±1. The model’s own readings in it:
log entry 9. -/
def Obligations.SpecialFunctions : Prop :=
  (∀ p ∈ ([(.sfExp, 8, sfApprox 0x300), (.sfExp2, 8, sfApprox 0x301), (.sfLn, 8, sfApprox 0x302), (.sfLog2, 8, sfApprox 0x303),
      (.sfRcp, 8, sfExactOp fun _ b => (Machine.Num.ofInt 1).div b), (.sfRsqrt, 8, sfApprox 0x305), (.sfSqrt, 8, sfExactOp fun _ b => sqrtNum b),
      (.sfDiv, 8, sfExactOp fun a b => a.div b), (.sfSin, 12, sfApprox 0x308), (.sfCos, 12, sfApprox 0x309), (.sfTanh, 12, sfApprox 0x30A),
      (.sfSigmoid, 12, sfApprox 0x30B), (.sfGelu, 12, sfApprox 0x30C), (.sfSilu, 12, sfApprox 0x30D), (.sfErf, 12, sfApprox 0x30E),
      (.sfSoftplus, 12, sfApprox 0x30F)] : List ((Vm → Instr) × Nat × (VArgs → Nat × Word))),
    ∀ (m : Vm) (s t : State) (v : Val), m.bus = 5 → Reads s m.bus m.src false v t → Present t [32, 33] →
      let mode := Mode.of (t.here.arch.config 0x10C)
      let x : VArgs := { mode := mode, unit := 5, count := t.here.arch.count, w := widthBits m.w, a := t.here.arch.latch 0x10B, b := v, c := Val.zero }
      (mode.type ∈ [cFp32, cBf16, cFp16] → exec (p.1 m) s = .next (deliver t s.cur 5 0x0B5 p.2.1 (BitVec.ofNat 1024 (p.2.2 x).1) (p.2.2 x).2)) ∧
      (badCode mode.type = true → exec (p.1 m) s = .next (takeCoreFault s s.cur { code := 0x17, sub := 1, whereAt := 5, addr := 0, detail := 0, aux := 0 })) ∧
      (badCode mode.type = false → mode.type ∉ [cFp32, cBf16, cFp16] →
        exec (p.1 m) s = .next (takeCoreFault s s.cur { code := 0x17, sub := 2, whereAt := 5, addr := 0, detail := 0, aux := 0 }))) ∧
  ((∀ port, sfExactCase port .nan = some ⟨.nan, 0⟩) ∧
  (∀ port ∈ [0x302, 0x303], ∀ z : Ex, z.n = 0 → sfExactCase port (.fin z) = some ⟨.inf true, 0x008⟩) ∧
  (∀ z : Ex, z.n = 0 → sfExactCase 0x305 (.fin z) = some ⟨.inf z.neg, 0x008⟩) ∧
  (∀ port ∈ [0x302, 0x303, 0x305], ∀ z : Ex, z.n ≠ 0 → z.neg = true → sfExactCase port (.fin z) = some ⟨.nan, 0x010⟩) ∧
  (∀ port ∈ [0x308, 0x309], ∀ n, sfExactCase port (.inf n) = some ⟨.nan, 0x010⟩) ∧
  (∀ port ∈ [0x300, 0x301, 0x309], ∀ z : Ex, z.n = 0 → sfExactCase port (.fin z) = some ⟨.ofInt 1, 0⟩) ∧
  ∀ n, sfExactCase 0x30A (.inf n) = some ⟨.ofInt (if n then -1 else 1), 0⟩)

/-- What a trigger of SA, SB, VA, VB, VC or SF leaves: on a running core with a readable source and PRESENT state folios it changes the results due and
nothing else of the core (but the FIFO, where it pops `dx.out`), or it takes a core fault; the rest of the module (but for its gathering's arrival at
a FABRIC barrier, where a fault withdraws it), every byte of memory and every other core stay. The model’s own readings in it: log entry 13. -/
def Obligations.ArithmeticFrame : Prop :=
  ∀ (i : Instr) (tr : Trigger) (s t u : State) (v : Val) (bus : Fin 8),
    triggerOf i = some tr → tr.port < 0x340 → tr.bus = bus.val → tr.src < 2048 → s.here.run = .running → Reads s bus (BitVec.ofNat 11 tr.src) tr.keep v t → Present t [32, 33] →
      exec i s = .next u →
        SameModule s { u with gaths := s.gaths } ∧ SameMemory s u ∧ SameOthers s u ∧ (u.here.run = .running → u.gaths = s.gaths ∧ t.here.SameButDue u.here) ∧
        (u.here.run ≠ .running → ∃ f, u = takeCoreFault s s.cur f)

/-! ### Memory, marks, handles, tags and sync words -/

/-- The ten loads of Table 12.6 on M0 (bus 6) and M1 (bus 7). Local: the core's own bytes overlaid by its gate, after 6 bundles; loads that a mark or an
observation orders before it are performed first (R127), and its value is fixed at its issue. Peer: a request to the peer, due after 40; the bundle
freezes while one of its folios is absent there, and the folio is pulled there (R20). Handle: a request to the home, due after 96, where the handle is
valid, not stale, grants load and holds the bytes, and, for host memory, the host's ATS answers its frame with the right to read. The checks of R16,
the lowest subcode first: kind, reserved fields, beyond the scratchpad, peer, alignment, a write or atomic to a peer, a peer of another gathering. A
load whose token fails faults ILLEGAL_ADDRESS with it, and rolls back. The model’s own readings in it: log entry 15. -/
def Obligations.LoadsRun : Prop :=
  (∀ p ∈ ([(.mLdv, 128, 0), (.mLdvh, 64, 0), (.mLdvq, 32, 0), (.mLd64, 8, 0), (.mLd32, 4, 32), (.mLd32u, 4, 0), (.mLd16, 2, 16), (.mLd16u, 2, 0),
      (.mLd8, 1, 8), (.mLd8u, 1, 0)] : List ((Mv → Instr) × Nat × Nat)),
    ∀ (m : Mv) (s t : State) (v : Val), 6 ≤ m.bus → Reads s m.bus m.src m.keep v t → Present t [32] →
      let tok := (v.bits.setWidth 64).toNat
      let size := p.2.1
      (tok + size ≤ 0x50000 → tok % size = 0 → Present t (spadFolios tok size) →
        let u := performBefore t s.cur t.here.epoch
        let k := u.core s.cur
        exec (p.1 m) s = .next (deliver u s.cur m.bus.val (0x0B0 + m.bus.val) 6
          (extendLoad size p.2.2 ((List.range size).map fun i => gateSpad k.gate k.arch.count (tok + i) (k.spad (tok + i)))) 0) ∧
        (loadsBefore t.here t.here.epoch = [] → u = t)) ∧
      (∀ peer off, tok = 2 ^ 60 + peer * 2 ^ 56 + off → peer < 12 → off + size ≤ 0x50000 → off % size = 0 → sameGathering t s.cur (s.cur / 12 * 12 + peer) = true →
        let e := s.cur / 12 * 12 + peer
        ((∀ f ∈ spadFolios off size, ((t.core e).folio f).pres = .present) →
          ∃ u, exec (p.1 m) s = .next u ∧ SameModule s u ∧ SameOthers s u ∧ u.fresh = s.fresh + 1 ∧ t.here.SameButDue u.here ∧
            u.here.arch.due = t.here.arch.due ++ [lateEntry t.here (s.fresh + 1) m.bus.val 40 (.peer e off size p.2.2) 0]) ∧
        ∀ f, (spadFolios off size).find? (fun f => ((t.core e).folio f).pres != .present) = some f →
          exec (p.1 m) s = .next (takeFreeze s s.cur .peer (141 * e + f) m.bus.val)) ∧
      ∀ n off, tok = 2 ^ 61 + n * 2 ^ 48 + off → n < 32 → off < 2 ^ 40 → off % size = 0 →
        (t.here.arch.handle n).valid = true → (t.here.arch.handle n).stale = false → (t.here.arch.handle n).ld = true → off + size ≤ (t.here.arch.handle n).bytes →
        handleAts t s.cur (t.here.arch.handle n) off 63 false = none →
          ∃ u, exec (p.1 m) s = .next u ∧ SameModule s u ∧ SameOthers s u ∧ u.fresh = s.fresh + 1 ∧ u.here.arch.s = t.here.arch.s ∧ u.here.arch.v = t.here.arch.v ∧
            (∀ h, u.here.arch.handle h = t.here.arch.handle h) ∧ u.here.gate = t.here.gate ∧ u.here.scratch = t.here.scratch ∧
            u.here.arch.due = t.here.arch.due ++ [lateEntry t.here (s.fresh + 1) m.bus.val 96 (.load (t.handlePlace t.here.member.pasid (t.here.arch.handle n) off) size p.2.2) ((t.here.arch.handle n).pageOf off)]) ∧
  ((∀ s c (t : Word) size write, tokenFault s c t size write =
    if 3 ≤ t.toNat / 2 ^ 60 then some 1
    else if t.toNat / 2 ^ 53 % 8 ≠ 0 ∨ t.toNat / 2 ^ 40 % 2 ^ 8 ≠ 0 ∨ (t.toNat / 2 ^ 60 ≠ 1 ∧ t.toNat / 2 ^ 56 % 16 ≠ 0) ∨ (t.toNat / 2 ^ 60 ≠ 2 ∧ t.toNat / 2 ^ 48 % 32 ≠ 0) then some 2
    else if t.toNat / 2 ^ 60 ≤ 1 ∧ 0x50000 < t.toNat % 2 ^ 40 + size then some 3
    else if t.toNat / 2 ^ 60 = 1 ∧ 12 ≤ t.toNat / 2 ^ 56 % 16 then some 4
    else if t.toNat % 2 ^ 40 % size ≠ 0 then some 5
    else if t.toNat / 2 ^ 60 = 1 ∧ write = true then some 6
    else if t.toNat / 2 ^ 60 = 1 ∧ sameGathering s c (c / 12 * 12 + t.toNat / 2 ^ 56 % 16) = false then some 7
    else none) ∧
  ∀ p ∈ ([(.mLdv, 128), (.mLdvh, 64), (.mLdvq, 32), (.mLd64, 8), (.mLd32, 4), (.mLd32u, 4), (.mLd16, 2), (.mLd16u, 2), (.mLd8, 1), (.mLd8u, 1)] : List ((Mv → Instr) × Nat)),
    ∀ (m : Mv) (s t : State) (v : Val) (n : Nat), 6 ≤ m.bus → Reads s m.bus m.src m.keep v t → Present t [32] → tokenFault t s.cur (v.bits.setWidth 64) p.2 false = some n →
      exec (p.1 m) s = .next (takeCoreFault s s.cur { code := 0x16, sub := n, whereAt := m.bus.val, addr := (v.bits.setWidth 64).toNat, detail := 0, aux := 0 }))

/-- The seven stores go to the token of the bound stream (`.bind` 0 to 7) or to operand A (`.bind` 8), and only append to the store gate: the bytes of B,
lowest first, the place and the issue count. A 49th entry faults REGION_OVERFLOW subcode 1, a `.bind` above 8 ILLEGAL_MODE subcode 12. -/
def Obligations.StoresRun : Prop :=
  ∀ p ∈ ([(.mStv, 128), (.mStvh, 64), (.mStvq, 32), (.mSt64, 8), (.mSt32, 4), (.mSt16, 2), (.mSt8, 1)] : List ((Mv → Instr) × Nat)),
    ∀ (m : Mv) (s t : State) (v : Val) (tok : Nat), 6 ≤ m.bus → Reads s m.bus m.src m.keep v t → Present t [32] →
      let bind := (t.here.arch.config (0x10F + 3 * (m.bus.val - 6))).toNat
      (9 ≤ bind → exec (p.1 m) s = .next (takeCoreFault s s.cur { code := 0x17, sub := 12, whereAt := m.bus.val, addr := 0, detail := 0, aux := 0 })) ∧
      (bind ≤ 8 → tok = (if bind = 8 then (t.here.arch.latch (0x10D + 3 * (m.bus.val - 6))).lo else s.here.arch.token bind).toNat →
        (tok + p.2 ≤ 0x50000 → tok % p.2 = 0 → Present t (spadFolios tok p.2) →
          (t.here.gate.length < 48 → exec (p.1 m) s = .next (t.modCore s.cur fun k => { k with gate := k.gate ++
            [.store { h := none, off := tok, data := leBytes p.2 v.bits.toNat, shadow := none, count := t.here.arch.count }] })) ∧
          (48 ≤ t.here.gate.length → exec (p.1 m) s = .next (takeCoreFault s s.cur { code := 0x07, sub := 1, whereAt := m.bus.val, addr := 0, detail := 0, aux := 0 }))) ∧
        ∀ n off, tok = 2 ^ 61 + n * 2 ^ 48 + off → n < 32 → off < 2 ^ 40 → off % p.2 = 0 → t.here.gate.length < 48 →
          (t.here.arch.handle n).valid = true → (t.here.arch.handle n).stale = false → (t.here.arch.handle n).st = true → (t.here.arch.handle n).cow = false →
          off + p.2 ≤ (t.here.arch.handle n).bytes → handleAts t s.cur (t.here.arch.handle n) off 62 true = none →
            ∃ u, exec (p.1 m) s = .next u ∧ SameModule s u ∧ SameMemory s u ∧ SameOthers s u ∧ u.here.scratch = t.here.scratch ∧ u.here.pub = t.here.pub ∧
              u.here.gate = t.here.gate ++ [.store { h := some n, off := off, data := leBytes p.2 v.bits.toNat, shadow := none, count := t.here.arch.count }])

/-- A mark commits: a gated local store's bytes stand in the scratchpad and no other byte changes, the gate is empty, and the snapshot holds the
registers. Between its mark and the performance of its granule a global store stands in the publish buffer: the bytes of memory are unchanged, but for
the dirty bit of its page's leaf, and the core's own loads see its bytes. (A store within one granule, with an empty buffer and no atomic of the core
due there.) PUBLISH_ENTRY_PERFORM at an event of R125 or a shoot-down over a page of the entry (at any other time it has no effect, R126): the masked
bytes of the entry are written at their granule, every other byte reads as before, and the entry leaves the buffer. The model’s own readings in it:
log entry 16. -/
def Obligations.CommitAndPublish : Prop :=
  (∀ (s : State) (x : Store), needWalks s.here.arch.due = .ok () → s.here.marked = false → s.here.gate = [.store x] → x.h = none →
    ∃ t, markFirst s s.cur = .ok t ∧ t.here.gate = [] ∧ t.here.snap = t.here.arch ∧ t.here.arch = s.here.arch ∧ t.here.marked = true ∧
      (∀ a, t.here.spad a = if x.off ≤ a ∧ a < x.off + x.data.length then x.data.getD (a - x.off) 0 else s.here.spad a) ∧ SameModule s t ∧ SameMemory s t ∧ SameOthers s t) ∧
  (∀ (s : State) (x : Store) (n : Nat), let h := s.here.arch.handle n
    let pasid := s.here.member.pasid
    let q := s.handlePlace pasid h x.off
    needWalks s.here.arch.due = .ok () → s.here.marked = false → s.here.gate = [.store x] → s.here.pub = [] → x.h = some n → x.shadow = none →
    h.valid = true → h.stale = false → h.st = true → h.cow = false → handleAts s s.cur h x.off 62 true = none → dueAtomics s.here (granuleOf q) = [] →
    x.off + x.data.length ≤ h.bytes → 0 < x.data.length → q.addr % 32 + x.data.length ≤ 32 →
      ∃ t, markFirst s s.cur = .ok t ∧ SameMemory (dirtyPage s pasid h) t ∧ t.here.gate = [] ∧ t.here.scratch = s.here.scratch ∧
        ∀ i, i < x.data.length → loadGlobal t s.cur (t.here.arch.count) (q.add i) = x.data.getD i 0) ∧
  (∀ (s : State) (c g : Nat), (mayPublish s c { host := decide (2 ^ 47 ≤ g), addr := 32 * (g % 2 ^ 47) } = false → exec (.publishEntryPerform c g) s = .next s) ∧
    ∀ e : Pub, mayPublish s c e.place = true → (s.core c).pub.filter (fun x => x.place == e.place) = [e] → e.place = { host := decide (2 ^ 47 ≤ g), addr := 32 * (g % 2 ^ 47) } → e.data.rising = true →
    (∀ x ∈ e.data.cells, x.1 < 32) → (2 ^ 47 ≤ g ∨ physMapped (32 * g) = true) →
      ∃ t, exec (.publishEntryPerform c g) s = .next t ∧
        (∀ q : Place, t.byteAt q = if q.host = e.place.host ∧ e.place.addr ≤ q.addr ∧ q.addr < e.place.addr + 32 then
          (e.data.find? (q.addr - e.place.addr)).getD (s.byteAt q) else s.byteAt q) ∧
        (t.core c).pub = (s.core c).pub.filter (fun x => x.place != e.place) ∧ { (t.core c) with pub := (s.core c).pub } = s.core c ∧ ∀ d, d ≠ c → t.core d = s.core d)

/-- LATE_RESULT_ARRIVAL for a load through a handle and a peer load, with no load before it that a mark or an observation orders first (R127): the bytes
at the home at that instant, overlaid by the core's own publish buffer and older gated stores (a peer's bytes are its committed array); nothing else
changes. The model’s own readings in it: log entries 15 and 51. -/
def Obligations.LateLoadArrives : Prop :=
  ∀ (s : State) (c : Nat) (d : Due), (s.core c).arch.due = [d] → d.tag ≠ 0 → loadsBefore (s.core c) d.epoch = [] →
    (∀ p size sx, d.req = .load p size sx → ∃ t, exec (.lateResultArrival c d.tag) s = .next t ∧ SameMemory s t ∧
      (t.core c).arch.due = [{ d with val := some (extendLoad size sx ((List.range size).map fun i => loadGlobal s c d.count (p.add i))), req := .none }] ∧
      (s.core c).arch.SameButDue (t.core c).arch ∧ ∀ e, e ≠ c → t.core e = s.core e) ∧
    ∀ e off size sx, d.req = .peer e off size sx → (∀ f ∈ spadFolios off size, ((s.core e).folio f).pres = .present) →
      ∃ t, exec (.lateResultArrival c d.tag) s = .next t ∧ SameMemory s t ∧
        (t.core c).arch.due = [{ d with val := some (extendLoad size sx ((List.range size).map fun i => (s.core e).spad (off + i))), req := .none }] ∧
        (s.core c).arch.SameButDue (t.core c).arch ∧ ∀ e, e ≠ c → t.core e = s.core e

/-- The local atomics and `ard`, each a mark: the word is changed in this bundle, its old value falls due after 8 bundles, no other byte of the scratchpad
changes, and the snapshot is taken after the bundle. An atomic or `ard` through a handle is performed when it arrives: the old word is its result;
`aadd` adds, `axchg` exchanges, `acas` stores on equality, `aand` and `aor` combine, the minimum and maximum are signed, `ard` writes nothing; no
other byte changes. (No job's `expected` word, whose home is the command processor, R340, and no earlier atomic of the core still due at the granule,
R143.) The model’s own readings in it: log entry 15. -/
def Obligations.AtomicsPerform : Prop :=
  (∀ q ∈ ([(.mAadd, 0x35C), (.mAmax, 0x35D), (.mAmaxf, 0x35E), (.mAmin, 0x35F), (.mAxchg, 0x360), (.mAcas, 0x361), (.mAand, 0x362), (.mAor, 0x363), (.mArd, 0x366)] :
      List ((Mv → Instr) × Nat)),
    ∀ (m : Mv) (s t u : State) (v : Val), 6 ≤ m.bus → markFirst s s.cur = .ok t → Reads t m.bus m.src m.keep v u → Present u [32] →
      let a := (u.here.arch.latch (0x10D + 3 * (m.bus.val - 6))).lo
      let c := (u.here.arch.latch (0x10E + 3 * (m.bus.val - 6))).bits
      let size := if q.2 = 0x35E ∨ c.getLsbD 64 then 4 else 8
      let off := (if q.2 = 0x366 then v.bits.setWidth 64 else a).toNat
      let old := ofLeBytes (u.here.spadRead off size)
      off + size ≤ 0x50000 → off % size = 0 → Present u (spadFolios off size) →
        ∃ w, exec (q.1 m) s = .next w ∧
          (q.2 ≠ 0x366 → w.here.spadRead off size = leBytes size (atomicNew q.2 size old (v.bits.setWidth 64).toNat (c.setWidth 64).toNat)) ∧
          (q.2 = 0x366 ∨ (q.2 = 0x361 ∧ old ≠ (c.setWidth 64).toNat % 2 ^ (8 * size)) → w.here.scratch = u.here.scratch) ∧ (∀ x, x < off ∨ off + size ≤ x → w.here.spad x = u.here.spad x) ∧
          w.here.arch = { u.here.arch with due := u.here.arch.due ++ [knownDue u.here.arch m.bus.val (0x0B0 + m.bus.val) 8 (BitVec.ofNat 1024 old) 0] } ∧
          w.here.snap = w.here.arch ∧ w.here.marked = false ∧ SameModule t w ∧ SameOthers t w) ∧
  (∀ q ∈ ([(0x35C, fun old b _ => old + b), (0x35D, fun old b _ => if old.toInt < b.toInt then b else old), (0x35F, fun old b _ => if b.toInt < old.toInt then b else old),
      (0x360, fun _ b _ => b), (0x361, fun old b cmp => if old = cmp then b else old), (0x362, fun old b _ => old &&& b), (0x363, fun old b _ => old ||| b),
      (0x366, fun old _ _ => old)] : List (Nat × (Word → Word → Word → Word))),
    ∀ (s : State) (c : Nat) (d : Due) (p : Place) (b cmp : Word), (s.core c).arch.due = [d] → dueAtomics (s.core c) (granuleOf p) = [d] → d.tag ≠ 0 → (s.core c).pub = [] → s.jobs = [] → d.req = .atomic p q.1 8 b cmp →
      (p.host = true ∨ physMapped p.addr = true) → p.addr % 8 = 0 →
        ∃ t, exec (.lateResultArrival c d.tag) s = .next t ∧ t.read64 p = q.2 (s.read64 p) b cmp ∧
          (t.core c).arch.due = [{ d with val := some ((s.read64 p).setWidth 1024), req := .none }] ∧
          (∀ x : Place, x.host ≠ p.host ∨ x.addr < p.addr ∨ p.addr + 8 ≤ x.addr → t.byteAt x = s.byteAt x) ∧ ∀ e, e ≠ c → t.core e = s.core e)

/-- The marks that wait: `swwait` passes when its word's generation has reached B[15:0] and else freezes; `jwait` passes when (j − B) as a signed 32-bit
number is ≥ 0; `phase` passes when its barrier has completed, arrives at it otherwise, and faults ILLEGAL_MODE subcode 9 for a scope of 0 or 5 to 7;
`cu.halt` halts with B[31:0]. -/
def Obligations.WaitsRun : Prop :=
  ∀ (m : Mv) (s t u : State) (v : Val), markFirst s s.cur = .ok t → Reads t m.bus m.src m.keep v u → Present u [32] →
    let done := fun (k : Core) => { k with marked := false, freeze := .none, waitVa := none }
    let off := (u.here.arch.latch (0x10D + 3 * (m.bus.val - 6))).lo.toNat % 2 ^ 19
    let j := u.here.join ((u.here.arch.latch (0x10D + 3 * (m.bus.val - 6))).lo.toNat % 16)
    let scope := (v.bits.setWidth 64).toNat % 8
    (6 ≤ m.bus → off < 0x50000 → off % 16 = 0 → Present u (spadFolios off 16) →
      ((BitVec.ofNat 16 (u.here.syncWord off).gen - v.bits.setWidth 16).toNat < 2 ^ 15 → exec (.mSwwait m) s = .next (u.modCore s.cur done)) ∧
      (2 ^ 15 ≤ (BitVec.ofNat 16 (u.here.syncWord off).gen - v.bits.setWidth 16).toNat →
        ∃ w, exec (.mSwwait m) s = .next w ∧ w.here.freeze = .swwait ∧ w.here.arch = t.here.arch ∧ w.here.marked = t.here.marked)) ∧
    (6 ≤ m.bus → (0 ≤ (j - v.bits.setWidth 32).toInt → exec (.mJwait m) s = .next (u.modCore s.cur done)) ∧
      ((j - v.bits.setWidth 32).toInt < 0 → ∃ w, exec (.mJwait m) s = .next w ∧ w.here.freeze = .jwait ∧ w.here.arch = t.here.arch ∧ w.here.marked = t.here.marked)) ∧
    (6 ≤ m.bus → (scope = 0 ∨ 4 < scope → exec (.mPhase m) s = .next (takeCoreFault s s.cur { code := 0x17, sub := 9, whereAt := m.bus.val, addr := 0, detail := 0, aux := 0 })) ∧
      (1 ≤ scope → scope ≤ 4 → u.here.phaseDone = true → exec (.mPhase m) s = .next ((performAll u s.cur).modCore s.cur done)) ∧
      (1 ≤ scope → scope ≤ 4 → u.here.phaseDone = false → ∃ w, exec (.mPhase m) s = .next w ∧ w.here.freeze = .phase ∧ w.here.arrived = some scope ∧ w.here.pub = [] ∧ w.here.arch = t.here.arch)) ∧
    (m.bus = 0 → u.here.arch.due = [] → exec (.cuHalt m) s = .next (u.modCore s.cur fun k => done { k with run := .halted, exit := v.bits.setWidth 32 }))

/-- `xlt` asks for the walk of B's page and leaves its handle alone until the result falls due after 24 bundles; `hrel` clears `valid` of the handle that
B names, as a token or by its low bits, and gated stores through it keep what it named; `jset` and `xfence` append to the gate. XLT_WALK_COMPLETE: a
walk that finds a leaf gives the token of handle and page offset and the handle that the result installs when it falls due; one that fails gives the
fault that the due bundle raises. The model’s own readings in it: log entry 16. -/
def Obligations.HandlesAndWalks : Prop :=
  (∀ (m : Mv) (s t : State) (v : Val), 6 ≤ m.bus → Reads s m.bus m.src m.keep v t → Present t [32] →
    let a := (t.here.arch.latch (0x10D + 3 * (m.bus.val - 6))).lo
    let b : Word := v.bits.setWidth 64
    let n := if b.toNat / 2 ^ 60 = 2 then b.toNat / 2 ^ 48 % 32 else b.toNat % 32
    (∃ u, exec (.mXlt m) s = .next u ∧ SameModule s u ∧ SameOthers s u ∧ u.fresh = s.fresh + 1 ∧ t.here.SameButDue u.here ∧
      u.here.arch.due = t.here.arch.due ++ [lateEntry t.here (s.fresh + 1) m.bus.val 24 (.xlt b (a.toNat % 32)) 0]) ∧
    ((t.here.arch.handle n).valid = false → exec (.mHrel m) s = .next t) ∧
    ((t.here.arch.handle n).valid = true → ∃ u, exec (.mHrel m) s = .next u ∧ SameModule s u ∧ SameMemory s u ∧ SameOthers s u ∧
      u.here.arch.handle n = { (t.here.arch.handle n) with valid := false } ∧ (∀ h, h ≠ n → u.here.arch.handle h = t.here.arch.handle h) ∧
      u.here.gate = shadowGate n (t.here.arch.handle n) t.here.gate) ∧
    (t.here.gate.length < 48 → exec (.mJset m) s = .next (t.modCore s.cur fun k => { k with gate := k.gate ++ [.jset (a.toNat % 16) (v.bits.setWidth 32)] })) ∧
    (t.here.gate.length < 48 → b.toNat % 8 = 0 → exec (.mXfence m) s = .next (t.modCore s.cur fun k => { k with gate := k.gate ++ [.xfence] })) ∧
    (b.toNat % 8 ≠ 0 → exec (.mXfence m) s = .next (takeCoreFault s s.cur { code := 0x17, sub := 10, whereAt := m.bus.val, addr := 0, detail := 0, aux := 0 }))) ∧
  (∀ (s : State) (c : Nat) (d : Due) (va : Word) (h : Nat), (s.core c).arch.due = [d] → d.tag ≠ 0 → d.req = .xlt va h →
    (∀ u e, walk s (memUnit (c / 96)) (s.core c).member.pasid va.toNat false = .ok (u, e) →
      ∃ t, exec (.xltWalkComplete c d.tag) s = .next t ∧ (t.core c).arch.due = [{ d with
        val := some (BitVec.ofNat 1024 (2 * 2 ^ 60 + h * 2 ^ 48 + va.toNat % pageBytes (leafSize e))), req := .none, inst := some (h, handleOf e va.toNat) }] ∧
        (s.core c).arch.SameButDue (t.core c).arch) ∧
    ∀ code sub, walk s (memUnit (c / 96)) (s.core c).member.pasid va.toNat false = .error (.fault code sub) →
      ∃ t, exec (.xltWalkComplete c d.tag) s = .next t ∧ SameMemory s t ∧
        (t.core c).arch.due = [{ d with req := .none, bad := some { code := code, sub := sub, whereAt := d.bus, addr := va.toNat, detail := 0, aux := 0 } }])

/-- `tdel` with C[2] = 0 clears valid in the way that matches key B and size code C[1:0], and has no effect if no way matches; a size code of 3 with C[2]
= 0 faults ILLEGAL_MODE subcode 8, as in `tlook` and `tins`; with C[2] = 1 it clears valid in slot B[9:0] and C[1:0] is ignored; a deleted way keeps
its age. -/
def Obligations.TagDelete : Prop :=
  ∀ (m : Mv) (s t : State) (v : Val), 6 ≤ m.bus → Reads s m.bus m.src m.keep v t → Present t [32, 60, 61] →
    let c := (t.here.arch.latch (0x10E + 3 * (m.bus.val - 6))).bits
    let b : Word := v.bits.setWidth 64
    let z := c.toNat % 4
    let gone := fun (n : Nat) (u : State) =>
      tagValid (u.here.arch.tag n) = false ∧ tagAge (u.here.arch.tag n) = tagAge (t.here.arch.tag n) ∧ (∀ k, k ≠ n → u.here.arch.tag k = t.here.arch.tag k) ∧
        { u.here.arch with tags := t.here.arch.tags } = t.here.arch ∧ { u.here with arch := t.here.arch, folios := t.here.folios } = t.here ∧ SameModule s u ∧ SameOthers s u
    (c.getLsbD 2 = true → ∃ u, exec (.mTdel m) s = .next u ∧ gone (b.toNat % 1024) u) ∧
    (c.getLsbD 2 = false → z ≠ 3 → ∀ w, t.here.arch.tagFind b.toNat z = some w → ∃ u, exec (.mTdel m) s = .next u ∧ gone (tagSet b.toNat z * 8 + w) u) ∧
    (c.getLsbD 2 = false → z ≠ 3 → t.here.arch.tagFind b.toNat z = none → ∃ u, exec (.mTdel m) s = .next u ∧ u.here.arch = t.here.arch ∧
      { u.here with folios := t.here.folios } = t.here ∧ SameModule s u ∧ SameOthers s u) ∧
    (z = 3 → (c.getLsbD 2 = false → exec (.mTdel m) s = .next (takeCoreFault s s.cur { code := 0x17, sub := 8, whereAt := m.bus.val, addr := 0, detail := 0, aux := 0 })) ∧
      exec (.mTlook m) s = .next (takeCoreFault s s.cur { code := 0x17, sub := 8, whereAt := m.bus.val, addr := 0, detail := 0, aux := 0 }) ∧
      exec (.mTins m) s = .next (takeCoreFault s s.cur { code := 0x17, sub := 8, whereAt := m.bus.val, addr := 0, detail := 0, aux := 0 }))

/-- `tlook` delivers the lookup word after 3 bundles: the slot of the way that holds the key, made youngest, or the miss word: bit 63, bit 62 where the
suggested victim is valid, and the slot of the lowest invalid way, else of the way with age 7. Making a way youngest gives it age 0 and adds 1 to
every lower age of its set; a miss changes no age. `tins` installs a key in way A[2:0] of its set; a lookup of that key then hits there. Neither
`tins` nor `tdel` freezes: on a tag folio that is not PRESENT the operation waits for it, and acts as its bytes come. The model’s own readings in it:
log entry 55. -/
def Obligations.TagLookup : Prop :=
  (∀ (m : Mv) (s t : State) (v : Val), 6 ≤ m.bus → Reads s m.bus m.src m.keep v t → Present t [32, 60, 61] →
    let z := (t.here.arch.latch (0x10E + 3 * (m.bus.val - 6))).bits.toNat % 4
    let key := (v.bits.setWidth 64).toNat
    z ≠ 3 →
      (∃ u, exec (.mTlook m) s = .next u ∧ SameModule s u ∧ SameOthers s u ∧ u.here.arch.tags = (t.here.arch.tagLook key z).1.tags ∧
        u.here.arch.due = t.here.arch.due ++ [knownDue t.here.arch m.bus.val (0x0B0 + m.bus.val) 3 ((t.here.arch.tagLook key z).2.setWidth 1024) 0]) ∧
      ∃ u, exec (.mTins m) s = .next u ∧ SameModule s u ∧ SameOthers s u ∧
        u.here.arch = t.here.arch.tagInstall key z ((t.here.arch.latch (0x10D + 3 * (m.bus.val - 6))).lo.toNat % 8)) ∧
  (∀ (m : Mv) (s t : State) (v : Val), 6 ≤ m.bus → Reads s m.bus m.src m.keep v t → Present t [32] →
    let c := (t.here.arch.latch (0x10E + 3 * (m.bus.val - 6))).bits
    let b : Word := v.bits.setWidth 64
    let waits := fun (i : Instr) (o : TagOp) => (t.here.folio o.folio).pres ≠ .present →
      ∃ u, exec i s = .next u ∧ SameModule s u ∧ SameOthers s u ∧ u.here = { t.here with arch := { t.here.arch with tagOps := t.here.arch.tagOps ++ [o] } }
    (c.toNat % 4 ≠ 3 → waits (.mTins m) (.install b.toNat (c.toNat % 4) ((t.here.arch.latch (0x10D + 3 * (m.bus.val - 6))).lo.toNat % 8))) ∧
    (c.getLsbD 2 = true → waits (.mTdel m) (.clear (b.toNat % 1024))) ∧ (c.getLsbD 2 = false → c.toNat % 4 ≠ 3 → waits (.mTdel m) (.delete b.toNat (c.toNat % 4)))) ∧
  (∀ (a : Arch) (d : Tab Word) (f : Nat) (o : TagOp), a.tagOps = [o] → o.folio = f →
    (a.install f (.tags d)).tagOps = [] ∧ (a.install f (.tags d)).tags = (TagOp.apply { a with tags := tabReplace a.tags (512 * (f - 60)) (512 * (f - 60) + 512) d, tagOps := [] } o).tags) ∧
  (∀ (a : Arch) (key z w : Nat), key < 2 ^ 64 → z < 3 → a.tagFind key z = some w →
    let b := (a.tagLook key z).1
    let slot := fun k => tagSet key z * 8 + k
    (a.tagLook key z).2 = BitVec.ofNat 64 (slot w) ∧ tagAge (b.tag (slot w)) = 0 ∧
    (∀ k, k < 8 → k ≠ w → tagAge (b.tag (slot k)) = if tagAge (a.tag (slot k)) < tagAge (a.tag (slot w)) then tagAge (a.tag (slot k)) + 1 else tagAge (a.tag (slot k))) ∧
    (∀ k, k < 8 → (b.tag (slot k)) ||| 0x70 = (a.tag (slot k)) ||| 0x70) ∧ (∀ n, n / 8 ≠ tagSet key z → b.tag n = a.tag n) ∧ { b with tags := a.tags } = a) ∧
  (∀ (a : Arch) (key z w : Nat), key < 2 ^ 64 → z < 3 → a.tagFind key z = none → w < 8 →
    let slot := fun k => tagSet key z * 8 + k
    (a.tagLook key z).1 = a ∧
    (tagValid (a.tag (slot w)) = false → (∀ k, k < w → tagValid (a.tag (slot k)) = true) → (a.tagLook key z).2 = BitVec.ofNat 64 (2 ^ 63 + slot w)) ∧
    ((∀ k, k < 8 → tagValid (a.tag (slot k)) = true) → tagAge (a.tag (slot w)) = 7 → (∀ k, k < w → tagAge (a.tag (slot k)) ≠ 7) →
      (a.tagLook key z).2 = BitVec.ofNat 64 (2 ^ 63 + 2 ^ 62 + slot w))) ∧
  ∀ (a : Arch) (key z way : Nat), key < 2 ^ 64 → z < 3 → way < 8 → a.tagFind key z = none →
    ((a.tagInstall key z way).tagLook key z).2 = BitVec.ofNat 64 (tagSet key z * 8 + way) ∧ tagAge ((a.tagInstall key z way).tag (tagSet key z * 8 + way)) = 0

/-- The sync-word operations name their word by A[18:0]: an offset at or above 0x5_0000 faults ILLEGAL_ADDRESS subcode 3 and one that is no multiple of 16
subcode 5, before any effect; else `swpost` and `swadd` append to the gate and `swrd` delivers the word, with the core's own gated posts, after 6
bundles. A committed `swpost` clears the count and ERR and OVR where B asks, takes the target and ONESHOT, and matches (R84); an arrival adds its
bytes, saturating at 2^32 − 1 with OVR; a ONESHOT word that is met advances one generation and clears count and target, with OVR where the count
passed the target; a repeating word advances one generation for each whole target and keeps the remainder. A mark commits a gated `swpost` so. The
model’s own readings in it: log entries 17 and 51. -/
def Obligations.SyncWordsRun : Prop :=
  (∀ (m : Mv) (s t : State) (v : Val), 6 ≤ m.bus → Reads s m.bus m.src m.keep v t → Present t [32] →
    let a := (t.here.arch.latch (0x10D + 3 * (m.bus.val - 6))).lo
    let off := a.toNat % 2 ^ 19
    (0x50000 ≤ off → ∀ f ∈ ([.mSwpost, .mSwadd, .mSwrd] : List (Mv → Instr)),
      exec (f m) s = .next (takeCoreFault s s.cur { code := 0x16, sub := 3, whereAt := m.bus.val, addr := a.toNat, detail := 0, aux := 0 })) ∧
    (off < 0x50000 → off % 16 ≠ 0 → ∀ f ∈ ([.mSwpost, .mSwadd, .mSwrd] : List (Mv → Instr)),
      exec (f m) s = .next (takeCoreFault s s.cur { code := 0x16, sub := 5, whereAt := m.bus.val, addr := a.toNat, detail := 0, aux := 0 })) ∧
    (off < 0x50000 → off % 16 = 0 →
      (t.here.gate.length < 48 → exec (.mSwpost m) s = .next (t.modCore s.cur fun k => { k with gate := k.gate ++ [.swpost off (v.bits.setWidth 64)] }) ∧
        exec (.mSwadd m) s = .next (t.modCore s.cur fun k => { k with gate := k.gate ++ [.swadd off (v.bits.setWidth 32).toNat] })) ∧
      (Present t (spadFolios off 16) → loadsBefore t.here t.here.epoch = [] →
        exec (.mSwrd m) s = .next (deliver t s.cur m.bus.val (0x0B0 + m.bus.val) 6 ((gatedWord off t.here.gate (t.here.syncWord off)).read.setWidth 1024) 0)))) ∧
  (∀ (w : SyncWord) (b : Word) (n : Nat), w.gen < 2 ^ 16 → w.count < 2 ^ 32 →
    (w.count + n < 2 ^ 32 → (w.add n).ovr = (w.ovr || w.oneshot && decide (w.target ≠ 0) && decide (w.target < w.count + n)) ∧ (w.add n).err = w.err ∧
      ((w.target = 0 ∨ w.count + n < w.target) → (w.add n).count = w.count + n ∧ (w.add n).gen = w.gen ∧ (w.add n).target = w.target) ∧
      (0 < w.target → w.target ≤ w.count + n → w.oneshot = true → (w.add n).gen = (w.gen + 1) % 2 ^ 16 ∧ (w.add n).count = 0 ∧ (w.add n).target = 0) ∧
      (0 < w.target → w.target ≤ w.count + n → w.oneshot = false → (w.add n).gen = (w.gen + (w.count + n) / w.target) % 2 ^ 16 ∧ (w.add n).count = (w.count + n) % w.target ∧
        (w.add n).target = w.target)) ∧
    (2 ^ 32 ≤ w.count + n → w.target < 2 ^ 32 → (w.add n).ovr = true ∧ (w.add n).err = w.err ∧
      (w.target = 0 → (w.add n).count = 2 ^ 32 - 1 ∧ (w.add n).gen = w.gen ∧ (w.add n).target = 0) ∧
      (0 < w.target → w.oneshot = true → (w.add n).gen = (w.gen + 1) % 2 ^ 16 ∧ (w.add n).count = 0 ∧ (w.add n).target = 0) ∧
      (0 < w.target → w.oneshot = false → (w.add n).gen = (w.gen + (2 ^ 32 - 1) / w.target) % 2 ^ 16 ∧ (w.add n).count = (2 ^ 32 - 1) % w.target ∧ (w.add n).target = w.target)) ∧
    (let count := if b.getLsbD 34 then 0 else w.count
     let err := w.err && !b.getLsbD 33
     let ovr := w.ovr && !b.getLsbD 33
     let target := b.toNat % 2 ^ 32
     let posted : SyncWord := { w with count := count, err := err, ovr := ovr, target := target, oneshot := b.getLsbD 32 }
     (target = 0 ∨ count < target → w.post b = posted) ∧
     (0 < target → target ≤ count → b.getLsbD 32 = true → w.post b = { posted with gen := (w.gen + 1) % 2 ^ 16, count := 0, target := 0, ovr := ovr || decide (target < count) }) ∧
     (0 < target → target ≤ count → b.getLsbD 32 = false → w.post b = { posted with gen := (w.gen + count / target) % 2 ^ 16, count := count % target })) ∧
    ∀ (s : State) (off : Nat), needWalks s.here.arch.due = .ok () → s.here.marked = false → s.here.gate = [.swpost off b] → off < 0x50000 → off % 16 = 0 → Present s (spadFolios off 16) →
      ∃ t, markFirst s s.cur = .ok t ∧ t.here.gate = [] ∧ t.here.syncWord off = (s.here.syncWord off).post b ∧ (∀ x, x < off ∨ off + 16 ≤ x → t.here.spad x = s.here.spad x) ∧
        SameModule s t ∧ SameMemory s t ∧ SameOthers s t)

/-! ### Engines -/

/-- An engine trigger with a place in its queue only appends its operation to the gate, with the configuration ports as they stand: the ME with the join
counter of `me.j`, the CE of `ce.j`, the transform units of operand B, BK none; a ME operation whose tile the shape lacks faults TILE_UNCONFIGURED,
`td.blk` with another otype ILLEGAL_MODE subcode 14. The model’s own readings in it: log entry 13. -/
def Obligations.EngineTriggers : Prop :=
  ∀ p ∈ ([(.meMm, 0x380, 1), (.meMmz, 0x381, 1), (.meMmt, 0x382, 1), (.meMmq, 0x383, 1), (.meKlatch, 0x384, 1), (.meTzero, 0x385, 1), (.meTload, 0x38B, 1),
      (.meTstore, 0x38C, 1), (.meTcvt, 0x38D, 1), (.meTadd, 0x38E, 1), (.meTscale, 0x38F, 1), (.meTamax, 0x390, 1),
      (.ceCopy, 0x3A0, 2), (.ceGather, 0x3A1, 2), (.ceScatter, 0x3A2, 2), (.ceTget, 0x3A3, 2), (.ceTsend, 0x3A4, 2), (.ceFill, 0x3A5, 2), (.ceMcast, 0x3A6, 2),
      (.ceSfill, 0x3A7, 2), (.ceDfill, 0x3A8, 2), (.ceCput, 0x3A9, 2), (.ceCancel, 0x3AA, 2), (.dxOpen, 0x3B0, 14), (.dxClose, 0x3B1, 0), (.fcEnc, 0x3B2, 38),
      (.fcDec, 0x3B3, 38), (.tdBlk, 0x3B5, 19), (.veRun, 0x3B6, 38), (.veStat, 0x3B7, 19), (.bkGo, 0x3C0, 0), (.bkStop, 0x3C1, 0)] : List ((Mv → Instr) × Nat × Nat)),
    ∀ (m : Mv) (s t : State) (v : Val), Reads s m.bus m.src m.keep v t → Present t [32] →
      let a := t.here.arch
      let b : Word := v.bits.setWidth 64
      let j := (if p.2.2 = 0 then 0 else if p.2.2 = 1 then (a.config 0x12B).toNat else if p.2.2 = 2 then (a.config 0x125).toNat else b.toNat / 2 ^ p.2.2) % 16
      let tile := tileFault t.here.shape p.2.1 ((a.config 0x12C).toNat % 64) (b.toNat % 64)
      let otype := (a.config 0x12F).toNat / 2 ^ 16 % 256
      (p.2.2 = 1 → ∀ n, tile = some n → exec (p.1 m) s = .next (takeCoreFault s s.cur { code := 0x20, sub := n, whereAt := m.bus.val, addr := 0, detail := 0, aux := 0 })) ∧
      (p.2.1 = 0x3B5 → otype ∉ [cInt8, cFp32, cBf16, cFp16] →
        exec (p.1 m) s = .next (takeCoreFault s s.cur { code := 0x17, sub := 14, whereAt := m.bus.val, addr := 0, detail := 0, aux := 0 })) ∧
      ((p.2.2 = 1 → tile = none) → (p.2.1 = 0x3B5 → otype ∈ [cInt8, cFp32, cBf16, cFp16]) →
        (takesPlace p.2.1 = true → gatedCount t.here (engineOf p.2.1) + releasedCount t.here (engineOf p.2.1) < queueLimit (engineOf p.2.1)) →
        (t.here.gate.length < 48 → exec (p.1 m) s = .next (t.modCore s.cur fun k => { k with gate := k.gate ++ [.engine
          { id := 0, port := p.2.1, b := b, cfg := a.cfg, j := j, bundle := a.pc.toNat, count := a.count, mv := m.bus.val, shape := k.shape, prog := 0, st := .queued,
            runs := [], failed := [], err := none, waiting := false, moved := [], memo := [], lastRun := none, fetched := [], counted := 0,
            want := [], late := [], block := none }] })) ∧
        (48 ≤ t.here.gate.length → exec (p.1 m) s = .next (takeCoreFault s s.cur { code := 0x07, sub := 1, whereAt := m.bus.val, addr := 0, detail := 0, aux := 0 })))

/-- The direct tile operations act in this bundle: `trow` and `tcol` write the elements of a vector register into row or column `me.r` of tile `me.t`, the
other elements of the tile staying (an undefined tile reads as zero); `trowr` and `tcolr` deliver a row or column to `me.res` after 10 bundles.
`tshape`, a mark: it waits for the ME and for the tile folios, faults ILLEGAL_MODE subcode 15 for D16F before full service, and else sets the shape
and leaves every tile undefined; `td.win` decodes B[11:0] under `td.cfg` to `td.res` after 6 bundles, and faults ILLEGAL_MODE subcode 14 for another
otype. The model’s own readings in it: log entry 19. -/
def Obligations.TilesAndWindows : Prop :=
  (∀ (m : Mv) (s t : State) (v : Val) (shape tile r : Nat), Reads s m.bus m.src m.keep v t → Present t [32, 34, 35, tileFolio shape tile] →
    shape = t.here.shape → shape < 4 → tile = (t.here.arch.config 0x12C).toNat % 64 → r = (t.here.arch.config 0x12D).toNat % 32 → tile < tileCount shape → r < tileDim shape →
    (∀ o ∈ t.here.ops, o.isMe = true → tile ∉ o.tiles) →
      let w := 8 * tileElem shape
      let x := (t.here.arch.v.get 0 ((v.bits.setWidth 64).toNat % 64)).toNat
      (∃ u, exec (.meTrow m) s = .next u ∧ SameModule s u ∧ SameOthers s u ∧ u.here.arch = t.here.arch ∧ u.here.tileDefined tile = true ∧
        ∀ i j, i < tileDim shape → j < tileDim shape → u.here.tileGet shape tile i j = if i = r then x / 2 ^ (w * j) % 2 ^ w else t.here.tileGet shape tile i j) ∧
      (∃ u, exec (.meTcol m) s = .next u ∧ SameModule s u ∧ SameOthers s u ∧ u.here.arch = t.here.arch ∧ u.here.tileDefined tile = true ∧
        ∀ i j, i < tileDim shape → j < tileDim shape → u.here.tileGet shape tile i j = if j = r then x / 2 ^ (w * i) % 2 ^ w else t.here.tileGet shape tile i j) ∧
      exec (.meTrowr m) s = .next (deliver t s.cur m.bus.val 0x0B9 10
        (BitVec.ofNat 1024 (packLanes w ((List.range (tileDim shape)).map fun j => t.here.tileGet shape tile r j))) 0) ∧
      exec (.meTcolr m) s = .next (deliver t s.cur m.bus.val 0x0B9 10
        (BitVec.ofNat 1024 (packLanes w ((List.range (tileDim shape)).map fun i => t.here.tileGet shape tile i r))) 0)) ∧
  ((∀ (m : Mv) (s t u : State) (v : Val), markFirst s s.cur = .ok t → Reads t m.bus m.src m.keep v u → Present u [32] →
    let code := (v.bits.setWidth 64).toNat % 4
    (code = 2 → u.status.getLsbD 63 = false →
      exec (.meTshape m) s = .next (takeCoreFault s s.cur { code := 0x17, sub := 15, whereAt := m.bus.val, addr := 0, detail := 0, aux := 0 })) ∧
    ((code = 2 → u.status.getLsbD 63 = true) → (∀ o ∈ u.here.ops, o.isMe = false) → Present u (upto 36 16) →
      ∃ w, exec (.meTshape m) s = .next w ∧ w.here.shape = code ∧ (∀ i, w.here.tileDefined i = false) ∧ w.here.arch = u.here.arch ∧ w.here.marked = false ∧ SameModule u w ∧ SameOthers u w) ∧
    ((code = 2 → u.status.getLsbD 63 = true) → (∃ o ∈ u.here.ops, o.isMe = true) →
      ∃ w, exec (.meTshape m) s = .next w ∧ w.here.freeze = .queue ∧ w.here.shape = t.here.shape ∧ w.here.arch = t.here.arch)) ∧
  ∀ (m : Mv) (s t : State) (v : Val), Reads s m.bus m.src m.keep v t → Present t [32] →
    let cfg := t.here.arch.config 0x12F
    (cfg.toNat / 2 ^ 16 % 256 ∈ [cInt8, cFp32, cBf16, cFp16] →
      exec (.tdWin m) s = .next (deliver t s.cur m.bus.val 0x0BA 6 (BitVec.ofNat 1024 (tdDecode cfg ((v.bits.setWidth 64).toNat % 4096))) 0)) ∧
    (cfg.toNat / 2 ^ 16 % 256 ∉ [cInt8, cFp32, cBf16, cFp16] →
      exec (.tdWin m) s = .next (takeCoreFault s s.cur { code := 0x17, sub := 14, whereAt := m.bus.val, addr := 0, detail := 0, aux := 0 })))

/-- CE_GRANULE_LAND: a CE operation that may run makes one unit: its progress rises by 1, or it parks with its record in the first free slot of 1 to 23
while the core goes on. No member of an `mcast` has a granule waiting for a folio. A plain copy of up to 256 bytes between two ranges of the issuer's
own scratchpad lands in one granule: the destination holds what the source held, every other byte is as before, memory and registers too.
DX_ENTRY_DELIVER: a full FIFO takes no entry; else the oldest producer's next entry enters behind the others, and its last one counts the join.
ENGINE_OP_COMPLETE: an operation with all its units done counts its join counter by 1, modulo 2^32, and leaves its queue; one that ended on an error
of the CE shows it in `ce.stat`. A parked operation does not complete. ME_FOLLOW_ON: with room in the ME queue and the block's folios PRESENT the
operation the block describes takes its place there, after the copy. The model’s own readings in it: log entry 20. -/
def Obligations.EnginesProgress : Prop :=
  (∀ (s : State) (c id : Nat) (o : Op), s.op c id = some o → isCeTrig o.port = true → o.late = [] → o.taken = [] → mayRun (s.core c) o = true → o.prog < ceUnits s c id o →
    (∀ t, ceUnit s c id o = .ok t → t.op c id = some o → ∃ u, exec (.ceGranuleLand c id) s = .next u ∧ (∃ p, u.op c id = some p ∧ p.prog = o.prog + 1 ∧ p.st = .running) ∧
      (u.core c).arch = (t.core c).arch ∧ SameMemory t u ∧ ∀ d, d ≠ c → u.core d = t.core d) ∧
    ∀ f n, ceUnit s c id o = .error (.fault f) → o.port ≠ 0x3A6 → 1 ≤ n → n ≤ 23 → (s.core c).slot n = none → (∀ i, 1 ≤ i → i < n → (s.core c).slot i ≠ none) →
      ∃ u, exec (.ceGranuleLand c id) s = .next u ∧ (∃ p, u.op c id = some p ∧ p.prog = o.prog ∧ p.st = .parked n) ∧ (∃ r, (u.core c).slot n = some r ∧ r.code = f.code ∧ r.sub = f.sub ∧
        r.port = o.port ∧ r.j = o.j ∧ r.progress = o.prog ∧ r.bundle = o.bundle) ∧ (u.core c).run = (s.core c).run ∧ (u.core c).arch = (s.core c).arch ∧ SameMemory s u) ∧
  (∀ (s : State) (c id : Nat) (o : Op) (a b n : Nat),
    s.op c id = some o → o.port = 0x3A0 → o.b = 0 → o.prog = 0 → o.st = .queued → o.err = none → o.waiting = false → o.late = [] → o.taken = [] → (s.core c).stopping = false → 1 ≤ n → n ≤ 256 → a + n ≤ 0x50000 → b + n ≤ 0x50000 →
    o.port' 0x120 = BitVec.ofNat 64 a → o.port' 0x121 = BitVec.ofNat 64 b → o.port' 0x122 = BitVec.ofNat 64 (n - 1) → o.port' 0x123 = 1 → o.port' 0x126 = 0 →
    (∀ f, ((s.core c).folio f).pres = .present) →
      ∃ t, exec (.ceGranuleLand c id) s = .next t ∧
        (∀ x, (t.core c).spad x = if b ≤ x ∧ x < b + n then (s.core c).spad (a + (x - b)) else (s.core c).spad x) ∧ (∃ p, t.op c id = some p ∧ p.prog = 1) ∧
        (t.core c).arch = (s.core c).arch ∧ SameModule s t ∧ SameMemory s t ∧ ∀ d, d ≠ c → t.core d = s.core d) ∧
  (∀ (s : State) (c id : Nat) (o : Op), s.op c id = some o → isFifoOp o.port = true →
    (16 ≤ (s.core c).fifo.length → exec (.dxEntryDeliver c id) s = .next s) ∧
    ∀ d, o.port = 0x3B5 → mayEnter (s.core c) o = true → o.st = .queued → o.waiting = false → o.counted = 0 → tdEntry s c o = .ok d →
      ∃ t, exec (.dxEntryDeliver c id) s = .next t ∧ (t.core c).fifo = (s.core c).fifo ++ [{ bits := BitVec.ofNat 1024 (ofLeBytes d), op := id }] ∧
        (t.core c).arch = (s.core c).arch ∧ (fifoUnits o ≤ o.prog + 1 → (t.core c).join o.j = (s.core c).join o.j + 1) ∧
        (o.prog + 1 < fifoUnits o → (t.core c).joins = (s.core c).joins) ∧ SameMemory s t ∧ ∀ e, e ≠ c → t.core e = s.core e) ∧
  (∀ (s : State) (c id : Nat) (o : Op), s.op c id = some o → isFifoOp o.port = false → o.port ≠ 0x3A6 → o.late = [] → o.taken = [] → o.runs = [] → (s.timetabled.all fun t => t.op != id) = true →
    (o.st = .running → o.err = none → unitsOf s c id o ≤ o.prog → o.follow = none →
      exec (.engineOpComplete c id) s = .next (s.modCore c fun k => (k.dropOp id).setJoin o.j (k.join o.j + 1))) ∧
    (o.st = .running → isCeTrig o.port = true → ∀ code sub, o.err = some (code, sub) → ∃ t, exec (.engineOpComplete c id) s = .next t ∧
      t.core c = { ((s.core c).dropOp id).setJoin o.j ((s.core c).join o.j + 1) with ceStat := ceStatError (s.core c).ceStat o.j (failMask c o.failed) code sub }) ∧
    ∀ n, o.st = .parked n → unitsOf s c id o ≤ o.prog → exec (.engineOpComplete c id) s = .next s) ∧
  (∀ (s : State) (c id off : Nat) (o : Op), s.op c id = some o → o.follow = some off → o.st = .follow → gatedCount (s.core c) 1 + releasedCount (s.core c) 1 < 2 →
    (s.core c).allPresent (spadFolios off 64) = true → followBad (s.core c) { followOp (s.core c) o off with id := s.fresh } ((s.core c).spad64 off) ((s.core c).spad64 (off + 56)) = false →
      ∃ t, exec (.meFollowOn c id) s = .next t ∧ (t.core c).ops = ((s.core c).dropOp id).ops ++ [{ followOp (s.core c) o off with id := s.fresh }] ∧ t.fresh = s.fresh + 1 ∧
        (t.core c).arch = (s.core c).arch ∧ SameMemory s t ∧ ∀ d, d ≠ c → t.core d = s.core d)

/-- A core fault of any cause takes the core to its last mark: the gate is discarded, the registers of the snapshot return, join counters, scratchpad and
memory stay; the policy core's resume frees slot 0 and lets it issue again, but never after REGION_OVERFLOW, and not without its extension. What the
policy core decides of a parked operation: with its extension loaded it resumes from its recorded progress, or it is canceled and counts its join with
the error of its record; both free the slot. The model’s own readings in it: log entry 44. -/
def Obligations.ParkedAndFaulted : Prop :=
  ((∀ (s : State) (c : Nat) (f : CFault), let t := takeCoreFault s c f
    (t.core c).run = .faulted ∧ (t.core c).arch = (s.core c).snap ∧ (t.core c).snap = (s.core c).snap ∧ (t.core c).gate = [] ∧ (t.core c).popped = [] ∧
      (t.core c).fifo = (s.core c).popped ++ (s.core c).fifo ∧ (t.core c).joins = (s.core c).joins ∧ (t.core c).scratch = (s.core c).scratch ∧ (t.core c).ops = (s.core c).ops ∧
      (∃ r, (t.core c).slot 0 = some r ∧ r.code = f.code ∧ r.sub = f.sub ∧ r.addr = f.addr ∧ r.bundle = (s.core c).arch.pc.toNat ∧ r.count = (s.core c).arch.count ∧
        r.mark = (s.core c).snap.pc.toNat) ∧ SameMemory s t ∧ ∀ d, d ≠ c → t.core d = s.core d) ∧
  ∀ (s : State) (c : Nat) (r : Record), (s.core c).slot 0 = some r → (s.core c).run = .faulted →
    (s.policyLoaded = true → r.code ≠ 0x07 → ∃ t, exec (.coreFaultResume c) s = .next t ∧ (t.core c).run = .running ∧ (t.core c).slot 0 = none ∧ (t.core c).arch = (s.core c).arch ∧
      SameMemory s t ∧ ∀ d, d ≠ c → t.core d = s.core d) ∧
    (s.policyLoaded = false → exec (.coreFaultResume c) s = .next s) ∧ (r.code = 0x07 → exec (.coreFaultResume c) s = .next s)) ∧
  (∀ (s : State) (c n : Nat) (o : Op) (r : Record), opInSlot (s.core c) n = some o → isFifoOp o.port = false → o.port ≠ 0x3A6 → o.late = [] → o.taken = [] → o.joined = false → 1 ≤ n → (s.core c).slot n = some r →
    (s.policyLoaded = true → ∃ t, exec (.engineOpResume c n) s = .next t ∧ (t.core c).slot n = none ∧ (t.core c).op? o.id = some { o with st := .running } ∧ (t.core c).arch = (s.core c).arch ∧
      SameMemory s t) ∧
    (s.policyLoaded = false → exec (.engineOpResume c n) s = .next s) ∧
    ∃ t, exec (.engineOpCancel c n) s = .next t ∧ (t.core c).slot n = none ∧ (t.core c).op? o.id = none ∧ (t.core c).join o.j = (s.core c).join o.j + 1 ∧
      (isCeTrig o.port = true → (t.core c).ceStat = ceStatError (s.core c).ceStat o.j (failMask c o.failed) r.code r.sub) ∧ (t.core c).arch = (s.core c).arch ∧ SameMemory s t)

/-! ### The control unit, the address slot and faults -/

/-- `lp.push` takes count = B[31:0]: with count 0 the loop body is skipped, with six loops it faults LOOP_OVERFLOW, with the end of `cu.lend` before the
next bundle ILLEGAL_MODE subcode 11; `call` pushes the return address and faults CALL_OVERFLOW at depth 8; `jump` goes to B[10:0]; `brk` halts for a
debugger or faults BREAK; `wdog` arms or, with 0, disarms the watchdog. -/
def Obligations.ControlRuns : Prop :=
  ∀ (m : Mv) (s t : State) (v : Val), Reads s m.bus m.src m.keep v t →
    let a := t.here.arch
    let b := (v.bits.setWidth 64).toNat
    let last := a.lend.toNat % 2048
    let fault := fun (code sub : Nat) => takeCoreFault s s.cur { code := code, sub := sub, whereAt := m.bus.val, addr := 0, detail := 0, aux := 0 }
    let goto := fun (n : Nat) => t.modArch s.cur fun a => { a with pc := BitVec.ofNat 11 n }
    (last < a.pc.toNat + 1 → exec (.cuLpPush m) s = .next (fault 0x17 11)) ∧
    (a.pc.toNat + 1 ≤ last → b % 2 ^ 32 = 0 → exec (.cuLpPush m) s = .next (goto (last + 1))) ∧
    (a.pc.toNat + 1 ≤ last → b % 2 ^ 32 ≠ 0 → a.loops.length = 6 → exec (.cuLpPush m) s = .next (fault 0x04 1)) ∧
    (a.pc.toNat + 1 ≤ last → b % 2 ^ 32 ≠ 0 → a.loops.length < 6 → exec (.cuLpPush m) s = .next (t.modArch s.cur fun a =>
      { a with loops := a.loops ++ [{ count := BitVec.ofNat 32 b, idx := 0, start := a.pc + 1, stop := BitVec.ofNat 11 last }] })) ∧
    exec (.cuJump m) s = .next (goto (b % 2048)) ∧
    (a.calls.length < 8 → exec (.cuCall m) s = .next (t.modArch s.cur fun a => { a with calls := (a.pc + 1) :: a.calls, pc := BitVec.ofNat 11 (b % 2048) })) ∧
    (8 ≤ a.calls.length → exec (.cuCall m) s = .next (fault 0x06 1)) ∧
    (t.here.debugger = true → exec (.cuBrk m) s = .next (t.modCore s.cur fun k => { k with debugHalt := true })) ∧
    (t.here.debugger = false → exec (.cuBrk m) s = .next (fault 0x51 (b % 2 ^ 16))) ∧
    (b % 2 ^ 32 ≠ 0 → exec (.cuWdog m) s = .next (t.modCore s.cur fun k => { k with wdog := some (b % 2 ^ 32) })) ∧
    (b % 2 ^ 32 = 0 → exec (.cuWdog m) s = .next (t.modCore s.cur fun k => { k with wdog := none }))

/-- `cu.lp.pop` removes the top entry and ignores B. On an empty stack it faults LOOP_UNDERFLOW subcode 1. A leaf's pop count removes that many entries.
Neither changes the PC. -/
def Obligations.LoopPop : Prop :=
  (∀ (m : Mv) (s t : State) (v : Val), Reads s m.bus m.src m.keep v t →
    (t.here.arch.loops = [] → exec (.cuLpPop m) s = .next (takeCoreFault s s.cur { code := 0x05, sub := 1, whereAt := m.bus.val, addr := 0, detail := 0, aux := 0 })) ∧
    ∀ l top, t.here.arch.loops = l ++ [top] → exec (.cuLpPop m) s = .next (t.modArch s.cur fun a => { a with loops := l })) ∧
  ∀ (s : State) (c n : Nat) (l r : List Loop), (s.core c).arch.loops = l ++ r → r.length = n → leafPops c n s = .ok (s.modArch c fun a => { a with loops := l })

/-- `cu.trap` faults TRAP with the subcode of B[15:0]: the fault of its core is recorded in slot 0 with the bundle, count and move, and the core stops in
state FAULTED at its last mark. -/
def Obligations.TrapTakes : Prop :=
  ∀ (m : Mv) (s t : State) (v : Val), Reads s m.bus m.src m.keep v t →
    ∃ u, exec (.cuTrap m) s = .next u ∧ u.here.run = .faulted ∧ u.here.arch = s.here.snap ∧ u.here.gate = [] ∧ u.here.marked = true ∧ u.here.fifo = s.here.popped ++ s.here.fifo ∧
      u.here.slot 0 = some
        { code := 0x50, sub := (v.bits.setWidth 64).toNat % 2 ^ 16, cls := 0, coreid := s.cur, whereAt := m.bus.val, bundle := s.here.arch.pc.toNat,
          count := s.here.arch.count, port := 0, j := 0, progress := 0, mark := s.here.snap.pc.toNat, addr := 0, detail := 0, aux := 0, time := s.time,
          gathid := s.here.member.gath, ctxid := s.here.member.ctx, op := 0 } ∧
      u.here.scratch = s.here.scratch ∧ u.here.joins = s.here.joins ∧ SameModule s { u with gaths := s.gaths } ∧ SameMemory s u ∧ SameOthers s u

/-- `lend d` at the end of its loop iterates or ends it; anywhere else, or at another depth, it is ignored and sets LOOPMISS. The stream operations set
base, strides, space and levels of stream n, from the scalar registers as they stand, and nothing else. -/
def Obligations.AddressSlots : Prop :=
  ∀ s : State,
    (∀ (d : BitVec 3) (l : List Loop) (x : Loop), s.here.arch.loops = l ++ [x] → d.toNat = l.length + 1 → s.here.arch.pc = x.stop →
      (x.idx.toNat + 1 < x.count.toNat → exec (.lend d) s = .next (s.modArch s.cur fun a => { a with loops := l ++ [{ x with idx := x.idx + 1 }], pc := x.start })) ∧
      (x.count.toNat ≤ x.idx.toNat + 1 → x.idx.toNat + 1 < 2 ^ 32 → exec (.lend d) s = .next (s.modArch s.cur fun a => { a with loops := l }))) ∧
    (∀ d : BitVec 3, (∀ l x, s.here.arch.loops = l ++ [x] → d.toNat ≠ l.length + 1 ∨ s.here.arch.pc ≠ x.stop) → ∃ u, exec (.lend d) s = .next u ∧
      (∀ i, u.here.arch.fstat.getLsbD i = ((s.here.arch.fstat.getLsbD i) || decide (i = 6))) ∧ { u.here.arch with fstat := s.here.arch.fstat } = s.here.arch) ∧
    (Present s [32] → ∀ (a : BitVec 3) (n : BitVec 6) (l kind : BitVec 2) (imm : BitVec 13) (idx : BitVec 5) (b : BitVec 3),
      let reg := (s.here.arch.s.get 0 n.toNat).setWidth 40
      let old := s.here.arch.stream a.toNat
      let sets := fun (i : Instr) (new : Stream) => ∃ u, exec i s = .next u ∧ u.here.arch.stream a.toNat = new ∧ (∀ k, k ≠ a.toNat → u.here.arch.stream k = s.here.arch.stream k) ∧
        { u.here.arch with streams := s.here.arch.streams } = s.here.arch ∧ SameModule s u ∧ SameMemory s u ∧ SameOthers s u
      sets (.sbase a n) { old with base := reg } ∧ sets (.sstr a l n) (old.setStride l.toNat reg) ∧ sets (.sstri a l imm) (old.setStride l.toNat (imm.signExtend 40)) ∧
        sets (.sspace a kind idx) { old with kind := kind, index := idx } ∧ sets (.swlev a b) { old with b := b } ∧
        sets (.srst a) { base := 0, st0 := 0, st1 := 0, st2 := 0, st3 := 0, b := 0, kind := 0, index := 0 })

/-! ### Bank engines -/

/-- BZERO, BSCALE, BFENCE, BJOIN, BLOAD and BSYNC on a bank engine that runs a list: the effect the command has, and the engine goes on with its next
command. BZERO clears the selected buffers and acc; BSCALE multiplies every lane by the lane's or the immediate FP32 factor; BFENCE performs the
engine's pending writes; BJOIN does so and counts the issuer's counter; BLOAD fills a buffer; BSYNC passes when the generation is reached, else waits.
BMAC, BMACT and BMACQ: with fields that pass subcode 4 and weight rows that pass subcode 5, lane i of the first nr becomes the sum of acc and the
products (R110’s exact sum, rounded once); the other lanes, the buffers, memory and every other engine stay. A breach parks the list on this engine
with ENGINE_ERROR subcode 4 or 5. The model’s own readings in it: log entries 21 and 57. -/
def Obligations.BankCommands : Prop :=
  (∀ (s : State) (c id : Nat) (l : BankList), (s.bank s.eng).list = some (c, id) → findList s id = some l →
    let b := s.bank s.eng
    let goes := fun (i : Instr) (f : State → Bank → Prop) => ∃ t, exec i s = .next t ∧ (t.bank s.eng).idx = b.idx + 1 ∧ (t.bank s.eng).wait = .none ∧ (t.bank s.eng).list = b.list ∧
      (∀ e, e ≠ s.eng → t.bank e = s.bank e) ∧ f t (t.bank s.eng)
    (∀ (acc : Bool) (mask : BitVec 4), goes (.bzero acc mask) fun t u => SameMemory s t ∧ t.cores = s.cores ∧
      (∀ i k, i < 4 → k < 256 → u.xb.get 0 (256 * i + k) = if mask.getLsbD i then 0 else b.xb.get 0 (256 * i + k)) ∧
      ∀ i, u.lane i = if acc then 0 else b.lane i) ∧
    (∀ (perlane : Bool) (xb : BitVec 2) (factor : BitVec 32), goes (.bscale perlane xb factor) fun t u => SameMemory s t ∧ t.cores = s.cores ∧ u.xb = b.xb ∧
      ∀ i, i < 64 → u.lane i = BitVec.ofNat 32 (fp32.out ((fp32.decode (b.lane i).toNat).mul
        (fp32.decode (if perlane then ofLeBytes ((List.range 4).map fun k => b.xb.get 0 (256 * xb.toNat + (4 * i + k))) else factor.toNat))).val 0 false).val) ∧
    goes .bfence (fun t u => u.writes = [] ∧ t.cores = s.cores ∧ u.acc = b.acc ∧ (b.writes = [] → SameMemory s t) ∧
      ∀ w, b.writes = [w] → ∀ p, t.byteAt p = (s.writeAt w.place w.data).byteAt p) ∧
    (∀ j : BitVec 4, listCore s id = some c → (∀ v ∈ s.saved, hasList v.lists id = false) → goes (.bjoin j) fun t u => u.writes = [] ∧ (t.core c).joins = (s.core c).joins.put 0 j.toNat ((s.core c).join j.toNat + 1) ∧
      (b.writes = [] → SameMemory s t)) ∧
    (∀ (xb : BitVec 2) (off : BitVec 40) (d : Nat), off.toNat % 32 = 0 → off.toNat + 256 ≤ 0x50000 → memberCore s l.gath l.rank = some d →
      (∀ f ∈ spadFolios off.toNat 256, ((s.core d).folio f).pres = .present) → goes (.bload xb false off) fun t u => SameMemory s t ∧ u.acc = b.acc ∧
        ∀ k, k < 1024 → u.xb.get 0 k = if 256 * xb.toNat ≤ k ∧ k < 256 * xb.toNat + 256 then (s.core d).spad (off.toNat + (k - 256 * xb.toNat)) else b.xb.get 0 k) ∧
    (∀ (xb : BitVec 2) (off : BitVec 40) (t : State) (d : List Byte), off.toNat % 32 = 0 → bankRead s.eng l (ranges ((b.abase + off.toNat) % 2 ^ 64) 256) s = .ok (t, d) → t.banks = s.banks →
      goes (.bload xb true off) fun _ u => u.acc = b.acc ∧ ∀ k, k < 256 → k < d.length → u.xb.get 0 (256 * xb.toNat + k) = d.getD k 0) ∧
    ∀ (sw : BitVec 19) (gen : BitVec 16) (d : Nat), sw.toNat % 16 = 0 → sw.toNat + 16 ≤ 0x50000 → memberCore s l.gath l.rank = some d →
      (∀ f ∈ spadFolios sw.toNat 16, ((s.core d).folio f).pres = .present) →
        ((BitVec.ofNat 16 ((s.core d).syncWord sw.toNat).gen - gen).toNat < 2 ^ 15 → goes (.bsync sw gen) fun t u => SameMemory s t ∧ u.acc = b.acc ∧ t.cores = s.cores) ∧
        (2 ^ 15 ≤ (BitVec.ofNat 16 ((s.core d).syncWord sw.toNat).gen - gen).toNat → exec (.bsync sw gen) s = .next (s.modBank s.eng fun b => { b with wait := .bsync }))) ∧
  (∀ q ∈ ([(.bmac, .plain), (.bmact, .tern), (.bmacq false 0, .trellis false 0), (.bmacq false 1, .trellis false 1), (.bmacq false 2, .trellis false 2),
      (.bmacq false 3, .trellis false 3), (.bmacq true 0, .trellis true 0), (.bmacq true 1, .trellis true 1), (.bmacq true 2, .trellis true 2),
      (.bmacq true 3, .trellis true 3)] : List ((Mac → Instr) × MacKind)),
    ∀ (s t w : State) (c id : Nat) (l : BankList) (p : Mac) (rows : List (List Byte)), (s.bank s.eng).list = some (c, id) → findList s id = some l →
      let m := q.2
      let b := s.bank s.eng
      let act := b.xbRead p.xb.toNat (256 * actBuffers (p.k1.toNat + 1) p.afmt.toNat)
      (macField m p = true → exec (q.1 p) s = .next (parkBank s s.eng 0x60 4)) ∧
      (macField m p = false → macRows m p s.eng l (List.range (p.nr1.toNat + 1)) s = .error (.behind w (.fault 0x60 5 0)) → exec (q.1 p) s = .next (parkBank (s.keepWalks w) s.eng 0x60 5)) ∧
      (macField m p = false → macRows m p s.eng l (List.range (p.nr1.toNat + 1)) s = .ok (t, rows) → t.banks = s.banks → rows.length = p.nr1.toNat + 1 →
        ∃ u, exec (q.1 p) s = .next u ∧ (u.bank s.eng).idx = b.idx + 1 ∧ (u.bank s.eng).xb = b.xb ∧ (u.bank s.eng).writes = b.writes ∧ SameMemory t u ∧ u.cores = t.cores ∧
          (∀ e, e ≠ s.eng → u.bank e = s.bank e) ∧
          ∀ i, i < 64 → (u.bank s.eng).lane i = if i ≤ p.nr1.toNat then BitVec.ofNat 32 (macLane m p act (rows.getD i [])
            (if p.sc then (b.xb.get 0 (256 * p.sxb.toNat + i)).toNat else p.e8.toNat) (b.lane i)) else b.lane i))

/-- BSTORE adds one pending write for each of its lanes, in lane order, and performs none; BSEND writes its lanes into the scratchpad of a member that was
in the gathering at the list's release, and parks with subcode 7 for any other core; BRED waits with its acc for its partner, and then both hold the
sum; BEND ends the list on this engine with its writes performed. A list's life: a free engine starts its oldest queued list with buffers and acc at
zero; a waiting engine runs its command again once its condition holds, the wait for a folio of a member once its pull has ended or the member has
left the core; a list that has ended on every engine counts its join once and is gone. `bk.go` at its release: every engine of the stack whose mask
bit is set queues the list behind the others; with a mask of 0 the join counter of the header is counted at once. Before full service the list ends at
its release with a record of ENGINE_ERROR subcode 9 and its join counted, and no engine queues it. The model’s own readings in it: log entries 21 and
57. -/
def Obligations.BankTransfersAndLists : Prop :=
  (∀ (s : State) (c id : Nat) (l : BankList), (s.bank s.eng).list = some (c, id) → findList s id = some l →
    let b := s.bank s.eng
    (∀ (bf : Bool) (n1 : BitVec 6) (off : BitVec 40) (t : State), (b.obase + off.toNat) % (if bf then 2 else 4) = 0 → bstoreLanes bf off.toNat s.eng l (List.range (n1.toNat + 1)) s = .ok t →
      ∃ u, exec (.bstore bf n1 off) s = .next u ∧ SameMemory t u ∧ (u.bank s.eng).writes = (t.bank s.eng).writes ∧ (t.bank s.eng).writes.length = b.writes.length + n1.toNat + 1 ∧
        (∀ w ∈ b.writes, w ∈ (u.bank s.eng).writes) ∧ (u.bank s.eng).idx = b.idx + 1) ∧
    (∀ (bf : Bool) (n1 : BitVec 6) (off : BitVec 40), (b.obase + off.toNat) % (if bf then 2 else 4) ≠ 0 → exec (.bstore bf n1 off) s = .next (parkBank s s.eng 0x60 4)) ∧
    (∀ (n1 : BitVec 6) (coreid : BitVec 9) (off : BitVec 19) (sw : BitVec 15) (rank d : Nat) (bf swv : Bool), n1 = 0 → b.cstride = 0 → 16 * sw.toNat < 0x50000 →
      off.toNat + (if bf then 2 else 4) ≤ 0x50000 → off.toNat % (if bf then 2 else 4) = 0 → l.targets.find? (fun t => t.2 == coreid.toNat) = some (rank, coreid.toNat) → memberCore s l.gath rank = some d →
      (∀ f, ((s.core d).folio f).pres = .present) → swv = false →
        ∃ u, exec (.bsend bf n1 coreid off sw swv) s = .next u ∧ SameMemory s u ∧ (u.bank s.eng).idx = b.idx + 1 ∧ (u.core d).spadRead off.toNat (if bf then 2 else 4) = outBytes bf (b.lane 0) ∧
          (∀ x, x < off.toNat ∨ off.toNat + (if bf then 2 else 4) ≤ x → (u.core d).spad x = (s.core d).spad x) ∧ ∀ e, e ≠ d → u.core e = s.core e) ∧
    (∀ (n1 : BitVec 6) (coreid : BitVec 9) (off : BitVec 19) (sw : BitVec 15) (bf swv : Bool), l.targets.find? (fun t => t.2 == coreid.toNat) = none →
      exec (.bsend bf n1 coreid off sw swv) s = .next (parkBank s s.eng 0x60 7)) ∧
    exec (.bred 0) s = .next (arriveBred (parkBank s s.eng 0x60 4) s.eng) ∧
    (∀ d : BitVec 6, d ≠ 0 → l.mask.getLsbD ((64 * (s.eng / 64) + Nat.xor (s.eng % 64) d.toNat) % 64) = true →
      let p := 64 * (s.eng / 64) + Nat.xor (s.eng % 64) d.toNat
      (partnerHere s id p b.idx = false → ∃ u, exec (.bred d) s = .next u ∧ (u.bank s.eng).wait = .bred ∧ (u.bank s.eng).idx = b.idx ∧ (u.bank s.eng).acc = b.acc ∧
        (b.arrived = none → (u.bank s.eng).offer = b.acc ∧ (u.bank s.eng).arrived = some b.idx) ∧ SameMemory s u) ∧
      (partnerHere s id p b.idx = true → ∃ u, exec (.bred d) s = .next u ∧ (u.bank s.eng).acc = sumLanes b.acc (s.bank p).offer ∧ (u.bank p).acc = (u.bank s.eng).acc ∧
        (u.bank s.eng).idx = b.idx + 1 ∧ (u.bank p).idx = (s.bank p).idx + 1 ∧ (u.bank p).wait = .none ∧ SameMemory s u)) ∧
    ∃ u, exec .bend s = .next u ∧ (u.bank s.eng).list = none ∧ (u.bank s.eng).queue = b.queue ∧ (u.bank s.eng).acc = .empty ∧ (u.bank s.eng).writes = [] ∧
      (listCore s id = some c → ∀ k ∈ (u.core c).lists, k.id = id → k.left.getLsbD (s.eng % 64) = false)) ∧
  ((∀ (s : State) (e c id : Nat) (l : BankList) (r : List (Nat × Nat)), (s.bank e).list = none → (s.bank e).queue = (c, id) :: r → findList s id = some l →
    l.off % 32 = 0 → l.off + 32 ≤ 0x50000 → 32 ≤ l.image.length →
      ((leField l.image 0 8) % 256 = 1 → leField l.image 0 8 / 2 ^ 12 % 2 ^ 20 = 0 → leField l.image 8 8 % 0x10000 = 0 →
        ∃ t, exec (.bankListStart e) s = .next t ∧ (t.bank e).list = some (c, id) ∧ (t.bank e).queue = r ∧ (t.bank e).xb = .empty ∧ (t.bank e).acc = .empty ∧ (t.bank e).idx = 0 ∧
          (t.bank e).wait = .none ∧ (t.bank e).writes = [] ∧ SameMemory s t) ∧
      ((leField l.image 0 8) % 256 ≠ 1 → ∃ t, exec (.bankListStart e) s = .next t ∧ (t.bank e).wait = .parked ∧ SameMemory s t)) ∧
  (∀ (s : State) (e : Nat), (bankMayGo s e = true → exec (.bankWaitRelease e) s = .next (s.modBank e fun b => { b with wait := .none })) ∧
    (bankMayGo s e = false → exec (.bankWaitRelease e) s = .next s)) ∧
  (∀ (s : State) (c id : Nat) (l : BankList), findList s id = some l → listCore s id = some c →
    (∀ d, d ≠ c → l.left = 0 → l.counted = false → exec (.bankListComplete d id) s = .next s) ∧
    (l.left = 0 → l.counted = false → ∃ t, exec (.bankListComplete c id) s = .next t ∧ (t.core c).join l.j = (s.core c).join l.j + 1 ∧ (∀ x ∈ (t.core c).lists, x.id ≠ id) ∧ (t.core c).arch = (s.core c).arch ∧
      SameMemory s t ∧ ∀ d, d ≠ c → t.core d = s.core d) ∧
    (l.left ≠ 0 ∨ l.counted = true → exec (.bankListComplete c id) s = .next s)) ∧
  ∀ (s : State) (e c f id : Nat) (l : BankList), (s.bank e).wait = .folio c f → (s.bank e).list = some (c, id) → findList s id = some l →
    (bankMayGo s e = true ↔ ((s.core c).folio f).pres ≠ .inFlight ∨ (s.core c).runs l.gath = false)) ∧
  (∀ (s : State) (c : Nat) (o : Op), o.port = 0x3C0 →
    (o.port' 0x131 = 0 → s.status.getLsbD 63 = true → release s c o = s.modCore c fun k => k.countJoin (headerJoin k (o.b.toNat % 2 ^ 19))) ∧
    (s.status.getLsbD 63 = false → let t := release s c o
      t.banks = s.banks ∧ (t.core c).lists = (s.core c).lists ∧ (t.core c).join (headerJoin (s.core c) (o.b.toNat % 2 ^ 19)) = (s.core c).join (headerJoin (s.core c) (o.b.toNat % 2 ^ 19)) + 1 ∧
        (∃ r, (t.core c).slot (s.core c).freeSlot = some r ∧ r.code = 0x60 ∧ r.sub = 9 ∧ r.cls = 2) ∧ (t.core c).arch = (s.core c).arch ∧ SameMemory s t ∧ ∀ d, d ≠ c → t.core d = s.core d) ∧
    (o.port' 0x131 ≠ 0 → s.status.getLsbD 63 = true → ∀ i, i < 64 →
      let e := 64 * (2 * (c / 96) + o.b.toNat / 2 ^ 19 % 2) + i
      ((o.port' 0x131).getLsbD i = true → ((release s c o).bank e).queue = (s.bank e).queue ++ [(c, s.fresh)]) ∧
      ((o.port' 0x131).getLsbD i = false → (release s c o).bank e = s.bank e)))

/-! ### Translation -/

/-- A walk's first failing check decides its fault: a non-canonical address subcode 1, a PASID without a root subcode 9, an invalid root entry subcode 2.
A walk that finds a leaf which passes its checks sets accessed, and dirty for a write, in the entry. Waits for a page: a core frozen at a migrating
page tries again once the bit reads 0 and faults TRANSLATE_FAULT subcode 10 at the timeout, its die no longer holding the page's leaf; a copy-on-write
page takes the first free frame of its PASID and size, its leaf moves there with a REFRESH of the page, and without a frame the write faults subcode
11. The model’s own readings in it: log entries 32, 58 and 59. -/
def Obligations.WalksAndPageWaits : Prop :=
  (∀ (s : State) (ag : Agent) (pasid va : Nat) (write : Bool),
    (canonical va = false → walk s ag pasid va write = .error (.fault 0x10 1)) ∧
    (canonical va = true → (s.pasids.get .none pasid).root = none → walk s ag pasid va write = .error (.fault 0x10 9)) ∧
    (∀ root, canonical va = true → (s.pasids.get .none pasid).root = some root →
      (s.read64 { host := false, addr := root + 8 * (va / 2 ^ 39 % 2 ^ 18) }).getLsbD 0 = false → walk s ag pasid va write = .error (.fault 0x10 2)) ∧
    ∀ root a e, canonical va = true → (s.pasids.get .none pasid).root = some root → walkTables s va 4 root = .ok (a, e) → leafCheck ag e = none →
        leafAts s ag pasid va write e = none → a % 8 = 0 → physMapped a = true →
      ∃ t, walk s ag pasid va write = (if write = true ∧ leafCow e = true then .error (.cow t) else .ok (t, e ||| 0x20 ||| (if write then 0x40 else 0))) ∧ (s.read64 { host := false, addr := a } = e →
        t.read64 { host := false, addr := a } = e ||| 0x20 ||| (if write then 0x40 else 0)) ∧ t.cores = s.cores ∧ cacheFind t ag.cache pasid (pageBase va (leafSize (e ||| 0x20 ||| (if write then 0x40 else 0)))) ≠ none) ∧
  (∀ (s : State) (c va : Nat), (s.core c).run = .running → (s.core c).waitVa = some va →
    let pasid := (s.core c).member.pasid
    let woken := fun (t : State) => (t.core c).freeze = .none ∧ (t.core c).waitVa = none ∧ (t.core c).arch = (s.core c).arch
    ((s.core c).freeze = .stale → isMigrating s pasid va = true → exec (.migratingRewalk (.core c)) s = .next s ∧
      exec (.migratingTimeout (.core c)) s = .next (takeCoreFault (dropFaulted s (c / 96) pasid va) c { code := 0x10, sub := 10, whereAt := (s.core c).waitAt, addr := va, detail := 0, aux := 0 })) ∧
    ((s.core c).freeze = .stale → isMigrating s pasid va = false → exec (.migratingTimeout (.core c)) s = .next s ∧ ∃ t, exec (.migratingRewalk (.core c)) s = .next t ∧ woken t ∧ SameMemory s t) ∧
    ((s.core c).freeze = .cow → ∀ a e, leafOf s pasid va = some (a, e) → leafMigrating e = false → leafCow e = true →
      (s.pools.get [] (pasid * 4 + leafSize e) = [] →
        exec (.cowDuplicate (.core c)) s = .next (takeCoreFault (dropFaulted s (c / 96) pasid va) c { code := 0x10, sub := 11, whereAt := (s.core c).waitAt, addr := va, detail := 0, aux := 0 })) ∧
      ∀ f r, s.pools.get [] (pasid * 4 + leafSize e) = f :: r → a % 8 = 0 → physMapped a = true → ∃ t, exec (.cowDuplicate (.core c)) s = .next t ∧ woken t ∧
        t.pools.get [] (pasid * 4 + leafSize e) = r ∧ t.read64 { host := false, addr := a } = moveLeaf e f ∧ leafFrame (moveLeaf e (f % 2 ^ 36)) = f % 2 ^ 36 ∧ leafCow (moveLeaf e f) = false ∧
        t.shoots = s.shoots ++ [{ pasid := pasid, all := false, lo := pageBase va (leafSize e), hi := pageBase va (leafSize e) + pageBytes (leafSize e), refresh := true, block := none, ats := none, tear := false, acked := [] }]))

/-- SHOOTDOWN_GO: without go only the words are written; with go a busy block rejects with error 1, bounds out of order with 2, and with 3 where either
bound is misaligned or not canonical; else the request is queued and the block is busy. The host's block is 0 and the policy core's 1;
ATS_INVALIDATION queues a REVOKE over the covering 64 KiB-aligned range. SHOOTDOWN_AGENT_ACK: with nothing to serve, for no unit, and once it has
acknowledged, nothing changes. Else the unit drops the range's cached leaves; on its cores that run the PASID every valid handle whose page the range
meets becomes invalid (REVOKE) or stale (REFRESH), in the live state and in the snapshot, and no other handle changes; it acknowledges once, with no
load or atomic into the range in flight on its cores; the fifth ends the request. The model’s own readings in it: log entry 58. -/
def Obligations.Shootdowns : Prop :=
  (∀ (s : State) (policy : Bool) (lo hi ctl : Word),
    let n := if policy then 1 else 0
    let b := s.blocks.get .zero n
    let rejected := fun (e : Nat) => ∃ t, exec (.shootdownGo policy lo hi ctl) s = .next t ∧ (t.blocks.get .zero n).err = e ∧ (t.blocks.get .zero n).done = true ∧ t.shoots = s.shoots ∧ t.cores = s.cores
    (ctl.getLsbD 31 = false → exec (.shootdownGo policy lo hi ctl) s = .next { s with blocks := s.blocks.put .zero n { b with lo := lo, hi := hi, ctl := ctl &&& 0x3FFFFF } }) ∧
    (ctl.getLsbD 31 = true → b.busy = true → rejected 1) ∧
    (ctl.getLsbD 31 = true → b.busy = false → ctl.getLsbD 21 = false → hi.toNat ≤ lo.toNat → rejected 2) ∧
    (ctl.getLsbD 31 = true → b.busy = false → ctl.getLsbD 21 = false → lo.toNat < hi.toNat → lo.toNat % 0x10000 ≠ 0 ∨ hi.toNat % 0x10000 ≠ 0 → rejected 3) ∧
    (ctl.getLsbD 31 = true → b.busy = false → ctl.getLsbD 21 = false → lo.toNat < hi.toNat → canonical lo.toNat = false ∨ canonical hi.toNat = false → rejected 3) ∧
    (ctl.getLsbD 31 = true → b.busy = false →
      ctl.getLsbD 21 = true ∨ (lo.toNat < hi.toNat ∧ lo.toNat % 0x10000 = 0 ∧ hi.toNat % 0x10000 = 0 ∧ canonical lo.toNat = true ∧ canonical hi.toNat = true) →
      ∃ t, exec (.shootdownGo policy lo hi ctl) s = .next t ∧ (t.blocks.get .zero n).busy = true ∧ (t.blocks.get .zero n).done = false ∧ (t.blocks.get .zero n).err = 0 ∧ t.cores = s.cores ∧
        t.shoots = s.shoots ++ [{ pasid := ctl.toNat % 2 ^ 20, all := ctl.getLsbD 21, lo := lo.toNat, hi := hi.toNat, refresh := ctl.getLsbD 20, block := some n, ats := none, tear := false, acked := [] }]) ∧
    ∀ pasid : Nat, exec (.atsInvalidation pasid lo hi) s = .next { s with shoots := s.shoots ++
      [{ pasid := pasid, all := false, lo := lo.toNat / 0x10000 * 0x10000, hi := (hi.toNat + 0xFFFF) / 0x10000 * 0x10000, refresh := false, block := none, ats := some (lo.toNat, hi.toNat), tear := false, acked := [] }] }) ∧
  ((∀ (s : State) (agent : Nat), s.shoots = [] ∨ 4 < agent → exec (.shootdownAgentAck agent) s = .next s) ∧
  ∀ (s : State) (r : Shoot) (rest : List Shoot) (agent : Nat), s.shoots = r :: rest → agent ≤ 4 → s.cores.rising = true →
    (r.acked.contains agent = true → exec (.shootdownAgentAck agent) s = .next s) ∧
    (r.acked.contains agent = false → ∃ t, exec (.shootdownAgentAck agent) s = .next t ∧
      (∀ x ∈ t.caches, x.agent = agent → x.pasid = r.pasid → r.hits x.base (pageBytes (leafSize x.leaf)) = false) ∧
      ((∀ d, d / 96 = agent → inFlight r (s.core d) = []) →
        (r.acked.length < 4 → t.shoots = { r with acked := agent :: r.acked } :: rest) ∧ (4 ≤ r.acked.length → t.shoots = rest) ∧
        (4 ≤ r.acked.length → ∀ n, r.block = some n → (t.blocks.get .zero n).done = true ∧ (t.blocks.get .zero n).busy = false) ∧ ∀ d, d / 96 ≠ agent → t.core d = s.core d) ∧
      (∀ d, d / 96 ≠ agent → { t.core d with folios := (s.core d).folios, held := (s.core d).held } = s.core d) ∧
      ∀ d n, d / 96 = agent → (s.core d).run ≠ .off → (s.core d).member.pasid = r.pasid → (s.core d).arch.handles.rising = true → (s.core d).snap.handles.rising = true →
        (t.core d).arch.handle n = r.handle ((s.core d).arch.handle n) ∧ (t.core d).snap.handle n = r.handle ((s.core d).snap.handle n)))

/-! ### Contexts -/

/-- Kernel entry sets s0 to s63, p0 to p15 and v0 to v63 to zero in every member, as it resets the rings and result ports, the operand and mode latches,
the handles, the streams, the loop stack and `fstat` (R399; the `.a` and `.o2` latches of M0 and M1, which R240 does not list, by the model’s choice);
beside R399 the call stack, `cu.lend` and `cu.jcmp` are empty, every folio is PRESENT, the issue count starts at 0, and the endpaper names the core.
The model’s own readings in it: log entry 3. -/
def Obligations.KernelEntry : Prop :=
  ∀ (k : Core) (g : Gath) (core rank : Nat) (scratch : Tab Byte) (imem : Tab (BitVec 512)) (map : Tab MapEntry) (n : Nat),
    let c := entryCore k g core rank scratch imem map n
    (∀ i, c.arch.s.get 0 i = 0 ∧ c.arch.p.get false i = false ∧ c.arch.v.get 0 i = 0) ∧ (∀ i, c.arch.ring i = { d0 := none, d1 := none, d2 := none, d3 := none } ∧ c.arch.result i = 0) ∧
    (∀ i, c.arch.latch i = { bits := 0, vector := false }) ∧ (∀ i ∈ [0x104, 0x107, 0x10A, 0x10C], c.arch.config i = 0x90009) ∧ c.arch.config 0x10F = 8 ∧ c.arch.config 0x112 = 8 ∧
    (∀ i, (c.arch.handle i).valid = false ∧ c.arch.stream i = { base := 0, st0 := 0, st1 := 0, st2 := 0, st3 := 0, b := 0, kind := 0, index := 0 }) ∧
    c.arch.loops = [] ∧ c.arch.calls = [] ∧ c.arch.fstat = 0 ∧ c.arch.lend = 0 ∧ c.arch.jcmp = 0 ∧ c.arch.count = 0 ∧ c.arch.pc = 0 ∧ c.arch.due = [] ∧ c.gate = [] ∧
    (∀ f, c.folio f = { pres := .present, dirty := decide (32 ≤ f) }) ∧ c.run = .loaded ∧ c.member.rank = rank ∧ c.member.gath = g.id ∧ c.scratch = scratch ∧ c.imem = imem ∧ c.ep.coreid = core

/-- PHASE_BARRIER_COMPLETE: a phase of scope 1 to 3 completes once every member that meets in it has arrived with that scope, and then each one's phase
bundle may issue; until then nothing changes. WATCHDOG_EXPIRY faults a running core with WATCHDOG subcode 1 and disarms it; it does not run in a debug
halt, but in a single step, nor in a core that is being stopped. The debugger: attached, it may halt a core between bundles, let one bundle issue and
let it run on; a core without a debugger does not halt. -/
def Obligations.BarriersAndDebug : Prop :=
  ((∀ (s : State) (c scope : Nat), (s.core c).arrived = some scope → scope ≠ 4 →
    ((∃ d ∈ barrierMembers s c scope, (s.core d).arrived ≠ some scope) → exec (.phaseBarrierComplete c) s = .next s) ∧
    ((∀ d ∈ barrierMembers s c scope, (s.core d).arrived = some scope) → ∃ t, exec (.phaseBarrierComplete c) s = .next t ∧ SameModule s t ∧ SameMemory s t ∧
      (∀ d ∈ barrierMembers s c scope, t.core d = { (s.core d) with phaseDone := true, arrived := none }) ∧ ∀ d, d ∉ barrierMembers s c scope → t.core d = s.core d)) ∧
  ∀ (s : State) (c : Nat), (s.core c).wdog.isSome = true → (s.core c).run = .running →
    ((s.core c).debugHalt = true ∧ (s.core c).stepping = false ∨ (s.core c).stopping = true → exec (.watchdogExpiry c) s = .next s) ∧
    ((s.core c).stopping = false → (s.core c).debugHalt = false ∨ (s.core c).stepping = true → exec (.watchdogExpiry c) s =
      .next ((takeCoreFault s c { code := 0x52, sub := 1, whereAt := 15, addr := 0, detail := 0, aux := 0 }).modCore c fun k => { k with wdog := none }))) ∧
  (∀ (s : State) (c : Nat),
    exec (.debugAttach c) s = .next (s.modCore c fun k => { k with debugger := true }) ∧
    ((s.core c).debugger = true → exec (.debugHalt c) s = .next (s.modCore c fun k => { k with debugHalt := true, stepping := false })) ∧
    ((s.core c).debugger = false → exec (.debugHalt c) s = .next (s.modCore c fun k => k)) ∧
    ((s.core c).debugHalt = true → exec (.singleStep c) s = .next (s.modCore c fun k => { k with stepping := true })) ∧
    exec (.debugResume c) s = .next (s.modCore c fun k => { k with debugHalt := false, stepping := false }) ∧
    ∀ k : Core, k.run = .running → k.stopping = false → k.powerGated = false → mayIssue { k with debugHalt := true, stepping := false } = false ∧ mayIssue { k with debugHalt := true, stepping := true } = true ∧
      ∀ a o, (({ k with debugHalt := true, stepping := true } : Core).issued a o).stepping = false ∧ (({ k with debugHalt := true, stepping := true } : Core).issued a o).debugHalt = true)

/-- FOLIO_PULL_COMPLETE for a folio in flight: a kind 5 vector folio arrives as zeros, a scratchpad folio at a device location as its bytes if they have
the entry's digest, and it is PRESENT and clean; wrong bytes and reserved kinds fail with PULL_FAIL subcode 2. PULL_TIMEOUT of a remote location fails
with subcode 1. A pull that was in flight when its member left the core ends as a clean copy that the core holds for the member. BACKGROUND_PUSH
starts the push of a dirty OWED folio. FOLIO_PUSH_COMPLETE of a push under way writes the bytes to their location and the location and digest to the
member's map, and the copy leaves the core, another member's copy of that folio stays; a folio whose push has not started stays. The model’s own
readings in it: log entries 6 and 38. -/
def Obligations.FoliosMove : Prop :=
  ((∀ (s : State) (c f : Nat), (s.core c).run ≠ .off → ((s.core c).folio f).pres = .inFlight → heldFolio (s.core c) f = none → leftPull s c f = none →
    let e := (s.core c).ep.entry f
    let loc : Place := { host := false, addr := e.addr }
    (e.kind = 5 → f = 34 → ∃ t, exec (.folioPullComplete c f) s = .next t ∧ (t.core c).folio f = { pres := .present, dirty := false } ∧
      (∀ i, i < 32 → (t.core c).arch.v.get 0 i = 0) ∧ (∀ i, 32 ≤ i → (t.core c).arch.v.get 0 i = (s.core c).arch.v.get 0 i) ∧ SameMemory s t ∧ ∀ d, d ≠ c → t.core d = s.core d) ∧
    (e.kind = 1 → 62 ≤ f → locMapped 1 e.addr 4096 = true → digest32 (s.readAt loc 4096) = e.digest → ∃ t, exec (.folioPullComplete c f) s = .next t ∧
      (t.core c).folio f = { pres := .present, dirty := false } ∧ (∀ i, i < 4096 → (t.core c).spad (4096 * (f - 61) + i) = s.byteAt (loc.add i)) ∧ (t.core c).arch = (s.core c).arch ∧
      SameMemory s t ∧ ∀ d, d ≠ c → t.core d = s.core d) ∧
    (e.kind = 1 → locMapped 1 e.addr 4096 = true → 62 ≤ f → digest32 (s.readAt loc 4096) ≠ e.digest → exec (.folioPullComplete c f) s = .next (pullFail s c f 2)) ∧
    (6 < e.kind → exec (.folioPullComplete c f) s = .next (pullFail s c f 2)) ∧
    (e.kind = 2 → exec (.pullTimeout c f) s = .next (pullFail s c f 1)) ∧ (e.kind ≠ 2 → exec (.pullTimeout c f) s = .next s) ∧
    ∀ sub, (s.core c).run = .running → (s.core c).freeze = .folio → (s.core c).waitVa = some f → ((pullFail s c f sub).core c).run = .faulted ∧
      ∃ r, ((pullFail s c f sub).core c).slot 0 = some r ∧ r.code = 0x30 ∧ r.sub = sub) ∧
  ∀ (s : State) (c f : Nat) (v : Saved), (s.core c).run = .off → heldFolio (s.core c) f = none → leftPull s c f = some v → (v.ep.entry f).kind = 1 → 62 ≤ f →
    let loc : Place := { host := false, addr := (v.ep.entry f).addr }
    locMapped 1 loc.addr 4096 = true → digest32 (s.readAt loc 4096) = (v.ep.entry f).digest →
    ∃ t x, exec (.folioPullComplete c f) s = .next t ∧ heldFolio (t.core c) f = some x ∧ x.gath = v.gath ∧ x.rank = v.rank ∧ x.dirty = false ∧ x.pushing = false ∧
      (∀ w ∈ t.saved, w.gath = v.gath → w.rank = v.rank → f ∉ w.pulls) ∧ SameMemory s t) ∧
  (∀ (s : State) (c f : Nat) (x : Held), heldFolio (s.core c) f = some x →
    (∃ t, exec (.backgroundPush c f) s = .next t ∧ (x.dirty = true → heldFolio (t.core c) f = some { x with pushing := true }) ∧ (x.dirty = false → heldFolio (t.core c) f = some x) ∧
      (t.core c).folios = (s.core c).folios ∧ SameMemory s t ∧ ∀ d, d ≠ c → t.core d = s.core d) ∧
    ((∀ y ∈ (s.core c).held, y.folio = f → y.pushing = false) → exec (.folioPushComplete c f 0) s = .next s) ∧
    ∀ v, x.pushing = true → savedMember s x.gath x.rank = some v → noTiles x.data = false → (pushLoc v.ep f).kind = 1 → locMapped 1 (pushLoc v.ep f).addr 4096 = true → (folioBytes x.stamp f x.data).length = 4096 →
      ∃ t, exec (.folioPushComplete c f 0) s = .next t ∧
        (t.core c).held = (s.core c).held.filter (fun y => !(y.folio == f && y.gath == x.gath && y.rank == x.rank)) ∧
        ((∀ y ∈ (s.core c).held, y.folio = f → y.gath = x.gath ∧ y.rank = x.rank) → heldFolio (t.core c) f = none ∧ ((t.core c).folio f).pres ≠ .owed) ∧
        (∀ i, i < 4096 → t.byteAt (Place.add { host := false, addr := (pushLoc v.ep f).addr } i) = (folioBytes x.stamp f x.data).getD i 0) ∧
        ∃ u, savedMember t x.gath x.rank = some u ∧ u.ep.entry f =
          { addr := (pushLoc v.ep f).addr, digest := digest32 (folioBytes x.stamp f x.data), kind := 1, node := (pushLoc v.ep f).node, core := 0 })

/-- PREEMPT_REQUEST of a running gathering of one member, none of whose operations waits for another module: the member is saved at its mark with its
counters, and the core is free but still holds every PRESENT folio; its endpaper is in state SAVED and names the core; the gathering is then saved.
(`w` is what the write of its eager blocks leaves: nothing of the member or its gathering changes by it.) CONTEXT_RESTORE of a saved gathering of one
member on a free core: it runs on from its mark with its registers of the sequencer block and its counters; a folio that the core still holds for it
is PRESENT, one whose pull began there before the save and has not ended is IN_FLIGHT, one held for another context OWED, every other ABSENT. The
model’s own readings in it: log entries 6, 37, 60 and 61. -/
def Obligations.PreemptAndRestore : Prop :=
  (∀ (s : State) (g : Gath) (c : Nat), s.gath? g.id = some g → g.state = .running → s.membersOf g.id = [c] → (s.core c).run = .running → (∀ o ∈ (s.core c).ops, o.runs = []) →
    let u := haltMember (finishUnits (drainMember (stopMember s c) c) c) c
    let v := savedOf c (u.core c) (owedMap u c (holdFolios u.fresh (u.core c)) (dropMap (u.core c) (saveEndpaper c (u.core c))))
    ∀ w, writeEager u v = .ok w → w.saved = s.saved → w.core c = u.core c → w.gaths = u.gaths →
    ∃ t, exec (.preemptRequest g.id) s = .next t ∧ (t.core c).run = .off ∧ (t.gath? g.id).map (·.state) = some .saved ∧ t.saved = s.saved ++ [v] ∧ v.ep.state = 1 ∧ v.ep.coreid = c ∧
      v.gath = (s.core c).member.gath ∧ v.rank = (s.core c).member.rank ∧ v.arch.pc = (s.core c).snap.pc ∧ v.arch.count = (s.core c).snap.count ∧ v.arch.loops = (s.core c).snap.loops ∧
      v.arch.calls = (s.core c).snap.calls ∧ v.arch.lend = (s.core c).snap.lend ∧ v.arch.jcmp = (s.core c).snap.jcmp ∧ v.arch.fstat = (s.core c).snap.fstat ∧ v.joins = (s.core c).joins ∧
      v.wdog = (s.core c).wdog ∧ v.faulted = false ∧ v.halted = false ∧
      ∀ f, f < 141 → ((s.core c).folio f).pres = .present → noTiles (folioData (u.core c) f) = false → ∃ x ∈ (t.core c).held, x.folio = f ∧ x.gath = (s.core c).member.gath ∧ x.rank = (s.core c).member.rank) ∧
  (∀ (s : State) (g : Gath) (v : Saved) (c : Nat), s.gath? g.id = some g → g.state = .saved → s.saved.filter (fun x => x.gath == g.id) = [v] → v.rank = 0 → freeCore s c = true →
    v.faulted = false → v.halted = false → (∀ x ∈ (s.core c).held, x.gath = g.id → x.rank = 0) →
      ∃ t, exec (.contextRestore g.id [c]) s = .next t ∧ (t.core c).run = .running ∧ (t.core c).marked = true ∧ (t.core c).arch.pc = v.arch.pc ∧ (t.core c).arch.count = v.arch.count ∧
        (t.core c).arch.loops = v.arch.loops ∧ (t.core c).arch.calls = v.arch.calls ∧ (t.core c).arch.fstat = v.arch.fstat ∧ (t.core c).joins = v.joins ∧ (t.core c).wdog = v.wdog ∧
        (t.core c).member = v.member ∧ (t.gath? g.id).map (·.state) = some .running ∧ (t.saved.filter fun x => x.gath == g.id) = [] ∧
        ∀ f, f < 141 → (t.core c).folio f =
          match ((s.core c).held.filter fun x => x.gath == v.gath && x.rank == v.rank).find? fun h => h.folio == f with
          | some h => { pres := .present, dirty := h.dirty || v.arch.tagOps.any (fun o => o.folio == f) }
          | none => { pres := if v.coreid = c ∧ f ∈ v.pulls then .inFlight else if ((s.core c).held.filter fun x => !(x.gath == v.gath && x.rank == v.rank)).any fun h => h.folio == f then .owed else .absent, dirty := false })

/-- The ends of a launched gathering: KILL_GATHERING, INSTANCE_COMPLETE once every member has halted with nothing of it left but FIFO entries that nobody
reads, and TICK_LAUNCH_TIMEOUT of a tick launch that was not released. Each frees every core of it, ends its packet and removes it; a kill reports
KILLED or, with a faulted member, FAULT and that record. (A packet that names neither colophon nor signal.) A gathering that spans modules first meets
the others. PASID_TEARDOWN: its gatherings, jobs, graphs and packets are gone, a REVOKE of all its handles is queued, its root is unbound; its control
blocks stay until that REVOKE is done. The model’s own readings in it: log entries 33 and 36. -/
def Obligations.GatheringsEnd : Prop :=
  ((∀ (s : State) (g : Gath) (p : QPacket), s.gath? g.id = some g → g.owner.packet = some p.id → g.colophon = 0 → s.packet? p.id = some p → p.sig = false →
    let ended := fun (i : Instr) => ∃ t, exec i s = .next t ∧ t.gath? g.id = none ∧ t.packet? p.id = none ∧ ∀ c, c < 384 → (s.core c).runs g.id = true → (t.core c).run = .off
    ended (.killGathering g.id) ∧
    (g.state = .running → g.span = false → (∀ c ∈ s.membersOf g.id, (s.core c).run = .halted ∧ (∀ o ∈ (s.core c).ops, isFifoOp o.port = true ∧ o.st = .follow) ∧ (s.core c).lists = []) →
      ended (.instanceComplete g.id)) ∧
    (g.span = true → reached s.time g.tick = true → g.state = .loaded → ended (.tickLaunchTimeout g.id))) ∧
  (∀ (s : State) (g : Gath) (c : Nat), s.gath? g.id = some g → c ∈ s.membersOf g.id → (s.core c).run ≠ .halted → exec (.instanceComplete g.id) s = .next s) ∧
  (∀ (s : State) (g : Gath), s.gath? g.id = some g → g.state = .running → g.span = true →
    (∀ c ∈ s.membersOf g.id, (s.core c).run = .halted ∧ (∀ o ∈ (s.core c).ops, isFifoOp o.port = true ∧ o.st = .follow) ∧ (s.core c).lists = []) →
      let d := (s.membersOf g.id).foldl (fun s c => performAll (settleAtomics s c) c) s
      (fabricPhase d g.id).2 = false → exec (.instanceComplete g.id) s = .next (fabricPhase d g.id).1) ∧
  (∀ (s : State) (g : Gath), s.gath? g.id = some g → g.span = false ∨ reached s.time g.tick = false → exec (.tickLaunchTimeout g.id) s = .next s) ∧
  ∀ (s : State) (g : Nat), s.saved = [] → ((∀ c ∈ s.membersOf g, (s.core c).slot 0 = none) → killVerdict s g = { status := 7, code := 0, sub := 0, bundle := 0, idx := 0 }) ∧
    ∀ c r, s.membersOf g = [c] → (s.core c).slot 0 = some r → killVerdict s g = { status := 2, code := r.code, sub := r.sub, bundle := r.bundle, idx := 0 }) ∧
  (∀ (s : State) (pasid : Nat), ∃ t, exec (.pasidTeardown pasid) s = .next t ∧ (∀ g ∈ t.gaths, g.pasid ≠ pasid) ∧ (∀ j ∈ t.jobs, j.pasid ≠ pasid) ∧ (∀ g ∈ t.graphs, g.pasid ≠ pasid) ∧
    (∀ p ∈ t.packets, p.pasid ≠ pasid) ∧ (t.pasids.get .none pasid).root = none ∧
    t.shoots = s.shoots ++ [{ pasid := pasid, all := true, lo := 0, hi := 0, refresh := false, block := none, ats := none, tear := true, acked := [] }] ∧
    (t.pasids.get .none pasid).tearing = true ∧
    ∀ g ∈ s.gaths, g.pasid = pasid → ∀ c, c < 384 → (s.core c).runs g.id = true → (t.core c).run = .off)

/-! ### The command processor -/

/-- Queues. NOTIFY_WRITE is accepted only within the window of R334, else counted in `rej`, and counted in the module's counter when the lookup fails.
PACKET_FETCH of an active queue with slots left stops at a slot without valid; else it clears valid in the slot, advances rd and takes the packet;
without a cached translation it asks for one. QUEUE_AGING raises the cur of a queue that waits, at its head packet or with an instance that the energy
budget defers, by one, up to 7. FETCHER_TRANSLATION_RETURN lowers outst; a DRAINING block with none outstanding leaves the table. The model’s own
readings in it: log entry 33. -/
def Obligations.QueuesRun : Prop :=
  (∀ (s : State) (aperture queue pasid i : Nat) (v : BitVec 32), s.apertures.get none aperture = some pasid → qcbFind s pasid queue = some i → (s.qcb i).state = 1 →
    let q := s.qcb i
    let ok := (v.toNat + 2 ^ 32 - q.rd) % 2 ^ 32 ≤ 2 ^ q.m ∧ (v.toNat + 2 ^ 32 - q.wr) % 2 ^ 32 < 2 ^ 31
    (ok → exec (.notifyWrite aperture queue v) s = .next (s.setQcb i { q with wr := v.toNat, stopped := false })) ∧
    (¬ ok → exec (.notifyWrite aperture queue v) s = .next (s.setQcb i { q with rej := (q.rej + 1) % 2 ^ 32 }))) ∧
  (∀ (s : State) (aperture queue : Nat) (v : BitVec 32), (∀ pasid, s.apertures.get none aperture = some pasid → qcbFind s pasid queue = none) →
    exec (.notifyWrite aperture queue v) s = .next { s with counters := s.counters.put 0 cntNotify (s.counters.get 0 cntNotify + 1) }) ∧
  (∀ (s : State) (i : Nat),
    let q := s.qcb i
    (q.state ≠ 1 ∨ q.stopped = true ∨ q.rd = q.wr → exec (.packetFetch i) s = .next s) ∧
    (q.state = 1 → q.stopped = false → q.rd ≠ q.wr → slotCached s q = false → q.outst = 0 → exec (.packetFetch i) s = .next (s.setQcb i { q with outst := 1 })) ∧
    ∀ t b, q.state = 1 → q.stopped = false → q.rd ≠ q.wr → slotCached s q = true → hubRead s q.pasid (q.ring + 64 * (q.rd % 2 ^ q.m)) 64 = .ok (t, b) →
      let p : QPacket := { id := s.fresh, slot := i, pasid := q.pasid, words := slotWords b, started := false }
      ((p.words.getD 0 0).getLsbD 8 = false → exec (.packetFetch i) s = .next (s.setQcb i { q with stopped := true })) ∧
      ∀ u, (p.words.getD 0 0).getLsbD 8 = true → badPacket p = false →
        hubWrite t q.pasid (q.ring + 64 * (q.rd % 2 ^ q.m)) (leBytes 8 (p.words.getD 0 0 &&& ~~~ 0x100).toNat) = .ok u →
          ∃ w, exec (.packetFetch i) s = .next w ∧ w.packets = s.packets ++ [p] ∧ (w.qcb i).rd = (q.rd + 1) % 2 ^ 32 ∧ w.mem = u.mem ∧ w.host = u.host) ∧
  ∀ (s : State) (i : Nat),
    let q := s.qcb i
    ((headPacket s i).isSome = true → exec (.queueAging i) s = .next (s.setQcb i { q with cur := min 7 (q.cur + 1) })) ∧
    (headPacket s i = none → (∀ g ∈ s.gaths, g.owner.job = none) → exec (.queueAging i) s = .next s) ∧
    (∀ g ∈ s.gaths, g.state = .waiting → g.owner.job.isSome = true → gathSlot s g = i → energyOk s i g.estimate = false →
      exec (.queueAging i) s = .next (s.setQcb i { q with cur := min 7 (q.cur + 1) })) ∧
    (q.outst = 0 ∨ q.state = 0 → exec (.fetcherTranslationReturn i) s = .next s) ∧
    (q.outst ≠ 0 → q.state = 2 → exec (.fetcherTranslationReturn i) s = .next (removeDrained (s.setQcb i { q with outst := q.outst - 1 }))) ∧
    ∀ t e, q.outst ≠ 0 → q.state = 1 → hubLeaf s q.pasid (slotVa q) true = .ok (t, e) → exec (.fetcherTranslationReturn i) s = .next (t.setQcb i { q with outst := q.outst - 1 })

/-- LAUNCH_PACKET of a kernel that loads and fits the module adds a waiting gathering of its size; one that can never fit completes at once with
LOAD_FAIL, code 0 and subcode 1; a kernel that does not load ends the launch with no core touched. GATHERING_PLACE on cores that the placement rules
allow and that hold no folios of other contexts: each, in rank order, stands at kernel entry, waiting for the release, and no other core changes.
GATHERING_RELEASE then lets every member run; a tick launch is released only at its tick and with the READY of every other module that its count
names; these are the modules it then spans. The release value is the model's choice among those R329 allows. The model’s own readings in it: log
entries 26, 27, 28 and 33. -/
def Obligations.LaunchRuns : Prop :=
  (∀ (s : State) (p : QPacket), s.packet? p.id = some p → p.type = 1 → isHead s p = true → s.gaths.any (fun g => g.owner.packet == some p.id) = false → (p.word 0x10).getLsbD 31 = false →
    let n := (p.word 0x10).toNat % 512
    (inService s < n → exec (.launchPacket p.id) s = .next (settleWork s (refusePacket s p { status := 1, code := 0, sub := 1, bundle := 0, idx := 0 }))) ∧
    (∀ t v, n ≤ inService s → loadKernel s p.pasid (p.word 0x08).toNat = .ok (t, .error v) → ∃ w, exec (.launchPacket p.id) s = .next w ∧ w.cores = s.cores) ∧
    ∀ t k u args, n ≤ inService s → loadKernel s p.pasid (p.word 0x08).toNat = .ok (t, .ok k) → readArgs t p.pasid p.word = .ok (u, args) →
      ∃ w g, exec (.launchPacket p.id) s = .next w ∧ w.gaths = s.gaths ++ [g] ∧ w.packets = s.packets ∧ w.cores = s.cores ∧ g.state = .waiting ∧ g.n = n ∧ g.pasid = p.pasid ∧ g.args = args ∧
        g.owner = { packet := some p.id, job := none, block := 0 } ∧ g.jobidx = 0 ∧ g.image = (p.word 0x08).toNat ∧ g.colophon = (p.word 0x18).toNat ∧ g.estimate = k.energy) ∧
  ((∀ (s t : State) (g : Gath) (k : Kernel) (on : List Nat), s.gath? g.id = some g → g.state = .waiting → g.span = false → mayPlace s g on = true →
    loadKernel s g.pasid g.image = .ok (t, .ok k) → (∀ c ∈ on, (s.core c).held = []) →
      on.length = g.n ∧ rising on = true ∧ ∃ w, exec (.gatheringPlace g.id on) s = .next w ∧ w.gath? g.id = some { g with state := .loaded, on := on, admitted := true, tick := (s.time + 7000) % 2 ^ 64 } ∧
        (∀ r c, on[r]? = some c → freeCore s c = true ∧
          w.core c = entryCore (s.core c) g c r (entryScratch t g k (s.core c).scratch) (entryCode k) (codeMap g.image (entryCode k) k.bundles.length) k.bundles.length) ∧
        ∀ d, d ∉ on → w.core d = s.core d) ∧
  ∀ (s : State) (g : Gath), s.gath? g.id = some g → g.state = .loaded →
    (g.span = false ∨ (holdsReady s g = true ∧ (reached s.time g.tick = false ∨ s.time = g.tick)) →
      ∃ w, exec (.gatheringRelease g.id) s = .next w ∧ w.gath? g.id = some { g with state := .running, modules := if g.span then s.module :: readyFrom s g else g.modules } ∧ w.time = (if reached s.time g.tick then s.time else g.tick) ∧
      (∀ c ∈ s.membersOf g.id, w.core c = { (s.core c) with run := .running }) ∧ (∀ c, c ∉ s.membersOf g.id → w.core c = s.core c) ∧ SameMemory s w) ∧
    (g.span = true → holdsReady s g = false → exec (.gatheringRelease g.id) s = .next s))

/-- The packets without a kernel, launched in their turn and without a completion signal: COPY, SIGNAL, WAIT, ENERGY and BARRIER have their effect and
leave the queue; a WAIT whose word is above v, and a BARRIER behind earlier packets, stay. A SIGNAL to another module's window completes with that
module's answer. With a signal, completion decrements its word by 1. The model’s own readings in it: log entry 34. -/
def Obligations.PlainPacketsComplete : Prop :=
  (∀ (s : State) (p : QPacket), s.packet? p.id = some p → p.started = false → mayLaunch s p = true → p.sig = false →
    let l := launchPacket s p
    let left := fun (t : State) => { t with packets := t.packets.filter fun x => x.id != p.id }
    (∀ t d u, p.type = 4 → hubRead l p.pasid (p.word 0x08).toNat (p.word 0x18).toNat = .ok (t, d) → hubWrite t p.pasid (p.word 0x10).toNat d = .ok u →
      exec (.copyPacket p.id) s = .next (left u)) ∧
    (∀ t₀ pl t x u, p.type = 5 → hubPlace l hubAgent p.pasid (p.word 0x08).toNat true = .ok (t₀, .here pl) → hubRead64 t₀ p.pasid (p.word 0x08).toNat = .ok (t, x) → hubWrite t p.pasid (p.word 0x08).toNat (leBytes 8 (x + p.word 0x10).toNat) = .ok u →
      exec (.signalPacket p.id) s = .next (left u)) ∧
    (∀ t₀ d t r, p.type = 5 → hubPlace l hubAgent p.pasid (p.word 0x08).toNat true = .ok (t₀, .there d) →
      let q := hubRequest false d.node d.va 8 (leBytes 8 (p.word 0x10).toNat)
      hubTake (hubSend t₀ p.pasid q) p.pasid q = .ok (t, r) → exec (.signalPacket p.id) s = .next (left t)) ∧
    (∀ t x, p.type = 6 → hubRead64 l p.pasid (p.word 0x08).toNat = .ok (t, x) →
      (x.toInt ≤ (p.word 0x10).toInt → exec (.waitPacket p.id) s = .next (left t)) ∧ ((p.word 0x10).toInt < x.toInt → exec (.waitPacket p.id) s = .next t)) ∧
    (p.type = 7 → exec (.energyPacket p.id) s = .next (left (l.setQcb p.slot { l.qcb p.slot with ecap := (p.word 0x08).toNat }))) ∧
    (p.type = 9 → (isOldest s p = true → exec (.barrierPacket p.id) s = .next (left l)) ∧ (isOldest s p = false → exec (.barrierPacket p.id) s = .next l))) ∧
  (∀ (s : State) (p : QPacket), s.packet? p.id = some p → p.started = true → p.sig = false →
    (p.type = 9 → isOldest s p = true → exec (.barrierPacket p.id) s = .next { s with packets := s.packets.filter fun x => x.id != p.id }) ∧
    ∀ t x, p.type = 6 → hubRead64 s p.pasid (p.word 0x08).toNat = .ok (t, x) → x.toInt ≤ (p.word 0x10).toInt →
      exec (.waitPacket p.id) s = .next { t with packets := t.packets.filter fun x => x.id != p.id }) ∧
  ∀ (s t₀ t u : State) (p : QPacket) (x : Word) (pl : Place), p.sig = true → p.signal ≠ 0 →
    hubPlace { s with packets := s.packets.filter fun y => y.id != p.id } hubAgent p.pasid p.signal true = .ok (t₀, .here pl) → hubRead64 t₀ p.pasid p.signal = .ok (t, x) → hubWrite t p.pasid p.signal (leBytes 8 (x - 1).toNat) = .ok u → completePacket s p = .ok u

/-- Jobs. JOB_PACKET starts a job of its instances, with its kernel's estimate. BLOCK_HANDOUT writes the block table's next entry and the cursor, and
starts the block's first instance. BLOCK_REPORT of a block whose instances have all ended adds them to `completed`; the last one completes the job.
DIE_FENCE voids the blocks of the die and hands their ranges out again, kills the gatherings on it, and ends what no longer fits. The model’s own
readings in it: log entry 35. -/
def Obligations.JobsRun : Prop :=
  (∀ (s : State) (p : QPacket), s.packet? p.id = some p → p.type = 2 → p.started = false → mayLaunch s p = true →
    let l := launchPacket s p
    let j : Job := { id := l.fresh, pasid := p.pasid, ctx := p.pasid, jcb := (p.word 0x18).toNat, image := (p.word 0x08).toNat, n := (p.word 0x10).toNat % 512, args := [], estimate := 0,
                     packet := some p.id, graph := none, entries := 0, blocks := [], redo := [], flags := 0, exits := [] }
    let l' : State := { l with fresh := l.fresh + 1, jobs := l.jobs ++ [j] }
    (inService s < j.n → exec (.jobPacket p.id) s = .next (settleWork s (endJob l' j { status := 1, code := 0, sub := 1, bundle := 0, idx := 0 }))) ∧
    ∀ t k u args v x, j.n ≤ inService s → loadKernel l' p.pasid j.image = .ok (t, .ok k) → readArgs t p.pasid p.word = .ok (u, args) → hubRead64 u p.pasid j.jcb = .ok (v, x) → x ≠ 0 →
      exec (.jobPacket p.id) s = .next (v.setJob { j with args := args, estimate := k.energy })) ∧
  (∀ (s t u v : State) (j : Job) (b : Jcb) (die : Nat), s.job? j.id = some j → die < 4 → s.status.getLsbD (56 + die) = true → s.deadDies.contains die = false → dieFits s die j.n = true →
    readJcb s j = .ok (t, b) → j.redo = [] → b.cursor < b.expected → j.entries < b.bcap → (∀ x ∈ j.blocks, x.entry < j.entries) →
    let n := min 64 (b.expected - b.cursor)
    hubWrite t j.pasid (b.btab + 8 * j.entries) (leBytes 8 (die * 2 ^ 56 + (n - 1) * 2 ^ 48 + b.cursor % 2 ^ 48)) = .ok u → hubWrite u j.pasid (j.jcb + 0x10) (leBytes 8 (b.cursor + n)) = .ok v →
      ∃ w g, exec (.blockHandout j.id die) s = .next w ∧ w.mem = v.mem ∧ w.host = v.host ∧ w.gaths = s.gaths ++ [g] ∧ g.state = .waiting ∧ g.n = j.n ∧ g.jobidx = b.cursor ∧
        g.owner = { packet := none, job := some j.id, block := j.entries } ∧
        w.job? j.id = some { j with entries := j.entries + 1, blocks := j.blocks ++ [{ entry := j.entries, die := die, first := b.cursor, n := n, started := 1, ended := 0 }] }) ∧
  (∀ (s t u v : State) (j : Job) (b : Jcb) (x : Block), s.job? j.id = some j → j.blocks.find? (fun y => y.entry == x.entry) = some x →
    (x.ended ≠ x.n → exec (.blockReport j.id x.entry) s = .next s) ∧
    (x.ended = x.n → readJcb s j = .ok (t, b) → hubWrite t j.pasid (b.btab + 8 * x.entry) (leBytes 8 (blockEntry true false x.die x.n x.first)) = .ok u →
      hubWrite u j.pasid (j.jcb + 0x08) (leBytes 8 (b.completed + x.n)) = .ok v →
        let k : Job := { j with blocks := j.blocks.filter fun y => y.entry != x.entry }
        (b.completed + x.n ≠ b.expected → exec (.blockReport j.id x.entry) s = .next (v.setJob k)) ∧
        (b.completed + x.n = b.expected → exec (.blockReport j.id x.entry) s = .next (settleWork s (endJob (v.setJob k) k { status := 0, code := 0, sub := 0, bundle := 0, idx := 0 }))))) ∧
  (∀ (s u : State) (die : Nat), die < 4 → s.deadDies.contains die = false → voidJobs die s.jobs { s with deadDies := s.deadDies ++ [die] } = .ok u →
    exec (.dieFence die) s = .next (settleWork s ((endAllWith { status := 7, code := 0, sub := 0, bundle := 0, idx := 0 }
      ((u.gaths.filter fun g => g.on.any fun c => c / 96 == die).map (·.id)) u).bind endOversized))) ∧
  (∀ (s u : State) (die : Nat), die < 4 → s.deadDies.contains die = false → voidJobs die s.jobs { s with deadDies := s.deadDies ++ [die] } = .error u → exec (.dieFence die) s = .next (s.keep u)) ∧
  ∀ (s u : State) (die : Nat) (j : Job), die < 4 → s.deadDies.contains die = false → s.jobs = [j] → s.gaths = [] → voidJobs die s.jobs { s with deadDies := s.deadDies ++ [die] } = .ok u →
    j.n ≤ inService { s with deadDies := s.deadDies ++ [die] } → ∃ t k, exec (.dieFence die) s = .next t ∧ t.deadDies = s.deadDies ++ [die] ∧ t.jobs = [k] ∧
    k.blocks = j.blocks.filter (fun x => x.die != die) ∧ k.redo = j.redo ++ (j.blocks.filter fun x => x.die == die).map (fun x => (x.first, x.n)) ∧ k.entries = j.entries

/-- Graphs. GRAPH_PACKET starts one branch at its entry node. A branch at a node takes its step: COND goes to a or b by its word, WHILE enters, leaves or
ends the graph with WHILE_LIMIT, JOIN lets only its last arrival on, END ends the branch and the graph with its last branch, KERNEL starts its job.
The model’s own readings in it: log entry 58. -/
def Obligations.GraphsRun : Prop :=
  (∀ (s : State) (p : QPacket), s.packet? p.id = some p → p.type = 3 → p.started = false → mayLaunch s p = true →
    let l := launchPacket s p
    exec (.graphPacket p.id) s = .next
      { l with fresh := l.fresh + 2,
               graphs := l.graphs ++ [{ id := l.fresh, pasid := p.pasid, packet := p.id, colophon := (p.word 0x10).toNat, branches := [(l.fresh + 1, (p.word 0x08).toNat)], done := 0, flags := 0, exits := [] }] }) ∧
  ∀ (s t : State) (g : Graph) (br va : Nat) (b : List Byte), s.graph? g.id = some g → g.branches.find? (fun x => x.1 == br) = some (br, va) →
    s.jobs.any (fun j => j.graph == some (g.id, br)) = false → va % 64 = 0 → hubRead s g.pasid va 64 = .ok (t, b) → badNode b = false →
    let others := g.branches.filter fun x => x.1 != br
    let at' := fun (w : State) (l : List Nat) => w.graph? g.id = some { g with branches := others ++ l.map fun a => (br, a) }
    let a := leField b 8 8
    let b' := leField b 0x10 8
    let count := leField b 0x24 4
    (∀ u x, leField b 0 1 = 2 → hubRead64 t g.pasid (leField b 0x18 8) = .ok (u, x) →
      ∃ w, exec (.condNode g.id br) s = .next w ∧ at' w [if x ≠ 0 then a else b'] ∧ w.mem = u.mem ∧ w.host = u.host) ∧
    (∀ u x v, leField b 0 1 = 3 → hubRead64 t g.pasid (leField b 0x18 8) = .ok (u, x) →
      (x = 0 → hubWrite u g.pasid (va + 0x24) (leBytes 4 0) = .ok v → ∃ w, exec (.whileNode g.id br) s = .next w ∧ at' w [b'] ∧ w.mem = v.mem ∧ w.host = v.host) ∧
      (x ≠ 0 → count < leField b 4 4 → hubWrite u g.pasid (va + 0x24) (leBytes 4 (count + 1)) = .ok v → ∃ w, exec (.whileNode g.id br) s = .next w ∧ at' w [a] ∧ w.mem = v.mem ∧ w.host = v.host) ∧
      (x ≠ 0 → leField b 4 4 ≤ count → exec (.whileNode g.id br) s = .next (settleWork s (endGraph u g { status := 4, code := 0, sub := 0, bundle := 0, idx := 0 })))) ∧
    (∀ v, leField b 0 1 = 4 →
      (leField b 0x20 4 + 1 = leField b 2 2 → hubWrite t g.pasid (va + 0x20) (leBytes 4 0) = .ok v → ∃ w, exec (.joinNode g.id br) s = .next w ∧ at' w [a] ∧ w.mem = v.mem ∧ w.host = v.host) ∧
      (leField b 0x20 4 + 1 ≠ leField b 2 2 → others ≠ [] → hubWrite t g.pasid (va + 0x20) (leBytes 4 (leField b 0x20 4 + 1)) = .ok v →
        ∃ w, exec (.joinNode g.id br) s = .next w ∧ at' w [] ∧ w.mem = v.mem ∧ w.host = v.host)) ∧
    (leField b 0 1 = 5 → others ≠ [] → ∃ w, exec (.endNode g.id br) s = .next w ∧ at' w []) ∧
    (∀ p, leField b 0 1 = 5 → others = [] → (∀ j ∈ s.jobs, j.graph.map (·.1) ≠ some g.id) → g.colophon = 0 → s.packet? g.packet = some p → p.sig = false → ∃ w, exec (.endNode g.id br) s = .next w ∧ w.graph? g.id = none ∧ w.packet? g.packet = none) ∧
    ∀ u r v w, leField b 0 1 = 1 → hubRead t g.pasid (leField b 0x18 8) 64 = .ok (u, r) →
      let p : QPacket := { id := 0, slot := 0, pasid := g.pasid, words := slotWords r, started := false }
      p.type = 2 → badPacket p = false → prepareJcb u g.pasid (p.word 0x18).toNat ((p.word 0x10).toNat / 2 ^ 32) = .ok v → startJob v g.pasid p.word none (some (g.id, br)) = .ok w →
        exec (.kernelNode g.id br) s = .next w

/-- The energy budget: a window's end takes up the allowance written for it, less the debt, and clears every queue's use and all pacing; pacing freezes
every running core; an allowance takes effect at the next window and never exceeds 2.8 J. The model’s own readings in it: log entry 11. -/
def Obligations.EnergyBudget : Prop :=
  (∀ s : State, ∃ t, exec .energyWindowEnd s = .next t ∧ t.budget.allowance = s.budget.nextAllowance ∧ t.budget.nextAllowance = s.budget.nextAllowance ∧ t.budget.left + t.budget.debt = max t.budget.left t.budget.debt ∧
    t.budget.left ≤ s.budget.nextAllowance - s.budget.debt ∧ t.budget.window = s.budget.window + 1 ∧ t.budget.empty = true ∧ t.budget.pacing = false ∧
    (∀ i, t.qcb i = { s.qcb i with used := 0 }) ∧ (∀ c, t.core c = { (s.core c) with paced := false }) ∧ SameMemory s t) ∧
  (∀ (s : State) (on : Bool), ∃ t, exec (.energyPacing on) s = .next t ∧ (∀ c, t.core c = { (s.core c) with paced := on && (s.core c).run == .running }) ∧
    (on = true → ∀ c, (s.core c).run = .running → (s.core c).stopping = false → (s.core c).debugHalt = false → (s.core c).powerGated = false → ∃ u, exec .bundleIssue { t with cur := c } = .next u ∧ (u.core c).freeze = .pacing ∧ (u.core c).arch = (s.core c).arch ∧ SameMemory s u)) ∧
  ∀ (s : State) (v : Nat), exec (.energyAllowanceWrite v) s = .next { s with budget := { s.budget with nextAllowance := min v 2800000 } }

/-! ### The fabric -/

/-- Requests at their home: a WRITE, READ or ATOMIC for this module whose number is new, with room in the reverse flow for an answer, is performed through
the PASID's window, its number leaves the window and the SACK is sent; a READ and an ATOMIC are answered in the reverse flow; one that faults is
answered by a NAK with code and subcode and leaves its number open; one that waits for a page leaves nothing. A duplicate changes no memory: the SACK,
and the answer if it is kept, are sent again. The model’s own readings in it: log entries 29, 33 and 59. -/
def Obligations.RequestsServed : Prop :=
  ∀ (s : State) (p : Packet), p.dst.toNat / 4 = s.module →
    let die := p.dst.toNat % 4
    let pasid := p.pasid.toNat
    let new := keptAnswer s p = none ∧ (s.flow (pKey p)).window p.fseq.toNat = .fresh ∧ (s.flow (pKey p)).base < 2 ^ 32 ∧ (s.flow (pKey p)).unacked.length < 64
    let old := (keptAnswer s p).isSome = true ∨ (s.flow (pKey p)).window p.fseq.toNat = .duplicate
    let performed := fun (w : State) (more : List Packet) => w.cores = s.cores ∧ (w.flow (pKey p)).window p.fseq.toNat = .duplicate ∧
      ∃ k, w.tx = s.tx ++ k :: more ∧ k.op = 6 ∧ k.dst = p.src ∧ k.fseq.toNat = (w.flow (pKey p)).base
    let answers := fun (a : Packet) => a.dst = p.src ∧ a.pasid = p.pasid ∧ a.cmp.toNat = p.fseq.toNat
    let is := fun (i : Instr) => (i = .fabricWrite p ∧ p.op = 1 ∧ p.timetabled = false ∧ p.data.length = p.len1.toNat + 1) ∨ (i = .fabricRead p ∧ p.op = 2) ∨ (i = .atomic p ∧ p.op = 4 ∧ p.aop.toNat ≤ 7)
    (∀ base t l, new → s.windows.get none pasid = some base → p.op = 1 → p.timetabled = false → p.data.length = p.len1.toNat + 1 →
      agentPlaces (fabricAgent die 54) pasid true false (ranges (base + p.va.toNat) (p.len1.toNat + 1)) s = .ok (t, l) →
        ∃ w, exec (.fabricWrite p) s = .next w ∧ performed w [] ∧ w.mem = (writePlaces l p.data t).mem ∧ w.host = (writePlaces l p.data t).host) ∧
    (∀ base t l, new → s.windows.get none pasid = some base → p.op = 2 → agentPlaces (fabricAgent die 55) pasid false false (ranges (base + p.va.toNat) (p.len1.toNat + 1)) s = .ok (t, l) →
      ∃ w a, exec (.fabricRead p) s = .next w ∧ performed w [a] ∧ w.mem = t.mem ∧ w.host = t.host ∧ a.op = 3 ∧ answers a ∧ a.data = l.flatMap fun x => t.readAt x.1 x.2) ∧
    (∀ base t e, new → s.windows.get none pasid = some base → p.op = 4 → p.aop.toNat ≤ 7 ∨ p.aop.toNat = 10 →
      let size := if p.w32 then 4 else 8
      (base + p.va.toNat) % size = 0 → agentLeaf s (fabricAgent die 53) pasid (base + p.va.toNat) (p.aop != 10) = .ok (t, e) →
        let q := leafPlace t pasid e (base + p.va.toNat)
        let was := ofLeBytes (t.readAt q size)
        let u := if p.aop = 10 ∨ (p.aop = 5 ∧ was ≠ p.cmp.toNat % 2 ^ (8 * size)) then t else t.writeAt q (leBytes size (atomicNew (0x35C + p.aop.toNat) size was p.operand.toNat p.cmp.toNat))
        ∃ w a, exec (.atomic p) s = .next w ∧ performed w [a] ∧ w.mem = u.mem ∧ w.host = u.host ∧ a.op = 5 ∧ answers a ∧ a.operand.toNat = was) ∧
    (∀ i code sub t, is i → new → serve s p false false = .error (.fault code sub t) → code < 256 → ∃ w a, exec i s = .next w ∧ w.tx = t.tx ++ [a] ∧ w.mem = (s.keep t).mem ∧ w.host = s.host ∧ w.cores = s.cores ∧ (w.flow (pKey p)).window p.fseq.toNat = .fresh ∧ a.op = 8 ∧
      answers a ∧ a.va = p.va ∧ a.operand.toNat = code * 2 ^ 56 + sub % 2 ^ 16 * 2 ^ 40) ∧
    (∀ i t, is i → new → serve s p false false = .error (.wait t) → exec i s = .next (s.keep t)) ∧
    ∀ i, is i → old → ∃ w, exec i s = .next w ∧ w.tx = s.tx ++ sackPacket s (pKey p) :: (keptAnswer s p).toList ∧ { w with tx := s.tx } = s

/-- Shard runs at their target. An entry at the run's version decides at once: a run that the node owns, at the base and strides of its box, is served,
one of a newer version than the entry's is held, any other answered SHARD_MOVED with the entry's version. A held run is decided again from a fresh
read, and at its timeout is answered SHARD_MOVED. The model’s own readings in it: log entries 29, 30 and 59. -/
def Obligations.ShardRunsDecided : Prop :=
  (∀ (s t : State) (q : Asked) (again : Bool) (e : Tid), targetEntry s (q.node % 4) q.pasid q.tid q.mapver again = .ok (t, e) → tidFault e [] = none → e.nshard = 0 →
    decideRun s q again = .ok (t, if ownsRun q e [] then .serve (e.layout == 2) else if olderVersion e.mapver q.mapver then .hold else .moved e.mapver)) ∧
  (∀ (q : Asked) (g : RunGeom) (e : Tid) (m : List Shard), q.geom = some g →
    (e.nshard = 0 → (ownsRun q e m = true ↔ e.base = g.tbase ∧ e.strides.take e.rank = g.tst.take e.rank)) ∧
    (e.nshard ≠ 0 → boxOf e m g.first = none → ownsRun q e m = false) ∧
    ∀ k x, e.nshard ≠ 0 → boxOf e m g.first = some k → m[k]? = some x → (ownsRun q e m = true ↔ x.node = q.node ∧ x.tbase = g.tbase ∧ x.tst.take e.rank = g.tst.take e.rank)) ∧
  (∀ (s t : State) (p : Packet), p.dst.toNat / 4 = s.module → keptAnswer s p = none → (s.flow (pKey p)).window p.fseq.toNat = .fresh → (s.flow (pKey p)).unacked.length < 64 →
    (s.runs.any fun x => x.p == p) = false → p.op = 2 ∨ (p.op = 1 ∧ p.data.length = p.len1.toNat + 1) → p.timetabled = false →
      (decide' s p false = .ok (t, .hold) → (t.runs.any fun x => x.p == p) = false → exec (.runReceive p) s = .next { t with runs := t.runs ++ [{ p := p, own := none }] }) ∧
      (∀ v, decide' s p false = .ok (t, .moved v) → ∃ w a, exec (.runReceive p) s = .next w ∧ w.tx = t.tx ++ [a] ∧ a.op = 7 ∧ a.mapver.toNat = v % 2 ^ 32 ∧ a.dst = p.src ∧ a.cmp.toNat = p.fseq.toNat ∧ w.mem = t.mem) ∧
      ∀ u d b, decide' s p false = .ok (t, .serve b) → serve (dropRun t p) p true b = .ok (u, d) → exec (.runReceive p) s = .next (acceptServed u p d)) ∧
  ∀ (s t : State) (k : Nat) (p : Packet), s.runs[k]? = some { p := p, own := none } → p.timetabled = false → s.landing = [] → (s.flow (pKey p)).unacked.length < 64 →
    (decide' s p true = .ok (t, .hold) → (t.runs.any fun x => x.p == p) = true → exec (.shardHoldReread k) s = .next t) ∧
    (∀ u d b, decide' s p true = .ok (t, .serve b) → serve (dropRun t p) p true b = .ok (u, d) → exec (.shardHoldReread k) s = .next (acceptServed u p d)) ∧
    ∀ e, targetEntry s (p.dst.toNat % 4) p.pasid.toNat p.tid.toNat p.mapver.toNat false = .ok (t, e) →
      ∃ w a, exec (.shardHoldTimeout k) s = .next w ∧ w.runs = t.runs.filter (fun x => x.p != p) ∧ w.tx = t.tx ++ [a] ∧ a.op = 7 ∧ a.mapver.toNat = e.mapver % 2 ^ 32

/-- Answers at the core whose operation asked: RDATA and ARESP fill the run that their number names; MOVED drops the entry of its TID from the core's
cache and the requests of that run that have no answer, to be resolved again from the version it carries, and a run retried already ends in SHARD_MISS
subcode 2; a NAK parks the operation with its code. Waiting past its time for a newer entry, which is then still older than the version that the
SHARD_MOVED carried, parks it with SHARD_MISS subcode 3. Flows. A SACK releases every packet it covers and counts a covered WRITE toward its
operation. A packet unacknowledged is sent again four times and then parks its operation with FABRIC_UNREACHABLE subcode 1. A BARRIER adds its
module's arrival to the gathering and a READY is held, each once. The model’s own readings in it: log entries 19, 28, 29, 31 and 49. -/
def Obligations.AnswersAndFlows : Prop :=
  ((∀ (s : State) (p : Packet) (c id : Nat) (o : Op), p.dst.toNat / 4 = s.module → (s.flow (pKey p)).window p.fseq.toNat = .fresh → requester s p = some (.op c id) → s.op c id = some o →
    let taken := fun (i : Instr) (f : State → Op → Prop) => ∃ w k u, exec i s = .next w ∧ w.tx = s.tx ++ [k] ∧ k.op = 6 ∧ w.op c id = some u ∧ f w u
    let filled := fun (d : List Byte) => { o with runs := o.runs.map fun r => if r.dest.node = p.src.toNat ∧ r.fseq = p.cmp.toNat ∧ r.answer = none then { r with answer := some d } else r }
    (p.op = 3 → taken (.rdata p) fun _ u => u = filled p.data) ∧
    (p.op = 5 → taken (.aresp p) fun _ u => u = filled (leBytes 8 p.operand.toNat)) ∧
    (∀ r, p.op = 7 → o.isParked = false → o.err = none → o.runs.find? (fun r => r.dest.node == p.src.toNat && r.fseq == p.cmp.toNat) = some r → r.dest.retried = false →
      taken (.moved p) fun w u => u.moved = { dest := r.dest, version := p.mapver.toNat, coords := (o.memo.filter fun x => x.geom.map (·.id) == r.dest.geom.map (·.id)).map (·.coords), boxes := ((o.memo.filter fun x => x.geom.map (·.id) == r.dest.geom.map (·.id)).getLast?.map (·.boxes)).getD [] } :: o.moved ∧
        u.runs = o.runs.filter (fun x => x.answer.isSome || x.dest.geom.map (·.id) != r.dest.geom.map (·.id)) ∧ u.st = o.st ∧ ∀ x ∈ (w.core c).tids, x.1 ≠ r.dest.tid) ∧
    (p.op = 8 → o.isParked = false → o.err = none → o.port ≠ 0x3A6 → o.isMe = false → engineFree (s.core c) o = true → taken (.nak p) fun w u => ∃ n x, u.st = .parked n ∧
      u.runs = o.runs.filter (fun r => !(r.dest.node == p.src.toNat && r.fseq == p.cmp.toNat)) ∧ (w.core c).slot n = some x ∧ x.code = p.operand.toNat / 2 ^ 56 ∧ x.sub = p.operand.toNat / 2 ^ 40 % 2 ^ 16)) ∧
  (∀ (s : State) (c id : Nat) (o : Op) (r : Run) (v : BitVec 32), s.op c id = some o → o.isParked = false → o.err = none → o.runs.find? (fun r => r.answer.isNone) = some r →
    (r.dest.retried = false → ∃ w u, exec (.shardMovedReceive c id v) s = .next w ∧ w.op c id = some u ∧ u.st = o.st ∧
      u.moved = { dest := r.dest, version := v.toNat, coords := (o.memo.filter fun x => x.geom.map (·.id) == r.dest.geom.map (·.id)).map (·.coords), boxes := ((o.memo.filter fun x => x.geom.map (·.id) == r.dest.geom.map (·.id)).getLast?.map (·.boxes)).getD [] } :: o.moved) ∧
    (r.dest.retried = true → o.port ≠ 0x3A6 → o.isMe = false → engineFree (s.core c) o = true → ∃ w n x, exec (.shardMovedReceive c id v) s = .next w ∧ (w.op c id).map (·.st) = some (.parked n) ∧ (w.core c).slot n = some x ∧
      x.code = 0x15 ∧ x.sub = 2)) ∧
  ∀ (s : State) (c id : Nat) (o : Op), s.op c id = some o →
    ((∀ x ∈ o.moved, x.coords = []) → exec (.shardRequesterReread c id) s = .next s) ∧ ((∀ x ∈ o.moved, x.coords = [] ∨ stillOld s c id o x = false) → exec (.shardRequesterTimeout c id) s = .next s) ∧
    (∀ v, v ∈ o.moved → v.coords ≠ [] → stillOld s c id o v = true → o.err = none → o.port ≠ 0x3A6 → o.isMe = false → engineFree (s.core c) o = true → ∃ w n x, exec (.shardRequesterTimeout c id) s = .next w ∧ (w.op c id).map (·.st) = some (.parked n) ∧ (w.core c).slot n = some x ∧ x.code = 0x15 ∧ x.sub = 3) ∧
    ∀ t v, v ∈ o.moved → v.coords ≠ [] → o.late = [] → o.taken = [] → mayRun (s.core c) o = true → isFifoOp o.port = false → o.prog < unitsOf s c id o → opUnit s c id o = .ok t →
      exec (.shardRequesterReread c id) s = .next (t.modOp c id Op.advance)) ∧
  ((∀ (s : State) (p : Packet), p.op = 6 → p.dst.toNat / 4 = s.module →
    ∃ w, exec (.sack p) s = .next w ∧ (w.flow (pKey p)).unacked = (s.flow (pKey p)).unacked.filter (fun u => !covers p u.1.fseq.toNat) ∧
      ∀ q n c id o, (s.flow (pKey p)).unacked.filter (fun u => covers p u.1.fseq.toNat) = [(q, n, c, id)] → q.op = 1 → c < 384 → s.op c id = some o → w.op c id = some (answerRun q.dst.toNat q.fseq.toNat [] o)) ∧
  (∀ (s : State) (dst fseq : Nat),
    let l := (s.flow dst).unacked
    (l.find? (fun u => u.1.fseq.toNat == fseq) = none → exec (.sprayRetransmitTimer dst fseq) s = .next s) ∧
    ∀ q n c id, l.find? (fun u => u.1.fseq.toNat == fseq) = some (q, n, c, id) →
      (n < 5 → ∃ w, exec (.sprayRetransmitTimer dst fseq) s = .next w ∧ w.tx = s.tx ++ [q] ∧ (w.flow dst).unacked = l.map fun u => if u.1.fseq.toNat = fseq then (q, n + 1, c, id) else u) ∧
      ∀ o, 5 ≤ n → c < 384 → s.op c id = some o → o.isParked = false → o.err = none → (o.runs.any fun r => r.dest.node == q.dst.toNat && r.fseq == fseq) = true → o.port ≠ 0x3A6 → o.isMe = false → engineFree (s.core c) o = true →
        ∃ w m x, exec (.sprayRetransmitTimer dst fseq) s = .next w ∧ w.tx = s.tx ∧ (w.flow dst).unacked = l.filter (fun u => u.1.fseq.toNat != fseq) ∧ (w.op c id).map (·.st) = some (.parked m) ∧
          (w.core c).slot m = some x ∧ x.code = 0x40 ∧ x.sub = 1) ∧
  ∀ (s : State) (p : Packet), p.dst.toNat / 4 = s.module → keptAnswer s p = none → (s.flow (pKey p)).window p.fseq.toNat = .fresh →
    (∀ g, p.op = 9 → s.gath? p.operand.toNat = some g → g.fabric.contains (p.src.toNat / 4, p.cmp.toNat) = false → ∃ w k, exec (.fabricBarrier p) s = .next w ∧ w.tx = s.tx ++ [k] ∧ k.op = 6 ∧
      w.gath? g.id = some { g with fabric := g.fabric ++ [(p.src.toNat / 4, p.cmp.toNat)] }) ∧
    (p.op = 10 → s.readies.contains (p.operand.toNat, p.src.toNat / 4) = false → ∃ w k, exec (.ready p) s = .next w ∧ w.tx = s.tx ++ [k] ∧ k.op = 6 ∧ w.readies = s.readies ++ [(p.operand.toNat, p.src.toNat / 4)]))

/-- Every field of a header is read back from a HEAD flit, and what a flit is made of from the flit: its CRC agrees. Links. A good flit is numbered and
taken, passed on by the hub's router where its table says so, in this slot or, if it is taken, in a later one of the same table; a reserved type is
counted for its link and dropped; a damaged one asks for its first supplement. A request is answered with parity, the newest kept flit of its number
or LOST; retention ends with the oldest of a number. Link control leaves in FREE and guard slots, a resend in FREE slots, and waits for one else. A
supplement with which the flit decodes delivers it, else the next stage is asked for. LOST gives the flit up. A retrained link holds nothing and
carries nothing until it is done. A circuit's slot sends its next flit on the links that the tables name, or VOID. The model’s own readings in it: log
entries 40 and 43. -/
def Obligations.LinksRun : Prop :=
  ((∀ p : Packet, packetOfHeader (headerBody p) = { p with data := [], run := none, gath := 0 }) ∧
  ∀ (type lseq : Nat) (body : BitVec 448), type < 16 → lseq < 4096 →
    crcOk (mkFlit type lseq body) = true ∧ flitType (mkFlit type lseq body) = type ∧ flitLseq (mkFlit type lseq body) = lseq ∧ flitBody (mkFlit type lseq body) = body) ∧
  ((∀ (s : State) (port : Nat) (x : InFlit), (s.link port).retraining = false → (s.link port).damaged = [] → (s.link port).queue = [] → (s.link port).transit = [] → s.landing = [] →
    let l := s.link port
    let f := x.bits
    let stream := x.stream
    let p := { packetOfHeader (flitBody f) with run := x.run, gath := x.gath }
    let sends := fun (w : State) (resend : Bool) (x : BitVec 512) =>
      if slotOpen s port = true ∧ (freeSlot s port = true ∨ (resend = false ∧ s.time % 32 = 31)) then (w.link port).queue = [] ∧ (w.link port).out = l.out ++ [if resend then x else numberFlit x l.txSeq]
      else (w.link port).queue = [(resend, x)] ∧ (w.link port).out = l.out
    let next := s.setLink port { l with rxSeq := (flitLseq f + 1) % 4096 }
    (crcOk f = true → 7 ≤ flitType f → exec (.flitReceive port x) s = .next (next.count (16 + port))) ∧
    (crcOk f = true → 1 ≤ flitType f → flitType f ≤ 3 → (l.lane stream).items = [] → ∀ q, routes s (s.time % 256) 8 0 port = [.link q] → ∃ w, exec (.flitReceive port x) s = .next w ∧
      (slotOpen s q = true → (w.link port).transit = [] ∧ (w.link q).out = (s.link q).out ++ [numberFlit f (s.link q).txSeq] ∧ (w.link q).slotAt = some s.time) ∧
      (slotOpen s q = false → (w.link port).transit = [(s.time % 256, stream, f)] ∧ (w.link q).out = (s.link q).out)) ∧
    (crcOk f = true → (l.lane stream).items = [] → routerOutputs s 0 (s.time % 256) port = [] →
      (flitType f = 3 → exec (.flitReceive port x) s = .next next) ∧
      (flitType f = 1 → (l.lane stream).part = none → hasPayload p.op = true → ∃ w, exec (.flitReceive port x) s = .next w ∧
        (w.link port).rxSeq = (flitLseq f + 1) % 4096 ∧ ((w.link port).lane stream).part = some { head := p, got := [], broken := false, skipped := 0, landed := 0 }) ∧
      (flitType f = 1 → (l.lane stream).part = none → hasPayload p.op = false →
        exec (.flitReceive port x) s = .next (delivered p (next.modLane port stream fun x => { x with part := none })))) ∧
    (crcOk f = false → ∃ w, exec (.flitReceive port x) s = .next w ∧ sends w false (controlFlit 5 l.rxSeq 1 0) ∧ (w.link port).rxSeq = (l.rxSeq + 1) % 4096 ∧
      (w.link port).damaged = [{ lseq := l.rxSeq, flit := x, slot := s.time % 256, waitNo := 1, parity := none, resends := 0 }]) ∧
    ∀ q n, (l.kept.find? (fun x => x.1 == q) = none → ∃ w, exec (.lreq port q n) s = .next w ∧ sends w false (controlFlit 6 q 0 0)) ∧
      ∀ k x, l.kept.reverse.find? (fun x => x.1 == q) = some (k, x) →
        let parity := rsParity (leBytes 64 x.toNat)
        ∃ w, exec (.lreq port q n) s = .next w ∧ (if n = 1 then sends w false (controlFlit 4 q 0 (BitVec.ofNat 128 (leField parity 0 16)))
          else if n = 2 then sends w false (controlFlit 4 q 1 (BitVec.ofNat 128 (leField parity 16 16))) else sends w true x)) ∧
  (∀ (s : State) (port part : Nat) (parity : BitVec 128) (d : Damaged) (r : List Damaged), (s.link port).damaged = d :: r → (s.link port).retraining = false → d.waitNo = part + 1 → part < 2 →
    let lo := d.parity.getD parity
    let x := BitVec.ofNat 512 (ofLeBytes (rsDecode (leBytes 64 d.flit.bits.toNat) (leBytes 16 lo.toNat) (if part = 1 then some (leBytes 16 parity.toNat) else none)))
    (crcOk x = true → exec (.supp port d.lseq part parity) s = .next (recovered s port d x)) ∧
    (crcOk x = false → exec (.supp port d.lseq part parity) s = .next (sendControl (setDamaged s port { d with waitNo := part + 2, parity := some lo }) port 5 d.lseq (part + 2) 0))) ∧
  (∀ (s : State) (port q : Nat), ((s.link port).damaged.find? (fun d => d.lseq == q) = none → exec (.lost port q) s = .next s) ∧
    ∀ d, (s.link port).damaged.find? (fun d => d.lseq == q) = some d → (s.link port).lane d.flit.stream = { items := [.waits q], part := none, passing := 0 } → passLinks s d.slot port = [] → ∃ w, exec (.lost port q) s = .next w ∧
      (w.link port).damaged = (s.link port).damaged.filter (fun x => x.lseq != q) ∧ (w.link port).lane d.flit.stream = Lane.empty) ∧
  (∀ (s : State) (port q : Nat), ((∀ x ∈ (s.link port).kept, x.1 ≠ q) → ∃ w, exec (.flitRetentionExpiry port q) s = .next w ∧ w.link port = s.link port) ∧
    ∀ a f b, (s.link port).kept = a ++ (q, f) :: b → (∀ x ∈ a, x.1 ≠ q) → ∃ w, exec (.flitRetentionExpiry port q) s = .next w ∧ w.link port = { s.link port with kept := a ++ b }) ∧
  (∀ (s : State) (port : Nat), (s.link port).damaged = [] → (∀ x ∈ (s.link port).lanes.cells, x.2.passing = 0) → ∃ w, exec (.linkRetrain port) s = .next w ∧ (w.link port).retraining = true ∧ (w.link port).kept = [] ∧ (w.link port).queue = [] ∧ (w.link port).out = (s.link port).out ∧
    ∀ f x, sendFlit w port f = w ∧ exec (.flitReceive port x) w = .next w) ∧
  (∀ (s : State) (port : Nat), ∃ w, exec (.linkRetrainDone port) s = .next w ∧ w.link port = { s.link port with retraining := false }) ∧
  ∀ (s : State) (circ : Nat),
    let c := s.circuits.get .none circ
    let slot := s.time % 256
    let due := c.valid = true ∧ c.slots.getLsbD slot = true ∧ slot % 32 ≠ 31
    (¬ due → exec (.circuitSlotInject circ) s = .next s) ∧
    (due → s.timetabled.find? (fun t => t.circ == circ) = none → exec (.circuitSlotInject circ) s = .next (sendOn (voidLinks s circ) (mkFlit 3 0 0) s)) ∧
    ∀ t f r, due → s.timetabled.find? (fun t => t.circ == circ) = some t → t.flits = f :: r →
      let links := injectLinks s (t.core / 96) (t.core / 12 % 8)
      ((∃ q ∈ links, slotOpen s q = false) → exec (.circuitSlotInject circ) s = .next s) ∧
      ((∀ q ∈ links, slotOpen s q = true) → ∃ w, exec (.circuitSlotInject circ) s = .next w ∧ (r = [] → w.timetabled = s.timetabled.erase t) ∧
        (r ≠ [] → w.timetabled = s.timetabled.map fun x => if x = t then { t with flits := r } else x) ∧
        ∀ q, links = [q] → (w.link q).out = (s.link q).out ++ [numberFlit f (s.link q).txSeq] ∧ (w.link q).txSeq = ((s.link q).txSeq + 1) % 4096 ∧ (w.link q).slotAt = some s.time))

/-! ### Firmware, checkpoints, power -/

/-- The mailbox: a command with valid arguments has its effect and leaves status 2; one with invalid arguments leaves error 2 and one whose table or data
is refused error 3, and binds nothing; while another command runs, go is rejected with error 1. The model’s own readings in it: log entries 10 and 41. -/
def Obligations.FirmwareBinds : Prop :=
  ∀ s : State,
    let idle := (s.mailbox.get 0 8).getLsbD 0 = false
    let mail := fun (w : State) (n : Nat) => (w.mailbox.get 0 8).toNat = n
    (∀ pasid root table : Word,
      let ok := pasid.toNat < 2 ^ 20 ∧ root.toNat % 0x200000 = 0 ∧ root.toNat < 2 ^ 52 ∧ table.toNat % 4096 = 0 ∧ canonical table.toNat = true
      let tearing := (s.pasids.get .none pasid.toNat).tearing || s.qcbs.cells.any fun x => x.2.state == 2 && x.2.pasid == pasid.toNat
      ∃ w, exec (.pasidBind pasid root table) s = .next w ∧
        (idle → ok → tearing = false → mail w 2 ∧ w.pasids.get .none pasid.toNat = { root := some root.toNat, table := table.toNat, tearing := false } ∧
          ∀ n, n ≠ pasid.toNat → w.pasids.get .none n = s.pasids.get .none n) ∧
        (idle → ok → tearing = true → mail w 1 ∧ w.pasids = s.pasids) ∧ (idle → ¬ ok → mail w 0x202 ∧ w.pasids = s.pasids) ∧
        ((s.mailbox.get 0 8).getLsbD 0 = true → mail w 0x101 ∧ w.pasids = s.pasids ∧ w.command = s.command)) ∧
    (∀ pasid queue m ring prio ecap : Word, idle → pasid.toNat < 2 ^ 20 → queue.toNat < 65536 → 4 ≤ m.toNat → m.toNat ≤ 20 → ring.toNat % 0x10000 = 0 → canonical ring.toNat = true → prio.toNat < 8 →
      ∃ w, exec (.qcbCreate pasid queue m ring prio ecap) s = .next w ∧
        (∀ i, qcbFind s pasid.toNat queue.toNat = none → (qcbSlots pasid.toNat queue.toNat).find? (fun i => (s.qcb i).state == 0) = some i → mail w 2 ∧
          w.qcb i = { Qcb.free with state := 1, prio := prio.toNat, cur := prio.toNat, pasid := pasid.toNat, queue := queue.toNat, m := m.toNat, ring := ring.toNat, ecap := ecap.toNat }) ∧
        ((qcbFind s pasid.toNat queue.toNat).isSome = true ∨ (∀ i ∈ qcbSlots pasid.toNat queue.toNat, (s.qcb i).state ≠ 0) → mail w 0x302 ∧ w.qcbs = s.qcbs)) ∧
    (∀ pasid queue : Word, idle → s.qcbs.rising = true → ∃ w, exec (.qcbDestroy pasid queue) s = .next w ∧ (qcbFind s pasid.toNat queue.toNat = none → mail w 0x202 ∧ w.qcbs = s.qcbs) ∧
      ∀ i, qcbFind s pasid.toNat queue.toNat = some i → mail w 2 ∧ ((s.qcb i).outst = 0 → (s.pasids.get .none pasid.toNat).tearing = false → (w.qcb i).state = 0) ∧
        ((s.qcb i).outst ≠ 0 → w.qcb i = { s.qcb i with state := 2 })) ∧
    (∀ aperture pasid : Word, idle → ∃ w, exec (.notifyBind aperture pasid) s = .next w ∧
      (aperture.toNat < 4096 → pasid.toNat < 2 ^ 20 → mail w 2 ∧ w.apertures.get none aperture.toNat = some pasid.toNat) ∧ (4096 ≤ aperture.toNat ∨ 2 ^ 20 ≤ pasid.toNat → mail w 0x202 ∧ w.apertures = s.apertures)) ∧
    (∀ slice pasid base : Word, idle → ∃ w, exec (.sliceBind slice pasid base) s = .next w ∧
      (slice.toNat < 64 → pasid.toNat < 2 ^ 20 → mail w 2 ∧ w.slices.get none slice.toNat = some (pasid.toNat, base.toNat)) ∧ (64 ≤ slice.toNat ∨ 2 ^ 20 ≤ pasid.toNat → mail w 0x202 ∧ w.slices = s.slices)) ∧
    (∀ pasid base : Word, idle → ∃ w, exec (.window pasid base) s = .next w ∧
      (pasid.toNat < 2 ^ 20 → base.toNat % 2 ^ 37 = 0 → canonical base.toNat = true → mail w 2 ∧ w.windows.get none pasid.toNat = some base.toNat) ∧ (base.toNat % 2 ^ 37 ≠ 0 → mail w 0x202 ∧ w.windows = s.windows)) ∧
    (∀ (va : Word) t nonce u, idle → hubRead (setMail s (mailArgs 0x0A [va]) 0) s.savePasid va.toNat 32 = .ok (t, nonce) →
      let m := shake256 (Config.measurement t.policyLoaded ++ nonce) 32
      hubWrite t t.savePasid (va.toNat + 32) (withSignature m) = .ok u → ∃ w, exec (.identity va) s = .next w ∧ mail w 2 ∧ w.mem = u.mem ∧ w.host = u.host) ∧
    ∀ (members domain : Word) t a u b, idle → hubRead (setMail s (mailArgs 0x0B [members, domain]) 0) s.savePasid members.toNat 1024 = .ok (t, a) → hubRead t t.savePasid domain.toNat 1024 = .ok (u, b) →
      let ok := (∀ x ∈ bitmapList b, x ∈ bitmapList a) ∧ (bitmapList b).length ≤ 256 ∧ u.module ∈ bitmapList b
      ∃ w, exec (.fabricMembers members domain) s = .next w ∧ (ok → mail w 2 ∧ w.members = bitmapList a ∧ w.domain = bitmapList b) ∧ (¬ ok → mail w 0x202 ∧ w.members = s.members ∧ w.domain = s.domain)

/-- HBM maps, slot tables and circuits: a table that meets its rules is taken and a broken one refused with error 3. A map takes effect once no access to
its stack is in flight, a slot table once no circuit transfer is, sent, received, passed on or still to land, at its activation time. The model’s own
readings in it: log entry 41. -/
def Obligations.TablesTakeEffect : Prop :=
  ∀ s : State,
    let idle := (s.mailbox.get 0 8).getLsbD 0 = false
    let mail := fun (w : State) (n : Nat) => (w.mailbox.get 0 8).toNat = n
    (∀ (stack va : Word) t d, idle → stack.toNat < 8 → hubRead (setMail s (mailArgs 4 [stack, va]) 0) s.savePasid va.toNat 128 = .ok (t, d) →
      let l := (List.range 16).map fun i => BitVec.ofNat 64 (leField d (8 * i) 8)
      ∃ w, exec (.hbmMap stack va) s = .next w ∧ w.regions = s.regions ∧ (mapOk l = true → mail w 2 ∧ w.newRegions.find? stack.toNat = some l) ∧ (mapOk l = false → mail w 0x302 ∧ w.newRegions = s.newRegions)) ∧
    (∀ (stack : Nat) l, s.newRegions.find? stack = some l → (stackBusy s stack = true → exec (.hbmMapEffect stack) s = .next s) ∧
      (stackBusy s stack = false → ∃ w, exec (.hbmMapEffect stack) s = .next w ∧ w.newRegions.find? stack = none ∧
        (∀ k, k < 16 → w.regions.get (regionReset (16 * stack + k)) (16 * stack + k) = l.getD k 0) ∧
        ((∀ k, k < 16 → regionChanged (s.regions.get (regionReset (16 * stack + k)) (16 * stack + k)) (l.getD k 0) = false) → w.mem = s.mem))) ∧
    (∀ (router va time : Word) t d, idle → router.toNat < 5 → time.toNat % 256 = 0 → hubRead (setMail s (mailArgs 5 [router, va, time]) 0) s.savePasid va.toNat 4096 = .ok (t, d) →
      let l := (List.range 256).map fun i => BitVec.ofNat 128 (leField d (16 * i) 16)
      let bad := ((List.range 256).zip l).any fun x => entryBad (router.toNat == 0) (x.1 % 32 == 31) x.2
      ∃ w, exec (.slotTable router va time) s = .next w ∧ w.slotTabs = s.slotTabs ∧ (bad = true → mail w 0x302 ∧ w.slotNext = s.slotNext) ∧
        (bad = false → (∀ x ∈ s.circuits.cells, guardedCircuit x.2 = false) → mail w 2 ∧ w.slotNext.find? router.toNat = some l ∧ w.slotTime = time.toNat)) ∧
    (s.timetabled ≠ [] ∨ s.landing ≠ [] ∨ (∃ p k, (p, k) ∈ s.links.cells ∧ (k.transit ≠ [] ∨ ∃ y ∈ k.lanes.cells, y.2.items ≠ [] ∨ 0 < y.2.passing ∨ ∃ a, y.2.part = some a ∧ a.head.timetabled = true)) →
      exec .slotTableActivate s = .next s) ∧
    (∀ r l, circuitsBusy s = false → s.slotNext.cells = [(r, l)] → ∃ w, exec .slotTableActivate s = .next w ∧ w.slotTabs.get [] r = l ∧ w.slotNext = .empty ∧ w.time = (if reached s.time s.slotTime then (s.time + 255) / 256 * 256 % 2 ^ 64 else s.slotTime) ∧
      ∀ q, q ≠ r → w.slotTabs.get [] q = s.slotTabs.get [] q) ∧
    ∀ (circ va : Word) t d, idle → circ.toNat ≠ 0 → circ.toNat < 256 → hubRead (setMail s (mailArgs 6 [circ, va]) 0) s.savePasid va.toNat 64 = .ok (t, d) →
      let c : Circuit := { slots := BitVec.ofNat 256 (leField d 0 32), target := leField d 32 2 % 2 ^ 15, valid := leField d 34 1 % 2 == 1 }
      ∃ w, exec (.circuit circ va) s = .next w ∧ (guardedCircuit c = false → mail w 2 ∧ w.circuits.get .none circ.toNat = c) ∧ (guardedCircuit c = true → mail w 0x302 ∧ w.circuits = s.circuits)

/-- Checkpoints. CHECKPOINT_PACKET, its plan read and every page of its shards found, places the shards, marks the pages copy-on-write, requests a REFRESH
of each shard and completes; while one is in progress a second waits; a cut first pre-empts what is resident and waits until the fabric has drained; a
plan that breaks R387 completes with BAD_PACKET. A page copy holds a page that still has its cow by setting migrating, so that writers wait, and
writes the page's bytes, read at its node for a page of kind 4, or its old frame's where a duplication came first, to the NV module and clears cow and
migrating; a generation too large is discarded. MANIFEST_COMMIT makes the generation VALID and the other slot's SUPERSEDED and decrements dsig; one
that does not verify is invalid. The model’s own readings in it: log entries 10 and 42. -/
def Obligations.CheckpointsRun : Prop :=
  (∀ (s : State) (p : QPacket), s.packet? p.id = some p → p.type = 8 → p.started = false → mayLaunch s p = true → p.sig = false → p.word 0x28 = 0 →
    let n := (p.word 0x10).toNat / 2 ^ 32
    (s.checkpoint.isSome = true → exec (.checkpointPacket p.id) s = .next s) ∧
    (s.checkpoint = none → n = 0 ∨ 65536 < n ∨ newGen s (p.word 0x18).toNat = false →
      exec (.checkpointPacket p.id) s = .next { launchPacket s p with packets := (launchPacket s p).packets.filter fun x => x.id != p.id }) ∧
    ∀ t b u pages, s.checkpoint = none → 1 ≤ n → n ≤ 65536 → newGen s (p.word 0x18).toNat = true → hubRead s p.pasid (p.word 0x08).toNat (16 * n) = .ok (t, b) → planBad (planShards b n) = false →
      allPages p.pasid (planShards b n) t = .ok (u, pages) →
        ((p.word 0x10).getLsbD 1 = true → s.gaths.any (fun g => g.state == .running) = true → exec (.checkpointPacket p.id) s = .next (preemptAll s)) ∧
        ((p.word 0x10).getLsbD 1 = true → s.gaths.any (fun g => g.state == .running) = false → cutReady s = false → exec (.checkpointPacket p.id) s = .next s) ∧
        ((p.word 0x10).getLsbD 1 = false → ∃ w, exec (.checkpointPacket p.id) s = .next w ∧ w.packet? p.id = none ∧
          w.checkpoint = some { gen := (p.word 0x18).toNat, area := freeArea u, pasid := p.pasid, shards := placeShards (planShards b n) (nvBase (freeArea u)), extra := 0, control := none,
                                pages := pages.eraseDups, dsig := (p.word 0x20).toNat, colophon := 0, stage := if pages.eraseDups.isEmpty then 1 else 0 } ∧
          w.shoots = u.shoots ++ (planShards b n).map (fun x => { pasid := p.pasid, all := false, lo := x.1, hi := x.1 + x.2, refresh := true, block := none, ats := none, tear := false, acked := [] }) ∧
          ∀ va size a e, pages = [(va, size)] → leafOf u p.pasid va = some (a, e) → a % 8 = 0 → physMapped a = true → w.read64 { host := false, addr := a } = e ||| 0x10)) ∧
  (∀ (s : State) (c : Checkpoint) (va n a : Nat) (e : Word) (r : List (Nat × Nat)), s.checkpoint = some c → c.pages = (va, n) :: r → leafOf s c.pasid va = some (a, e) →
    let rest := some { c with pages := r, stage := if r.isEmpty then 1 else 0, copying := false }
    let u := holdPage s c.pasid va
    (leafMigrating e = true → c.copying = false → exec .checkpointPageCopy s = .next s) ∧
    (leafMigrating e = false → 0x2A80000000 < c.bytes → exec .checkpointPageCopy s = .next (discard s c)) ∧
    (leafKind e ≠ 4 → readLeaf s c.pasid va e = .ok (s, s.readPage c.pasid e)) ∧
    (∀ x, leafMigrating e = false ∨ c.copying = true → c.bytes ≤ 0x2A80000000 → leafCow e = true → leafOf u c.pasid va = some x → leafCow x.2 = true → leafMigrating x.2 = true →
      ∀ t, readLeaf u c.pasid va x.2 = .error (.wait t) → exec .checkpointPageCopy s = .next { u.keep t with checkpoint := some { c with copying := true } }) ∧
    (∀ t d x, leafMigrating e = false ∨ c.copying = true → c.bytes ≤ 0x2A80000000 → leafCow e = true → leafOf u c.pasid va = some x → leafCow x.2 = true → readLeaf u c.pasid va x.2 = .ok (t, d) →
      exec .checkpointPageCopy s = .next { writeShards va (d.take n) (setLeaf t c.pasid va fun e => e &&& ~~~ 0x18) c.shards with checkpoint := rest }) ∧
    (∀ x, leafMigrating e = false → c.bytes ≤ 0x2A80000000 → leafCow e = true → leafOf u c.pasid va = some x → leafCow x.2 = true → leafKind x.2 ≠ 4 →
      exec .checkpointPageCopy s = .next { writeShards va ((u.readPage c.pasid x.2).take n) (setLeaf u c.pasid va fun e => e &&& ~~~ 0x18) c.shards with checkpoint := rest }) ∧
    (∀ x, leafMigrating e = false → c.bytes ≤ 0x2A80000000 → leafCow e = false → leafKind x.2 ≠ 4 → s.snapFrames.find? (fun x => x.1 == c.pasid * 2 ^ 64 + va) = some x →
      ∃ w, exec .checkpointPageCopy s = .next w ∧ w.checkpoint = rest ∧ w.snapFrames = s.snapFrames.erase x ∧ w.mem = (writeShards va ((s.readPage c.pasid x.2).take n) s c.shards).mem) ∧
    ∀ off, leafMigrating e = false → c.bytes ≤ 0x2A80000000 → leafCow e = true → leafOf u c.pasid va = some (a, e ||| 0x8) → leafKind e ≠ 4 → a % 8 = 0 → physMapped a = true → a < nvAddr → n = pageBytes (leafSize e) → c.shards = [(va, n, off)] → off + n ≤ 0x8000000000 →
      ∃ w, exec .checkpointPageCopy s = .next w ∧ w.readAt { host := false, addr := nvAddr + off } n = u.readPage c.pasid (e ||| 0x8) ∧ w.read64 { host := false, addr := a } = e &&& ~~~ 0x18 ∧ w.checkpoint = rest) ∧
  ∀ (s : State) (c : Checkpoint), s.checkpoint = some c → c.stage = 1 →
    let i := c.gen % 2
    let other := s.manifests.get .empty (1 - i)
    let t := discard (s.writeAt { host := false, addr := nvAddr + i * 0x40000000 } (manifestBytes s c.gen (shardRecords s c))) c
    (∀ t₀ pl u x v, hubPlace { t with manifests := (t.manifests.set i { gen := c.gen, area := c.area, state := 1, shards := shardRecords s c, control := c.control }).set (1 - i) (if other.state = 1 then { other with state := 2 } else other) } hubAgent c.pasid c.dsig true = .ok (t₀, .here pl) → hubRead64 t₀ c.pasid c.dsig = .ok (u, x) →
      hubWrite u c.pasid c.dsig (leBytes 8 (x - 1).toNat) = .ok v → exec (.manifestCommit true) s = .next v) ∧
    (c.colophon = 0 → exec (.manifestCommit false) s = .next { t with manifests := t.manifests.set i { gen := c.gen, area := c.area, state := 3, shards := shardRecords s c, control := c.control } })

/-- Power, bring-up and errors: POWER_LOSS keeps the NV module's bytes and manifests, and nothing else of the module; BRING_UP gives the status of the
dies once, with the control state of a generation to restore, and FULL_SERVICE sets bit 63; power gating clears every handle; an uncorrectable granule
is reported with its place and kills the gathering that read it; a host link error is reported; a host access through a bound slice reaches memory
under its PASID, and a read's bytes go to the host. The model’s own readings in it: log entries 2, 3, 10, 33, 36, 41, 42 and 53. -/
def Obligations.PowerAndErrors : Prop :=
  (∀ s : State, s.MemOk → s.mem.scram = [] → ∃ t, exec .powerLoss s = .next t ∧ t.manifests = s.manifests ∧ t.checkpoint = none ∧ t.gaths = [] ∧ t.packets = [] ∧ t.status = 0 ∧ (∀ c, t.core c = Core.idle) ∧ t.host = s.host ∧
    (∀ a, 0x20000000000 ≤ a → a < 0x28000000000 → t.byteAt { host := false, addr := a } = s.byteAt { host := false, addr := a }) ∧ ∀ a, a < 0x20000000000 → physMapped a = true → t.byteAt { host := false, addr := a } = 0) ∧
  (∀ (s : State) (w : Word), (s.status ≠ 0 → exec (.bringUp w) s = .next s) ∧ (s.status = 0 → exec .fullService s = .next s) ∧
    (s.status = 0 → w.getLsbD 28 = false ∨ restoreSlot s = none → exec (.bringUp w) s = .next { s with status := w &&& 0x0FFFFFFFF0000000, policyLoaded := Config.extensionOk }) ∧
    (∀ i k, s.status = 0 → w.getLsbD 28 = true → restoreSlot s = some i → (s.manifests.get .empty i).control = some k →
      exec (.bringUp w) s = .next { s with
        status := w &&& 0x0FFFFFFFF0000000, policyLoaded := Config.extensionOk, saved := s.saved ++ k.saved, qcbs := k.qcbs,
        gaths := s.gaths ++ k.gaths.map fun g => { g with owner := { packet := none, job := none, block := 0 } } }) ∧
    (s.status ≠ 0 → ∃ t, exec .fullService s = .next t ∧ fullService t = true ∧ ∀ i, i < 63 → t.status.getLsbD i = s.status.getLsbD i)) ∧
  (∀ (s : State) (c : Nat), (∃ t, exec (.powerGating c true) s = .next t ∧ (∀ n, (((t.core c).arch.handle n).valid = false)) ∧ (∀ b, exec .bundleIssue { t with cur := c, agenda := b } = .next { t with cur := c, agenda := b })) ∧
    ∃ t, exec (.powerGating c false) s = .next t ∧ t.core c = { (s.core c) with powerGated := false }) ∧
  (∀ (s : State) (granule : Nat) (g : Gath) (p : QPacket), s.gath? g.id = some g → g.owner.packet = some p.id → g.colophon = 0 → s.packet? p.id = some p → p.sig = false →
    ∃ t, exec (.eccUncorrectable granule g.id) s = .next t ∧ t.reports = s.reports ++ [.ecc granule (granuleHome s granule)] ∧ t.gath? g.id = none ∧ t.packet? p.id = none) ∧
  (∀ (s : State) (code : Nat), exec (.hostLinkUncorrectableError code) s = .next { s with reports := s.reports ++ [.link code], hostOut := s.hostOut ++ [.interrupt] }) ∧
  ∀ (s : State) (off len : Nat), 0 < len → off % 2 ^ 30 + len ≤ 2 ^ 30 →
    (s.slices.get none (off / 2 ^ 30) = none → ∀ d, d.length = len → exec (.hostBar4Access off len none) s = .next (s.keep s) ∧ exec (.hostBar4Access off len (some d)) s = .next s) ∧
    ∀ pasid base, s.slices.get none (off / 2 ^ 30) = some (pasid, base) →
      (∀ d t, d.length = len → agentWrite s hostAgent pasid (base + off % 2 ^ 30) d = .ok t → exec (.hostBar4Access off len (some d)) s = .next t) ∧
      (∀ t b, agentRead s hostAgent pasid (base + off % 2 ^ 30) len = .ok (t, b) → exec (.hostBar4Access off len none) s = .next { t with hostOut := t.hostOut ++ [.data b] }) ∧
      ∀ d code sub u, d.length = len → agentWrite s hostAgent pasid (base + off % 2 ^ 30) d = .error (.fault code sub u) → exec (.hostBar4Access off len (some d)) s = .next (s.keep u)

/-! ### The machine as a whole -/

/-- After reset no core runs, no process, queue, gathering or checkpoint exists, every stack is one INTERLEAVED region, the budget is 2.8 J a window, and
no memory is listed. The model’s own readings in it: log entries 2 and 3. -/
def Obligations.ResetState : Prop :=
  (∀ c, State.reset.core c = Core.idle) ∧ (∀ n, (State.reset.pasids.get .none n).root = none) ∧ (∀ i, (State.reset.qcb i).state = 0) ∧ State.reset.gaths = [] ∧ State.reset.packets = [] ∧
  State.reset.checkpoint = none ∧ State.reset.status = 0 ∧ State.reset.budget.allowance = 2800000 ∧ State.reset.mem.cells = [] ∧ State.reset.host.cells = [] ∧
  ∀ stack k, stack < 8 → k < 16 → State.reset.regions.get (regionReset (16 * stack + k)) (16 * stack + k) = if k = 0 then 0x1FFC00 else 0

/-- The invariant holds after reset. -/
def Obligations.InvAtReset : Prop := State.reset.Inv

/-- Every step of every agent keeps the invariant: whatever is executed, both memories stay in canonical form and the energy allowance within the budget. -/
def Obligations.StepKeepsInv : Prop := ∀ s t : State, s.Inv → step s = .next t → t.Inv
end

