-- ==== Sys2Proof/Laws/Word.lean ====
section
/-!
SUPPORT. Laws of the sparse tables: what a read gives after a write or a removal, and that the keys keep rising.
-/

namespace Sys2Proof

variable {α : Type}

theorem cellGet_put_same (l : List (Nat × α)) (d v : α) (k : Nat) : cellGet (cellPut l k v) d k = v := by
  induction l with
  | nil => simp [cellPut, cellGet]
  | cons c r ih =>
    obtain ⟨j, w⟩ := c
    simp only [cellPut]
    split
    · simp [cellGet]
    · split
      · simp [cellGet]
      · rename_i h
        simp [cellGet, Ne.symm h, ih]

theorem cellGet_put_other (l : List (Nat × α)) (d v : α) {j k : Nat} (h : j ≠ k) : cellGet (cellPut l k v) d j = cellGet l d j := by
  induction l with
  | nil => simp [cellPut, cellGet, Ne.symm h]
  | cons c r ih =>
    obtain ⟨i, w⟩ := c
    simp only [cellPut]
    split
    · simp [cellGet, Ne.symm h]
    · split
      · rename_i hk
        subst hk
        simp [cellGet, Ne.symm h]
      · simp [cellGet, ih]

theorem cellGet_drop_same (l : List (Nat × α)) (d : α) (k : Nat) : cellGet (cellDrop l k) d k = d := by
  induction l with
  | nil => rfl
  | cons c r ih =>
    obtain ⟨j, w⟩ := c
    simp only [cellDrop, List.filter_cons] at ih ⊢
    split
    · rename_i h
      have : j ≠ k := by simpa using h
      simp [cellGet, this, ih]
    · exact ih

theorem cellGet_drop_other (l : List (Nat × α)) (d : α) {j k : Nat} (h : j ≠ k) : cellGet (cellDrop l k) d j = cellGet l d j := by
  induction l with
  | nil => rfl
  | cons c r ih =>
    obtain ⟨i, w⟩ := c
    simp only [cellDrop, List.filter_cons] at ih ⊢
    split
    · simp [cellGet, ih]
    · rename_i hi
      have : i = k := by simpa using hi
      subst this
      simp [cellGet, Ne.symm h, ih]

@[simp] theorem Tab.get_set_same (t : Tab α) (d v : α) (k : Nat) : (t.set k v).get d k = v := cellGet_put_same ..

theorem Tab.get_set_other (t : Tab α) (d v : α) {j k : Nat} (h : j ≠ k) : (t.set k v).get d j = t.get d j := cellGet_put_other _ _ _ h

@[simp] theorem Tab.get_put_same [DecidableEq α] (t : Tab α) (d v : α) (k : Nat) : (t.put d k v).get d k = v := by
  unfold Tab.put
  split
  · rename_i h
    subst h
    exact cellGet_drop_same ..
  · exact cellGet_put_same ..

theorem Tab.get_put_other [DecidableEq α] (t : Tab α) (d e v : α) {j k : Nat} (h : j ≠ k) : (t.put e k v).get d j = t.get d j := by
  unfold Tab.put
  split
  · exact cellGet_drop_other _ _ h
  · exact cellGet_put_other _ _ _ h

@[simp] theorem Tab.get_empty (d : α) (k : Nat) : (Tab.empty : Tab α).get d k = d := rfl

/-! ### Keys rising -/

theorem cellRising_mono {l : List (Nat × α)} {a b : Nat} (h : cellRising l b = true) (hab : a ≤ b) : cellRising l a = true := by
  cases l with
  | nil => rfl
  | cons c r =>
    obtain ⟨j, w⟩ := c
    simp only [cellRising, Bool.and_eq_true, decide_eq_true_eq] at h ⊢
    exact ⟨by omega, h.2⟩

theorem cellRising_put {l : List (Nat × α)} {lo k : Nat} (v : α) (h : cellRising l lo = true) (hk : lo ≤ k) : cellRising (cellPut l k v) lo = true := by
  induction l generalizing lo with
  | nil => simp [cellPut, cellRising, hk]
  | cons c r ih =>
    obtain ⟨j, w⟩ := c
    simp only [cellRising, Bool.and_eq_true, decide_eq_true_eq] at h
    simp only [cellPut]
    split
    · simp only [cellRising, Bool.and_eq_true, decide_eq_true_eq]
      exact ⟨hk, by omega, h.2⟩
    · split
      · rename_i hj
        subst hj
        simp only [cellRising, Bool.and_eq_true, decide_eq_true_eq]
        exact ⟨hk, h.2⟩
      · simp only [cellRising, Bool.and_eq_true, decide_eq_true_eq]
        exact ⟨h.1, ih h.2 (by omega)⟩

theorem cellRising_filter {l : List (Nat × α)} {lo : Nat} (p : Nat × α → Bool) (h : cellRising l lo = true) : cellRising (l.filter p) lo = true := by
  induction l generalizing lo with
  | nil => rfl
  | cons c r ih =>
    obtain ⟨j, w⟩ := c
    simp only [cellRising, Bool.and_eq_true, decide_eq_true_eq] at h
    simp only [List.filter_cons]
    split
    · simp only [cellRising, Bool.and_eq_true, decide_eq_true_eq]
      exact ⟨h.1, ih h.2⟩
    · exact cellRising_mono (ih h.2) (by omega)

theorem mem_cellPut {l : List (Nat × α)} {k : Nat} {v : α} {c : Nat × α} (h : c ∈ cellPut l k v) : c = (k, v) ∨ c ∈ l := by
  induction l with
  | nil => simp [cellPut] at h; exact .inl h
  | cons x r ih =>
    obtain ⟨j, w⟩ := x
    simp only [cellPut] at h
    split at h
    · rcases List.mem_cons.1 h with h | h
      · exact .inl h
      · exact .inr h
    · split at h
      · rcases List.mem_cons.1 h with h | h
        · exact .inl h
        · exact .inr (List.mem_cons_of_mem _ h)
      · rcases List.mem_cons.1 h with h | h
        · exact .inr (h ▸ List.mem_cons_self)
        · rcases ih h with h | h
          · exact .inl h
          · exact .inr (List.mem_cons_of_mem _ h)

end Sys2Proof
end

