-- ==== Sys2Proof/Laws/State.lean ====
section
/-!
SUPPORT. Laws of the state: what each update of a field leaves and what it gives, one lemma per field.
-/

namespace Sys2Proof.Machine

/-! ### Cores -/

@[simp] theorem State.core_setCore_same (s : State) (c : Nat) (k : Core) : (s.setCore c k).core c = k := Tab.get_set_same ..
theorem State.core_setCore_other (s : State) {c d : Nat} (k : Core) (h : d ≠ c) : (s.setCore c k).core d = s.core d := Tab.get_set_other _ _ _ h
@[simp] theorem State.core_modCore_same (s : State) (c : Nat) (f : Core → Core) : (s.modCore c f).core c = f (s.core c) := State.core_setCore_same ..
theorem State.core_modCore_other (s : State) {c d : Nat} (f : Core → Core) (h : d ≠ c) : (s.modCore c f).core d = s.core d := State.core_setCore_other _ _ h
theorem State.core_modArch_same (s : State) (c : Nat) (f : Arch → Arch) : (s.modArch c f).core c = { s.core c with arch := f (s.core c).arch } := State.core_modCore_same ..
theorem State.core_modArch_other (s : State) {c d : Nat} (f : Arch → Arch) (h : d ≠ c) : (s.modArch c f).core d = s.core d := State.core_modCore_other _ _ h

@[simp] theorem State.setCore_agenda (s : State) (c : Nat) (k : Core) : (s.setCore c k).agenda = s.agenda := rfl
@[simp] theorem State.setCore_cur (s : State) (c : Nat) (k : Core) : (s.setCore c k).cur = s.cur := rfl
@[simp] theorem State.setCore_eng (s : State) (c : Nat) (k : Core) : (s.setCore c k).eng = s.eng := rfl
@[simp] theorem State.setCore_fresh (s : State) (c : Nat) (k : Core) : (s.setCore c k).fresh = s.fresh := rfl
@[simp] theorem State.setCore_module (s : State) (c : Nat) (k : Core) : (s.setCore c k).module = s.module := rfl
@[simp] theorem State.setCore_banks (s : State) (c : Nat) (k : Core) : (s.setCore c k).banks = s.banks := rfl
@[simp] theorem State.setCore_mem (s : State) (c : Nat) (k : Core) : (s.setCore c k).mem = s.mem := rfl
@[simp] theorem State.setCore_host (s : State) (c : Nat) (k : Core) : (s.setCore c k).host = s.host := rfl
@[simp] theorem State.setCore_ecc (s : State) (c : Nat) (k : Core) : (s.setCore c k).ecc = s.ecc := rfl
@[simp] theorem State.setCore_counters (s : State) (c : Nat) (k : Core) : (s.setCore c k).counters = s.counters := rfl
@[simp] theorem State.setCore_regions (s : State) (c : Nat) (k : Core) : (s.setCore c k).regions = s.regions := rfl
@[simp] theorem State.setCore_newRegions (s : State) (c : Nat) (k : Core) : (s.setCore c k).newRegions = s.newRegions := rfl
@[simp] theorem State.setCore_pasids (s : State) (c : Nat) (k : Core) : (s.setCore c k).pasids = s.pasids := rfl
@[simp] theorem State.setCore_caches (s : State) (c : Nat) (k : Core) : (s.setCore c k).caches = s.caches := rfl
@[simp] theorem State.setCore_blocks (s : State) (c : Nat) (k : Core) : (s.setCore c k).blocks = s.blocks := rfl
@[simp] theorem State.setCore_shoots (s : State) (c : Nat) (k : Core) : (s.setCore c k).shoots = s.shoots := rfl
@[simp] theorem State.setCore_pools (s : State) (c : Nat) (k : Core) : (s.setCore c k).pools = s.pools := rfl
@[simp] theorem State.setCore_snapFrames (s : State) (c : Nat) (k : Core) : (s.setCore c k).snapFrames = s.snapFrames := rfl
@[simp] theorem State.setCore_timedOut (s : State) (c : Nat) (k : Core) : (s.setCore c k).timedOut = s.timedOut := rfl
@[simp] theorem State.setCore_ats (s : State) (c : Nat) (k : Core) : (s.setCore c k).ats = s.ats := rfl
@[simp] theorem State.setCore_runs (s : State) (c : Nat) (k : Core) : (s.setCore c k).runs = s.runs := rfl
@[simp] theorem State.setCore_decided (s : State) (c : Nat) (k : Core) : (s.setCore c k).decided = s.decided := rfl
@[simp] theorem State.setCore_hubRuns (s : State) (c : Nat) (k : Core) : (s.setCore c k).hubRuns = s.hubRuns := rfl
@[simp] theorem State.setCore_targets (s : State) (c : Nat) (k : Core) : (s.setCore c k).targets = s.targets := rfl
@[simp] theorem State.setCore_qcbs (s : State) (c : Nat) (k : Core) : (s.setCore c k).qcbs = s.qcbs := rfl
@[simp] theorem State.setCore_packets (s : State) (c : Nat) (k : Core) : (s.setCore c k).packets = s.packets := rfl
@[simp] theorem State.setCore_gaths (s : State) (c : Nat) (k : Core) : (s.setCore c k).gaths = s.gaths := rfl
@[simp] theorem State.setCore_jobs (s : State) (c : Nat) (k : Core) : (s.setCore c k).jobs = s.jobs := rfl
@[simp] theorem State.setCore_graphs (s : State) (c : Nat) (k : Core) : (s.setCore c k).graphs = s.graphs := rfl
@[simp] theorem State.setCore_readies (s : State) (c : Nat) (k : Core) : (s.setCore c k).readies = s.readies := rfl
@[simp] theorem State.setCore_deadDies (s : State) (c : Nat) (k : Core) : (s.setCore c k).deadDies = s.deadDies := rfl
@[simp] theorem State.setCore_budget (s : State) (c : Nat) (k : Core) : (s.setCore c k).budget = s.budget := rfl
@[simp] theorem State.setCore_saved (s : State) (c : Nat) (k : Core) : (s.setCore c k).saved = s.saved := rfl
@[simp] theorem State.setCore_vault (s : State) (c : Nat) (k : Core) : (s.setCore c k).vault = s.vault := rfl
@[simp] theorem State.setCore_savePasid (s : State) (c : Nat) (k : Core) : (s.setCore c k).savePasid = s.savePasid := rfl
@[simp] theorem State.setCore_time (s : State) (c : Nat) (k : Core) : (s.setCore c k).time = s.time := rfl
@[simp] theorem State.setCore_members (s : State) (c : Nat) (k : Core) : (s.setCore c k).members = s.members := rfl
@[simp] theorem State.setCore_domain (s : State) (c : Nat) (k : Core) : (s.setCore c k).domain = s.domain := rfl
@[simp] theorem State.setCore_flows (s : State) (c : Nat) (k : Core) : (s.setCore c k).flows = s.flows := rfl
@[simp] theorem State.setCore_circuits (s : State) (c : Nat) (k : Core) : (s.setCore c k).circuits = s.circuits := rfl
@[simp] theorem State.setCore_timetabled (s : State) (c : Nat) (k : Core) : (s.setCore c k).timetabled = s.timetabled := rfl
@[simp] theorem State.setCore_landing (s : State) (c : Nat) (k : Core) : (s.setCore c k).landing = s.landing := rfl
@[simp] theorem State.setCore_command (s : State) (c : Nat) (k : Core) : (s.setCore c k).command = s.command := rfl
@[simp] theorem State.setCore_slotTabs (s : State) (c : Nat) (k : Core) : (s.setCore c k).slotTabs = s.slotTabs := rfl
@[simp] theorem State.setCore_slotNext (s : State) (c : Nat) (k : Core) : (s.setCore c k).slotNext = s.slotNext := rfl
@[simp] theorem State.setCore_slotTime (s : State) (c : Nat) (k : Core) : (s.setCore c k).slotTime = s.slotTime := rfl
@[simp] theorem State.setCore_links (s : State) (c : Nat) (k : Core) : (s.setCore c k).links = s.links := rfl
@[simp] theorem State.setCore_apertures (s : State) (c : Nat) (k : Core) : (s.setCore c k).apertures = s.apertures := rfl
@[simp] theorem State.setCore_slices (s : State) (c : Nat) (k : Core) : (s.setCore c k).slices = s.slices := rfl
@[simp] theorem State.setCore_windows (s : State) (c : Nat) (k : Core) : (s.setCore c k).windows = s.windows := rfl
@[simp] theorem State.setCore_mailbox (s : State) (c : Nat) (k : Core) : (s.setCore c k).mailbox = s.mailbox := rfl
@[simp] theorem State.setCore_status (s : State) (c : Nat) (k : Core) : (s.setCore c k).status = s.status := rfl
@[simp] theorem State.setCore_manifests (s : State) (c : Nat) (k : Core) : (s.setCore c k).manifests = s.manifests := rfl
@[simp] theorem State.setCore_checkpoint (s : State) (c : Nat) (k : Core) : (s.setCore c k).checkpoint = s.checkpoint := rfl
@[simp] theorem State.setCore_policyLoaded (s : State) (c : Nat) (k : Core) : (s.setCore c k).policyLoaded = s.policyLoaded := rfl
@[simp] theorem State.setCore_tx (s : State) (c : Nat) (k : Core) : (s.setCore c k).tx = s.tx := rfl
@[simp] theorem State.setCore_reports (s : State) (c : Nat) (k : Core) : (s.setCore c k).reports = s.reports := rfl
@[simp] theorem State.setCore_hostOut (s : State) (c : Nat) (k : Core) : (s.setCore c k).hostOut = s.hostOut := rfl
@[simp] theorem State.modCore_agenda (s : State) (c : Nat) (f : Core → Core) : (s.modCore c f).agenda = s.agenda := rfl
@[simp] theorem State.modCore_cur (s : State) (c : Nat) (f : Core → Core) : (s.modCore c f).cur = s.cur := rfl
@[simp] theorem State.modCore_eng (s : State) (c : Nat) (f : Core → Core) : (s.modCore c f).eng = s.eng := rfl
@[simp] theorem State.modCore_fresh (s : State) (c : Nat) (f : Core → Core) : (s.modCore c f).fresh = s.fresh := rfl
@[simp] theorem State.modCore_module (s : State) (c : Nat) (f : Core → Core) : (s.modCore c f).module = s.module := rfl
@[simp] theorem State.modCore_banks (s : State) (c : Nat) (f : Core → Core) : (s.modCore c f).banks = s.banks := rfl
@[simp] theorem State.modCore_mem (s : State) (c : Nat) (f : Core → Core) : (s.modCore c f).mem = s.mem := rfl
@[simp] theorem State.modCore_host (s : State) (c : Nat) (f : Core → Core) : (s.modCore c f).host = s.host := rfl
@[simp] theorem State.modCore_ecc (s : State) (c : Nat) (f : Core → Core) : (s.modCore c f).ecc = s.ecc := rfl
@[simp] theorem State.modCore_counters (s : State) (c : Nat) (f : Core → Core) : (s.modCore c f).counters = s.counters := rfl
@[simp] theorem State.modCore_regions (s : State) (c : Nat) (f : Core → Core) : (s.modCore c f).regions = s.regions := rfl
@[simp] theorem State.modCore_newRegions (s : State) (c : Nat) (f : Core → Core) : (s.modCore c f).newRegions = s.newRegions := rfl
@[simp] theorem State.modCore_pasids (s : State) (c : Nat) (f : Core → Core) : (s.modCore c f).pasids = s.pasids := rfl
@[simp] theorem State.modCore_caches (s : State) (c : Nat) (f : Core → Core) : (s.modCore c f).caches = s.caches := rfl
@[simp] theorem State.modCore_blocks (s : State) (c : Nat) (f : Core → Core) : (s.modCore c f).blocks = s.blocks := rfl
@[simp] theorem State.modCore_shoots (s : State) (c : Nat) (f : Core → Core) : (s.modCore c f).shoots = s.shoots := rfl
@[simp] theorem State.modCore_pools (s : State) (c : Nat) (f : Core → Core) : (s.modCore c f).pools = s.pools := rfl
@[simp] theorem State.modCore_snapFrames (s : State) (c : Nat) (f : Core → Core) : (s.modCore c f).snapFrames = s.snapFrames := rfl
@[simp] theorem State.modCore_timedOut (s : State) (c : Nat) (f : Core → Core) : (s.modCore c f).timedOut = s.timedOut := rfl
@[simp] theorem State.modCore_ats (s : State) (c : Nat) (f : Core → Core) : (s.modCore c f).ats = s.ats := rfl
@[simp] theorem State.modCore_runs (s : State) (c : Nat) (f : Core → Core) : (s.modCore c f).runs = s.runs := rfl
@[simp] theorem State.modCore_decided (s : State) (c : Nat) (f : Core → Core) : (s.modCore c f).decided = s.decided := rfl
@[simp] theorem State.modCore_hubRuns (s : State) (c : Nat) (f : Core → Core) : (s.modCore c f).hubRuns = s.hubRuns := rfl
@[simp] theorem State.modCore_targets (s : State) (c : Nat) (f : Core → Core) : (s.modCore c f).targets = s.targets := rfl
@[simp] theorem State.modCore_qcbs (s : State) (c : Nat) (f : Core → Core) : (s.modCore c f).qcbs = s.qcbs := rfl
@[simp] theorem State.modCore_packets (s : State) (c : Nat) (f : Core → Core) : (s.modCore c f).packets = s.packets := rfl
@[simp] theorem State.modCore_gaths (s : State) (c : Nat) (f : Core → Core) : (s.modCore c f).gaths = s.gaths := rfl
@[simp] theorem State.modCore_jobs (s : State) (c : Nat) (f : Core → Core) : (s.modCore c f).jobs = s.jobs := rfl
@[simp] theorem State.modCore_graphs (s : State) (c : Nat) (f : Core → Core) : (s.modCore c f).graphs = s.graphs := rfl
@[simp] theorem State.modCore_readies (s : State) (c : Nat) (f : Core → Core) : (s.modCore c f).readies = s.readies := rfl
@[simp] theorem State.modCore_deadDies (s : State) (c : Nat) (f : Core → Core) : (s.modCore c f).deadDies = s.deadDies := rfl
@[simp] theorem State.modCore_budget (s : State) (c : Nat) (f : Core → Core) : (s.modCore c f).budget = s.budget := rfl
@[simp] theorem State.modCore_saved (s : State) (c : Nat) (f : Core → Core) : (s.modCore c f).saved = s.saved := rfl
@[simp] theorem State.modCore_vault (s : State) (c : Nat) (f : Core → Core) : (s.modCore c f).vault = s.vault := rfl
@[simp] theorem State.modCore_savePasid (s : State) (c : Nat) (f : Core → Core) : (s.modCore c f).savePasid = s.savePasid := rfl
@[simp] theorem State.modCore_time (s : State) (c : Nat) (f : Core → Core) : (s.modCore c f).time = s.time := rfl
@[simp] theorem State.modCore_members (s : State) (c : Nat) (f : Core → Core) : (s.modCore c f).members = s.members := rfl
@[simp] theorem State.modCore_domain (s : State) (c : Nat) (f : Core → Core) : (s.modCore c f).domain = s.domain := rfl
@[simp] theorem State.modCore_flows (s : State) (c : Nat) (f : Core → Core) : (s.modCore c f).flows = s.flows := rfl
@[simp] theorem State.modCore_circuits (s : State) (c : Nat) (f : Core → Core) : (s.modCore c f).circuits = s.circuits := rfl
@[simp] theorem State.modCore_timetabled (s : State) (c : Nat) (f : Core → Core) : (s.modCore c f).timetabled = s.timetabled := rfl
@[simp] theorem State.modCore_landing (s : State) (c : Nat) (f : Core → Core) : (s.modCore c f).landing = s.landing := rfl
@[simp] theorem State.modCore_command (s : State) (c : Nat) (f : Core → Core) : (s.modCore c f).command = s.command := rfl
@[simp] theorem State.modCore_slotTabs (s : State) (c : Nat) (f : Core → Core) : (s.modCore c f).slotTabs = s.slotTabs := rfl
@[simp] theorem State.modCore_slotNext (s : State) (c : Nat) (f : Core → Core) : (s.modCore c f).slotNext = s.slotNext := rfl
@[simp] theorem State.modCore_slotTime (s : State) (c : Nat) (f : Core → Core) : (s.modCore c f).slotTime = s.slotTime := rfl
@[simp] theorem State.modCore_links (s : State) (c : Nat) (f : Core → Core) : (s.modCore c f).links = s.links := rfl
@[simp] theorem State.modCore_apertures (s : State) (c : Nat) (f : Core → Core) : (s.modCore c f).apertures = s.apertures := rfl
@[simp] theorem State.modCore_slices (s : State) (c : Nat) (f : Core → Core) : (s.modCore c f).slices = s.slices := rfl
@[simp] theorem State.modCore_windows (s : State) (c : Nat) (f : Core → Core) : (s.modCore c f).windows = s.windows := rfl
@[simp] theorem State.modCore_mailbox (s : State) (c : Nat) (f : Core → Core) : (s.modCore c f).mailbox = s.mailbox := rfl
@[simp] theorem State.modCore_status (s : State) (c : Nat) (f : Core → Core) : (s.modCore c f).status = s.status := rfl
@[simp] theorem State.modCore_manifests (s : State) (c : Nat) (f : Core → Core) : (s.modCore c f).manifests = s.manifests := rfl
@[simp] theorem State.modCore_checkpoint (s : State) (c : Nat) (f : Core → Core) : (s.modCore c f).checkpoint = s.checkpoint := rfl
@[simp] theorem State.modCore_policyLoaded (s : State) (c : Nat) (f : Core → Core) : (s.modCore c f).policyLoaded = s.policyLoaded := rfl
@[simp] theorem State.modCore_tx (s : State) (c : Nat) (f : Core → Core) : (s.modCore c f).tx = s.tx := rfl
@[simp] theorem State.modCore_reports (s : State) (c : Nat) (f : Core → Core) : (s.modCore c f).reports = s.reports := rfl
@[simp] theorem State.modCore_hostOut (s : State) (c : Nat) (f : Core → Core) : (s.modCore c f).hostOut = s.hostOut := rfl
@[simp] theorem State.modArch_agenda (s : State) (c : Nat) (f : Arch → Arch) : (s.modArch c f).agenda = s.agenda := rfl
@[simp] theorem State.modArch_cur (s : State) (c : Nat) (f : Arch → Arch) : (s.modArch c f).cur = s.cur := rfl
@[simp] theorem State.modArch_eng (s : State) (c : Nat) (f : Arch → Arch) : (s.modArch c f).eng = s.eng := rfl
@[simp] theorem State.modArch_fresh (s : State) (c : Nat) (f : Arch → Arch) : (s.modArch c f).fresh = s.fresh := rfl
@[simp] theorem State.modArch_module (s : State) (c : Nat) (f : Arch → Arch) : (s.modArch c f).module = s.module := rfl
@[simp] theorem State.modArch_banks (s : State) (c : Nat) (f : Arch → Arch) : (s.modArch c f).banks = s.banks := rfl
@[simp] theorem State.modArch_mem (s : State) (c : Nat) (f : Arch → Arch) : (s.modArch c f).mem = s.mem := rfl
@[simp] theorem State.modArch_host (s : State) (c : Nat) (f : Arch → Arch) : (s.modArch c f).host = s.host := rfl
@[simp] theorem State.modArch_ecc (s : State) (c : Nat) (f : Arch → Arch) : (s.modArch c f).ecc = s.ecc := rfl
@[simp] theorem State.modArch_counters (s : State) (c : Nat) (f : Arch → Arch) : (s.modArch c f).counters = s.counters := rfl
@[simp] theorem State.modArch_regions (s : State) (c : Nat) (f : Arch → Arch) : (s.modArch c f).regions = s.regions := rfl
@[simp] theorem State.modArch_newRegions (s : State) (c : Nat) (f : Arch → Arch) : (s.modArch c f).newRegions = s.newRegions := rfl
@[simp] theorem State.modArch_pasids (s : State) (c : Nat) (f : Arch → Arch) : (s.modArch c f).pasids = s.pasids := rfl
@[simp] theorem State.modArch_caches (s : State) (c : Nat) (f : Arch → Arch) : (s.modArch c f).caches = s.caches := rfl
@[simp] theorem State.modArch_blocks (s : State) (c : Nat) (f : Arch → Arch) : (s.modArch c f).blocks = s.blocks := rfl
@[simp] theorem State.modArch_shoots (s : State) (c : Nat) (f : Arch → Arch) : (s.modArch c f).shoots = s.shoots := rfl
@[simp] theorem State.modArch_pools (s : State) (c : Nat) (f : Arch → Arch) : (s.modArch c f).pools = s.pools := rfl
@[simp] theorem State.modArch_snapFrames (s : State) (c : Nat) (f : Arch → Arch) : (s.modArch c f).snapFrames = s.snapFrames := rfl
@[simp] theorem State.modArch_timedOut (s : State) (c : Nat) (f : Arch → Arch) : (s.modArch c f).timedOut = s.timedOut := rfl
@[simp] theorem State.modArch_ats (s : State) (c : Nat) (f : Arch → Arch) : (s.modArch c f).ats = s.ats := rfl
@[simp] theorem State.modArch_runs (s : State) (c : Nat) (f : Arch → Arch) : (s.modArch c f).runs = s.runs := rfl
@[simp] theorem State.modArch_decided (s : State) (c : Nat) (f : Arch → Arch) : (s.modArch c f).decided = s.decided := rfl
@[simp] theorem State.modArch_hubRuns (s : State) (c : Nat) (f : Arch → Arch) : (s.modArch c f).hubRuns = s.hubRuns := rfl
@[simp] theorem State.modArch_targets (s : State) (c : Nat) (f : Arch → Arch) : (s.modArch c f).targets = s.targets := rfl
@[simp] theorem State.modArch_qcbs (s : State) (c : Nat) (f : Arch → Arch) : (s.modArch c f).qcbs = s.qcbs := rfl
@[simp] theorem State.modArch_packets (s : State) (c : Nat) (f : Arch → Arch) : (s.modArch c f).packets = s.packets := rfl
@[simp] theorem State.modArch_gaths (s : State) (c : Nat) (f : Arch → Arch) : (s.modArch c f).gaths = s.gaths := rfl
@[simp] theorem State.modArch_jobs (s : State) (c : Nat) (f : Arch → Arch) : (s.modArch c f).jobs = s.jobs := rfl
@[simp] theorem State.modArch_graphs (s : State) (c : Nat) (f : Arch → Arch) : (s.modArch c f).graphs = s.graphs := rfl
@[simp] theorem State.modArch_readies (s : State) (c : Nat) (f : Arch → Arch) : (s.modArch c f).readies = s.readies := rfl
@[simp] theorem State.modArch_deadDies (s : State) (c : Nat) (f : Arch → Arch) : (s.modArch c f).deadDies = s.deadDies := rfl
@[simp] theorem State.modArch_budget (s : State) (c : Nat) (f : Arch → Arch) : (s.modArch c f).budget = s.budget := rfl
@[simp] theorem State.modArch_saved (s : State) (c : Nat) (f : Arch → Arch) : (s.modArch c f).saved = s.saved := rfl
@[simp] theorem State.modArch_vault (s : State) (c : Nat) (f : Arch → Arch) : (s.modArch c f).vault = s.vault := rfl
@[simp] theorem State.modArch_savePasid (s : State) (c : Nat) (f : Arch → Arch) : (s.modArch c f).savePasid = s.savePasid := rfl
@[simp] theorem State.modArch_time (s : State) (c : Nat) (f : Arch → Arch) : (s.modArch c f).time = s.time := rfl
@[simp] theorem State.modArch_members (s : State) (c : Nat) (f : Arch → Arch) : (s.modArch c f).members = s.members := rfl
@[simp] theorem State.modArch_domain (s : State) (c : Nat) (f : Arch → Arch) : (s.modArch c f).domain = s.domain := rfl
@[simp] theorem State.modArch_flows (s : State) (c : Nat) (f : Arch → Arch) : (s.modArch c f).flows = s.flows := rfl
@[simp] theorem State.modArch_circuits (s : State) (c : Nat) (f : Arch → Arch) : (s.modArch c f).circuits = s.circuits := rfl
@[simp] theorem State.modArch_timetabled (s : State) (c : Nat) (f : Arch → Arch) : (s.modArch c f).timetabled = s.timetabled := rfl
@[simp] theorem State.modArch_landing (s : State) (c : Nat) (f : Arch → Arch) : (s.modArch c f).landing = s.landing := rfl
@[simp] theorem State.modArch_command (s : State) (c : Nat) (f : Arch → Arch) : (s.modArch c f).command = s.command := rfl
@[simp] theorem State.modArch_slotTabs (s : State) (c : Nat) (f : Arch → Arch) : (s.modArch c f).slotTabs = s.slotTabs := rfl
@[simp] theorem State.modArch_slotNext (s : State) (c : Nat) (f : Arch → Arch) : (s.modArch c f).slotNext = s.slotNext := rfl
@[simp] theorem State.modArch_slotTime (s : State) (c : Nat) (f : Arch → Arch) : (s.modArch c f).slotTime = s.slotTime := rfl
@[simp] theorem State.modArch_links (s : State) (c : Nat) (f : Arch → Arch) : (s.modArch c f).links = s.links := rfl
@[simp] theorem State.modArch_apertures (s : State) (c : Nat) (f : Arch → Arch) : (s.modArch c f).apertures = s.apertures := rfl
@[simp] theorem State.modArch_slices (s : State) (c : Nat) (f : Arch → Arch) : (s.modArch c f).slices = s.slices := rfl
@[simp] theorem State.modArch_windows (s : State) (c : Nat) (f : Arch → Arch) : (s.modArch c f).windows = s.windows := rfl
@[simp] theorem State.modArch_mailbox (s : State) (c : Nat) (f : Arch → Arch) : (s.modArch c f).mailbox = s.mailbox := rfl
@[simp] theorem State.modArch_status (s : State) (c : Nat) (f : Arch → Arch) : (s.modArch c f).status = s.status := rfl
@[simp] theorem State.modArch_manifests (s : State) (c : Nat) (f : Arch → Arch) : (s.modArch c f).manifests = s.manifests := rfl
@[simp] theorem State.modArch_checkpoint (s : State) (c : Nat) (f : Arch → Arch) : (s.modArch c f).checkpoint = s.checkpoint := rfl
@[simp] theorem State.modArch_policyLoaded (s : State) (c : Nat) (f : Arch → Arch) : (s.modArch c f).policyLoaded = s.policyLoaded := rfl
@[simp] theorem State.modArch_tx (s : State) (c : Nat) (f : Arch → Arch) : (s.modArch c f).tx = s.tx := rfl
@[simp] theorem State.modArch_reports (s : State) (c : Nat) (f : Arch → Arch) : (s.modArch c f).reports = s.reports := rfl
@[simp] theorem State.modArch_hostOut (s : State) (c : Nat) (f : Arch → Arch) : (s.modArch c f).hostOut = s.hostOut := rfl

/-! ### Banks -/

@[simp] theorem State.bank_setBank_same (s : State) (e : Nat) (b : Bank) : (s.setBank e b).bank e = b := Tab.get_set_same ..
theorem State.bank_setBank_other (s : State) {e d : Nat} (b : Bank) (h : d ≠ e) : (s.setBank e b).bank d = s.bank d := Tab.get_set_other _ _ _ h
@[simp] theorem State.bank_modBank_same (s : State) (e : Nat) (f : Bank → Bank) : (s.modBank e f).bank e = f (s.bank e) := State.bank_setBank_same ..
theorem State.bank_modBank_other (s : State) {e d : Nat} (f : Bank → Bank) (h : d ≠ e) : (s.modBank e f).bank d = s.bank d := State.bank_setBank_other _ _ h
@[simp] theorem State.setBank_agenda (s : State) (e : Nat) (b : Bank) : (s.setBank e b).agenda = s.agenda := rfl
@[simp] theorem State.setBank_cur (s : State) (e : Nat) (b : Bank) : (s.setBank e b).cur = s.cur := rfl
@[simp] theorem State.setBank_eng (s : State) (e : Nat) (b : Bank) : (s.setBank e b).eng = s.eng := rfl
@[simp] theorem State.setBank_fresh (s : State) (e : Nat) (b : Bank) : (s.setBank e b).fresh = s.fresh := rfl
@[simp] theorem State.setBank_module (s : State) (e : Nat) (b : Bank) : (s.setBank e b).module = s.module := rfl
@[simp] theorem State.setBank_cores (s : State) (e : Nat) (b : Bank) : (s.setBank e b).cores = s.cores := rfl
@[simp] theorem State.setBank_mem (s : State) (e : Nat) (b : Bank) : (s.setBank e b).mem = s.mem := rfl
@[simp] theorem State.setBank_host (s : State) (e : Nat) (b : Bank) : (s.setBank e b).host = s.host := rfl
@[simp] theorem State.setBank_ecc (s : State) (e : Nat) (b : Bank) : (s.setBank e b).ecc = s.ecc := rfl
@[simp] theorem State.setBank_counters (s : State) (e : Nat) (b : Bank) : (s.setBank e b).counters = s.counters := rfl
@[simp] theorem State.setBank_regions (s : State) (e : Nat) (b : Bank) : (s.setBank e b).regions = s.regions := rfl
@[simp] theorem State.setBank_newRegions (s : State) (e : Nat) (b : Bank) : (s.setBank e b).newRegions = s.newRegions := rfl
@[simp] theorem State.setBank_pasids (s : State) (e : Nat) (b : Bank) : (s.setBank e b).pasids = s.pasids := rfl
@[simp] theorem State.setBank_caches (s : State) (e : Nat) (b : Bank) : (s.setBank e b).caches = s.caches := rfl
@[simp] theorem State.setBank_blocks (s : State) (e : Nat) (b : Bank) : (s.setBank e b).blocks = s.blocks := rfl
@[simp] theorem State.setBank_shoots (s : State) (e : Nat) (b : Bank) : (s.setBank e b).shoots = s.shoots := rfl
@[simp] theorem State.setBank_pools (s : State) (e : Nat) (b : Bank) : (s.setBank e b).pools = s.pools := rfl
@[simp] theorem State.setBank_snapFrames (s : State) (e : Nat) (b : Bank) : (s.setBank e b).snapFrames = s.snapFrames := rfl
@[simp] theorem State.setBank_timedOut (s : State) (e : Nat) (b : Bank) : (s.setBank e b).timedOut = s.timedOut := rfl
@[simp] theorem State.setBank_ats (s : State) (e : Nat) (b : Bank) : (s.setBank e b).ats = s.ats := rfl
@[simp] theorem State.setBank_runs (s : State) (e : Nat) (b : Bank) : (s.setBank e b).runs = s.runs := rfl
@[simp] theorem State.setBank_decided (s : State) (e : Nat) (b : Bank) : (s.setBank e b).decided = s.decided := rfl
@[simp] theorem State.setBank_hubRuns (s : State) (e : Nat) (b : Bank) : (s.setBank e b).hubRuns = s.hubRuns := rfl
@[simp] theorem State.setBank_targets (s : State) (e : Nat) (b : Bank) : (s.setBank e b).targets = s.targets := rfl
@[simp] theorem State.setBank_qcbs (s : State) (e : Nat) (b : Bank) : (s.setBank e b).qcbs = s.qcbs := rfl
@[simp] theorem State.setBank_packets (s : State) (e : Nat) (b : Bank) : (s.setBank e b).packets = s.packets := rfl
@[simp] theorem State.setBank_gaths (s : State) (e : Nat) (b : Bank) : (s.setBank e b).gaths = s.gaths := rfl
@[simp] theorem State.setBank_jobs (s : State) (e : Nat) (b : Bank) : (s.setBank e b).jobs = s.jobs := rfl
@[simp] theorem State.setBank_graphs (s : State) (e : Nat) (b : Bank) : (s.setBank e b).graphs = s.graphs := rfl
@[simp] theorem State.setBank_readies (s : State) (e : Nat) (b : Bank) : (s.setBank e b).readies = s.readies := rfl
@[simp] theorem State.setBank_deadDies (s : State) (e : Nat) (b : Bank) : (s.setBank e b).deadDies = s.deadDies := rfl
@[simp] theorem State.setBank_budget (s : State) (e : Nat) (b : Bank) : (s.setBank e b).budget = s.budget := rfl
@[simp] theorem State.setBank_saved (s : State) (e : Nat) (b : Bank) : (s.setBank e b).saved = s.saved := rfl
@[simp] theorem State.setBank_vault (s : State) (e : Nat) (b : Bank) : (s.setBank e b).vault = s.vault := rfl
@[simp] theorem State.setBank_savePasid (s : State) (e : Nat) (b : Bank) : (s.setBank e b).savePasid = s.savePasid := rfl
@[simp] theorem State.setBank_time (s : State) (e : Nat) (b : Bank) : (s.setBank e b).time = s.time := rfl
@[simp] theorem State.setBank_members (s : State) (e : Nat) (b : Bank) : (s.setBank e b).members = s.members := rfl
@[simp] theorem State.setBank_domain (s : State) (e : Nat) (b : Bank) : (s.setBank e b).domain = s.domain := rfl
@[simp] theorem State.setBank_flows (s : State) (e : Nat) (b : Bank) : (s.setBank e b).flows = s.flows := rfl
@[simp] theorem State.setBank_circuits (s : State) (e : Nat) (b : Bank) : (s.setBank e b).circuits = s.circuits := rfl
@[simp] theorem State.setBank_timetabled (s : State) (e : Nat) (b : Bank) : (s.setBank e b).timetabled = s.timetabled := rfl
@[simp] theorem State.setBank_landing (s : State) (e : Nat) (b : Bank) : (s.setBank e b).landing = s.landing := rfl
@[simp] theorem State.setBank_command (s : State) (e : Nat) (b : Bank) : (s.setBank e b).command = s.command := rfl
@[simp] theorem State.setBank_slotTabs (s : State) (e : Nat) (b : Bank) : (s.setBank e b).slotTabs = s.slotTabs := rfl
@[simp] theorem State.setBank_slotNext (s : State) (e : Nat) (b : Bank) : (s.setBank e b).slotNext = s.slotNext := rfl
@[simp] theorem State.setBank_slotTime (s : State) (e : Nat) (b : Bank) : (s.setBank e b).slotTime = s.slotTime := rfl
@[simp] theorem State.setBank_links (s : State) (e : Nat) (b : Bank) : (s.setBank e b).links = s.links := rfl
@[simp] theorem State.setBank_apertures (s : State) (e : Nat) (b : Bank) : (s.setBank e b).apertures = s.apertures := rfl
@[simp] theorem State.setBank_slices (s : State) (e : Nat) (b : Bank) : (s.setBank e b).slices = s.slices := rfl
@[simp] theorem State.setBank_windows (s : State) (e : Nat) (b : Bank) : (s.setBank e b).windows = s.windows := rfl
@[simp] theorem State.setBank_mailbox (s : State) (e : Nat) (b : Bank) : (s.setBank e b).mailbox = s.mailbox := rfl
@[simp] theorem State.setBank_status (s : State) (e : Nat) (b : Bank) : (s.setBank e b).status = s.status := rfl
@[simp] theorem State.setBank_manifests (s : State) (e : Nat) (b : Bank) : (s.setBank e b).manifests = s.manifests := rfl
@[simp] theorem State.setBank_checkpoint (s : State) (e : Nat) (b : Bank) : (s.setBank e b).checkpoint = s.checkpoint := rfl
@[simp] theorem State.setBank_policyLoaded (s : State) (e : Nat) (b : Bank) : (s.setBank e b).policyLoaded = s.policyLoaded := rfl
@[simp] theorem State.setBank_tx (s : State) (e : Nat) (b : Bank) : (s.setBank e b).tx = s.tx := rfl
@[simp] theorem State.setBank_reports (s : State) (e : Nat) (b : Bank) : (s.setBank e b).reports = s.reports := rfl
@[simp] theorem State.setBank_hostOut (s : State) (e : Nat) (b : Bank) : (s.setBank e b).hostOut = s.hostOut := rfl
@[simp] theorem State.modBank_agenda (s : State) (e : Nat) (f : Bank → Bank) : (s.modBank e f).agenda = s.agenda := rfl
@[simp] theorem State.modBank_cur (s : State) (e : Nat) (f : Bank → Bank) : (s.modBank e f).cur = s.cur := rfl
@[simp] theorem State.modBank_eng (s : State) (e : Nat) (f : Bank → Bank) : (s.modBank e f).eng = s.eng := rfl
@[simp] theorem State.modBank_fresh (s : State) (e : Nat) (f : Bank → Bank) : (s.modBank e f).fresh = s.fresh := rfl
@[simp] theorem State.modBank_module (s : State) (e : Nat) (f : Bank → Bank) : (s.modBank e f).module = s.module := rfl
@[simp] theorem State.modBank_cores (s : State) (e : Nat) (f : Bank → Bank) : (s.modBank e f).cores = s.cores := rfl
@[simp] theorem State.modBank_mem (s : State) (e : Nat) (f : Bank → Bank) : (s.modBank e f).mem = s.mem := rfl
@[simp] theorem State.modBank_host (s : State) (e : Nat) (f : Bank → Bank) : (s.modBank e f).host = s.host := rfl
@[simp] theorem State.modBank_ecc (s : State) (e : Nat) (f : Bank → Bank) : (s.modBank e f).ecc = s.ecc := rfl
@[simp] theorem State.modBank_counters (s : State) (e : Nat) (f : Bank → Bank) : (s.modBank e f).counters = s.counters := rfl
@[simp] theorem State.modBank_regions (s : State) (e : Nat) (f : Bank → Bank) : (s.modBank e f).regions = s.regions := rfl
@[simp] theorem State.modBank_newRegions (s : State) (e : Nat) (f : Bank → Bank) : (s.modBank e f).newRegions = s.newRegions := rfl
@[simp] theorem State.modBank_pasids (s : State) (e : Nat) (f : Bank → Bank) : (s.modBank e f).pasids = s.pasids := rfl
@[simp] theorem State.modBank_caches (s : State) (e : Nat) (f : Bank → Bank) : (s.modBank e f).caches = s.caches := rfl
@[simp] theorem State.modBank_blocks (s : State) (e : Nat) (f : Bank → Bank) : (s.modBank e f).blocks = s.blocks := rfl
@[simp] theorem State.modBank_shoots (s : State) (e : Nat) (f : Bank → Bank) : (s.modBank e f).shoots = s.shoots := rfl
@[simp] theorem State.modBank_pools (s : State) (e : Nat) (f : Bank → Bank) : (s.modBank e f).pools = s.pools := rfl
@[simp] theorem State.modBank_snapFrames (s : State) (e : Nat) (f : Bank → Bank) : (s.modBank e f).snapFrames = s.snapFrames := rfl
@[simp] theorem State.modBank_timedOut (s : State) (e : Nat) (f : Bank → Bank) : (s.modBank e f).timedOut = s.timedOut := rfl
@[simp] theorem State.modBank_ats (s : State) (e : Nat) (f : Bank → Bank) : (s.modBank e f).ats = s.ats := rfl
@[simp] theorem State.modBank_runs (s : State) (e : Nat) (f : Bank → Bank) : (s.modBank e f).runs = s.runs := rfl
@[simp] theorem State.modBank_decided (s : State) (e : Nat) (f : Bank → Bank) : (s.modBank e f).decided = s.decided := rfl
@[simp] theorem State.modBank_hubRuns (s : State) (e : Nat) (f : Bank → Bank) : (s.modBank e f).hubRuns = s.hubRuns := rfl
@[simp] theorem State.modBank_targets (s : State) (e : Nat) (f : Bank → Bank) : (s.modBank e f).targets = s.targets := rfl
@[simp] theorem State.modBank_qcbs (s : State) (e : Nat) (f : Bank → Bank) : (s.modBank e f).qcbs = s.qcbs := rfl
@[simp] theorem State.modBank_packets (s : State) (e : Nat) (f : Bank → Bank) : (s.modBank e f).packets = s.packets := rfl
@[simp] theorem State.modBank_gaths (s : State) (e : Nat) (f : Bank → Bank) : (s.modBank e f).gaths = s.gaths := rfl
@[simp] theorem State.modBank_jobs (s : State) (e : Nat) (f : Bank → Bank) : (s.modBank e f).jobs = s.jobs := rfl
@[simp] theorem State.modBank_graphs (s : State) (e : Nat) (f : Bank → Bank) : (s.modBank e f).graphs = s.graphs := rfl
@[simp] theorem State.modBank_readies (s : State) (e : Nat) (f : Bank → Bank) : (s.modBank e f).readies = s.readies := rfl
@[simp] theorem State.modBank_deadDies (s : State) (e : Nat) (f : Bank → Bank) : (s.modBank e f).deadDies = s.deadDies := rfl
@[simp] theorem State.modBank_budget (s : State) (e : Nat) (f : Bank → Bank) : (s.modBank e f).budget = s.budget := rfl
@[simp] theorem State.modBank_saved (s : State) (e : Nat) (f : Bank → Bank) : (s.modBank e f).saved = s.saved := rfl
@[simp] theorem State.modBank_vault (s : State) (e : Nat) (f : Bank → Bank) : (s.modBank e f).vault = s.vault := rfl
@[simp] theorem State.modBank_savePasid (s : State) (e : Nat) (f : Bank → Bank) : (s.modBank e f).savePasid = s.savePasid := rfl
@[simp] theorem State.modBank_time (s : State) (e : Nat) (f : Bank → Bank) : (s.modBank e f).time = s.time := rfl
@[simp] theorem State.modBank_members (s : State) (e : Nat) (f : Bank → Bank) : (s.modBank e f).members = s.members := rfl
@[simp] theorem State.modBank_domain (s : State) (e : Nat) (f : Bank → Bank) : (s.modBank e f).domain = s.domain := rfl
@[simp] theorem State.modBank_flows (s : State) (e : Nat) (f : Bank → Bank) : (s.modBank e f).flows = s.flows := rfl
@[simp] theorem State.modBank_circuits (s : State) (e : Nat) (f : Bank → Bank) : (s.modBank e f).circuits = s.circuits := rfl
@[simp] theorem State.modBank_timetabled (s : State) (e : Nat) (f : Bank → Bank) : (s.modBank e f).timetabled = s.timetabled := rfl
@[simp] theorem State.modBank_landing (s : State) (e : Nat) (f : Bank → Bank) : (s.modBank e f).landing = s.landing := rfl
@[simp] theorem State.modBank_command (s : State) (e : Nat) (f : Bank → Bank) : (s.modBank e f).command = s.command := rfl
@[simp] theorem State.modBank_slotTabs (s : State) (e : Nat) (f : Bank → Bank) : (s.modBank e f).slotTabs = s.slotTabs := rfl
@[simp] theorem State.modBank_slotNext (s : State) (e : Nat) (f : Bank → Bank) : (s.modBank e f).slotNext = s.slotNext := rfl
@[simp] theorem State.modBank_slotTime (s : State) (e : Nat) (f : Bank → Bank) : (s.modBank e f).slotTime = s.slotTime := rfl
@[simp] theorem State.modBank_links (s : State) (e : Nat) (f : Bank → Bank) : (s.modBank e f).links = s.links := rfl
@[simp] theorem State.modBank_apertures (s : State) (e : Nat) (f : Bank → Bank) : (s.modBank e f).apertures = s.apertures := rfl
@[simp] theorem State.modBank_slices (s : State) (e : Nat) (f : Bank → Bank) : (s.modBank e f).slices = s.slices := rfl
@[simp] theorem State.modBank_windows (s : State) (e : Nat) (f : Bank → Bank) : (s.modBank e f).windows = s.windows := rfl
@[simp] theorem State.modBank_mailbox (s : State) (e : Nat) (f : Bank → Bank) : (s.modBank e f).mailbox = s.mailbox := rfl
@[simp] theorem State.modBank_status (s : State) (e : Nat) (f : Bank → Bank) : (s.modBank e f).status = s.status := rfl
@[simp] theorem State.modBank_manifests (s : State) (e : Nat) (f : Bank → Bank) : (s.modBank e f).manifests = s.manifests := rfl
@[simp] theorem State.modBank_checkpoint (s : State) (e : Nat) (f : Bank → Bank) : (s.modBank e f).checkpoint = s.checkpoint := rfl
@[simp] theorem State.modBank_policyLoaded (s : State) (e : Nat) (f : Bank → Bank) : (s.modBank e f).policyLoaded = s.policyLoaded := rfl
@[simp] theorem State.modBank_tx (s : State) (e : Nat) (f : Bank → Bank) : (s.modBank e f).tx = s.tx := rfl
@[simp] theorem State.modBank_reports (s : State) (e : Nat) (f : Bank → Bank) : (s.modBank e f).reports = s.reports := rfl
@[simp] theorem State.modBank_hostOut (s : State) (e : Nat) (f : Bank → Bank) : (s.modBank e f).hostOut = s.hostOut := rfl

/-! ### Registers -/

@[simp] theorem Arch.setS_pc (a : Arch) (n : Nat) (v : Word) : (a.setS n v).pc = a.pc := rfl
@[simp] theorem Arch.setS_count (a : Arch) (n : Nat) (v : Word) : (a.setS n v).count = a.count := rfl
@[simp] theorem Arch.setS_loops (a : Arch) (n : Nat) (v : Word) : (a.setS n v).loops = a.loops := rfl
@[simp] theorem Arch.setS_calls (a : Arch) (n : Nat) (v : Word) : (a.setS n v).calls = a.calls := rfl
@[simp] theorem Arch.setS_lend (a : Arch) (n : Nat) (v : Word) : (a.setS n v).lend = a.lend := rfl
@[simp] theorem Arch.setS_jcmp (a : Arch) (n : Nat) (v : Word) : (a.setS n v).jcmp = a.jcmp := rfl
@[simp] theorem Arch.setS_fstat (a : Arch) (n : Nat) (v : Word) : (a.setS n v).fstat = a.fstat := rfl
@[simp] theorem Arch.setS_rings (a : Arch) (n : Nat) (v : Word) : (a.setS n v).rings = a.rings := rfl
@[simp] theorem Arch.setS_res (a : Arch) (n : Nat) (v : Word) : (a.setS n v).res = a.res := rfl
@[simp] theorem Arch.setS_due (a : Arch) (n : Nat) (v : Word) : (a.setS n v).due = a.due := rfl
@[simp] theorem Arch.setS_p (a : Arch) (n : Nat) (v : Word) : (a.setS n v).p = a.p := rfl
@[simp] theorem Arch.setS_v (a : Arch) (n : Nat) (v : Word) : (a.setS n v).v = a.v := rfl
@[simp] theorem Arch.setS_lat (a : Arch) (n : Nat) (v : Word) : (a.setS n v).lat = a.lat := rfl
@[simp] theorem Arch.setS_cfg (a : Arch) (n : Nat) (v : Word) : (a.setS n v).cfg = a.cfg := rfl
@[simp] theorem Arch.setS_handles (a : Arch) (n : Nat) (v : Word) : (a.setS n v).handles = a.handles := rfl
@[simp] theorem Arch.setS_streams (a : Arch) (n : Nat) (v : Word) : (a.setS n v).streams = a.streams := rfl
@[simp] theorem Arch.setS_tags (a : Arch) (n : Nat) (v : Word) : (a.setS n v).tags = a.tags := rfl
@[simp] theorem Arch.setS_tagOps (a : Arch) (n : Nat) (v : Word) : (a.setS n v).tagOps = a.tagOps := rfl
@[simp] theorem Arch.setP_pc (a : Arch) (n : Nat) (v : Bool) : (a.setP n v).pc = a.pc := rfl
@[simp] theorem Arch.setP_count (a : Arch) (n : Nat) (v : Bool) : (a.setP n v).count = a.count := rfl
@[simp] theorem Arch.setP_loops (a : Arch) (n : Nat) (v : Bool) : (a.setP n v).loops = a.loops := rfl
@[simp] theorem Arch.setP_calls (a : Arch) (n : Nat) (v : Bool) : (a.setP n v).calls = a.calls := rfl
@[simp] theorem Arch.setP_lend (a : Arch) (n : Nat) (v : Bool) : (a.setP n v).lend = a.lend := rfl
@[simp] theorem Arch.setP_jcmp (a : Arch) (n : Nat) (v : Bool) : (a.setP n v).jcmp = a.jcmp := rfl
@[simp] theorem Arch.setP_fstat (a : Arch) (n : Nat) (v : Bool) : (a.setP n v).fstat = a.fstat := rfl
@[simp] theorem Arch.setP_rings (a : Arch) (n : Nat) (v : Bool) : (a.setP n v).rings = a.rings := rfl
@[simp] theorem Arch.setP_res (a : Arch) (n : Nat) (v : Bool) : (a.setP n v).res = a.res := rfl
@[simp] theorem Arch.setP_due (a : Arch) (n : Nat) (v : Bool) : (a.setP n v).due = a.due := rfl
@[simp] theorem Arch.setP_s (a : Arch) (n : Nat) (v : Bool) : (a.setP n v).s = a.s := rfl
@[simp] theorem Arch.setP_v (a : Arch) (n : Nat) (v : Bool) : (a.setP n v).v = a.v := rfl
@[simp] theorem Arch.setP_lat (a : Arch) (n : Nat) (v : Bool) : (a.setP n v).lat = a.lat := rfl
@[simp] theorem Arch.setP_cfg (a : Arch) (n : Nat) (v : Bool) : (a.setP n v).cfg = a.cfg := rfl
@[simp] theorem Arch.setP_handles (a : Arch) (n : Nat) (v : Bool) : (a.setP n v).handles = a.handles := rfl
@[simp] theorem Arch.setP_streams (a : Arch) (n : Nat) (v : Bool) : (a.setP n v).streams = a.streams := rfl
@[simp] theorem Arch.setP_tags (a : Arch) (n : Nat) (v : Bool) : (a.setP n v).tags = a.tags := rfl
@[simp] theorem Arch.setP_tagOps (a : Arch) (n : Nat) (v : Bool) : (a.setP n v).tagOps = a.tagOps := rfl
@[simp] theorem Arch.setV_pc (a : Arch) (n : Nat) (v : Vec) : (a.setV n v).pc = a.pc := rfl
@[simp] theorem Arch.setV_count (a : Arch) (n : Nat) (v : Vec) : (a.setV n v).count = a.count := rfl
@[simp] theorem Arch.setV_loops (a : Arch) (n : Nat) (v : Vec) : (a.setV n v).loops = a.loops := rfl
@[simp] theorem Arch.setV_calls (a : Arch) (n : Nat) (v : Vec) : (a.setV n v).calls = a.calls := rfl
@[simp] theorem Arch.setV_lend (a : Arch) (n : Nat) (v : Vec) : (a.setV n v).lend = a.lend := rfl
@[simp] theorem Arch.setV_jcmp (a : Arch) (n : Nat) (v : Vec) : (a.setV n v).jcmp = a.jcmp := rfl
@[simp] theorem Arch.setV_fstat (a : Arch) (n : Nat) (v : Vec) : (a.setV n v).fstat = a.fstat := rfl
@[simp] theorem Arch.setV_rings (a : Arch) (n : Nat) (v : Vec) : (a.setV n v).rings = a.rings := rfl
@[simp] theorem Arch.setV_res (a : Arch) (n : Nat) (v : Vec) : (a.setV n v).res = a.res := rfl
@[simp] theorem Arch.setV_due (a : Arch) (n : Nat) (v : Vec) : (a.setV n v).due = a.due := rfl
@[simp] theorem Arch.setV_s (a : Arch) (n : Nat) (v : Vec) : (a.setV n v).s = a.s := rfl
@[simp] theorem Arch.setV_p (a : Arch) (n : Nat) (v : Vec) : (a.setV n v).p = a.p := rfl
@[simp] theorem Arch.setV_lat (a : Arch) (n : Nat) (v : Vec) : (a.setV n v).lat = a.lat := rfl
@[simp] theorem Arch.setV_cfg (a : Arch) (n : Nat) (v : Vec) : (a.setV n v).cfg = a.cfg := rfl
@[simp] theorem Arch.setV_handles (a : Arch) (n : Nat) (v : Vec) : (a.setV n v).handles = a.handles := rfl
@[simp] theorem Arch.setV_streams (a : Arch) (n : Nat) (v : Vec) : (a.setV n v).streams = a.streams := rfl
@[simp] theorem Arch.setV_tags (a : Arch) (n : Nat) (v : Vec) : (a.setV n v).tags = a.tags := rfl
@[simp] theorem Arch.setV_tagOps (a : Arch) (n : Nat) (v : Vec) : (a.setV n v).tagOps = a.tagOps := rfl
@[simp] theorem Arch.setLatch_pc (a : Arch) (n : Nat) (v : Val) : (a.setLatch n v).pc = a.pc := rfl
@[simp] theorem Arch.setLatch_count (a : Arch) (n : Nat) (v : Val) : (a.setLatch n v).count = a.count := rfl
@[simp] theorem Arch.setLatch_loops (a : Arch) (n : Nat) (v : Val) : (a.setLatch n v).loops = a.loops := rfl
@[simp] theorem Arch.setLatch_calls (a : Arch) (n : Nat) (v : Val) : (a.setLatch n v).calls = a.calls := rfl
@[simp] theorem Arch.setLatch_lend (a : Arch) (n : Nat) (v : Val) : (a.setLatch n v).lend = a.lend := rfl
@[simp] theorem Arch.setLatch_jcmp (a : Arch) (n : Nat) (v : Val) : (a.setLatch n v).jcmp = a.jcmp := rfl
@[simp] theorem Arch.setLatch_fstat (a : Arch) (n : Nat) (v : Val) : (a.setLatch n v).fstat = a.fstat := rfl
@[simp] theorem Arch.setLatch_rings (a : Arch) (n : Nat) (v : Val) : (a.setLatch n v).rings = a.rings := rfl
@[simp] theorem Arch.setLatch_res (a : Arch) (n : Nat) (v : Val) : (a.setLatch n v).res = a.res := rfl
@[simp] theorem Arch.setLatch_due (a : Arch) (n : Nat) (v : Val) : (a.setLatch n v).due = a.due := rfl
@[simp] theorem Arch.setLatch_s (a : Arch) (n : Nat) (v : Val) : (a.setLatch n v).s = a.s := rfl
@[simp] theorem Arch.setLatch_p (a : Arch) (n : Nat) (v : Val) : (a.setLatch n v).p = a.p := rfl
@[simp] theorem Arch.setLatch_v (a : Arch) (n : Nat) (v : Val) : (a.setLatch n v).v = a.v := rfl
@[simp] theorem Arch.setLatch_cfg (a : Arch) (n : Nat) (v : Val) : (a.setLatch n v).cfg = a.cfg := rfl
@[simp] theorem Arch.setLatch_handles (a : Arch) (n : Nat) (v : Val) : (a.setLatch n v).handles = a.handles := rfl
@[simp] theorem Arch.setLatch_streams (a : Arch) (n : Nat) (v : Val) : (a.setLatch n v).streams = a.streams := rfl
@[simp] theorem Arch.setLatch_tags (a : Arch) (n : Nat) (v : Val) : (a.setLatch n v).tags = a.tags := rfl
@[simp] theorem Arch.setLatch_tagOps (a : Arch) (n : Nat) (v : Val) : (a.setLatch n v).tagOps = a.tagOps := rfl
@[simp] theorem Arch.setConfig_pc (a : Arch) (n : Nat) (v : Word) : (a.setConfig n v).pc = a.pc := rfl
@[simp] theorem Arch.setConfig_count (a : Arch) (n : Nat) (v : Word) : (a.setConfig n v).count = a.count := rfl
@[simp] theorem Arch.setConfig_loops (a : Arch) (n : Nat) (v : Word) : (a.setConfig n v).loops = a.loops := rfl
@[simp] theorem Arch.setConfig_calls (a : Arch) (n : Nat) (v : Word) : (a.setConfig n v).calls = a.calls := rfl
@[simp] theorem Arch.setConfig_lend (a : Arch) (n : Nat) (v : Word) : (a.setConfig n v).lend = a.lend := rfl
@[simp] theorem Arch.setConfig_jcmp (a : Arch) (n : Nat) (v : Word) : (a.setConfig n v).jcmp = a.jcmp := rfl
@[simp] theorem Arch.setConfig_fstat (a : Arch) (n : Nat) (v : Word) : (a.setConfig n v).fstat = a.fstat := rfl
@[simp] theorem Arch.setConfig_rings (a : Arch) (n : Nat) (v : Word) : (a.setConfig n v).rings = a.rings := rfl
@[simp] theorem Arch.setConfig_res (a : Arch) (n : Nat) (v : Word) : (a.setConfig n v).res = a.res := rfl
@[simp] theorem Arch.setConfig_due (a : Arch) (n : Nat) (v : Word) : (a.setConfig n v).due = a.due := rfl
@[simp] theorem Arch.setConfig_s (a : Arch) (n : Nat) (v : Word) : (a.setConfig n v).s = a.s := rfl
@[simp] theorem Arch.setConfig_p (a : Arch) (n : Nat) (v : Word) : (a.setConfig n v).p = a.p := rfl
@[simp] theorem Arch.setConfig_v (a : Arch) (n : Nat) (v : Word) : (a.setConfig n v).v = a.v := rfl
@[simp] theorem Arch.setConfig_lat (a : Arch) (n : Nat) (v : Word) : (a.setConfig n v).lat = a.lat := rfl
@[simp] theorem Arch.setConfig_handles (a : Arch) (n : Nat) (v : Word) : (a.setConfig n v).handles = a.handles := rfl
@[simp] theorem Arch.setConfig_streams (a : Arch) (n : Nat) (v : Word) : (a.setConfig n v).streams = a.streams := rfl
@[simp] theorem Arch.setConfig_tags (a : Arch) (n : Nat) (v : Word) : (a.setConfig n v).tags = a.tags := rfl
@[simp] theorem Arch.setConfig_tagOps (a : Arch) (n : Nat) (v : Word) : (a.setConfig n v).tagOps = a.tagOps := rfl
@[simp] theorem Arch.setHandle_pc (a : Arch) (n : Nat) (h : Handle) : (a.setHandle n h).pc = a.pc := rfl
@[simp] theorem Arch.setHandle_count (a : Arch) (n : Nat) (h : Handle) : (a.setHandle n h).count = a.count := rfl
@[simp] theorem Arch.setHandle_loops (a : Arch) (n : Nat) (h : Handle) : (a.setHandle n h).loops = a.loops := rfl
@[simp] theorem Arch.setHandle_calls (a : Arch) (n : Nat) (h : Handle) : (a.setHandle n h).calls = a.calls := rfl
@[simp] theorem Arch.setHandle_lend (a : Arch) (n : Nat) (h : Handle) : (a.setHandle n h).lend = a.lend := rfl
@[simp] theorem Arch.setHandle_jcmp (a : Arch) (n : Nat) (h : Handle) : (a.setHandle n h).jcmp = a.jcmp := rfl
@[simp] theorem Arch.setHandle_fstat (a : Arch) (n : Nat) (h : Handle) : (a.setHandle n h).fstat = a.fstat := rfl
@[simp] theorem Arch.setHandle_rings (a : Arch) (n : Nat) (h : Handle) : (a.setHandle n h).rings = a.rings := rfl
@[simp] theorem Arch.setHandle_res (a : Arch) (n : Nat) (h : Handle) : (a.setHandle n h).res = a.res := rfl
@[simp] theorem Arch.setHandle_due (a : Arch) (n : Nat) (h : Handle) : (a.setHandle n h).due = a.due := rfl
@[simp] theorem Arch.setHandle_s (a : Arch) (n : Nat) (h : Handle) : (a.setHandle n h).s = a.s := rfl
@[simp] theorem Arch.setHandle_p (a : Arch) (n : Nat) (h : Handle) : (a.setHandle n h).p = a.p := rfl
@[simp] theorem Arch.setHandle_v (a : Arch) (n : Nat) (h : Handle) : (a.setHandle n h).v = a.v := rfl
@[simp] theorem Arch.setHandle_lat (a : Arch) (n : Nat) (h : Handle) : (a.setHandle n h).lat = a.lat := rfl
@[simp] theorem Arch.setHandle_cfg (a : Arch) (n : Nat) (h : Handle) : (a.setHandle n h).cfg = a.cfg := rfl
@[simp] theorem Arch.setHandle_streams (a : Arch) (n : Nat) (h : Handle) : (a.setHandle n h).streams = a.streams := rfl
@[simp] theorem Arch.setHandle_tags (a : Arch) (n : Nat) (h : Handle) : (a.setHandle n h).tags = a.tags := rfl
@[simp] theorem Arch.setHandle_tagOps (a : Arch) (n : Nat) (h : Handle) : (a.setHandle n h).tagOps = a.tagOps := rfl
@[simp] theorem Arch.setStream_pc (a : Arch) (n : Nat) (x : Stream) : (a.setStream n x).pc = a.pc := rfl
@[simp] theorem Arch.setStream_count (a : Arch) (n : Nat) (x : Stream) : (a.setStream n x).count = a.count := rfl
@[simp] theorem Arch.setStream_loops (a : Arch) (n : Nat) (x : Stream) : (a.setStream n x).loops = a.loops := rfl
@[simp] theorem Arch.setStream_calls (a : Arch) (n : Nat) (x : Stream) : (a.setStream n x).calls = a.calls := rfl
@[simp] theorem Arch.setStream_lend (a : Arch) (n : Nat) (x : Stream) : (a.setStream n x).lend = a.lend := rfl
@[simp] theorem Arch.setStream_jcmp (a : Arch) (n : Nat) (x : Stream) : (a.setStream n x).jcmp = a.jcmp := rfl
@[simp] theorem Arch.setStream_fstat (a : Arch) (n : Nat) (x : Stream) : (a.setStream n x).fstat = a.fstat := rfl
@[simp] theorem Arch.setStream_rings (a : Arch) (n : Nat) (x : Stream) : (a.setStream n x).rings = a.rings := rfl
@[simp] theorem Arch.setStream_res (a : Arch) (n : Nat) (x : Stream) : (a.setStream n x).res = a.res := rfl
@[simp] theorem Arch.setStream_due (a : Arch) (n : Nat) (x : Stream) : (a.setStream n x).due = a.due := rfl
@[simp] theorem Arch.setStream_s (a : Arch) (n : Nat) (x : Stream) : (a.setStream n x).s = a.s := rfl
@[simp] theorem Arch.setStream_p (a : Arch) (n : Nat) (x : Stream) : (a.setStream n x).p = a.p := rfl
@[simp] theorem Arch.setStream_v (a : Arch) (n : Nat) (x : Stream) : (a.setStream n x).v = a.v := rfl
@[simp] theorem Arch.setStream_lat (a : Arch) (n : Nat) (x : Stream) : (a.setStream n x).lat = a.lat := rfl
@[simp] theorem Arch.setStream_cfg (a : Arch) (n : Nat) (x : Stream) : (a.setStream n x).cfg = a.cfg := rfl
@[simp] theorem Arch.setStream_handles (a : Arch) (n : Nat) (x : Stream) : (a.setStream n x).handles = a.handles := rfl
@[simp] theorem Arch.setStream_tags (a : Arch) (n : Nat) (x : Stream) : (a.setStream n x).tags = a.tags := rfl
@[simp] theorem Arch.setStream_tagOps (a : Arch) (n : Nat) (x : Stream) : (a.setStream n x).tagOps = a.tagOps := rfl
@[simp] theorem Arch.raise_pc (a : Arch) (f : Word) : (a.raise f).pc = a.pc := rfl
@[simp] theorem Arch.raise_count (a : Arch) (f : Word) : (a.raise f).count = a.count := rfl
@[simp] theorem Arch.raise_loops (a : Arch) (f : Word) : (a.raise f).loops = a.loops := rfl
@[simp] theorem Arch.raise_calls (a : Arch) (f : Word) : (a.raise f).calls = a.calls := rfl
@[simp] theorem Arch.raise_lend (a : Arch) (f : Word) : (a.raise f).lend = a.lend := rfl
@[simp] theorem Arch.raise_jcmp (a : Arch) (f : Word) : (a.raise f).jcmp = a.jcmp := rfl
@[simp] theorem Arch.raise_rings (a : Arch) (f : Word) : (a.raise f).rings = a.rings := rfl
@[simp] theorem Arch.raise_res (a : Arch) (f : Word) : (a.raise f).res = a.res := rfl
@[simp] theorem Arch.raise_due (a : Arch) (f : Word) : (a.raise f).due = a.due := rfl
@[simp] theorem Arch.raise_s (a : Arch) (f : Word) : (a.raise f).s = a.s := rfl
@[simp] theorem Arch.raise_p (a : Arch) (f : Word) : (a.raise f).p = a.p := rfl
@[simp] theorem Arch.raise_v (a : Arch) (f : Word) : (a.raise f).v = a.v := rfl
@[simp] theorem Arch.raise_lat (a : Arch) (f : Word) : (a.raise f).lat = a.lat := rfl
@[simp] theorem Arch.raise_cfg (a : Arch) (f : Word) : (a.raise f).cfg = a.cfg := rfl
@[simp] theorem Arch.raise_handles (a : Arch) (f : Word) : (a.raise f).handles = a.handles := rfl
@[simp] theorem Arch.raise_streams (a : Arch) (f : Word) : (a.raise f).streams = a.streams := rfl
@[simp] theorem Arch.raise_tags (a : Arch) (f : Word) : (a.raise f).tags = a.tags := rfl
@[simp] theorem Arch.raise_tagOps (a : Arch) (f : Word) : (a.raise f).tagOps = a.tagOps := rfl
@[simp] theorem Arch.addDue_pc (a : Arch) (d : Due) : (a.addDue d).pc = a.pc := rfl
@[simp] theorem Arch.addDue_count (a : Arch) (d : Due) : (a.addDue d).count = a.count := rfl
@[simp] theorem Arch.addDue_loops (a : Arch) (d : Due) : (a.addDue d).loops = a.loops := rfl
@[simp] theorem Arch.addDue_calls (a : Arch) (d : Due) : (a.addDue d).calls = a.calls := rfl
@[simp] theorem Arch.addDue_lend (a : Arch) (d : Due) : (a.addDue d).lend = a.lend := rfl
@[simp] theorem Arch.addDue_jcmp (a : Arch) (d : Due) : (a.addDue d).jcmp = a.jcmp := rfl
@[simp] theorem Arch.addDue_fstat (a : Arch) (d : Due) : (a.addDue d).fstat = a.fstat := rfl
@[simp] theorem Arch.addDue_rings (a : Arch) (d : Due) : (a.addDue d).rings = a.rings := rfl
@[simp] theorem Arch.addDue_res (a : Arch) (d : Due) : (a.addDue d).res = a.res := rfl
@[simp] theorem Arch.addDue_s (a : Arch) (d : Due) : (a.addDue d).s = a.s := rfl
@[simp] theorem Arch.addDue_p (a : Arch) (d : Due) : (a.addDue d).p = a.p := rfl
@[simp] theorem Arch.addDue_v (a : Arch) (d : Due) : (a.addDue d).v = a.v := rfl
@[simp] theorem Arch.addDue_lat (a : Arch) (d : Due) : (a.addDue d).lat = a.lat := rfl
@[simp] theorem Arch.addDue_cfg (a : Arch) (d : Due) : (a.addDue d).cfg = a.cfg := rfl
@[simp] theorem Arch.addDue_handles (a : Arch) (d : Due) : (a.addDue d).handles = a.handles := rfl
@[simp] theorem Arch.addDue_streams (a : Arch) (d : Due) : (a.addDue d).streams = a.streams := rfl
@[simp] theorem Arch.addDue_tags (a : Arch) (d : Due) : (a.addDue d).tags = a.tags := rfl
@[simp] theorem Arch.addDue_tagOps (a : Arch) (d : Due) : (a.addDue d).tagOps = a.tagOps := rfl
@[simp] theorem Arch.setTag_pc (a : Arch) (n : Nat) (e : Word) : (a.setTag n e).pc = a.pc := rfl
@[simp] theorem Arch.setTag_count (a : Arch) (n : Nat) (e : Word) : (a.setTag n e).count = a.count := rfl
@[simp] theorem Arch.setTag_loops (a : Arch) (n : Nat) (e : Word) : (a.setTag n e).loops = a.loops := rfl
@[simp] theorem Arch.setTag_calls (a : Arch) (n : Nat) (e : Word) : (a.setTag n e).calls = a.calls := rfl
@[simp] theorem Arch.setTag_lend (a : Arch) (n : Nat) (e : Word) : (a.setTag n e).lend = a.lend := rfl
@[simp] theorem Arch.setTag_jcmp (a : Arch) (n : Nat) (e : Word) : (a.setTag n e).jcmp = a.jcmp := rfl
@[simp] theorem Arch.setTag_fstat (a : Arch) (n : Nat) (e : Word) : (a.setTag n e).fstat = a.fstat := rfl
@[simp] theorem Arch.setTag_rings (a : Arch) (n : Nat) (e : Word) : (a.setTag n e).rings = a.rings := rfl
@[simp] theorem Arch.setTag_res (a : Arch) (n : Nat) (e : Word) : (a.setTag n e).res = a.res := rfl
@[simp] theorem Arch.setTag_due (a : Arch) (n : Nat) (e : Word) : (a.setTag n e).due = a.due := rfl
@[simp] theorem Arch.setTag_s (a : Arch) (n : Nat) (e : Word) : (a.setTag n e).s = a.s := rfl
@[simp] theorem Arch.setTag_p (a : Arch) (n : Nat) (e : Word) : (a.setTag n e).p = a.p := rfl
@[simp] theorem Arch.setTag_v (a : Arch) (n : Nat) (e : Word) : (a.setTag n e).v = a.v := rfl
@[simp] theorem Arch.setTag_lat (a : Arch) (n : Nat) (e : Word) : (a.setTag n e).lat = a.lat := rfl
@[simp] theorem Arch.setTag_cfg (a : Arch) (n : Nat) (e : Word) : (a.setTag n e).cfg = a.cfg := rfl
@[simp] theorem Arch.setTag_handles (a : Arch) (n : Nat) (e : Word) : (a.setTag n e).handles = a.handles := rfl
@[simp] theorem Arch.setTag_streams (a : Arch) (n : Nat) (e : Word) : (a.setTag n e).streams = a.streams := rfl
@[simp] theorem Arch.setTag_tagOps (a : Arch) (n : Nat) (e : Word) : (a.setTag n e).tagOps = a.tagOps := rfl

/-! ### Leaves that a walk has faulted on (R35) -/

@[simp] theorem markFaulted_mem (s : State) (ag pasid va : Nat) : (markFaulted s ag pasid va).mem = s.mem := rfl
@[simp] theorem dropFaulted_mem (s : State) (ag pasid va : Nat) : (dropFaulted s ag pasid va).mem = s.mem := rfl
@[simp] theorem markFaulted_host (s : State) (ag pasid va : Nat) : (markFaulted s ag pasid va).host = s.host := rfl
@[simp] theorem dropFaulted_host (s : State) (ag pasid va : Nat) : (dropFaulted s ag pasid va).host = s.host := rfl
@[simp] theorem markFaulted_cores (s : State) (ag pasid va : Nat) : (markFaulted s ag pasid va).cores = s.cores := rfl
@[simp] theorem dropFaulted_cores (s : State) (ag pasid va : Nat) : (dropFaulted s ag pasid va).cores = s.cores := rfl
@[simp] theorem markFaulted_banks (s : State) (ag pasid va : Nat) : (markFaulted s ag pasid va).banks = s.banks := rfl
@[simp] theorem dropFaulted_banks (s : State) (ag pasid va : Nat) : (dropFaulted s ag pasid va).banks = s.banks := rfl
@[simp] theorem markFaulted_fresh (s : State) (ag pasid va : Nat) : (markFaulted s ag pasid va).fresh = s.fresh := rfl
@[simp] theorem dropFaulted_fresh (s : State) (ag pasid va : Nat) : (dropFaulted s ag pasid va).fresh = s.fresh := rfl
@[simp] theorem markFaulted_cur (s : State) (ag pasid va : Nat) : (markFaulted s ag pasid va).cur = s.cur := rfl
@[simp] theorem dropFaulted_cur (s : State) (ag pasid va : Nat) : (dropFaulted s ag pasid va).cur = s.cur := rfl
@[simp] theorem markFaulted_agenda (s : State) (ag pasid va : Nat) : (markFaulted s ag pasid va).agenda = s.agenda := rfl
@[simp] theorem dropFaulted_agenda (s : State) (ag pasid va : Nat) : (dropFaulted s ag pasid va).agenda = s.agenda := rfl
@[simp] theorem markFaulted_pasids (s : State) (ag pasid va : Nat) : (markFaulted s ag pasid va).pasids = s.pasids := rfl
@[simp] theorem dropFaulted_pasids (s : State) (ag pasid va : Nat) : (dropFaulted s ag pasid va).pasids = s.pasids := rfl

/-! ### What the updates give -/

@[simp] theorem Arch.setS_read (a : Arch) (n : Nat) (v : Word) : (a.setS n v).s.get 0 n = v := Tab.get_put_same ..
theorem Arch.setS_read_other (a : Arch) {n m : Nat} (v : Word) (h : m ≠ n) : (a.setS n v).s.get 0 m = a.s.get 0 m := Tab.get_put_other _ _ _ _ h
@[simp] theorem Arch.setP_read (a : Arch) (n : Nat) (v : Bool) : (a.setP n v).p.get false n = v := Tab.get_put_same ..
theorem Arch.setP_read_other (a : Arch) {n m : Nat} (v : Bool) (h : m ≠ n) : (a.setP n v).p.get false m = a.p.get false m := Tab.get_put_other _ _ _ _ h
@[simp] theorem Arch.setV_read (a : Arch) (n : Nat) (v : Vec) : (a.setV n v).v.get 0 n = v := Tab.get_put_same ..
theorem Arch.setV_read_other (a : Arch) {n m : Nat} (v : Vec) (h : m ≠ n) : (a.setV n v).v.get 0 m = a.v.get 0 m := Tab.get_put_other _ _ _ _ h
@[simp] theorem Arch.latch_setLatch (a : Arch) (n : Nat) (v : Val) : (a.setLatch n v).latch n = v := Tab.get_put_same ..
theorem Arch.latch_setLatch_other (a : Arch) {n m : Nat} (v : Val) (h : m ≠ n) : (a.setLatch n v).latch m = a.latch m := Tab.get_put_other _ _ _ _ h
@[simp] theorem Arch.config_setConfig (a : Arch) (n : Nat) (v : Word) : (a.setConfig n v).config n = v := Tab.get_put_same ..
theorem Arch.config_setConfig_other (a : Arch) {n m : Nat} (v : Word) (h : m ≠ n) : (a.setConfig n v).config m = a.config m := Tab.get_put_other _ _ _ _ h
@[simp] theorem Arch.handle_setHandle (a : Arch) (n : Nat) (x : Handle) : (a.setHandle n x).handle n = x := Tab.get_put_same ..
theorem Arch.handle_setHandle_other (a : Arch) {n m : Nat} (x : Handle) (h : m ≠ n) : (a.setHandle n x).handle m = a.handle m := Tab.get_put_other _ _ _ _ h
@[simp] theorem Arch.stream_setStream (a : Arch) (n : Nat) (x : Stream) : (a.setStream n x).stream n = x := Tab.get_put_same ..
theorem Arch.stream_setStream_other (a : Arch) {n m : Nat} (x : Stream) (h : m ≠ n) : (a.setStream n x).stream m = a.stream m := Tab.get_put_other _ _ _ _ h
@[simp] theorem Arch.raise_fstat (a : Arch) (f : Word) : (a.raise f).fstat = fstatRaise a.fstat f := rfl
@[simp] theorem Arch.addDue_due (a : Arch) (d : Due) : (a.addDue d).due = a.due ++ [d] := rfl
@[simp] theorem Core.join_setJoin (k : Core) (j : Nat) (v : BitVec 32) : (k.setJoin j v).join j = v := Tab.get_put_same ..
theorem Core.join_setJoin_other (k : Core) {j i : Nat} (v : BitVec 32) (h : i ≠ j) : (k.setJoin j v).join i = k.join i := Tab.get_put_other _ _ _ _ h
@[simp] theorem Core.slot_setSlot (k : Core) (n : Nat) (r : Option Record) : (k.setSlot n r).slot n = r := Tab.get_set_same ..
theorem Core.slot_setSlot_other (k : Core) {n m : Nat} (r : Option Record) (h : m ≠ n) : (k.setSlot n r).slot m = k.slot m := Tab.get_set_other _ _ _ h
@[simp] theorem Core.folio_setFolio (k : Core) (f : Nat) (x : FolioState) : (k.setFolio f x).folio f = x := Tab.get_set_same ..
theorem Core.folio_setFolio_other (k : Core) {f g : Nat} (x : FolioState) (h : g ≠ f) : (k.setFolio f x).folio g = k.folio g := by
  unfold Core.folio Core.setFolio
  exact Tab.get_set_other _ _ _ h

end Sys2Proof.Machine
end

