-- ==== Sys2Proof/Laws/Trigger.lean ====
section
/-!
SUPPORT. Laws of moves and triggers: a trigger whose source can be read and whose body completes gives the body's state;
what the bodies' shared operations give.
-/

namespace Sys2Proof.Machine

theorem except_ok_bind {ε α β : Type} (a : α) (f : α → Except ε β) : (Except.ok a : Except ε α).bind f = f a := rfl

theorem atPart_ok {α : Type} (w : Nat) (a : α) : atPart w (.ok a) = .ok a := rfl
theorem atPart_fault {α : Type} (w : Nat) (f : CFault) : atPart (α := α) w (.error (.fault f)) = .error (.fault f) := rfl

theorem needFolio_ok {k : Core} {f : Nat} (h : (k.folio f).pres = .present) : needFolio k f = .ok () := by
  simp [needFolio, h]

theorem needFolios_ok {k : Core} {l : List Nat} (h : ∀ f ∈ l, (k.folio f).pres = .present) : needFolios k l = .ok () := by
  induction l with
  | nil => rfl
  | cons f r ih =>
    simp only [needFolios, needFolio_ok (h f List.mem_cons_self), except_ok_bind]
    exact ih fun g hg => h g (List.mem_cons_of_mem _ hg)

/-- A peer load whose folios are PRESENT at the peer goes on (R20). -/
theorem needPeer_ok {s : State} {e bus : Nat} {l : List Nat} (h : ∀ f ∈ l, ((s.core e).folio f).pres = .present) : needPeer s e bus l = .ok () := by
  have : (l.find? fun f => ((s.core e).folio f).pres != .present) = none := by simpa using h
  simp [needPeer, this]

/-- What `tins` and `tdel` do: at once on a PRESENT tag folio, else when its bytes come (R77, R78). -/
theorem tagWrite_present {x : Trig} {s : State} {o : TagOp} (h : ((s.core x.c).folio o.folio).pres = .present) :
    tagWrite x s o = .ok (s.setCore x.c ({ s.core x.c with arch := TagOp.apply (s.core x.c).arch o }.dirty o.folio)) := by
  simp [tagWrite, h, pure, Except.pure]
theorem tagWrite_waits {x : Trig} {s : State} {o : TagOp} (h : ((s.core x.c).folio o.folio).pres ≠ .present) :
    tagWrite x s o = .ok (s.setCore x.c { s.core x.c with arch := { (s.core x.c).arch with tagOps := (s.core x.c).arch.tagOps ++ [o] } }) := by
  simp [tagWrite, h, pure, Except.pure]

theorem Present.folios {s : State} {l : List Nat} (h : Present s l) : needFolios (s.core s.cur) l = .ok () := needFolios_ok h

theorem Present.folio {s : State} {l : List Nat} (h : Present s l) {f : Nat} (hf : f ∈ l) : needFolio (s.core s.cur) f = .ok () := needFolio_ok (h f hf)

/-- A pop changes the decoder FIFO and nothing else of a core. -/
theorem popHead_ok {k l : Core} {w : Nat} (h : popHead k w = .ok l) : l = { k with fifo := l.fifo, popped := l.popped } := by
  unfold popHead at h
  split at h
  · split at h
    · cases h
    · cases h
      rfl
  · cases h
    rfl

/-- What a read leaves: the state itself, or with the current core's FIFO popped. -/
theorem Reads.state {s t : State} {bus : Fin 8} {src : BitVec 11} {keep : Bool} {v : Val} (h : Reads s bus src keep v t) :
    t = s ∨ ∃ k, popHead s.here bus.val = .ok k ∧ t = s.setCore s.cur k := by
  have h := h.2
  split at h
  · cases hp : popHead s.here bus.val with
    | error e => simp [hp, Except.map] at h
    | ok k =>
      simp only [hp, Except.map, Except.ok.injEq] at h
      exact .inr ⟨k, rfl, h.symm⟩
  · cases h
    exact .inl rfl

theorem Reads.cur {s t : State} {bus : Fin 8} {src : BitVec 11} {keep : Bool} {v : Val} (h : Reads s bus src keep v t) : t.cur = s.cur := by
  rcases h.state with rfl | ⟨k, -, rfl⟩ <;> rfl

/-- The registers are as they were. -/
theorem Reads.arch {s t : State} {bus : Fin 8} {src : BitVec 11} {keep : Bool} {v : Val} (h : Reads s bus src keep v t) :
    t.here = { s.here with fifo := t.here.fifo, popped := t.here.popped } := by
  rcases h.state with rfl | ⟨k, hk, rfl⟩
  · rfl
  · have := popHead_ok hk
    simp only [State.here, State.setCore_cur, State.core_setCore_same] at this ⊢
    exact this

theorem Reads.sameModule {s t : State} {bus : Fin 8} {src : BitVec 11} {keep : Bool} {v : Val} (h : Reads s bus src keep v t) : SameModule s t := by
  rcases h.state with rfl | ⟨k, -, rfl⟩ <;> rfl

theorem Reads.sameOthers {s t : State} {bus : Fin 8} {src : BitVec 11} {keep : Bool} {v : Val} (h : Reads s bus src keep v t) : SameOthers s t := by
  rcases h.state with rfl | ⟨k, -, rfl⟩
  · exact fun _ _ => rfl
  · exact fun d hd => State.core_setCore_other _ _ hd

/-- A trigger's source, popped or not, and then its body. -/
theorem runTrigger_ok {s t u : State} {bus : Fin 8} {src : BitVec 11} {keep : Bool} {v : Val} {port w : Nat} {body : Body} (h : Reads s bus src keep v t)
    (hl : needLatches t s.cur port = .ok ()) (hb : body { c := s.cur, bus := bus.val, port := port, b := v, w := w, pre := s.here.arch } t = .ok u) :
    runTrigger s.cur bus.val src.toNat keep port w body s = .ok u := by
  obtain ⟨h1, h2⟩ := h
  have hs : atPart bus.val (startTrigger { c := s.cur, bus := bus.val, port := port, b := v, w := w, pre := s.here.arch } body t) = .ok u := by
    simp only [startTrigger, hl, except_ok_bind, hb, atPart_ok]
  simp only [runTrigger, h1, atPart_ok, bind, except_ok_bind]
  split at h2
  · rename_i hc
    simp only [hc, and_self, if_true]
    simp only [State.here] at h2
    rw [h2]
    exact hs
  · rename_i hc
    rw [if_neg hc]
    cases h2
    exact hs

theorem runMv_next {s t u : State} {m : Mv} {v : Val} {port : Nat} {body : Body} (h : Reads s m.bus m.src m.keep v t)
    (hl : needLatches t s.cur port = .ok ()) (hb : body { c := s.cur, bus := m.bus.val, port := port, b := v, w := 1024, pre := s.here.arch } t = .ok u) :
    runMv m port body s = .next u := by
  simp only [runMv, runTrigger_ok h hl hb, finish]

theorem runVm_next {s t u : State} {m : Vm} {v : Val} {port : Nat} {body : Body} (h : Reads s m.bus m.src false v t)
    (hl : needLatches t s.cur port = .ok ()) (hb : body { c := s.cur, bus := m.bus.val, port := port, b := v, w := widthBits m.w, pre := s.here.arch } t = .ok u) :
    runVm m port body s = .next u := by
  simp only [runVm, runTrigger_ok h hl hb, finish]

/-- A trigger that faults takes the core fault. -/
theorem runMv_fault {s t : State} {m : Mv} {v : Val} {port : Nat} {body : Body} {f : CFault} (h : Reads s m.bus m.src m.keep v t)
    (hl : needLatches t s.cur port = .ok ()) (hb : body { c := s.cur, bus := m.bus.val, port := port, b := v, w := 1024, pre := s.here.arch } t = .error (.fault f)) :
    runMv m port body s = .next (takeCoreFault s s.cur f) := by
  obtain ⟨h1, h2⟩ := h
  have hs : atPart m.bus.val (startTrigger { c := s.cur, bus := m.bus.val, port := port, b := v, w := 1024, pre := s.here.arch } body t) = .error (.fault f) := by
    simp only [startTrigger, hl, except_ok_bind, hb, atPart_fault]
  have hr : runTrigger s.cur m.bus.val m.src.toNat m.keep port 1024 body s = .error (.fault f) := by
    simp only [runTrigger, h1, atPart_ok, bind, except_ok_bind]
    split at h2
    · rename_i hc
      simp only [hc, and_self, if_true]
      simp only [State.here] at h2
      rw [h2]
      exact hs
    · rename_i hc
      rw [if_neg hc]
      cases h2
      exact hs
  simp only [runMv, hr, finish, takeStop]

theorem needLatches_present {s : State} {l : List Nat} (h : Present s l) (h32 : 32 ∈ l) (port : Nat) : needLatches s s.cur port = .ok () := by
  unfold needLatches
  split
  · rfl
  · exact h.folio h32

theorem needLatches_cu (s : State) (c : Nat) {port : Nat} (h : isCuTrig port = true) : needLatches s c port = .ok () := by
  simp [needLatches, h]

/-! ### The shared bodies -/

/-- A scalar operation delivers its value and flags. -/
theorem scalar_ok {op : ScalarOp} {x : Trig} {t : State} (hc : x.c = t.cur) (h : Present t [32, 33]) :
    scalar op x t =
      .ok (deliver t t.cur x.bus (busResult x.bus) op.lat
        ((op.f (t.here.arch.latch (0x100 + x.bus)).lo x.b.lo (t.here.arch.latch (0x113 + x.bus)).lo).1.setWidth 1024)
        (op.f (t.here.arch.latch (0x100 + x.bus)).lo x.b.lo (t.here.arch.latch (0x113 + x.bus)).lo).2) := by
  simp only [scalar, hc, h.folios, bind, except_ok_bind, due, State.here]

/-- A gate entry is added to the core's gate. -/
theorem gateAppend_ok {s : State} {c bus : Nat} {g : Gated} (h : (s.core c).gate.length < Config.gateEntries) :
    gateAppend s c bus g = .ok (s.modCore c fun k => { k with gate := k.gate ++ [g] }) := by
  simp [gateAppend, Nat.not_le.2 h]

end Sys2Proof.Machine
end

