-- ==== Sys2Proof/Laws/Issue.lean ====
section
/-!
SUPPORT. Laws of the issue of a bundle: what its steps leave of the state, and what a trigger alone in its bundle does.
-/

namespace Sys2Proof

theorem cellPut_put {α : Type} (l : List (Nat × α)) (k : Nat) (v w : α) : cellPut (cellPut l k v) k w = cellPut l k w := by
  induction l with
  | nil => simp [cellPut]
  | cons c r ih =>
    obtain ⟨j, x⟩ := c
    simp only [cellPut]
    split
    · simp [cellPut]
    · split
      · rename_i h
        subst h
        simp [cellPut]
      · rename_i h1 h2
        simp only [cellPut, h1, h2, if_false, ih]

end Sys2Proof

namespace Sys2Proof.Machine

@[simp] theorem State.setCore_setCore (s : State) (c : Nat) (k l : Core) : (s.setCore c k).setCore c l = s.setCore c l := by
  simp [State.setCore, Tab.set, cellPut_put]

@[simp] theorem State.modCore_setCore (s : State) (c : Nat) (k : Core) (f : Core → Core) : (s.setCore c k).modCore c f = s.setCore c (f k) := by
  simp [State.modCore]

@[simp] theorem State.modCore_modCore (s : State) (c : Nat) (f g : Core → Core) : (s.modCore c f).modCore c g = s.modCore c fun k => g (f k) := by
  simp [State.modCore]

/-- Step 2 of an issue changes the core alone. -/
theorem stepRings_set {s t : State} {c : Nat} (h : stepRings s c = .ok t) : ∃ k, t = s.setCore c k := by
  unfold stepRings at h
  simp only [bind, Except.bind, pure, Except.pure] at h
  repeat' split at h
  all_goals cases h
  all_goals exact ⟨_, rfl⟩

/-- A leaf without pops leaves the loop stack. -/
theorem leafPops_zero (s : State) (c : Nat) (k : Core) : leafPops c 0 (s.setCore c k) = .ok (s.setCore c k) := by
  simp [leafPops, State.modArch]

/-- A trigger that is no mark, alone, runs as step 6 of a bundle runs it. -/
theorem exec_trigger {i : Instr} {tr : Trigger} (t : State) (h : triggerOf i = some tr) (hm : isMarkTrig tr.port = false) :
    exec i t = finish t t.cur (runTrigger t.cur tr.bus tr.src tr.keep tr.port tr.width tr.body t) := by
  cases i
  all_goals first
    | (obtain rfl := Option.some.inj h; rfl)
    | (obtain rfl := Option.some.inj h; exfalso; revert hm; simp [Trigger.ofMv, isMarkTrig, isAtomicTrig]; done)
    | exact nomatch h

end Sys2Proof.Machine
end

