-- ==== Sys2Proof/Laws/Memory.lean ====
section
/-!
SUPPORT. Laws of memory: a read after a write, and the canonical form that every operation keeps.
-/

namespace Sys2Proof.Machine

@[simp] theorem Memory.blank_write (m : Memory) (a b : Nat) (x : Byte) : (m.write a x).blank b = m.blank b := by
  unfold Memory.write
  split <;> rfl

theorem Memory.read_write_same (m : Memory) (a : Nat) (x : Byte) : (m.write a x).read a = x := by
  unfold Memory.read
  rw [Memory.blank_write]
  unfold Memory.write
  split
  · rename_i h
    rw [h]
    exact cellGet_drop_same ..
  · exact cellGet_put_same ..

theorem Memory.read_write_other (m : Memory) {a b : Nat} (x : Byte) (h : b ≠ a) : (m.write a x).read b = m.read b := by
  unfold Memory.read
  rw [Memory.blank_write]
  unfold Memory.write
  split
  · exact cellGet_drop_other _ _ h
  · exact cellGet_put_other _ _ _ h

theorem Memory.wf_iff (m : Memory) : m.wf ↔ cellRising m.cells 0 = true ∧ ∀ c ∈ m.cells, c.2 ≠ m.blank c.1 := by
  simp [Memory.wf]

theorem Memory.wf_write {m : Memory} (h : m.wf) (a : Nat) (x : Byte) : (m.write a x).wf := by
  rw [Memory.wf_iff] at h ⊢
  simp only [Memory.blank_write]
  unfold Memory.write
  split
  · refine ⟨cellRising_filter _ h.1, fun c hc => h.2 c ?_⟩
    exact (List.mem_filter.1 hc).1
  · rename_i hx
    refine ⟨cellRising_put _ h.1 (Nat.zero_le _), fun c hc => ?_⟩
    rcases mem_cellPut hc with rfl | hc
    · exact hx
    · exact h.2 c hc

/-- Outside the range that a map change leaves undefined, an unlisted byte reads as before. -/
theorem Memory.blank_scramble (m : Memory) {lo hi : Nat} (stamp : Nat) {a : Nat} (h : a < lo ∨ hi ≤ a) : (m.scramble lo hi stamp).blank a = m.blank a := by
  have : (decide (lo ≤ a) && decide (a < hi)) = false := by
    rcases h with h | h
    · simp [Nat.not_le.2 h]
    · simp [Nat.not_lt.2 h]
  simp [Memory.blank, Memory.stampAt, Memory.scramble, this]

theorem Memory.wf_scramble {m : Memory} (h : m.wf) (lo hi stamp : Nat) : (m.scramble lo hi stamp).wf := by
  rw [Memory.wf_iff] at h ⊢
  refine ⟨cellRising_filter _ h.1, fun c hc => ?_⟩
  have hc := List.mem_filter.1 hc
  have hr : c.1 < lo ∨ hi ≤ c.1 := by simpa using hc.2
  rw [Memory.blank_scramble m stamp hr]
  exact h.2 c hc.1

/-- A memory that keeps some of the cells that are not 0, with no range undefined. -/
theorem Memory.wf_keep {m : Memory} (h : m.wf) (p : Host.Cell → Bool) : Memory.wf { cells := m.cells.filter fun c => p c && c.2 != 0, scram := [] } := by
  rw [Memory.wf_iff] at h ⊢
  refine ⟨cellRising_filter _ h.1, fun c hc => ?_⟩
  have hc := (List.mem_filter.1 hc).2
  simp only [Bool.and_eq_true, bne_iff_ne] at hc
  exact hc.2

theorem State.reset_mem_wf : State.reset.mem.wf := rfl
theorem State.reset_host_wf : State.reset.host.wf := rfl

/-! ### Bytes at their homes -/

theorem State.byteAt_writeByte_same (s : State) (p : Place) (b : Byte) (h : p.host = true ∨ physMapped p.addr = true) : (s.writeByte p b).byteAt p = b := by
  unfold State.writeByte State.byteAt
  cases hp : p.host
  · have h : physMapped p.addr = true := by simpa [hp] using h
    simp [h, Memory.read_write_same]
  · simp [Memory.read_write_same]

theorem State.byteAt_writeByte_other (s : State) {p q : Place} (b : Byte) (h : q ≠ p) : (s.writeByte p b).byteAt q = s.byteAt q := by
  have hne : q.host = p.host → q.addr ≠ p.addr := by
    intro h1 h2
    exact h (by cases p; cases q; simp_all)
  unfold State.writeByte State.byteAt
  cases hp : p.host <;> cases hq : q.host <;> simp only [Bool.false_eq_true, if_false, if_true]
  · by_cases h1 : physMapped p.addr = true
    · simp only [h1, if_true]
      rw [Memory.read_write_other _ _ (hne (by rw [hp, hq]))]
    · simp only [h1]
      rfl
  · split <;> rfl
  · rw [Memory.read_write_other _ _ (hne (by rw [hp, hq]))]

/-- Bytes written one after another leave every other place alone. -/
theorem byteAt_writeBytesFrom (d : List Byte) (s : State) (p q : Place) (h : q.host ≠ p.host ∨ q.addr < p.addr ∨ p.addr + d.length ≤ q.addr) :
    (writeBytesFrom p d s).byteAt q = s.byteAt q := by
  induction d generalizing s p with
  | nil => rfl
  | cons b r ih =>
    simp only [writeBytesFrom]
    simp only [List.length_cons] at h
    rw [ih]
    · apply State.byteAt_writeByte_other
      rintro rfl
      rcases h with h | h
      · exact h rfl
      · omega
    · simp only [Place.add]
      rcases h with h | h
      · exact .inl h
      · exact .inr (by omega)

theorem State.byteAt_writeAt (d : List Byte) (s : State) (p q : Place) (h : q.host ≠ p.host ∨ q.addr < p.addr ∨ p.addr + d.length ≤ q.addr) :
    (s.writeAt p d).byteAt q = s.byteAt q := by
  have := byteAt_writeBytesFrom d s p q h
  unfold State.writeAt
  split
  · exact this
  · simpa only [State.byteAt] using this

/-- A byte written is read back where the place exists. -/
theorem byteAt_writeBytesFrom_same (d : List Byte) (s : State) (p : Place) (i : Nat) (b : Byte) (hi : d[i]? = some b)
    (h : p.host = true ∨ physMapped (p.add i).addr = true) : (writeBytesFrom p d s).byteAt (p.add i) = b := by
  induction d generalizing s p i with
  | nil => simp at hi
  | cons x r ih =>
    rw [writeBytesFrom]
    cases i with
    | zero =>
      obtain rfl : x = b := by simpa using hi
      rw [byteAt_writeBytesFrom _ _ _ _ (.inr (.inl (by simp [Place.add])))]
      exact State.byteAt_writeByte_same s p x h
    | succ n =>
      have e : p.add (n + 1) = (p.add 1).add n := by simp only [Place.add]; congr 1; omega
      rw [e]
      exact ih _ _ n (by simpa using hi) (by rw [← e]; exact h)

/-- What was written is read back, as far as the places exist. -/
theorem State.readAt_writeAt_take (d : List Byte) (s : State) (p : Place) {n : Nat} (hn : n ≤ d.length)
    (h : ∀ i, i < n → p.host = true ∨ physMapped (p.add i).addr = true) : (s.writeAt p d).readAt p n = d.take n := by
  apply List.ext_getElem
  · simp [State.readAt, hn]
  · intro i h1 h2
    have hi : i < n := by simpa [State.readAt] using h1
    have e := byteAt_writeBytesFrom_same d s p i d[i] (List.getElem?_eq_getElem _) (h i hi)
    simp only [State.readAt, List.getElem_map, List.getElem_range, List.getElem_take]
    rw [← e]
    unfold State.writeAt
    split <;> rfl

/-! ### What a write changes -/

theorem State.writeByte_eq (s : State) (p : Place) (b : Byte) : ∃ m h, s.writeByte p b = { s with mem := m, host := h } := by
  unfold State.writeByte
  split
  · exact ⟨s.mem, _, rfl⟩
  · split
    · exact ⟨_, s.host, rfl⟩
    · exact ⟨s.mem, s.host, rfl⟩

theorem writeBytesFrom_eq (d : List Byte) (p : Place) (s : State) : ∃ m h, writeBytesFrom p d s = { s with mem := m, host := h } := by
  induction d generalizing p s with
  | nil => exact ⟨s.mem, s.host, rfl⟩
  | cons x r ih =>
    obtain ⟨m, h, e⟩ := s.writeByte_eq p x
    obtain ⟨n, g, f⟩ := ih (p.add 1) (s.writeByte p x)
    exact ⟨n, g, by rw [writeBytesFrom, f, e]⟩

/-- A write changes the two memories and the list of granules in error, and nothing else. -/
theorem State.writeAt_eq (s : State) (p : Place) (d : List Byte) : ∃ m h x, s.writeAt p d = { s with mem := m, host := h, ecc := x } := by
  obtain ⟨m, h, e⟩ := writeBytesFrom_eq d p s
  unfold State.writeAt
  split
  · exact ⟨m, h, s.ecc, e⟩
  · exact ⟨m, h, _, by rw [e]⟩

/-! ### Memories of a state -/

theorem State.MemOk.of_eq {s t : State} (h : s.MemOk) (hm : t.mem = s.mem) (hh : t.host = s.host) : t.MemOk := by
  unfold State.MemOk
  rw [hm, hh]
  exact h

theorem State.MemOk.reset : State.reset.MemOk := ⟨rfl, rfl⟩

theorem State.MemOk.writeByte {s : State} (h : s.MemOk) (p : Place) (b : Byte) : (s.writeByte p b).MemOk := by
  unfold State.writeByte
  split
  · exact ⟨h.1, Memory.wf_write h.2 ..⟩
  · split
    · exact ⟨Memory.wf_write h.1 .., h.2⟩
    · exact h

theorem State.MemOk.writeBytesFrom {s : State} (h : s.MemOk) (p : Place) (d : List Byte) : (writeBytesFrom p d s).MemOk := by
  induction d generalizing s p with
  | nil => exact h
  | cons b r ih => exact ih (h.writeByte p b) _

theorem State.MemOk.writeMasked {s : State} (h : s.MemOk) (p : Place) (d : List (Nat × Byte)) : (writeMasked p d s).MemOk := by
  induction d generalizing s with
  | nil => exact h
  | cons b r ih => exact ih (h.writeByte _ _)

theorem State.MemOk.writeAt {s : State} (h : s.MemOk) (p : Place) (d : List Byte) : (s.writeAt p d).MemOk := by
  unfold State.writeAt
  split
  · exact h.writeBytesFrom p d
  · exact (h.writeBytesFrom p d).of_eq rfl rfl

end Sys2Proof.Machine
end

