-- ==== Sys2Proof/Laws/PerInstr.lean ====
section
/-!
SUPPORT. Statements made per instruction. Port: where an instruction is a trigger, the port whose effect issue runs is the
destination of the move that the instruction is encoded as (Table 8.15).
-/

namespace Sys2Proof.Laws.Port

open Sys2Proof Sys2Proof.Machine

def Statement (i : Instr) : Prop := ∀ t, triggerOf i = some t → ∃ m, i.moveWord = some m ∧ m.dst.toNat = t.port ∧ m.bus.val = t.bus

theorem bundleIssue : Statement .bundleIssue := fun _ h => by cases h
theorem lateResultArrival : ∀ a0 a1, Statement (.lateResultArrival a0 a1) := fun a0 a1 _ h => by cases h
theorem xltWalkComplete : ∀ a0 a1, Statement (.xltWalkComplete a0 a1) := fun a0 a1 _ h => by cases h
theorem publishEntryPerform : ∀ a0 a1, Statement (.publishEntryPerform a0 a1) := fun a0 a1 _ h => by cases h
theorem phaseBarrierComplete : ∀ a0, Statement (.phaseBarrierComplete a0) := fun a0 _ h => by cases h
theorem watchdogExpiry : ∀ a0, Statement (.watchdogExpiry a0) := fun a0 _ h => by cases h
theorem move : ∀ a0 a1, Statement (.move a0 a1) := fun a0 a1 _ h => by cases h
theorem saAdd : ∀ a0, Statement (.saAdd a0) := fun a0 _ h => by cases h; exact ⟨_, rfl, rfl, rfl⟩
theorem saSub : ∀ a0, Statement (.saSub a0) := fun a0 _ h => by cases h; exact ⟨_, rfl, rfl, rfl⟩
theorem saMul : ∀ a0, Statement (.saMul a0) := fun a0 _ h => by cases h; exact ⟨_, rfl, rfl, rfl⟩
theorem saMulh : ∀ a0, Statement (.saMulh a0) := fun a0 _ h => by cases h; exact ⟨_, rfl, rfl, rfl⟩
theorem saMulhu : ∀ a0, Statement (.saMulhu a0) := fun a0 _ h => by cases h; exact ⟨_, rfl, rfl, rfl⟩
theorem saDiv : ∀ a0, Statement (.saDiv a0) := fun a0 _ h => by cases h; exact ⟨_, rfl, rfl, rfl⟩
theorem saDivu : ∀ a0, Statement (.saDivu a0) := fun a0 _ h => by cases h; exact ⟨_, rfl, rfl, rfl⟩
theorem saRem : ∀ a0, Statement (.saRem a0) := fun a0 _ h => by cases h; exact ⟨_, rfl, rfl, rfl⟩
theorem saRemu : ∀ a0, Statement (.saRemu a0) := fun a0 _ h => by cases h; exact ⟨_, rfl, rfl, rfl⟩
theorem saAnd : ∀ a0, Statement (.saAnd a0) := fun a0 _ h => by cases h; exact ⟨_, rfl, rfl, rfl⟩
theorem saOr : ∀ a0, Statement (.saOr a0) := fun a0 _ h => by cases h; exact ⟨_, rfl, rfl, rfl⟩
theorem saXor : ∀ a0, Statement (.saXor a0) := fun a0 _ h => by cases h; exact ⟨_, rfl, rfl, rfl⟩
theorem saAndn : ∀ a0, Statement (.saAndn a0) := fun a0 _ h => by cases h; exact ⟨_, rfl, rfl, rfl⟩
theorem saShl : ∀ a0, Statement (.saShl a0) := fun a0 _ h => by cases h; exact ⟨_, rfl, rfl, rfl⟩
theorem saShr : ∀ a0, Statement (.saShr a0) := fun a0 _ h => by cases h; exact ⟨_, rfl, rfl, rfl⟩
theorem saSar : ∀ a0, Statement (.saSar a0) := fun a0 _ h => by cases h; exact ⟨_, rfl, rfl, rfl⟩
theorem saRotl : ∀ a0, Statement (.saRotl a0) := fun a0 _ h => by cases h; exact ⟨_, rfl, rfl, rfl⟩
theorem saMin : ∀ a0, Statement (.saMin a0) := fun a0 _ h => by cases h; exact ⟨_, rfl, rfl, rfl⟩
theorem saMax : ∀ a0, Statement (.saMax a0) := fun a0 _ h => by cases h; exact ⟨_, rfl, rfl, rfl⟩
theorem saMinu : ∀ a0, Statement (.saMinu a0) := fun a0 _ h => by cases h; exact ⟨_, rfl, rfl, rfl⟩
theorem saMaxu : ∀ a0, Statement (.saMaxu a0) := fun a0 _ h => by cases h; exact ⟨_, rfl, rfl, rfl⟩
theorem saSeq : ∀ a0, Statement (.saSeq a0) := fun a0 _ h => by cases h; exact ⟨_, rfl, rfl, rfl⟩
theorem saSne : ∀ a0, Statement (.saSne a0) := fun a0 _ h => by cases h; exact ⟨_, rfl, rfl, rfl⟩
theorem saSlt : ∀ a0, Statement (.saSlt a0) := fun a0 _ h => by cases h; exact ⟨_, rfl, rfl, rfl⟩
theorem saSltu : ∀ a0, Statement (.saSltu a0) := fun a0 _ h => by cases h; exact ⟨_, rfl, rfl, rfl⟩
theorem saSle : ∀ a0, Statement (.saSle a0) := fun a0 _ h => by cases h; exact ⟨_, rfl, rfl, rfl⟩
theorem saSleu : ∀ a0, Statement (.saSleu a0) := fun a0 _ h => by cases h; exact ⟨_, rfl, rfl, rfl⟩
theorem saSel : ∀ a0, Statement (.saSel a0) := fun a0 _ h => by cases h; exact ⟨_, rfl, rfl, rfl⟩
theorem saPass : ∀ a0, Statement (.saPass a0) := fun a0 _ h => by cases h; exact ⟨_, rfl, rfl, rfl⟩
theorem saClz : ∀ a0, Statement (.saClz a0) := fun a0 _ h => by cases h; exact ⟨_, rfl, rfl, rfl⟩
theorem saCtz : ∀ a0, Statement (.saCtz a0) := fun a0 _ h => by cases h; exact ⟨_, rfl, rfl, rfl⟩
theorem saPopc : ∀ a0, Statement (.saPopc a0) := fun a0 _ h => by cases h; exact ⟨_, rfl, rfl, rfl⟩
theorem saSext8 : ∀ a0, Statement (.saSext8 a0) := fun a0 _ h => by cases h; exact ⟨_, rfl, rfl, rfl⟩
theorem saSext16 : ∀ a0, Statement (.saSext16 a0) := fun a0 _ h => by cases h; exact ⟨_, rfl, rfl, rfl⟩
theorem saSext32 : ∀ a0, Statement (.saSext32 a0) := fun a0 _ h => by cases h; exact ⟨_, rfl, rfl, rfl⟩
theorem saZext8 : ∀ a0, Statement (.saZext8 a0) := fun a0 _ h => by cases h; exact ⟨_, rfl, rfl, rfl⟩
theorem saZext16 : ∀ a0, Statement (.saZext16 a0) := fun a0 _ h => by cases h; exact ⟨_, rfl, rfl, rfl⟩
theorem saZext32 : ∀ a0, Statement (.saZext32 a0) := fun a0 _ h => by cases h; exact ⟨_, rfl, rfl, rfl⟩
theorem saBswap : ∀ a0, Statement (.saBswap a0) := fun a0 _ h => by cases h; exact ⟨_, rfl, rfl, rfl⟩
theorem saMadd : ∀ a0, Statement (.saMadd a0) := fun a0 _ h => by cases h; exact ⟨_, rfl, rfl, rfl⟩
theorem saFaddD : ∀ a0, Statement (.saFaddD a0) := fun a0 _ h => by cases h; exact ⟨_, rfl, rfl, rfl⟩
theorem saFsubD : ∀ a0, Statement (.saFsubD a0) := fun a0 _ h => by cases h; exact ⟨_, rfl, rfl, rfl⟩
theorem saFmulD : ∀ a0, Statement (.saFmulD a0) := fun a0 _ h => by cases h; exact ⟨_, rfl, rfl, rfl⟩
theorem saFmaddD : ∀ a0, Statement (.saFmaddD a0) := fun a0 _ h => by cases h; exact ⟨_, rfl, rfl, rfl⟩
theorem saFdivD : ∀ a0, Statement (.saFdivD a0) := fun a0 _ h => by cases h; exact ⟨_, rfl, rfl, rfl⟩
theorem saFminD : ∀ a0, Statement (.saFminD a0) := fun a0 _ h => by cases h; exact ⟨_, rfl, rfl, rfl⟩
theorem saFmaxD : ∀ a0, Statement (.saFmaxD a0) := fun a0 _ h => by cases h; exact ⟨_, rfl, rfl, rfl⟩
theorem saFeqD : ∀ a0, Statement (.saFeqD a0) := fun a0 _ h => by cases h; exact ⟨_, rfl, rfl, rfl⟩
theorem saFltD : ∀ a0, Statement (.saFltD a0) := fun a0 _ h => by cases h; exact ⟨_, rfl, rfl, rfl⟩
theorem saFleD : ∀ a0, Statement (.saFleD a0) := fun a0 _ h => by cases h; exact ⟨_, rfl, rfl, rfl⟩
theorem saCvtDi : ∀ a0, Statement (.saCvtDi a0) := fun a0 _ h => by cases h; exact ⟨_, rfl, rfl, rfl⟩
theorem saCvtId : ∀ a0, Statement (.saCvtId a0) := fun a0 _ h => by cases h; exact ⟨_, rfl, rfl, rfl⟩
theorem saCvtSd : ∀ a0, Statement (.saCvtSd a0) := fun a0 _ h => by cases h; exact ⟨_, rfl, rfl, rfl⟩
theorem saCvtDs : ∀ a0, Statement (.saCvtDs a0) := fun a0 _ h => by cases h; exact ⟨_, rfl, rfl, rfl⟩
theorem vaAdd : ∀ a0, Statement (.vaAdd a0) := fun a0 _ h => by cases h; exact ⟨_, rfl, rfl, rfl⟩
theorem vaSub : ∀ a0, Statement (.vaSub a0) := fun a0 _ h => by cases h; exact ⟨_, rfl, rfl, rfl⟩
theorem vaMul : ∀ a0, Statement (.vaMul a0) := fun a0 _ h => by cases h; exact ⟨_, rfl, rfl, rfl⟩
theorem vaFma : ∀ a0, Statement (.vaFma a0) := fun a0 _ h => by cases h; exact ⟨_, rfl, rfl, rfl⟩
theorem vaFms : ∀ a0, Statement (.vaFms a0) := fun a0 _ h => by cases h; exact ⟨_, rfl, rfl, rfl⟩
theorem vaMin : ∀ a0, Statement (.vaMin a0) := fun a0 _ h => by cases h; exact ⟨_, rfl, rfl, rfl⟩
theorem vaMax : ∀ a0, Statement (.vaMax a0) := fun a0 _ h => by cases h; exact ⟨_, rfl, rfl, rfl⟩
theorem vaAbs : ∀ a0, Statement (.vaAbs a0) := fun a0 _ h => by cases h; exact ⟨_, rfl, rfl, rfl⟩
theorem vaNeg : ∀ a0, Statement (.vaNeg a0) := fun a0 _ h => by cases h; exact ⟨_, rfl, rfl, rfl⟩
theorem vaAnd : ∀ a0, Statement (.vaAnd a0) := fun a0 _ h => by cases h; exact ⟨_, rfl, rfl, rfl⟩
theorem vaOr : ∀ a0, Statement (.vaOr a0) := fun a0 _ h => by cases h; exact ⟨_, rfl, rfl, rfl⟩
theorem vaXor : ∀ a0, Statement (.vaXor a0) := fun a0 _ h => by cases h; exact ⟨_, rfl, rfl, rfl⟩
theorem vaShl : ∀ a0, Statement (.vaShl a0) := fun a0 _ h => by cases h; exact ⟨_, rfl, rfl, rfl⟩
theorem vaShr : ∀ a0, Statement (.vaShr a0) := fun a0 _ h => by cases h; exact ⟨_, rfl, rfl, rfl⟩
theorem vaSar : ∀ a0, Statement (.vaSar a0) := fun a0 _ h => by cases h; exact ⟨_, rfl, rfl, rfl⟩
theorem vaCmpeq : ∀ a0, Statement (.vaCmpeq a0) := fun a0 _ h => by cases h; exact ⟨_, rfl, rfl, rfl⟩
theorem vaCmplt : ∀ a0, Statement (.vaCmplt a0) := fun a0 _ h => by cases h; exact ⟨_, rfl, rfl, rfl⟩
theorem vaCmple : ∀ a0, Statement (.vaCmple a0) := fun a0 _ h => by cases h; exact ⟨_, rfl, rfl, rfl⟩
theorem vaSel : ∀ a0, Statement (.vaSel a0) := fun a0 _ h => by cases h; exact ⟨_, rfl, rfl, rfl⟩
theorem vaCvt : ∀ a0, Statement (.vaCvt a0) := fun a0 _ h => by cases h; exact ⟨_, rfl, rfl, rfl⟩
theorem vaScale : ∀ a0, Statement (.vaScale a0) := fun a0 _ h => by cases h; exact ⟨_, rfl, rfl, rfl⟩
theorem vaQuant : ∀ a0, Statement (.vaQuant a0) := fun a0 _ h => by cases h; exact ⟨_, rfl, rfl, rfl⟩
theorem vaDequant : ∀ a0, Statement (.vaDequant a0) := fun a0 _ h => by cases h; exact ⟨_, rfl, rfl, rfl⟩
theorem vaAmax : ∀ a0, Statement (.vaAmax a0) := fun a0 _ h => by cases h; exact ⟨_, rfl, rfl, rfl⟩
theorem vaRsum : ∀ a0, Statement (.vaRsum a0) := fun a0 _ h => by cases h; exact ⟨_, rfl, rfl, rfl⟩
theorem vaRmax : ∀ a0, Statement (.vaRmax a0) := fun a0 _ h => by cases h; exact ⟨_, rfl, rfl, rfl⟩
theorem vaRmin : ∀ a0, Statement (.vaRmin a0) := fun a0 _ h => by cases h; exact ⟨_, rfl, rfl, rfl⟩
theorem vaDot : ∀ a0, Statement (.vaDot a0) := fun a0 _ h => by cases h; exact ⟨_, rfl, rfl, rfl⟩
theorem vaBcast : ∀ a0, Statement (.vaBcast a0) := fun a0 _ h => by cases h; exact ⟨_, rfl, rfl, rfl⟩
theorem vaPerm : ∀ a0, Statement (.vaPerm a0) := fun a0 _ h => by cases h; exact ⟨_, rfl, rfl, rfl⟩
theorem vaZip : ∀ a0, Statement (.vaZip a0) := fun a0 _ h => by cases h; exact ⟨_, rfl, rfl, rfl⟩
theorem vaUnzip : ∀ a0, Statement (.vaUnzip a0) := fun a0 _ h => by cases h; exact ⟨_, rfl, rfl, rfl⟩
theorem vaSlide : ∀ a0, Statement (.vaSlide a0) := fun a0 _ h => by cases h; exact ⟨_, rfl, rfl, rfl⟩
theorem vaPack : ∀ a0, Statement (.vaPack a0) := fun a0 _ h => by cases h; exact ⟨_, rfl, rfl, rfl⟩
theorem vaUnpackLo : ∀ a0, Statement (.vaUnpackLo a0) := fun a0 _ h => by cases h; exact ⟨_, rfl, rfl, rfl⟩
theorem vaUnpackHi : ∀ a0, Statement (.vaUnpackHi a0) := fun a0 _ h => by cases h; exact ⟨_, rfl, rfl, rfl⟩
theorem vaClamp : ∀ a0, Statement (.vaClamp a0) := fun a0 _ h => by cases h; exact ⟨_, rfl, rfl, rfl⟩
theorem vaRound : ∀ a0, Statement (.vaRound a0) := fun a0 _ h => by cases h; exact ⟨_, rfl, rfl, rfl⟩
theorem vaMov : ∀ a0, Statement (.vaMov a0) := fun a0 _ h => by cases h; exact ⟨_, rfl, rfl, rfl⟩
theorem sfExp : ∀ a0, Statement (.sfExp a0) := fun a0 _ h => by cases h; exact ⟨_, rfl, rfl, rfl⟩
theorem sfExp2 : ∀ a0, Statement (.sfExp2 a0) := fun a0 _ h => by cases h; exact ⟨_, rfl, rfl, rfl⟩
theorem sfLn : ∀ a0, Statement (.sfLn a0) := fun a0 _ h => by cases h; exact ⟨_, rfl, rfl, rfl⟩
theorem sfLog2 : ∀ a0, Statement (.sfLog2 a0) := fun a0 _ h => by cases h; exact ⟨_, rfl, rfl, rfl⟩
theorem sfRcp : ∀ a0, Statement (.sfRcp a0) := fun a0 _ h => by cases h; exact ⟨_, rfl, rfl, rfl⟩
theorem sfRsqrt : ∀ a0, Statement (.sfRsqrt a0) := fun a0 _ h => by cases h; exact ⟨_, rfl, rfl, rfl⟩
theorem sfSqrt : ∀ a0, Statement (.sfSqrt a0) := fun a0 _ h => by cases h; exact ⟨_, rfl, rfl, rfl⟩
theorem sfDiv : ∀ a0, Statement (.sfDiv a0) := fun a0 _ h => by cases h; exact ⟨_, rfl, rfl, rfl⟩
theorem sfSin : ∀ a0, Statement (.sfSin a0) := fun a0 _ h => by cases h; exact ⟨_, rfl, rfl, rfl⟩
theorem sfCos : ∀ a0, Statement (.sfCos a0) := fun a0 _ h => by cases h; exact ⟨_, rfl, rfl, rfl⟩
theorem sfTanh : ∀ a0, Statement (.sfTanh a0) := fun a0 _ h => by cases h; exact ⟨_, rfl, rfl, rfl⟩
theorem sfSigmoid : ∀ a0, Statement (.sfSigmoid a0) := fun a0 _ h => by cases h; exact ⟨_, rfl, rfl, rfl⟩
theorem sfGelu : ∀ a0, Statement (.sfGelu a0) := fun a0 _ h => by cases h; exact ⟨_, rfl, rfl, rfl⟩
theorem sfSilu : ∀ a0, Statement (.sfSilu a0) := fun a0 _ h => by cases h; exact ⟨_, rfl, rfl, rfl⟩
theorem sfErf : ∀ a0, Statement (.sfErf a0) := fun a0 _ h => by cases h; exact ⟨_, rfl, rfl, rfl⟩
theorem sfSoftplus : ∀ a0, Statement (.sfSoftplus a0) := fun a0 _ h => by cases h; exact ⟨_, rfl, rfl, rfl⟩
theorem mLdv : ∀ a0, Statement (.mLdv a0) := fun a0 _ h => by cases h; exact ⟨_, rfl, rfl, rfl⟩
theorem mLdvh : ∀ a0, Statement (.mLdvh a0) := fun a0 _ h => by cases h; exact ⟨_, rfl, rfl, rfl⟩
theorem mLdvq : ∀ a0, Statement (.mLdvq a0) := fun a0 _ h => by cases h; exact ⟨_, rfl, rfl, rfl⟩
theorem mLd64 : ∀ a0, Statement (.mLd64 a0) := fun a0 _ h => by cases h; exact ⟨_, rfl, rfl, rfl⟩
theorem mLd32 : ∀ a0, Statement (.mLd32 a0) := fun a0 _ h => by cases h; exact ⟨_, rfl, rfl, rfl⟩
theorem mLd32u : ∀ a0, Statement (.mLd32u a0) := fun a0 _ h => by cases h; exact ⟨_, rfl, rfl, rfl⟩
theorem mLd16 : ∀ a0, Statement (.mLd16 a0) := fun a0 _ h => by cases h; exact ⟨_, rfl, rfl, rfl⟩
theorem mLd16u : ∀ a0, Statement (.mLd16u a0) := fun a0 _ h => by cases h; exact ⟨_, rfl, rfl, rfl⟩
theorem mLd8 : ∀ a0, Statement (.mLd8 a0) := fun a0 _ h => by cases h; exact ⟨_, rfl, rfl, rfl⟩
theorem mLd8u : ∀ a0, Statement (.mLd8u a0) := fun a0 _ h => by cases h; exact ⟨_, rfl, rfl, rfl⟩
theorem mStv : ∀ a0, Statement (.mStv a0) := fun a0 _ h => by cases h; exact ⟨_, rfl, rfl, rfl⟩
theorem mStvh : ∀ a0, Statement (.mStvh a0) := fun a0 _ h => by cases h; exact ⟨_, rfl, rfl, rfl⟩
theorem mStvq : ∀ a0, Statement (.mStvq a0) := fun a0 _ h => by cases h; exact ⟨_, rfl, rfl, rfl⟩
theorem mSt64 : ∀ a0, Statement (.mSt64 a0) := fun a0 _ h => by cases h; exact ⟨_, rfl, rfl, rfl⟩
theorem mSt32 : ∀ a0, Statement (.mSt32 a0) := fun a0 _ h => by cases h; exact ⟨_, rfl, rfl, rfl⟩
theorem mSt16 : ∀ a0, Statement (.mSt16 a0) := fun a0 _ h => by cases h; exact ⟨_, rfl, rfl, rfl⟩
theorem mSt8 : ∀ a0, Statement (.mSt8 a0) := fun a0 _ h => by cases h; exact ⟨_, rfl, rfl, rfl⟩
theorem mXlt : ∀ a0, Statement (.mXlt a0) := fun a0 _ h => by cases h; exact ⟨_, rfl, rfl, rfl⟩
theorem mHrel : ∀ a0, Statement (.mHrel a0) := fun a0 _ h => by cases h; exact ⟨_, rfl, rfl, rfl⟩
theorem mTlook : ∀ a0, Statement (.mTlook a0) := fun a0 _ h => by cases h; exact ⟨_, rfl, rfl, rfl⟩
theorem mTins : ∀ a0, Statement (.mTins a0) := fun a0 _ h => by cases h; exact ⟨_, rfl, rfl, rfl⟩
theorem mTdel : ∀ a0, Statement (.mTdel a0) := fun a0 _ h => by cases h; exact ⟨_, rfl, rfl, rfl⟩
theorem mSwpost : ∀ a0, Statement (.mSwpost a0) := fun a0 _ h => by cases h; exact ⟨_, rfl, rfl, rfl⟩
theorem mSwadd : ∀ a0, Statement (.mSwadd a0) := fun a0 _ h => by cases h; exact ⟨_, rfl, rfl, rfl⟩
theorem mSwrd : ∀ a0, Statement (.mSwrd a0) := fun a0 _ h => by cases h; exact ⟨_, rfl, rfl, rfl⟩
theorem mSwwait : ∀ a0, Statement (.mSwwait a0) := fun a0 _ h => by cases h; exact ⟨_, rfl, rfl, rfl⟩
theorem mJwait : ∀ a0, Statement (.mJwait a0) := fun a0 _ h => by cases h; exact ⟨_, rfl, rfl, rfl⟩
theorem mJset : ∀ a0, Statement (.mJset a0) := fun a0 _ h => by cases h; exact ⟨_, rfl, rfl, rfl⟩
theorem mAadd : ∀ a0, Statement (.mAadd a0) := fun a0 _ h => by cases h; exact ⟨_, rfl, rfl, rfl⟩
theorem mAmax : ∀ a0, Statement (.mAmax a0) := fun a0 _ h => by cases h; exact ⟨_, rfl, rfl, rfl⟩
theorem mAmaxf : ∀ a0, Statement (.mAmaxf a0) := fun a0 _ h => by cases h; exact ⟨_, rfl, rfl, rfl⟩
theorem mAmin : ∀ a0, Statement (.mAmin a0) := fun a0 _ h => by cases h; exact ⟨_, rfl, rfl, rfl⟩
theorem mAxchg : ∀ a0, Statement (.mAxchg a0) := fun a0 _ h => by cases h; exact ⟨_, rfl, rfl, rfl⟩
theorem mAcas : ∀ a0, Statement (.mAcas a0) := fun a0 _ h => by cases h; exact ⟨_, rfl, rfl, rfl⟩
theorem mAand : ∀ a0, Statement (.mAand a0) := fun a0 _ h => by cases h; exact ⟨_, rfl, rfl, rfl⟩
theorem mAor : ∀ a0, Statement (.mAor a0) := fun a0 _ h => by cases h; exact ⟨_, rfl, rfl, rfl⟩
theorem mPhase : ∀ a0, Statement (.mPhase a0) := fun a0 _ h => by cases h; exact ⟨_, rfl, rfl, rfl⟩
theorem mXfence : ∀ a0, Statement (.mXfence a0) := fun a0 _ h => by cases h; exact ⟨_, rfl, rfl, rfl⟩
theorem mArd : ∀ a0, Statement (.mArd a0) := fun a0 _ h => by cases h; exact ⟨_, rfl, rfl, rfl⟩
theorem meMm : ∀ a0, Statement (.meMm a0) := fun a0 _ h => by cases h; exact ⟨_, rfl, rfl, rfl⟩
theorem meMmz : ∀ a0, Statement (.meMmz a0) := fun a0 _ h => by cases h; exact ⟨_, rfl, rfl, rfl⟩
theorem meMmt : ∀ a0, Statement (.meMmt a0) := fun a0 _ h => by cases h; exact ⟨_, rfl, rfl, rfl⟩
theorem meMmq : ∀ a0, Statement (.meMmq a0) := fun a0 _ h => by cases h; exact ⟨_, rfl, rfl, rfl⟩
theorem meKlatch : ∀ a0, Statement (.meKlatch a0) := fun a0 _ h => by cases h; exact ⟨_, rfl, rfl, rfl⟩
theorem meTzero : ∀ a0, Statement (.meTzero a0) := fun a0 _ h => by cases h; exact ⟨_, rfl, rfl, rfl⟩
theorem meTrow : ∀ a0, Statement (.meTrow a0) := fun a0 _ h => by cases h; exact ⟨_, rfl, rfl, rfl⟩
theorem meTcol : ∀ a0, Statement (.meTcol a0) := fun a0 _ h => by cases h; exact ⟨_, rfl, rfl, rfl⟩
theorem meTrowr : ∀ a0, Statement (.meTrowr a0) := fun a0 _ h => by cases h; exact ⟨_, rfl, rfl, rfl⟩
theorem meTcolr : ∀ a0, Statement (.meTcolr a0) := fun a0 _ h => by cases h; exact ⟨_, rfl, rfl, rfl⟩
theorem meTshape : ∀ a0, Statement (.meTshape a0) := fun a0 _ h => by cases h; exact ⟨_, rfl, rfl, rfl⟩
theorem meTload : ∀ a0, Statement (.meTload a0) := fun a0 _ h => by cases h; exact ⟨_, rfl, rfl, rfl⟩
theorem meTstore : ∀ a0, Statement (.meTstore a0) := fun a0 _ h => by cases h; exact ⟨_, rfl, rfl, rfl⟩
theorem meTcvt : ∀ a0, Statement (.meTcvt a0) := fun a0 _ h => by cases h; exact ⟨_, rfl, rfl, rfl⟩
theorem meTadd : ∀ a0, Statement (.meTadd a0) := fun a0 _ h => by cases h; exact ⟨_, rfl, rfl, rfl⟩
theorem meTscale : ∀ a0, Statement (.meTscale a0) := fun a0 _ h => by cases h; exact ⟨_, rfl, rfl, rfl⟩
theorem meTamax : ∀ a0, Statement (.meTamax a0) := fun a0 _ h => by cases h; exact ⟨_, rfl, rfl, rfl⟩
theorem meFollowOn : ∀ a0 a1, Statement (.meFollowOn a0 a1) := fun a0 a1 _ h => by cases h
theorem ceCopy : ∀ a0, Statement (.ceCopy a0) := fun a0 _ h => by cases h; exact ⟨_, rfl, rfl, rfl⟩
theorem ceGather : ∀ a0, Statement (.ceGather a0) := fun a0 _ h => by cases h; exact ⟨_, rfl, rfl, rfl⟩
theorem ceScatter : ∀ a0, Statement (.ceScatter a0) := fun a0 _ h => by cases h; exact ⟨_, rfl, rfl, rfl⟩
theorem ceTget : ∀ a0, Statement (.ceTget a0) := fun a0 _ h => by cases h; exact ⟨_, rfl, rfl, rfl⟩
theorem ceTsend : ∀ a0, Statement (.ceTsend a0) := fun a0 _ h => by cases h; exact ⟨_, rfl, rfl, rfl⟩
theorem ceFill : ∀ a0, Statement (.ceFill a0) := fun a0 _ h => by cases h; exact ⟨_, rfl, rfl, rfl⟩
theorem ceMcast : ∀ a0, Statement (.ceMcast a0) := fun a0 _ h => by cases h; exact ⟨_, rfl, rfl, rfl⟩
theorem ceSfill : ∀ a0, Statement (.ceSfill a0) := fun a0 _ h => by cases h; exact ⟨_, rfl, rfl, rfl⟩
theorem ceDfill : ∀ a0, Statement (.ceDfill a0) := fun a0 _ h => by cases h; exact ⟨_, rfl, rfl, rfl⟩
theorem ceCput : ∀ a0, Statement (.ceCput a0) := fun a0 _ h => by cases h; exact ⟨_, rfl, rfl, rfl⟩
theorem ceCancel : ∀ a0, Statement (.ceCancel a0) := fun a0 _ h => by cases h; exact ⟨_, rfl, rfl, rfl⟩
theorem ceGranuleLand : ∀ a0 a1, Statement (.ceGranuleLand a0 a1) := fun a0 a1 _ h => by cases h
theorem dxOpen : ∀ a0, Statement (.dxOpen a0) := fun a0 _ h => by cases h; exact ⟨_, rfl, rfl, rfl⟩
theorem dxClose : ∀ a0, Statement (.dxClose a0) := fun a0 _ h => by cases h; exact ⟨_, rfl, rfl, rfl⟩
theorem fcEnc : ∀ a0, Statement (.fcEnc a0) := fun a0 _ h => by cases h; exact ⟨_, rfl, rfl, rfl⟩
theorem fcDec : ∀ a0, Statement (.fcDec a0) := fun a0 _ h => by cases h; exact ⟨_, rfl, rfl, rfl⟩
theorem tdWin : ∀ a0, Statement (.tdWin a0) := fun a0 _ h => by cases h; exact ⟨_, rfl, rfl, rfl⟩
theorem tdBlk : ∀ a0, Statement (.tdBlk a0) := fun a0 _ h => by cases h; exact ⟨_, rfl, rfl, rfl⟩
theorem veRun : ∀ a0, Statement (.veRun a0) := fun a0 _ h => by cases h; exact ⟨_, rfl, rfl, rfl⟩
theorem veStat : ∀ a0, Statement (.veStat a0) := fun a0 _ h => by cases h; exact ⟨_, rfl, rfl, rfl⟩
theorem dxEntryDeliver : ∀ a0 a1, Statement (.dxEntryDeliver a0 a1) := fun a0 a1 _ h => by cases h
theorem bkGo : ∀ a0, Statement (.bkGo a0) := fun a0 _ h => by cases h; exact ⟨_, rfl, rfl, rfl⟩
theorem bkStop : ∀ a0, Statement (.bkStop a0) := fun a0 _ h => by cases h; exact ⟨_, rfl, rfl, rfl⟩
theorem cuLpPush : ∀ a0, Statement (.cuLpPush a0) := fun a0 _ h => by cases h; exact ⟨_, rfl, rfl, rfl⟩
theorem cuLpPop : ∀ a0, Statement (.cuLpPop a0) := fun a0 _ h => by cases h; exact ⟨_, rfl, rfl, rfl⟩
theorem cuJump : ∀ a0, Statement (.cuJump a0) := fun a0 _ h => by cases h; exact ⟨_, rfl, rfl, rfl⟩
theorem cuCall : ∀ a0, Statement (.cuCall a0) := fun a0 _ h => by cases h; exact ⟨_, rfl, rfl, rfl⟩
theorem cuTrap : ∀ a0, Statement (.cuTrap a0) := fun a0 _ h => by cases h; exact ⟨_, rfl, rfl, rfl⟩
theorem cuBrk : ∀ a0, Statement (.cuBrk a0) := fun a0 _ h => by cases h; exact ⟨_, rfl, rfl, rfl⟩
theorem cuHalt : ∀ a0, Statement (.cuHalt a0) := fun a0 _ h => by cases h; exact ⟨_, rfl, rfl, rfl⟩
theorem cuWdog : ∀ a0, Statement (.cuWdog a0) := fun a0 _ h => by cases h; exact ⟨_, rfl, rfl, rfl⟩
theorem lend : ∀ a0, Statement (.lend a0) := fun a0 _ h => by cases h
theorem sbase : ∀ a0 a1, Statement (.sbase a0 a1) := fun a0 a1 _ h => by cases h
theorem sstr : ∀ a0 a1 a2, Statement (.sstr a0 a1 a2) := fun a0 a1 a2 _ h => by cases h
theorem sstri : ∀ a0 a1 a2, Statement (.sstri a0 a1 a2) := fun a0 a1 a2 _ h => by cases h
theorem sspace : ∀ a0 a1 a2, Statement (.sspace a0 a1 a2) := fun a0 a1 a2 _ h => by cases h
theorem swlev : ∀ a0 a1, Statement (.swlev a0 a1) := fun a0 a1 _ h => by cases h
theorem srst : ∀ a0, Statement (.srst a0) := fun a0 _ h => by cases h
theorem bankListStart : ∀ a0, Statement (.bankListStart a0) := fun a0 _ h => by cases h
theorem bload : ∀ a0 a1 a2, Statement (.bload a0 a1 a2) := fun a0 a1 a2 _ h => by cases h
theorem bmac : ∀ a0, Statement (.bmac a0) := fun a0 _ h => by cases h
theorem bmact : ∀ a0, Statement (.bmact a0) := fun a0 _ h => by cases h
theorem bmacq : ∀ a0 a1 a2, Statement (.bmacq a0 a1 a2) := fun a0 a1 a2 _ h => by cases h
theorem bscale : ∀ a0 a1 a2, Statement (.bscale a0 a1 a2) := fun a0 a1 a2 _ h => by cases h
theorem bstore : ∀ a0 a1 a2, Statement (.bstore a0 a1 a2) := fun a0 a1 a2 _ h => by cases h
theorem bsend : ∀ a0 a1 a2 a3 a4 a5, Statement (.bsend a0 a1 a2 a3 a4 a5) := fun a0 a1 a2 a3 a4 a5 _ h => by cases h
theorem bzero : ∀ a0 a1, Statement (.bzero a0 a1) := fun a0 a1 _ h => by cases h
theorem bjoin : ∀ a0, Statement (.bjoin a0) := fun a0 _ h => by cases h
theorem bfence : Statement .bfence := fun _ h => by cases h
theorem bred : ∀ a0, Statement (.bred a0) := fun a0 _ h => by cases h
theorem bsync : ∀ a0 a1, Statement (.bsync a0 a1) := fun a0 a1 _ h => by cases h
theorem bend : Statement .bend := fun _ h => by cases h
theorem bankWaitRelease : ∀ a0, Statement (.bankWaitRelease a0) := fun a0 _ h => by cases h
theorem bankListComplete : ∀ a0 a1, Statement (.bankListComplete a0 a1) := fun a0 a1 _ h => by cases h
theorem engineOpComplete : ∀ a0 a1, Statement (.engineOpComplete a0 a1) := fun a0 a1 _ h => by cases h
theorem engineOpResume : ∀ a0 a1, Statement (.engineOpResume a0 a1) := fun a0 a1 _ h => by cases h
theorem engineOpCancel : ∀ a0 a1, Statement (.engineOpCancel a0 a1) := fun a0 a1 _ h => by cases h
theorem coreFaultResume : ∀ a0, Statement (.coreFaultResume a0) := fun a0 _ h => by cases h
theorem killGathering : ∀ a0, Statement (.killGathering a0) := fun a0 _ h => by cases h
theorem shootdownGo : ∀ a0 a1 a2 a3, Statement (.shootdownGo a0 a1 a2 a3) := fun a0 a1 a2 a3 _ h => by cases h
theorem shootdownAgentAck : ∀ a0, Statement (.shootdownAgentAck a0) := fun a0 _ h => by cases h
theorem migratingRewalk : ∀ a0, Statement (.migratingRewalk a0) := fun a0 _ h => by cases h
theorem migratingTimeout : ∀ a0, Statement (.migratingTimeout a0) := fun a0 _ h => by cases h
theorem cowDuplicate : ∀ a0, Statement (.cowDuplicate a0) := fun a0 _ h => by cases h
theorem pasidTeardown : ∀ a0, Statement (.pasidTeardown a0) := fun a0 _ h => by cases h
theorem fetcherTranslationReturn : ∀ a0, Statement (.fetcherTranslationReturn a0) := fun a0 _ h => by cases h
theorem atsInvalidation : ∀ a0 a1 a2, Statement (.atsInvalidation a0 a1 a2) := fun a0 a1 a2 _ h => by cases h
theorem runReceive : ∀ a0, Statement (.runReceive a0) := fun a0 _ h => by cases h
theorem shardHoldReread : ∀ a0, Statement (.shardHoldReread a0) := fun a0 _ h => by cases h
theorem shardHoldTimeout : ∀ a0, Statement (.shardHoldTimeout a0) := fun a0 _ h => by cases h
theorem shardMovedReceive : ∀ a0 a1 a2, Statement (.shardMovedReceive a0 a1 a2) := fun a0 a1 a2 _ h => by cases h
theorem shardRequesterReread : ∀ a0 a1, Statement (.shardRequesterReread a0 a1) := fun a0 a1 _ h => by cases h
theorem shardRequesterTimeout : ∀ a0 a1, Statement (.shardRequesterTimeout a0 a1) := fun a0 a1 _ h => by cases h
theorem eccUncorrectable : ∀ a0 a1, Statement (.eccUncorrectable a0 a1) := fun a0 a1 _ h => by cases h
theorem hbmMapEffect : ∀ a0, Statement (.hbmMapEffect a0) := fun a0 _ h => by cases h
theorem folioPullComplete : ∀ a0 a1, Statement (.folioPullComplete a0 a1) := fun a0 a1 _ h => by cases h
theorem pullTimeout : ∀ a0 a1, Statement (.pullTimeout a0 a1) := fun a0 a1 _ h => by cases h
theorem folioPushComplete : ∀ a0 a1 a2, Statement (.folioPushComplete a0 a1 a2) := fun a0 a1 a2 _ h => by cases h
theorem backgroundPush : ∀ a0 a1, Statement (.backgroundPush a0 a1) := fun a0 a1 _ h => by cases h
theorem preemptRequest : ∀ a0, Statement (.preemptRequest a0) := fun a0 _ h => by cases h
theorem contextRestore : ∀ a0 a1, Statement (.contextRestore a0 a1) := fun a0 a1 _ h => by cases h
theorem debugAttach : ∀ a0, Statement (.debugAttach a0) := fun a0 _ h => by cases h
theorem debugHalt : ∀ a0, Statement (.debugHalt a0) := fun a0 _ h => by cases h
theorem singleStep : ∀ a0, Statement (.singleStep a0) := fun a0 _ h => by cases h
theorem debugResume : ∀ a0, Statement (.debugResume a0) := fun a0 _ h => by cases h
theorem notifyWrite : ∀ a0 a1 a2, Statement (.notifyWrite a0 a1 a2) := fun a0 a1 a2 _ h => by cases h
theorem packetFetch : ∀ a0, Statement (.packetFetch a0) := fun a0 _ h => by cases h
theorem launchPacket : ∀ a0, Statement (.launchPacket a0) := fun a0 _ h => by cases h
theorem jobPacket : ∀ a0, Statement (.jobPacket a0) := fun a0 _ h => by cases h
theorem graphPacket : ∀ a0, Statement (.graphPacket a0) := fun a0 _ h => by cases h
theorem copyPacket : ∀ a0, Statement (.copyPacket a0) := fun a0 _ h => by cases h
theorem signalPacket : ∀ a0, Statement (.signalPacket a0) := fun a0 _ h => by cases h
theorem waitPacket : ∀ a0, Statement (.waitPacket a0) := fun a0 _ h => by cases h
theorem energyPacket : ∀ a0, Statement (.energyPacket a0) := fun a0 _ h => by cases h
theorem checkpointPacket : ∀ a0, Statement (.checkpointPacket a0) := fun a0 _ h => by cases h
theorem barrierPacket : ∀ a0, Statement (.barrierPacket a0) := fun a0 _ h => by cases h
theorem gatheringPlace : ∀ a0 a1, Statement (.gatheringPlace a0 a1) := fun a0 a1 _ h => by cases h
theorem gatheringRelease : ∀ a0, Statement (.gatheringRelease a0) := fun a0 _ h => by cases h
theorem tickLaunchTimeout : ∀ a0, Statement (.tickLaunchTimeout a0) := fun a0 _ h => by cases h
theorem queueAging : ∀ a0, Statement (.queueAging a0) := fun a0 _ h => by cases h
theorem instanceComplete : ∀ a0, Statement (.instanceComplete a0) := fun a0 _ h => by cases h
theorem blockHandout : ∀ a0 a1, Statement (.blockHandout a0 a1) := fun a0 a1 _ h => by cases h
theorem blockReport : ∀ a0 a1, Statement (.blockReport a0 a1) := fun a0 a1 _ h => by cases h
theorem dieFence : ∀ a0, Statement (.dieFence a0) := fun a0 _ h => by cases h
theorem kernelNode : ∀ a0 a1, Statement (.kernelNode a0 a1) := fun a0 a1 _ h => by cases h
theorem condNode : ∀ a0 a1, Statement (.condNode a0 a1) := fun a0 a1 _ h => by cases h
theorem whileNode : ∀ a0 a1, Statement (.whileNode a0 a1) := fun a0 a1 _ h => by cases h
theorem joinNode : ∀ a0 a1, Statement (.joinNode a0 a1) := fun a0 a1 _ h => by cases h
theorem endNode : ∀ a0 a1, Statement (.endNode a0 a1) := fun a0 a1 _ h => by cases h
theorem energyWindowEnd : Statement .energyWindowEnd := fun _ h => by cases h
theorem energyPacing : ∀ a0, Statement (.energyPacing a0) := fun a0 _ h => by cases h
theorem pasidBind : ∀ a0 a1 a2, Statement (.pasidBind a0 a1 a2) := fun a0 a1 a2 _ h => by cases h
theorem qcbCreate : ∀ a0 a1 a2 a3 a4 a5, Statement (.qcbCreate a0 a1 a2 a3 a4 a5) := fun a0 a1 a2 a3 a4 a5 _ h => by cases h
theorem qcbDestroy : ∀ a0 a1, Statement (.qcbDestroy a0 a1) := fun a0 a1 _ h => by cases h
theorem hbmMap : ∀ a0 a1, Statement (.hbmMap a0 a1) := fun a0 a1 _ h => by cases h
theorem slotTable : ∀ a0 a1 a2, Statement (.slotTable a0 a1 a2) := fun a0 a1 a2 _ h => by cases h
theorem slotTableActivate : Statement .slotTableActivate := fun _ h => by cases h
theorem circuit : ∀ a0 a1, Statement (.circuit a0 a1) := fun a0 a1 _ h => by cases h
theorem notifyBind : ∀ a0 a1, Statement (.notifyBind a0 a1) := fun a0 a1 _ h => by cases h
theorem sliceBind : ∀ a0 a1 a2, Statement (.sliceBind a0 a1 a2) := fun a0 a1 a2 _ h => by cases h
theorem window : ∀ a0 a1, Statement (.window a0 a1) := fun a0 a1 _ h => by cases h
theorem identity : ∀ a0, Statement (.identity a0) := fun a0 _ h => by cases h
theorem fabricMembers : ∀ a0 a1, Statement (.fabricMembers a0 a1) := fun a0 a1 _ h => by cases h
theorem checkpointPageCopy : Statement .checkpointPageCopy := fun _ h => by cases h
theorem manifestCommit : ∀ a0, Statement (.manifestCommit a0) := fun a0 _ h => by cases h
theorem powerLoss : Statement .powerLoss := fun _ h => by cases h
theorem bringUp : ∀ a0, Statement (.bringUp a0) := fun a0 _ h => by cases h
theorem fullService : Statement .fullService := fun _ h => by cases h
theorem flitReceive : ∀ a0 a1, Statement (.flitReceive a0 a1) := fun a0 a1 _ h => by cases h
theorem lreq : ∀ a0 a1 a2, Statement (.lreq a0 a1 a2) := fun a0 a1 a2 _ h => by cases h
theorem supp : ∀ a0 a1 a2 a3, Statement (.supp a0 a1 a2 a3) := fun a0 a1 a2 a3 _ h => by cases h
theorem lost : ∀ a0 a1, Statement (.lost a0 a1) := fun a0 a1 _ h => by cases h
theorem linkRetrain : ∀ a0, Statement (.linkRetrain a0) := fun a0 _ h => by cases h
theorem flitRetentionExpiry : ∀ a0 a1, Statement (.flitRetentionExpiry a0 a1) := fun a0 a1 _ h => by cases h
theorem circuitSlotInject : ∀ a0, Statement (.circuitSlotInject a0) := fun a0 _ h => by cases h
theorem fabricWrite : ∀ a0, Statement (.fabricWrite a0) := fun a0 _ h => by cases h
theorem fabricRead : ∀ a0, Statement (.fabricRead a0) := fun a0 _ h => by cases h
theorem rdata : ∀ a0, Statement (.rdata a0) := fun a0 _ h => by cases h
theorem atomic : ∀ a0, Statement (.atomic a0) := fun a0 _ h => by cases h
theorem aresp : ∀ a0, Statement (.aresp a0) := fun a0 _ h => by cases h
theorem sack : ∀ a0, Statement (.sack a0) := fun a0 _ h => by cases h
theorem moved : ∀ a0, Statement (.moved a0) := fun a0 _ h => by cases h
theorem nak : ∀ a0, Statement (.nak a0) := fun a0 _ h => by cases h
theorem fabricBarrier : ∀ a0, Statement (.fabricBarrier a0) := fun a0 _ h => by cases h
theorem ready : ∀ a0, Statement (.ready a0) := fun a0 _ h => by cases h
theorem sprayRetransmitTimer : ∀ a0 a1, Statement (.sprayRetransmitTimer a0 a1) := fun a0 a1 _ h => by cases h
theorem hostBar4Access : ∀ a0 a1 a2, Statement (.hostBar4Access a0 a1 a2) := fun a0 a1 a2 _ h => by cases h
theorem linkRetrainDone : ∀ a0, Statement (.linkRetrainDone a0) := fun a0 _ h => by cases h
theorem energyAllowanceWrite : ∀ a0, Statement (.energyAllowanceWrite a0) := fun a0 _ h => by cases h
theorem powerGating : ∀ a0 a1, Statement (.powerGating a0 a1) := fun a0 a1 _ h => by cases h
theorem hostLinkUncorrectableError : ∀ a0, Statement (.hostLinkUncorrectableError a0) := fun a0 _ h => by cases h

end Sys2Proof.Laws.Port
end

