-- ==== Sys2Proof/Tests/Slice0.lean ====
section
/-!
SUPPORT. Tests: words written out from the encoding tables, an ill-formed term for each kind of check, and for each statement a
state and operands that meet its hypotheses, clause by clause, with the outcome computed by hand from the spec. Each is one step on
a small state.
-/

namespace Sys2Proof.Tests

set_option Elab.async false

open Sys2Proof Sys2Proof.Machine

/-! ### Helpers -/

def after (i : Instr) (s : State) (f : State → Bool) : Bool := match exec i s with | .next t => f t | _ => false
def goes (i : Instr) (s t : State) : Bool := after i s (· == t)

/-- Core 0 runs member 0 of gathering 1 under PASID 7. -/
def s0 : State := State.reset.modCore 0 fun k => { k with run := .running, member := { k.member with gath := 1, size := 1, pasid := 7 } }
def withA (f : Arch → Arch) : State := s0.modArch 0 f
def withK (f : Core → Core) : State := s0.modCore 0 f
/-- s3 holds a value. -/
def s3 (v : Nat) : State := withA fun a => a.setS 3 (BitVec.ofNat 64 v)

def mv (bus : Fin 8) (src : BitVec 11) : Mv := { bus := bus, src := src, keep := false }
def vm (bus : Fin 8) (src : BitVec 11) : Vm := { bus := bus, src := src, w := 0 }
def val (n : Nat) : Val := { bits := BitVec.ofNat 1024 n, vector := false }
def faulted (s : State) (code sub part addr : Nat) : State := takeCoreFault s 0 { code := code, sub := sub, whereAt := part, addr := addr, detail := 0, aux := 0 }

def isOk {ε α : Type} [DecidableEq α] (x : Except ε α) (v : α) : Bool := match x with | .ok y => decide (y = v) | .error _ => false
def isErr {ε α : Type} [DecidableEq ε] (x : Except ε α) (e : ε) : Bool := match x with | .ok _ => false | .error f => decide (f = e)
def okOf {ε α : Type} (x : Except ε α) (f : α → Bool) : Bool := match x with | .ok y => f y | .error _ => false

theorem eq_of_isOk {ε α : Type} [DecidableEq α] {x : Except ε α} {v : α} (h : isOk x v = true) : x = .ok v := by
  cases x <;> simp_all [isOk]

/-- A move that pops nothing reads `v` and leaves the state as it is. -/
def readsB (s : State) (src : BitVec 11) (v : Val) : Bool := isOk (readSource s s.cur src.toNat) v && src.toNat != 0x0B8
def presentB (s : State) (l : List Nat) : Bool := l.all fun f => (s.here.folio f).pres == .present

theorem reads_of {s : State} {bus : Fin 8} {src : BitVec 11} {v : Val} (h : readsB s src v = true) : Reads s bus src false v s := by
  simp only [readsB, Bool.and_eq_true, bne_iff_ne] at h
  exact ⟨eq_of_isOk h.1, by simp [h.2]⟩

theorem present_of {s : State} {l : List Nat} (h : presentB s l = true) : Present s l := by
  simpa [presentB, Present] using h

/-! ### Decoding: words written out from Tables 8.2, 8.9, 8.13 to 8.15 and 5.6 -/

theorem test_decode_example_r172 : decode (.slot 6 0x170126) = some (.move { bus := 6, src := 0x0B8, keep := true } 0x049) := by decide +kernel
theorem test_decode_phase : decode (.slot 6 0x140D90) = some (.mPhase (mv 6 0x0A0)) := by decide +kernel
theorem test_decode_store : decode (.slot 7 0x092D28) = some (.mStv (mv 7 0x049)) := by decide +kernel
theorem test_decode_push : decode (.slot 0 0x130F80) = some (.cuLpPush (mv 0 0x098)) := by decide +kernel
theorem test_decode_scalar : decode (.slot 1 0b00000000011_01000000001_00) = some (.saSub (mv 1 3)) := by decide +kernel
theorem test_decode_vector : decode (.slot 4 0b00001000000_01010000000_10) = some (.vaAdd { bus := 4, src := 0x040, w := 2 }) := by decide +kernel
theorem test_decode_special : decode (.slot 5 0b00001000000_01100000000_00) = some (.sfExp (vm 5 0x040)) := by decide +kernel
theorem test_decode_matrix : decode (.slot 6 0x006E28) = some (.meTshape (mv 6 3)) := by decide +kernel
theorem test_decode_lend : decode (.slot 8 0b0001_00000000000000000_101) = some (.lend 5) := by decide +kernel
theorem test_decode_bank_end : decode (.bank 0xFC00000000000000) = some .bend := by decide +kernel
theorem test_decode_reserved_word : decode (.slot 0 0xFFFFFF) = none ∧ decode (.bank 0xFFFFFFFFFFFFFFFF) = none ∧ decode (.slot 8 0xFFFFFF) = none := by decide +kernel
theorem test_decode_wrong_bus : decode (.slot 2 0b00000000011_01000000000_00) = none := by decide +kernel
theorem test_DecodeEncode : (Instr.cuLpPush (mv 0 0x098)).wf = true ∧ encode (.cuLpPush (mv 0 0x098)) = some (.slot 0 0x130F80) ∧ Instr.bend.wf = true ∧ encode .bend = some (.bank 0xFC00000000000000) := by decide +kernel
/-- A wrong format, a control move on M1, a reserved bit, and no fault. -/
theorem test_LowestBundleFault :
    let cu : BitVec 512 := BitVec.ofNat 512 (2 ^ 5 + (0x3E0 * 4 + 0x098 * 2 ^ 13) * 2 ^ 40)
    bFormat 1 ≠ 0 ∧ checkBundle 1 = some (1, 15) ∧ bFormat cu = 0 ∧ firstMove (fun k => bPresent cu k && decide (0 < k) && isCuTrig (bDst cu k)) = some 1 ∧ checkBundle cu = some (9, 1) ∧
    firstMove (fun k => bPresent 0x4000 k && decide (0 < k) && isCuTrig (bDst 0x4000 k)) = none ∧ (checkBundle 0x4000).map (·.1) = some 2 ∧ checkBundle 0 = none := by decide +kernel

/-- A bundle with these moves (bus and word), literals and other bits. -/
def bundleOf (moves : List (Nat × Nat)) (lits : List Nat) (more : Nat) : BitVec 512 :=
  BitVec.ofNat 512 ((moves.map fun x => 2 ^ (4 + x.1) + x.2 * 2 ^ (16 + 24 * x.1)).sum + ((List.range lits.length).map fun n => lits.getD n 0 * 2 ^ (352 + 32 * n)).sum + more)
def mvWord (src dst w : Nat) : Nat := src * 2 ^ 13 + dst * 4 + w
/-- A control field. -/
def ctlOf (fork : Bool) (tests leaves : List Nat) : Nat :=
  2 ^ 15 + (tests.length - 1 + (if fork then 4 else 0) + ((List.range tests.length).map fun i => tests.getD i 0 * 2 ^ (4 + 8 * i)).sum + ((List.range leaves.length).map fun i => leaves.getD i 0 * 2 ^ (36 + 5 * i)).sum) * 2 ^ 232
/-- One bundle for each condition of Table 8.16, alone in it, with the part at fault. -/
theorem test_LowestBundleFault_conditions :
    checkBundle (bundleOf [] [] (2 ^ 14)) = some (2, 15) ∧ checkBundle (bundleOf [] [] (2 ^ 351)) = some (2, 15) ∧ checkBundle (bundleOf [] [] (2 ^ 16)) = some (2, 0) ∧ checkBundle (bundleOf [] [] (2 ^ 331)) = some (2, 7) ∧
    checkBundle (bundleOf [(3, mvWord 3 0x3E8 0)] [] 0) = some (3, 3) ∧ checkBundle (bundleOf [(1, mvWord 3 0x0A4 0)] [] 0) = some (4, 1) ∧ checkBundle (bundleOf [(5, mvWord 3 0x390 0)] [] 0) = some (5, 5) ∧
    checkBundle (bundleOf [(0, mvWord 3 5 0), (1, mvWord 3 5 0)] [] 0) = some (6, 0) ∧
    checkBundle (bundleOf [(2, mvWord 0x040 0x280 0), (3, mvWord 0x040 0x281 0), (4, mvWord 0x040 0x2A6 0)] [] 0) = some (7, 4) ∧ checkBundle (bundleOf [] [] (2 ^ 12 + 8 * 2 ^ 228)) = some (8, 8) ∧
    checkBundle (bundleOf [(0, mvWord 3 0x3E2 0)] [] (ctlOf false [1] [0, 20])) = some (9, 0) ∧ checkBundle (bundleOf [] [] (ctlOf true [1] [])) = some (10, 9) ∧
    checkBundle (bundleOf [(4, mvWord 0x040 0x280 3)] [] 0) = some (11, 4) ∧ checkBundle (bundleOf [(0, mvWord 3 5 0), (1, mvWord 3 0x200 0)] [7] (ctlOf false [1] [0, 20])) = none := by decide +kernel

/-! ### Well-formedness: a term that each check refuses -/

theorem test_illformed_moves :
    (Instr.move (mv 0 0x3FF) 0x005).wf = false ∧ (Instr.move (mv 0 3) 0x3F0).wf = false ∧ (Instr.move (mv 2 3) 0x005).wf = false ∧
    (Instr.move (mv 0 3) 0x200).wf = false ∧ (Instr.move { bus := 0, src := 3, keep := true } 0x005).wf = false ∧ (Instr.vaAdd { bus := 2, src := 0x040, w := 3 }).wf = false ∧
    (Instr.saAdd (mv 2 3)).wf = false ∧ (Instr.cuTrap (mv 1 3)).wf = false ∧ (Instr.meMm (mv 5 3)).wf = false ∧ (Instr.sfExp (vm 4 0x040)).wf = false := by decide +kernel
theorem test_illformed_events :
    (Instr.lateResultArrival 384 1).wf = false ∧ (Instr.bankListStart 512).wf = false ∧ (Instr.shootdownAgentAck 5).wf = false ∧ (Instr.engineOpCancel 0 24).wf = false ∧
    (Instr.folioPullComplete 0 141).wf = false ∧ (Instr.packetFetch 4096).wf = false ∧ (Instr.notifyWrite 4096 0 0).wf = false ∧ (Instr.blockHandout 0 4).wf = false ∧
    (Instr.lost 18 0).wf = false ∧ (Instr.circuitSlotInject 0).wf = false ∧ (Instr.circuitSlotInject 256).wf = false ∧ (Instr.hbmMapEffect 8).wf = false ∧
    (Instr.pasidTeardown 0x100000).wf = false ∧ (Instr.gatheringPlace 1 [0, 384]).wf = false ∧ (Instr.migratingRewalk (.bank 512)).wf = false ∧
    (Instr.migratingTimeout (.core 384)).wf = false ∧ (Instr.cowDuplicate (.op 384 0)).wf = false := by decide +kernel
theorem test_illformed_step : step { State.reset with agenda := [.ev (.lost 18 0)] } = .fault .illFormed ∧ step { State.reset with agenda := [.core 384] } = .fault .illFormed := ⟨rfl, rfl⟩

/-! ### Steps and bundles -/

/-- A bundle of one move (R184). -/
def one (w : BitVec 24) : BitVec 512 := oneSlotBundle (wordPlace w) w
/-- Core 0 at bundle 1 of its kernel, with this bundle there. -/
def atBundle (b : BitVec 512) : State := withK fun k => { k with folios := k.folios.set 0 { pres := .present, dirty := false }, imem := k.imem.set 1 b, arch := { k.arch with pc := 1, count := 1 } }

theorem test_StepRuns :
    ({ State.reset with agenda := [.time 5] } : State).agenda = [.time 5] ∧ Instr.powerLoss.wf = true ∧ encode .powerLoss = none ∧ (encode (.saAdd (mv 0 3))).isSome = true ∧
    (match step { State.reset with agenda := [.time 5] } with | .next t => t.time == 5 && t.agenda.isEmpty | _ => false) = true := by decide +kernel
/-- What the other entries of the agenda run. -/
theorem test_StepRuns_agenda :
    let at' := fun (a : Act) (s : State) => { s with agenda := [a] }
    let answers := fun (a : Act) (s : State) (f : State → Bool) => match step (at' a s) with | .next t => t.agenda.isEmpty && f t | _ => false
    let o : Op := { newOp s0.here 0x3A0 0 3 6 with id := 4, cfg := ((Tab.empty.put 0 0x121 0x200).put 0 0x122 1).put 0 0x123 1 }
    let w := fun (o : Op) => withK fun k => { k with ops := [o] }
    let dx := w { o with port := 0x3B5, cfg := Tab.empty.put 0 0x12F (BitVec.ofNat 64 (9 * 65536)) }
    (s0.op 0 4).isNone = true ∧ answers (.eng 0 4) s0 (· == s0) = true ∧ answers (.eng 0 4) ((w o).modCore 0 fun k => { k with stopping := true }) (fun t => (t.op 0 4).map (·.prog) == some 0) = true ∧
    mayRun ((w o).core 0) o = true ∧ mcastLate (w o) 0 4 = w o ∧ isMeTrig o.port = false ∧ unitsOf (w o) 0 4 o = 1 ∧ okOf (opUnit (w o) 0 4 o) (fun _ => true) = true ∧ answers (.eng 0 4) (w o) (fun t => (t.op 0 4).map (·.prog) == some 1) = true ∧
    answers (.eng 0 4) dx (fun t => (t.core 0).fifo.length == 1) = true ∧
    (let m : Op := { o with port := 0x380, id := 5 }
     let s := withK fun k => { k with ops := [{ m with id := 4, st := .running }, m] }
     isMeTrig m.port = true ∧ m.live = true ∧ engineFree (s.core 0) m = false ∧ answers (.eng 0 5) s (· == prefetch s 0 5 m) = true) ∧
    answers .firmware s0 (· == s0) = true ∧ answers .firmware { s0 with command := some (7, [4095, 7]) } (fun t => t.command.isNone) = true ∧ answers (.softError 7) s0 (fun t => t.counters.get 0 71 == 1) = true ∧
    answers (.host (.readCounter 71)) { s0 with counters := Tab.empty.put 0 71 258 } (fun t => t.hostOut == [.data [2, 1, 0, 0, 0, 0, 0, 0]]) = true ∧
    answers (.policy (.entry 1 0 62 { MapEntry.zero with kind := 5 })) { s0 with policyLoaded := true } (fun t => ((t.core 0).ep.entry 62).kind == 5) = true := by decide +kernel
def bank0 (w : Word) : State := State.reset.withCommand w
theorem test_BankFetches :
    ((bank0 0xFC00000000000000).bank 0).list = some (0, 0) ∧ (findList (bank0 0xFC00000000000000) 0).isSome = true ∧ ((bank0 0xFC00000000000000).bank 0).wait = .none ∧
    ((bank0 0xFC00000000000000).bank 0).cmds[((bank0 0xFC00000000000000).bank 0).idx]? = some 0xFC00000000000000 ∧
    (match bankTurn (bank0 0xFC00000000000000) 0 with | .run i => i == .bend | _ => false) = true := by decide +kernel
theorem test_BundleRunsItsTrigger :
    let s := atBundle (one 0b00000000011_01000000000_00)
    mayIssue s.here = true ∧ s.here.paced = false ∧ frozenFetch s.here = none ∧ isMarkBundle s.here.arch s.here.bundle = false ∧
    (match decodeBundle s.here.bundle with | .ok b => b.tree == none && b.adr == none && b.slots.map (·.instr) == [.saAdd (mv 0 3)] | _ => false) = true ∧
    (match stepRings s 0 with | .ok _ => true | _ => false) = true ∧ after .bundleIssue s (fun u => u.here.arch.pc == 2 && u.here.arch.count == 2 && u.here.arch.due.length == 1) = true := by decide +kernel
theorem test_EmptyBundleIssues :
    let s := atBundle 0
    mayIssue s.here = true ∧ s.here.paced = false ∧ frozenFetch s.here = none ∧ s.here.bundle = 0 ∧ s.here.arch.count ≠ 0 ∧
    after .bundleIssue s (fun u => u.here.arch.pc == 2 && u.here.arch.count == 2) = true := by decide +kernel
theorem test_IllegalBundleFaults :
    let s := atBundle 1
    mayIssue s.here = true ∧ s.here.paced = false ∧ frozenFetch s.here = none ∧ isErr (decodeBundle s.here.bundle) (1, 15) = true ∧ goes .bundleIssue s (faulted s 1 1 15 0) = true := by decide +kernel
def handle5 : Handle := { Handle.zero with valid := true, ld := true, size := 1 }
/-- A result due at this issue. -/
def dueState (v : Option Vec) : State :=
  (atBundle 0).modArch 0 fun a => { a with due := [{ tag := 1, bus := 0, port := 0x0B0, dueAt := 1, val := v, flags := 0x080, req := .none, inst := none, bad := none, bundle := 0, count := 0, epoch := 0, page := 0 }] }
theorem test_ResultFallsDue :
    ∀ d ∈ (dueState (some 9)).here.arch.due, (presentB (dueState (some 9)) [33] = true ∧ dueNow (dueState (some 9)).here.arch = [d] ∧ d.val = some 9 ∧ d.bus < 8) ∧
      (match stepRings (dueState (some 9)) 0 with | .ok t => (t.here.arch.ring 0).d0 == some 9 && t.here.arch.result 0x0B0 == 9 && t.here.arch.fstat == 0x080 && t.here.arch.due.isEmpty | _ => false) = true := by
  decide +kernel
theorem test_WalkFallsDue :
    let s := (dueState (some 9)).modArch 0 fun a => { a with due := a.due.map fun d => { d with inst := some (5, handle5) } }
    let f := CFault.mk' 0x10 2 6 0x30010
    let b := (dueState none).modArch 0 fun a => { a with due := a.due.map fun d => { d with bad := some f, bundle := 7, count := 3 } }
    presentB s [32, 33] = true ∧ (dueNow s.here.arch).length = 1 ∧
    okOf (stepRings s 0) (fun t => t.here.arch.handle 5 == handle5 && !(t.here.arch.handle 6).valid && (t.here.arch.ring 0).d0 == some 9 && t.here.arch.due.isEmpty && (t.here.folio 32).dirty) = true ∧
    presentB b [32, 33] = true ∧ (dueNow b.here.arch).map (·.bad) = [some f] ∧ mayIssue b.here = true ∧ b.here.paced = false ∧ frozenFetch b.here = none ∧ b.here.bundle = 0 ∧ goes .bundleIssue b (takeFault b 0 f 7 3) = true := by decide +kernel
theorem test_LateResultFreezes :
    let s := dueState none
    mayIssue s.here = true ∧ s.here.paced = false ∧ frozenFetch s.here = none ∧ s.here.bundle = 0 ∧ s.here.arch.count ≠ 0 ∧ (dueNow s.here.arch).length = 1 ∧
    after .bundleIssue s (fun t => t.here.freeze == .late && t.here.arch == s.here.arch) = true := by decide +kernel

/-! ### Moves and arithmetic -/

theorem test_MoveWrites :
    let s := s3 0x123456789
    readsB s 3 (val 0x123456789) = true ∧
    (∀ d ∈ ([0x005, 0x0C1, 0x140, 0x142, 0x100, 0x113] : List (BitVec 11)), (Instr.move (mv 0 3) d).wf = true) ∧
    (∀ d ∈ ([0x05F, 0x102, 0x10B, 0x10D, 0x10E, 0x104, 0x133] : List (BitVec 11)), (Instr.move (mv 6 3) d).wf = true) ∧
    after (.move (mv 0 3) 0x03F) s (fun u => u.here.arch.s.get 0 0x3F == 0x123456789) = true ∧ after (.move (mv 6 3) 0x07F) s (fun u => u.here.arch.v.get 0 0x3F == 0x123456789) = true ∧
    after (.move (mv 0 3) 0x0CF) s (fun u => u.here.arch.p.get false 15) = true ∧ after (.move (mv 0 3) 0x140) s (fun u => u.here.arch.lend == 0x123456789) = true ∧
    after (.move (mv 6 3) 0x133) s (fun u => u.here.arch.config 0x133 == 0x123456789) = true := by decide +kernel
theorem test_FstatPort :
    let s := (s3 0x080).modArch 0 fun a => { a with fstat := 0x190 }
    readsB s 3 (val 0x080) = true ∧ after (.move (mv 0 3) 0x141) s (fun u => u.here.arch.fstat == 0x110) = true := by decide +kernel
theorem test_SourcesRead :
    ((s0.core 0).folio 32).pres = .present ∧ ((s0.core 0).folio 33).pres = .present ∧ ((s0.core 0).folio 34).pres = .present ∧ ((s0.core 0).folio 35).pres = .present ∧
    isOk (readSource (s3 5) 0 3) (val 5) = true := by decide +kernel
theorem test_SourcesRead_ports :
    let ring : Ring := { d0 := some 10, d1 := some 11, d2 := some 12, d3 := none }
    let s := (atBundle (bundleOf [] [0xFFFFFFFF, 2, 0x80000000, 4, 5] 0)).modArch 0 fun a => { a with
      rings := (a.rings.set 0 { ring with d0 := some (2 ^ 64 + 7) }).set 3 ring, res := (a.res.put 0 0x0B0 (2 ^ 64 + 5)).put 0 0x0BA 9, loops := [{ count := 9, idx := 4, start := 0, stop := 0 }, { count := 9, idx := 2, start := 0, stop := 0 }], count := 77 }
    let t := (s.modArch 0 fun a => a.setStream 1 { a.stream 1 with base := 0xFFFFFFFFFF, st0 := 8, st1 := 0xFFFFFFFFFF, b := 0, kind := 2, index := 31 }).modArch 0 fun a => a.setStream 0 { a.stream 0 with base := 8, st0 := 8, b := 7, kind := 1, index := 31 }
    let scalar := fun (s : State) (p n : Nat) => isOk (readSource s 0 p) (val n)
    let vector := fun (p n : Nat) => isOk (readSource s 0 p) { bits := BitVec.ofNat 1024 n, vector := true }
    presentB s [32, 33] = true ∧ scalar s 0x080 7 = true ∧ scalar s 0x081 11 = true ∧ scalar s 0x082 12 = true ∧ scalar s 0x083 0 = true ∧ vector 0x08C 10 = true ∧ vector 0x08D 11 = true ∧ vector 0x08E 12 = true ∧ vector 0x08F 0 = true ∧
    scalar s 0x0A0 0xFFFFFFFFFFFFFFFF = true ∧ scalar s 0x0A2 0xFFFFFFFF80000000 = true ∧ scalar s 0x0A5 0x2FFFFFFFF = true ∧ scalar s 0x0A6 0x480000000 = true ∧ scalar s 0x0B0 5 = true ∧ vector 0x0BA 9 = true ∧
    scalar s 0x0D0 4 = true ∧ scalar s 0x0D1 2 = true ∧ scalar s 0x0D5 0 = true ∧ scalar s 0x0D6 2 = true ∧ scalar s 0x0F0 77 = true ∧ scalar s 0x0F2 0 = true ∧
    scalar t 0x0A9 (2 ^ 61 + 31 * 2 ^ 48 + 29) = true ∧ scalar t 0x0A8 (2 ^ 60 + 15 * 2 ^ 56 + 8) = true := by decide +kernel
theorem test_ScalarInteger :
    let s := (s3 7).modArch 0 fun a => a.setLatch 0x100 (val (2 ^ 64 - 2))
    readsB s 3 (val 7) = true ∧ presentB s [32, 33] = true ∧ goes (.saAdd (mv 0 3)) s (deliver s 0 0 0x0B0 1 5 0) = true ∧ goes (.saMulh (mv 0 3)) s (deliver s 0 0 0x0B0 3 0xFFFFFFFFFFFFFFFF 0) = true ∧
    goes (.saSar (mv 0 3)) s (deliver s 0 0 0x0B0 1 0xFFFFFFFFFFFFFFFF 0) = true ∧ goes (.saSltu (mv 0 3)) s (deliver s 0 0 0x0B0 1 0 0) = true := by decide +kernel
theorem test_ScalarDivision :
    let s := fun (a b : Nat) => (s3 b).modArch 0 fun k => k.setLatch 0x100 (val a)
    readsB (s 9 0) 3 (val 0) = true ∧ presentB (s 9 0) [32, 33] = true ∧ goes (.saDiv (mv 0 3)) (s 9 0) (deliver (s 9 0) 0 0 0x0B0 12 0xFFFFFFFFFFFFFFFF 0x080) = true ∧
    goes (.saRem (mv 0 3)) (s (2 ^ 63) (2 ^ 64 - 1)) (deliver (s (2 ^ 63) (2 ^ 64 - 1)) 0 0 0x0B0 12 0 0x100) = true ∧
    goes (.saDiv (mv 0 3)) (s (2 ^ 64 - 7) 2) (deliver (s (2 ^ 64 - 7) 2) 0 0 0x0B0 12 0xFFFFFFFFFFFFFFFD 0) = true := by decide +kernel
theorem test_ScalarBitCounts :
    goes (.saClz (mv 0 3)) (s3 0) (deliver (s3 0) 0 0 0x0B0 1 64 0) = true ∧ goes (.saCtz (mv 0 3)) (s3 0x18) (deliver (s3 0x18) 0 0 0x0B0 1 3 0) = true ∧
    goes (.saBswap (mv 0 3)) (s3 0x0102) (deliver (s3 0x0102) 0 0 0x0B0 1 0x0201000000000000 0) = true := by decide +kernel
/-- 1.5 + 2.5, 1 / 0, and the sign of a minimum. -/
theorem test_ScalarFloat :
    let s := fun (a b : Nat) => (s3 b).modArch 0 fun k => k.setLatch 0x100 (val a)
    goes (.saFaddD (mv 0 3)) (s 0x3FF8000000000000 0x4004000000000000) (deliver (s 0x3FF8000000000000 0x4004000000000000) 0 0 0x0B0 4 0x4010000000000000 0) = true ∧
    goes (.saFdivD (mv 0 3)) (s 0x3FF0000000000000 0) (deliver (s 0x3FF0000000000000 0) 0 0 0x0B0 14 0x7FF0000000000000 0x008) = true ∧
    goes (.saFminD (mv 0 3)) (s 0 0x8000000000000000) (deliver (s 0 0x8000000000000000) 0 0 0x0B0 4 0x8000000000000000 0) = true := by decide +kernel
theorem test_FloatSpecials : ({ neg := false, n := 1, d := 1, e := 0 } : Ex).n ≠ 0 ∧ outD ((Machine.Num.inf false).add (.inf true) 0) = (0x7FF8000000000000, 0x010) := by decide +kernel
/-- Mode 0x90009 is FP32 in and out. -/
theorem test_VectorRuns :
    let s := withA fun a => (a.setV 0 0x40000000).setLatch 0x102 { bits := 0x3F800000, vector := true }
    let t := withA fun a => a.setConfig 0x104 0xFF
    readsB s 0x040 { bits := 0x40000000, vector := true } = true ∧ presentB s [32, 33] = true ∧
    modeFault opVaAdd (vectorArgs s 2 1024 { bits := 0x40000000, vector := true }).mode = none ∧ goes (.vaAdd (vm 2 0x040)) s (deliver s 0 2 0x0B2 4 0x40400000 0) = true ∧
    modeFault opVaFma (vectorArgs t 2 1024 Val.zero).mode = some 1 := by decide +kernel

/-- INT8 lanes, and FP32 lanes: 1.5 + 2 in lane 31. -/
theorem test_VectorLanes :
    let s := fun (a b c : Nat) => withA fun k => (((k.setV 0 (BitVec.ofNat 1024 b)).setLatch 0x102 { bits := BitVec.ofNat 1024 a, vector := true }).setLatch 0x103 { bits := BitVec.ofNat 1024 c, vector := true }).setConfig 0x104 0
    let gives := fun (i : Vm → Instr) (a b c r lat : Nat) => goes (i (vm 2 0x040)) (s a b c) (deliver (s a b c) 0 2 0x0B2 lat (BitVec.ofNat 1024 r) 0)
    let f := withA fun k => (k.setV 0 (0x40000000#1024 <<< 992)).setLatch 0x102 { bits := 0x3FC00000#1024 <<< 992, vector := true }
    (vectorArgs (s 0 0 0) 2 1024 { bits := 0, vector := true }).mode.type = 0 ∧ (vectorArgs (s 0 0 0) 2 1024 { bits := 0, vector := true }).mode.sat = false ∧ (vectorArgs (s 1 2 3) 2 1024 { bits := 0, vector := true }).a.vector = true ∧
    gives .vaAdd 0x7FFF 0x0102 0 0x8001 2 = true ∧ gives .vaSub 0x0100 0x0002 0 0x01FE 2 = true ∧ gives .vaMul 0x80 0x03 0 0x80 2 = true ∧ gives .vaFma 0x02 0x03 0xFF 0x05 5 = true ∧ gives .vaFms 0x02 0x03 0x07 0xFF 5 = true ∧
    gives .vaMin 0x80 0x01 0 0x80 2 = true ∧ gives .vaMax 0x80 0x01 0 0x01 2 = true ∧ gives .vaAbs 0 0x80FF 0 0x8001 2 = true ∧ gives .vaNeg 0 0x01 0 0xFF 2 = true ∧ gives .vaShl 0x81 0x09 0 0x02 2 = true ∧
    gives .vaShr 0x81 0x01 0 0x40 2 = true ∧ gives .vaSar 0x81 0x01 0 0xC0 2 = true ∧ gives .vaCmplt 0x80 0x01 0 0xFF 2 = true ∧ gives .vaSel 0x0102 0x0304 0x0100 0x0104 2 = true ∧ gives .vaPerm 0x01 0x0A0B 0 (0x0A + (2 ^ 1016 - 1) / 255 * 0x0B * 256) 3 = true ∧
    gives .vaZip 0x0A 0x0B 0 0x0B0A 3 = true ∧ gives .vaUnzip 0 0x0D0C0B0A 0 (0x0C0A + 0x0D0B * 2 ^ 512) 3 = true ∧ gives .vaSlide 0x01 0x0B0A 0x0C (0x0B + 0x0C * 2 ^ 1016) 3 = true ∧ gives .vaRsum 0 0xFF02 0 0x01 6 = true ∧
    goes (.vaAdd (vm 2 0x040)) f (deliver f 0 2 0x0B2 4 (0x40600000#1024 <<< 992) 0) = true := by decide +kernel
theorem test_VectorChecks :
    let s := fun (n : Nat) => withA fun a => a.setConfig 0x104 (BitVec.ofNat 64 n)
    let faults := fun (i : Vm → Instr) (n sub : Nat) => presentB (s n) [32, 33] && readsB (s n) 0x040 { bits := 0, vector := true } && goes (i (vm 2 0x040)) (s n) (faulted (s n) 0x17 sub 2 0)
    faults .vaMov 0x12 1 = true ∧ faults .vaAdd 0x15 1 = true ∧ faults .vaUnpackHi 0xFF 1 = true ∧ faults .vaShl 0x09 2 = true ∧ faults .vaSar 0x11 2 = true ∧ faults .vaShr 0x06 2 = true ∧ faults .vaAdd 0x06 2 = true ∧ faults .vaRound 0x14 2 = true ∧
    faults .vaBcast 0x0C 2 = true ∧ faults .vaCvt 0x120009 3 = true ∧ faults .vaQuant 0x15000A 3 = true ∧ faults .vaDequant 0x06000B 3 = true ∧ faults .vaPack 0x000009 3 = true ∧ faults .vaUnpackLo 0x0C0009 3 = true := by decide +kernel

/-! ### Special functions and memory -/

theorem test_SpecialRuns :
    let s := withA fun a => (a.setV 0 0x40800000).setLatch 0x10B { bits := 0x3F800000, vector := true }
    let t := s.modArch 0 fun a => a.setConfig 0x10C 0xFF
    let u := s.modArch 0 fun a => a.setConfig 0x10C 0x04
    let v : Val := { bits := 0x40800000, vector := true }
    readsB s 0x040 v = true ∧ presentB s [32, 33] = true ∧ (Mode.of (s.here.arch.config 0x10C)).type = cFp32 ∧
    after (.sfSqrt (vm 5 0x040)) s (fun u => u.here.arch.due.map (fun d => (d.val.map (·.toNat % 2 ^ 32), d.dueAt)) == [(some 0x40000000, 8)]) = true ∧
    badCode (Mode.of (t.here.arch.config 0x10C)).type = true ∧ goes (.sfSin (vm 5 0x040)) t (faulted t 0x17 1 5 0) = true ∧
    badCode (Mode.of (u.here.arch.config 0x10C)).type = false ∧ goes (.sfExp (vm 5 0x040)) u (faulted u 0x17 2 5 0) = true := by decide +kernel
theorem test_SpecialOperands : ({ neg := true, n := 0, d := 1, e := 0 } : Ex).n = 0 ∧ ({ neg := true, n := 3, d := 1, e := 0 } : Ex).n ≠ 0 := by decide +kernel
theorem test_ArithmeticFrame :
    let s := s3 7
    (match triggerOf (.saAdd (mv 0 3)) with | some tr => tr.port < 0x340 && tr.bus == 0 && tr.src == 3 && tr.keep == false | none => false) = true ∧ s.here.run = .running ∧
    readsB s 3 (val 7) = true ∧ presentB s [32, 33] = true ∧ after (.saAdd (mv 0 3)) s (fun u => u.here.run == .running) = true := by decide +kernel

/-- The last aligned 8 bytes of the scratchpad. -/
theorem test_LoadsRun :
    let s := (s3 0x4FFF8).modCore 0 fun k => { k with scratch := k.scratch.put 0 0x4FFFF 0x81 }
    readsB s 3 (val 0x4FFF8) = true ∧ presentB s [32] = true ∧ presentB s (spadFolios 0x4FFF8 8) = true ∧
    goes (.mLd64 (mv 6 3)) s (deliver s 0 6 0x0B6 6 0x8100000000000000 0) = true ∧ goes (.mLd8 (mv 7 3)) ((s3 0x4FFFF).modCore 0 fun k => { k with scratch := k.scratch.put 0 0x4FFFF 0x81 })
      (deliver ((s3 0x4FFFF).modCore 0 fun k => { k with scratch := k.scratch.put 0 0x4FFFF 0x81 }) 0 7 0x0B7 6 0xFFFFFFFFFFFFFF81 0) = true := by decide +kernel
/-- Cores 0 and 11 of one quire in gathering 1. -/
def peers (v : Nat) : State := (s3 v).modCore 11 fun k => { k with run := .running, member := { k.member with gath := 1, size := 2, rank := 1, pasid := 7 } }
def handle0 : Handle := { Handle.zero with valid := true, ld := true, st := true, amo := true, size := 1 }
/-- s3 holds a token of handle 31. -/
def handled (v : Nat) (h : Handle) : State := (s3 (2 ^ 61 + 31 * 2 ^ 48 + v)).modArch 0 fun a => a.setHandle 31 h
theorem test_LoadsRun_away :
    readsB (peers (2 ^ 60 + 11 * 2 ^ 56 + 0x4FF80)) 3 (val (2 ^ 60 + 11 * 2 ^ 56 + 0x4FF80)) = true ∧ sameGathering (peers 0) 0 11 = true ∧
    after (.mLdv (mv 6 3)) (peers (2 ^ 60 + 11 * 2 ^ 56 + 0x4FF80)) (fun u => u.here.arch.due == [lateEntry s0.here 1 6 40 (.peer 11 0x4FF80 128 0) 0]) = true ∧
    ((handled 0xFFF8 handle0).here.arch.handle 31).valid = true ∧ ((handled 0xFFF8 handle0).here.arch.handle 31).stale = false ∧ 0xFFF8 + 8 ≤ ((handled 0xFFF8 handle0).here.arch.handle 31).bytes ∧
    handleAts (handled 0xFFF8 handle0) 0 ((handled 0xFFF8 handle0).here.arch.handle 31) 0xFFF8 63 false = none ∧
    after (.mLd64 (mv 7 3)) (handled 0xFFF8 handle0) (fun u => u.here.arch.due == [lateEntry s0.here 1 7 96 (.load { host := false, addr := 0xFFF8 } 8 0) 0]) = true := by decide +kernel
/-- A peer load of an older epoch is performed before a local load (R127), whose value stands at its issue even where the peer's folio is absent; a peer
load freezes before issue until core 11's folio is PRESENT there, and has it pulled (R20). -/
theorem test_LoadsRun_behind :
    let s := (peers 0x4FFF8).modCore 0 fun k => { k with arch := { k.arch with due := [{ lateEntry k 9 6 40 (.peer 11 0x4FF80 8 0) 0 with epoch := 0 }] }, epoch := 1 }
    let w := s.modCore 11 fun k => { k with folios := k.folios.set 140 { pres := .absent, dirty := false } }
    let v : Nat := 2 ^ 60 + 11 * 2 ^ 56 + 0x4FF80
    let q := (peers v).modCore 11 fun k => { k with folios := k.folios.set 140 { pres := .absent, dirty := false } }
    (loadsBefore s.here 1).length = 1 ∧ (performBefore s 0 1).here.arch.due.map (·.req) = [.none] ∧
    goes (.mLd64 (mv 6 3)) s (deliver (performBefore s 0 1) 0 6 0x0B6 6 0 0) = true ∧
    after (.mLd64 (mv 6 3)) w (fun t => t.here.arch.due.map (fun d => (d.req, d.val.isSome)) == [(.peer 11 0x4FF80 8 0, false), (.none, true)]) = true ∧
    readsB q 3 (val v) = true ∧ (spadFolios 0x4FF80 128).find? (fun f => ((q.core 11).folio f).pres != .present) = some 140 ∧
    goes (.mLdv (mv 6 3)) q (takeFreeze q 0 .peer (141 * 11 + 140) 6) = true ∧
    after (.mLdv (mv 6 3)) q (fun t => t.here.freeze == .peer && ((t.core 11).folio 140).pres == .inFlight && t.here.arch.due.isEmpty) = true := by decide +kernel
theorem test_TokenChecks :
    let bad := fun (v n : Nat) => tokenFault (peers v) 0 (BitVec.ofNat 64 v) 8 false == some n && goes (.mLd64 (mv 6 3)) (peers v) (faulted (peers v) 0x16 n 6 v)
    bad (3 * 2 ^ 60) 1 = true ∧ bad (2 ^ 53) 2 = true ∧ bad 0x4FFF9 3 = true ∧ bad 0x50000 3 = true ∧ bad (2 ^ 60 + 12 * 2 ^ 56) 4 = true ∧ bad 4 5 = true ∧ bad (2 ^ 60 + 10 * 2 ^ 56) 7 = true ∧
    tokenFault (peers 0) 0 (BitVec.ofNat 64 (2 ^ 60 + 11 * 2 ^ 56)) 8 true = some 6 ∧ tokenFault (peers 0) 0 0x4FFF8 8 false = none := by decide +kernel
/-- `.bind` is 8 at entry; a full gate; stream 2; `.bind` 9; handle 31. -/
theorem test_StoresRun :
    let g : Gated := .store { h := none, off := 0x4FFF8, data := [1, 2, 0, 0, 0, 0, 0, 0], shadow := none, count := 0 }
    let s := (s3 0x0201).modArch 0 fun a => a.setLatch 0x10D (val 0x4FFF8)
    let full := s.modCore 0 fun k => { k with gate := List.replicate 48 g }
    let st2 := (s3 0x0201).modArch 0 fun a => (a.setStream 2 { a.stream 2 with base := 0x4FFF8 }).setConfig 0x10F 2
    let b9 := s.modArch 0 fun a => a.setConfig 0x10F 9
    let h := ((handled 0 handle0).modArch 0 fun a => a.setLatch 0x10D (val (2 ^ 61 + 31 * 2 ^ 48 + 0xFFF8)))
    readsB s 3 (val 0x0201) = true ∧ presentB s [32] = true ∧ presentB s (spadFolios 0x4FFF8 8) = true ∧ (s.here.arch.config 0x10F).toNat = 8 ∧ (s.here.arch.latch 0x10D).lo.toNat = 0x4FFF8 ∧
    goes (.mSt64 (mv 6 3)) s (s.modCore 0 fun k => { k with gate := [g] }) = true ∧ full.here.gate.length = 48 ∧ goes (.mSt64 (mv 6 3)) full (faulted full 0x07 1 6 0) = true ∧
    (st2.here.arch.token 2).toNat = 0x4FFF8 ∧ goes (.mSt64 (mv 6 3)) st2 (st2.modCore 0 fun k => { k with gate := [g] }) = true ∧
    (b9.here.arch.config 0x10F).toNat = 9 ∧ goes (.mSt8 (mv 6 3)) b9 (faulted b9 0x17 12 6 0) = true ∧
    (h.here.arch.handle 31).st = true ∧ (h.here.arch.handle 31).cow = false ∧ handleAts h 0 (h.here.arch.handle 31) 0xFFF8 62 true = none ∧ after (.mSt64 (mv 6 3)) h (fun u => u.here.gate.length == 1) = true := by decide +kernel
def gated (x : Store) : State := withK fun k => { k with gate := [.store x], arch := k.arch.setHandle 31 handle0 }
def localStore : Store := { h := none, off := 0x4FFFE, data := [7, 8], shadow := none, count := 0 }
def farStore : Store := { h := some 31, off := 0x1E, data := [7, 8], shadow := none, count := 0 }
theorem test_MarkCommits :
    isOk (needWalks (gated localStore).here.arch.due) () = true ∧ (gated localStore).here.marked = false ∧
    okOf (markFirst (gated localStore) 0) (fun t => t.here.spad 0x4FFFF == 8 && t.here.gate.isEmpty && t.here.marked) = true := by decide +kernel
theorem test_GlobalStorePublishes :
    let s := gated farStore
    (s.here.arch.handle 31).bytes = 0x10000 ∧ s.handlePlace 7 (s.here.arch.handle 31) 0x1E = { host := false, addr := 0x1E } ∧ s.here.member.pasid = 7 ∧ s.here.pub = [] ∧
    handleAts s 0 (s.here.arch.handle 31) 0x1E 62 true = none ∧ dueAtomics s.here { host := false, addr := 0 } = [] ∧
    okOf (markFirst s 0) (fun t => t.here.pub.length == 1 && t.byteAt { host := false, addr := 0x1F } == 0 && loadGlobal t 0 0 { host := false, addr := 0x1F } == 8) = true := by decide +kernel
/-- Granule 2 of device memory, bytes 0 and 31; in a phase, or at no event of R125. -/
def published (f : Freeze) : State := withK fun k => { k with freeze := f, pub := [{ place := { host := false, addr := 64 }, data := { cells := [(0, 5), (31, 6)] }, pages := [0] }] }
theorem test_PublishPerforms :
    mayPublish (published .phase) 0 { host := false, addr := 64 } = true ∧ mayPublish (published .none) 0 { host := false, addr := 64 } = false ∧ goes (.publishEntryPerform 0 2) (published .none) (published .none) = true ∧
    ((published .phase).core 0).pub.filter (fun x => x.place == { host := false, addr := 64 }) = ((published .phase).core 0).pub ∧ (((published .phase).core 0).pub.all fun e => e.data.rising) = true ∧ physMapped 64 = true ∧
    after (.publishEntryPerform 0 2) (published .phase) (fun t => t.mem.cells == [(64, 5), (95, 6)] && t.here.pub.isEmpty) = true := by decide +kernel
def lateState (r : Req) : State := (peers 0).modCore 0 fun k => { k with arch := { k.arch with due := [lateEntry k 9 6 96 r 0] } }
theorem test_LateLoadArrives :
    let s := (lateState (.load { host := false, addr := 64 } 2 0)).writeAt { host := false, addr := 64 } [0x34, 0x12]
    let t := (lateState (.peer 11 0x4FFFE 2 16)).modCore 11 fun k => { k with scratch := k.scratch.put 0 0x4FFFF 0x80 }
    (s.core 0).arch.due.length = 1 ∧ ((s.core 0).arch.due.map fun d => (loadsBefore (s.core 0) d.epoch).length) = [0] ∧ ((t.core 0).arch.due.map fun d => (loadsBefore (t.core 0) d.epoch).length) = [0] ∧ after (.lateResultArrival 0 9) s (fun u => u.here.arch.due.map (·.val) == [some 0x1234]) = true ∧
    (spadFolios 0x4FFFE 2).all (fun f => ((t.core 11).folio f).pres == .present) = true ∧
    after (.lateResultArrival 0 9) t (fun u => u.here.arch.due.map (·.val) == [some 0xFFFFFFFFFFFF8000]) = true := by decide +kernel
theorem test_AtomicPerforms :
    let s := fun (q b c : Nat) => (lateState (.atomic { host := false, addr := 64 } q 8 (BitVec.ofNat 64 b) (BitVec.ofNat 64 c))).writeAt { host := false, addr := 64 } [5]
    ((s 0x35C 3 0).core 0).pub = [] ∧ (((s 0x35C 3 0).core 0).arch.due == dueAtomics ((s 0x35C 3 0).core 0) { host := false, addr := 64 }) = true ∧ (s 0x35C 3 0).jobs = [] ∧ physMapped 64 = true ∧
    after (.lateResultArrival 0 9) (s 0x35C 3 0) (fun u => u.here.arch.due.map (·.val) == [some 5] && u.read64 { host := false, addr := 64 } == 8) = true ∧
    after (.lateResultArrival 0 9) (s 0x35D (2 ^ 64 - 1) 0) (fun u => u.read64 { host := false, addr := 64 } == 5) = true ∧
    after (.lateResultArrival 0 9) (s 0x361 3 5) (fun u => u.read64 { host := false, addr := 64 } == 3) = true ∧
    after (.lateResultArrival 0 9) (s 0x361 3 6) (fun u => u.read64 { host := false, addr := 64 } == 5) = true := by decide +kernel
theorem test_LocalAtomics :
    let s := ((s3 3).modArch 0 fun a => a.setLatch 0x10D (val 0x4FFF8)).modCore 0 fun k => { k with scratch := k.scratch.put 0 0x4FFF8 5 }
    okOf (markFirst s 0) (fun t => readsB t 3 (val 3) && presentB t [32] && presentB t (spadFolios 0x4FFF8 8)) = true ∧
    after (.mAadd (mv 6 3)) s (fun w => w.here.spad 0x4FFF8 == 8 && w.here.arch.due.map (·.val) == [some 5] && w.here.snap == w.here.arch) = true ∧
    after (.mArd (mv 6 3)) ((s3 0x4FFF8).modCore 0 fun k => { k with scratch := k.scratch.put 0 0x4FFF8 5 }) (fun w => w.here.spad 0x4FFF8 == 5 && w.here.arch.due.map (·.val) == [some 5]) = true := by decide +kernel
/-- Sync word at 0x4FFF0; join counter 15; scopes 0 to 7. -/
theorem test_WaitsRun :
    let sw := fun (b : Nat) => (s3 b).modArch 0 fun a => a.setLatch 0x10D (val 0x4FFF0)
    let j := fun (b n : Nat) => ((s3 b).modArch 0 fun a => a.setLatch 0x10D (val 15)).modCore 0 fun k => k.setJoin 15 (BitVec.ofNat 32 n)
    let ph := fun (b : Nat) (d : Bool) => (s3 b).modCore 0 fun k => { k with marked := true, phaseDone := d }
    okOf (markFirst (sw 0) 0) (fun t => readsB t 3 (val 0) && presentB t [32] && presentB t (spadFolios 0x4FFF0 16)) = true ∧
    after (.mSwwait (mv 6 3)) (sw 0) (fun w => w.here.freeze == .none) = true ∧ after (.mSwwait (mv 6 3)) (sw 1) (fun w => w.here.freeze == .swwait) = true ∧
    after (.mSwwait (mv 6 3)) (sw 0x8001) (fun w => w.here.freeze == .none) = true ∧
    after (.mJwait (mv 6 3)) (j 4 4) (fun w => w.here.freeze == .none) = true ∧ after (.mJwait (mv 6 3)) (j 5 4) (fun w => w.here.freeze == .jwait) = true ∧
    [0, 5, 6, 7].all (fun b => goes (.mPhase (mv 6 3)) (ph b false) (faulted (ph b false) 0x17 9 6 0)) = true ∧
    [1, 4].all (fun b => after (.mPhase (mv 6 3)) (ph b true) (fun w => w.here.freeze == .none && !w.here.marked) && after (.mPhase (mv 6 3)) (ph b false) (fun w => w.here.freeze == .phase && w.here.arrived == some b)) = true ∧
    after (.cuHalt (mv 0 3)) (s3 9) (fun w => w.here.run == .halted && w.here.exit == 9) = true := by decide +kernel
theorem test_HandlesRun :
    let s := handled 0x10 handle0
    let t := (s3 8).modCore 0 fun k => { k with gate := [.store farStore] }
    readsB s 3 (val (2 ^ 61 + 31 * 2 ^ 48 + 0x10)) = true ∧ presentB s [32] = true ∧ (s.here.arch.handle 31).valid = true ∧ after (.mHrel (mv 6 3)) s (fun u => !(u.here.arch.handle 31).valid) = true ∧
    ((s3 31).here.arch.handle 31).valid = false ∧ goes (.mHrel (mv 6 3)) (s3 31) (s3 31) = true ∧ after (.mXlt (mv 6 3)) s (fun u => u.here.arch.due.map (·.dueAt) == [24] && u.fresh == 1) = true ∧
    goes (.mJset (mv 6 3)) t (t.modCore 0 fun k => { k with gate := [.store farStore, .jset 0 8] }) = true ∧ goes (.mXfence (mv 6 3)) t (t.modCore 0 fun k => { k with gate := [.store farStore, .xfence] }) = true ∧
    goes (.mXfence (mv 6 3)) (s3 7) (faulted (s3 7) 0x17 10 6 0) = true := by decide +kernel
/-- A page of 64 KiB at VA 0x30000 of PASID 7, in frame 5, that every agent may use; root at 0x200000. -/
def tables (leaf : Nat) (s : State) : State :=
  let put := fun (s : State) (a v : Nat) => s.write64 { host := false, addr := a } (BitVec.ofNat 64 v)
  put (put (put (put { s with pasids := s.pasids.set 7 { root := some 0x200000, table := 0x30000, tearing := false } } 0x200000 (0x400000 + 7)) 0x400000 (0x401000 + 5)) 0x401000 (0x402000 + 3)) 0x402018 leaf
def leaf5 : Nat := 0xFFF0000000000000 + 5 * 0x10000 + 0x101
def walkDue : State := tables leaf5 (lateState (.xlt 0x30010 31))
theorem test_WalkCompletes :
    okOf (walk walkDue (memUnit 0) 7 0x30010 false) (fun x => x.2 == BitVec.ofNat 64 (leaf5 + 0x20)) = true ∧ (walkDue.core 0).member.pasid = 7 ∧
    after (.xltWalkComplete 0 9) walkDue (fun t => t.here.arch.due.map (·.val) == [some (BitVec.ofNat 1024 (2 ^ 61 + 31 * 2 ^ 48 + 0x10))]) = true ∧
    isErr ((walk (lateState (.xlt 0x30010 31)) (memUnit 0) 7 0x30010 false).map fun _ => ()) (.fault 0x10 9) = true ∧
    after (.xltWalkComplete 0 9) (lateState (.xlt 0x30010 31)) (fun t => t.here.arch.due.map (fun d => d.bad.map (·.sub)) == [some 9]) = true := by decide +kernel
theorem test_TagLookup_TagDelete :
    let s := fun (b c : Nat) => (s3 b).modArch 0 fun a => a.setLatch 0x10E { bits := BitVec.ofNat 1024 c, vector := true }
    let t := fun (c : Nat) => (s 0x12345 c).modArch 0 fun a => a.tagInstall 0x12345 (c % 4) 6
    readsB (s 0x12345 0) 3 (val 0x12345) = true ∧ presentB (s 0 0) [32, 60, 61] = true ∧ ((t 2).here.arch.tagFind 0x12345 2) = some 6 ∧ ((s 0x12345 2).here.arch.tagFind 0x12345 2) = none ∧
    after (.mTdel (mv 6 3)) (t 2) (fun u => u.here.arch.tagFind 0x12345 2 == none) = true ∧ after (.mTdel (mv 6 3)) (s 0x12345 2) (fun u => u.here.arch == (s 0x12345 2).here.arch) = true ∧
    after (.mTdel (mv 6 3)) ((s 1023 7).modArch 0 fun a => a.tagInstall 0 0 0) (fun u => !tagValid (u.here.arch.tag 1023)) = true ∧
    ([.mTdel, .mTlook, .mTins] : List (Mv → Instr)).all (fun f => goes (f (mv 6 3)) (s 0 3) (faulted (s 0 3) 0x17 8 6 0)) = true ∧
    after (.mTlook (mv 6 3)) (t 1) (fun u => u.here.arch.due.map (fun d => (d.val, d.dueAt)) == [(some (BitVec.ofNat 1024 (tagSet 0x12345 1 * 8 + 6)), 3)]) = true ∧
    after (.mTins (mv 6 3)) (s 5 0) (fun u => u.here.arch.tagFind 5 0 == some 0) = true := by decide +kernel
/-- `tins` and `tdel` wait for their folio; its bytes then hold the key, and no longer the key deleted. -/
theorem test_TagLookup_waits :
    let s := fun (c : Nat) => ((s3 5).modArch 0 fun a => a.setLatch 0x10E { bits := BitVec.ofNat 1024 c, vector := true }).modCore 0 fun k => { k with folios := (k.folios.set 60 { pres := .absent, dirty := false }).set 61 { pres := .inFlight, dirty := false } }
    let was := (Arch.entry.tagInstall 5 0 2).tags
    readsB (s 4) 3 (val 5) = true ∧ presentB (s 4) [32] = true ∧ tagSet 5 0 * 8 < 512 ∧
    after (.mTins (mv 6 3)) (s 0) (fun u => u.here.arch.tagOps == [.install 5 0 0] && (u.here.arch.install 60 (.tags was)).tagFind 5 0 == some 0 && (u.here.arch.install 60 (.tags was)).tagOps.isEmpty) = true ∧
    after (.mTdel (mv 6 3)) (s 0) (fun u => u.here.arch.tagOps == [.delete 5 0] && (u.here.arch.install 60 (.tags was)).tagFind 5 0 == none) = true ∧
    after (.mTdel (mv 6 3)) (s 4) (fun u => u.here.arch.tagOps == [.clear 5]) = true := by decide +kernel
/-- Ways 0 to 7 of the set of key 5, installed in that order: way 3 is hit, and a full set suggests way 0, which is oldest. -/
theorem test_TagLookup_ages :
    let set := tagSet 5 0
    let a := (List.range 8).foldl (fun (a : Arch) w => a.tagInstall (if w = 3 then 5 else 2 ^ 20 + w) 0 w) (Arch.entry)
    let full := (List.range 8).foldl (fun (a : Arch) w => a.setTag (set * 8 + w) (a.tag (set * 8 + w) ||| 1)) Arch.entry
    let ages := fun (a : Arch) => (List.range 8).map fun k => tagAge (a.tag (set * 8 + k))
    Arch.entry.tagFind 5 0 = none ∧ (Arch.entry.tagLook 5 0).2 = BitVec.ofNat 64 (2 ^ 63 + set * 8) ∧ ((Arch.entry.tagInstall 5 0 0).tagLook 5 0).2 = BitVec.ofNat 64 (set * 8) ∧
    a.tagFind 5 0 = some 3 ∧ (a.tagLook 5 0).2 = BitVec.ofNat 64 (set * 8 + 3) ∧ (ages (a.tagLook 5 0).1).getD 3 9 = 0 := by decide +kernel
theorem test_SyncWordsRun :
    let s := fun (b a : Nat) => (s3 b).modArch 0 fun k => k.setLatch 0x10D (val a)
    readsB (s 5 0x4FFF0) 3 (val 5) = true ∧ presentB (s 5 0x4FFF0) (spadFolios 0x4FFF0 16) = true ∧
    ([.mSwpost, .mSwadd, .mSwrd] : List (Mv → Instr)).all (fun f => goes (f (mv 7 3)) ((s3 5).modArch 0 fun k => k.setLatch 0x110 (val 0x50000)) (faulted ((s3 5).modArch 0 fun k => k.setLatch 0x110 (val 0x50000)) 0x16 3 7 0x50000) &&
      goes (f (mv 6 3)) (s 5 8) (faulted (s 5 8) 0x16 5 6 8)) = true ∧
    goes (.mSwpost (mv 6 3)) (s 5 0x4FFF0) ((s 5 0x4FFF0).modCore 0 fun k => { k with gate := [.swpost 0x4FFF0 5] }) = true ∧
    goes (.mSwadd (mv 6 3)) (s 5 0x4FFF0) ((s 5 0x4FFF0).modCore 0 fun k => { k with gate := [.swadd 0x4FFF0 5] }) = true ∧
    after (.mSwrd (mv 6 3)) (s 5 0x4FFF0) (fun u => u.here.arch.due.map (fun d => (d.val, d.dueAt)) == [(some 0, 6)]) = true := by decide +kernel
theorem test_SyncWordMatch_posts :
    let w : SyncWord := { SyncWord.ofNat 0 with count := 9, gen := 0xFFFF, err := true, ovr := true }
    let v := fun (w : SyncWord) => (w.count, w.gen, w.target, w.ovr)
    let s := (withK fun k => { k with gate := [.swpost 0x4FFF0 (BitVec.ofNat 64 (2 ^ 32 + 5))], scratch := k.scratch.put 0 0x4FFF0 0 })
    v (w.post 5) = (4, 0, 5, true) ∧ (w.post 5).err = true ∧ v (w.post (BitVec.ofNat 64 (2 ^ 32 + 5))) = (0, 0, 0, true) ∧ v (w.post (BitVec.ofNat 64 (2 ^ 33 + 2 ^ 32 + 9))) = (0, 0, 0, false) ∧
    (w.post (BitVec.ofNat 64 (2 ^ 33 + 5))).err = false ∧ v (w.post (BitVec.ofNat 64 (2 ^ 34 + 5))) = (0, 0xFFFF, 5, true) ∧ v (w.post 0) = (9, 0xFFFF, 0, true) ∧
    v ({ w with ovr := false }.add (2 ^ 32)) = (2 ^ 32 - 1, 0xFFFF, 0, true) ∧ v ({ w with target := 2 ^ 31, ovr := false }.add (2 ^ 32)) = (2 ^ 31 - 1, 0, 2 ^ 31, true) ∧
    v ({ w with target := 4, oneshot := true, ovr := false }.add (2 ^ 32)) = (0, 0, 0, true) ∧
    isOk (needWalks s.here.arch.due) () = true ∧ s.here.marked = false ∧ presentB s (spadFolios 0x4FFF0 16) = true ∧
    okOf (markFirst s 0) (fun t => t.here.gate.isEmpty && t.here.syncWord 0x4FFF0 == (s.here.syncWord 0x4FFF0).post (BitVec.ofNat 64 (2 ^ 32 + 5)) && (t.here.syncWord 0x4FFF0).target == 5 && (t.here.syncWord 0x4FFF0).oneshot) = true := by decide +kernel
theorem test_SyncWordMatch :
    let w : SyncWord := { SyncWord.ofNat 0 with target := 4, oneshot := false, gen := 0xFFFF }
    w.gen < 2 ^ 16 ∧ w.count < 2 ^ 32 ∧ ((w.add 3).count, (w.add 3).gen) = (3, 0xFFFF) ∧ ((w.add 4).count, (w.add 4).gen) = (0, 0) ∧ ((w.add 9).count, (w.add 9).gen) = (1, 1) ∧
    (({ w with oneshot := true } : SyncWord).add 4).target = 0 ∧ (w.add (2 ^ 32)).ovr = true ∧ (w.post 0x100000000).err = w.err ∧ (w.post 1).target = 1 := by decide +kernel

/-! ### Engines, control, faults -/

theorem test_EngineTriggers :
    let s := s3 (1 + 1023 * 2 ^ 19)
    let op := fun (port j : Nat) => ({ newOp s.here port (BitVec.ofNat 64 (1 + 1023 * 2 ^ 19)) j 6 with shape := 0 } : Op)
    let full := s.modCore 0 fun k => { k with gate := List.replicate 48 (.store localStore) }
    let t := (s3 63).modArch 0 fun a => (a.setConfig 0x12C 63)
    readsB s 3 (val (1 + 1023 * 2 ^ 19)) = true ∧ presentB s [32] = true ∧ gatedCount s.here (engineOf 0x380) + releasedCount s.here (engineOf 0x380) < queueLimit (engineOf 0x380) ∧
    tileFault s.here.shape 0x385 0 1 = none ∧ goes (.meTzero (mv 6 3)) s (s.modCore 0 fun k => { k with gate := [.engine (op 0x385 0)] }) = true ∧
    goes (.tdBlk (mv 6 3)) s (s.modCore 0 fun k => { k with gate := [.engine (op 0x3B5 15)] }) = true ∧ goes (.bkGo (mv 6 3)) full (faulted full 0x07 1 6 0) = true ∧
    (tileFault t.here.shape 0x385 63 63).isSome = true ∧ after (.meTzero (mv 6 3)) t (fun u => u.here.run == .faulted && (u.here.slot 0).map (·.code) == some 0x20) = true ∧
    goes (.tdBlk (mv 7 3)) (s.modArch 0 fun a => a.setConfig 0x12F 0x10000) (faulted (s.modArch 0 fun a => a.setConfig 0x12F 0x10000) 0x17 14 7 0) = true := by decide +kernel
theorem test_TileVectors :
    let s := (s3 5).modArch 0 fun a => (a.setV 5 0x00000007_00000003).setConfig 0x12D 15
    readsB s 3 (val 5) = true ∧ presentB s [32, 34, 35, tileFolio 0 0] = true ∧ 0 < tileCount 0 ∧ 15 < tileDim 0 ∧
    after (.meTrow (mv 6 3)) s (fun u => u.here.tileDefined 0) = true ∧ after (.meTcol (mv 6 3)) s (fun u => u.here.tileDefined 0) = true ∧
    after (.meTrowr (mv 6 3)) s (fun u => u.here.arch.due.map (fun d => (d.val, d.dueAt, d.port)) == [(some 0, 10, 0x0B9)]) = true := by decide +kernel
def ceOp : Op :=
  { newOp s0.here 0x3A0 0 3 6 with id := 4, cfg := ((((Tab.empty.put 0 0x120 0x100).put 0 0x121 0x4FFFE).put 0 0x122 1).put 0 0x123 1) }
def withOp (o : Op) : State := withK fun k => { k with ops := [o], scratch := (k.scratch.put 0 0x100 7).put 0 0x101 9 }
/-- An `mcast` of two granules to core 1 whose second waits for a folio there: the pull fails, and the member's word has not been counted (R144). -/
theorem test_EnginesProgress_mcast :
    let o : Op := { newOp s0.here 0x3A6 0x8000 3 6 with id := 4, cfg := ((((((Tab.empty.put 0 0x120 0x4000).put 0 0x121 0xF00).put 0 0x122 511).put 0 0x123 1).put 0 0x124 0x40).put 0 0x132 2), prog := 2, late := [(1, 1, 0x1000, [5])], taken := [(1, 1, 256)] }
    let s := (withOp o).modCore 1 fun k => { k with run := .running, member := { k.member with gath := 1, size := 2, rank := 1, pasid := 7 }, folios := k.folios.set 62 { pres := .inFlight, dirty := false }, ep := k.ep.setEntry 62 { MapEntry.zero with kind := 7 } }
    after (.folioPullComplete 1 62) s (fun t => (t.op 0 4).map (fun o => (o.failed, o.late, o.taken)) == some ([(1, 0x30, 2)], [], []) && (t.core 1).spad64 0x40 == 0) = true ∧
    after (.ceGranuleLand 0 4) (s.modCore 1 fun k => { k with folios := k.folios.set 62 { pres := .present, dirty := false } }) (fun t => (t.op 0 4).map (fun o => (o.late, o.taken)) == some ([], []) && (t.core 1).spad64 0x40 == BitVec.ofNat 64 (257 * 2 ^ 32) && (t.core 1).spad 0x1000 == 5) = true := by decide +kernel
theorem test_ShapeAndWindow :
    okOf (markFirst (s3 2) 0) (fun t => readsB t 3 (val 2) && presentB t [32]) = true ∧ (s3 2).status.getLsbD 63 = false ∧ goes (.meTshape (mv 6 3)) (s3 2) (faulted (s3 2) 0x17 15 6 0) = true ∧
    presentB (s3 3) (upto 36 16) = true ∧ after (.meTshape (mv 6 3)) (s3 3) (fun w => w.here.shape == 3 && !w.here.marked) = true ∧ after (.meTshape (mv 6 3)) { s3 2 with status := 1 <<< 63 } (fun w => w.here.shape == 2) = true ∧
    after (.meTshape (mv 6 3)) ((s3 1).modCore 0 fun k => { k with ops := [{ ceOp with port := 0x380 }] }) (fun w => w.here.freeze == .queue && w.here.shape == 0) = true ∧
    after (.tdWin (mv 6 3)) (s3 5) (fun u => u.here.arch.due.map (fun d => (d.dueAt, d.port)) == [(6, 0x0BA)]) = true ∧
    goes (.tdWin (mv 6 3)) ((s3 5).modArch 0 fun a => a.setConfig 0x12F 0x10000) (faulted ((s3 5).modArch 0 fun a => a.setConfig 0x12F 0x10000) 0x17 14 6 0) = true := by decide +kernel
theorem test_GranuleLands :
    let s := withOp ceOp
    let bad := withOp { ceOp with cfg := ceOp.cfg.put 0 0x121 (3 <<< 60) }
    s.op 0 4 = some ceOp ∧ ceOp.late = [] ∧ mayRun (s.core 0) ceOp = true ∧ ceOp.prog < ceUnits s 0 4 ceOp ∧ okOf (ceUnit s 0 4 ceOp) (fun t => t.op 0 4 == some ceOp) = true ∧
    after (.ceGranuleLand 0 4) s (fun u => (u.op 0 4).map (·.prog) == some 1) = true ∧ (bad.core 0).slot 1 = none ∧
    after (.ceGranuleLand 0 4) bad (fun u => (u.op 0 4).map (·.st) == some (.parked 1) && u.here.run == .running && ((u.core 0).slot 1).map (fun r => (r.code, r.sub)) == some (0x16, 1)) = true := by decide +kernel
/-- Two bytes at the top of the scratchpad. -/
theorem test_LocalCopyLands :
    let s := withOp ceOp
    ceOp.port' 0x120 = 0x100 ∧ ceOp.port' 0x121 = 0x4FFFE ∧ ceOp.port' 0x122 = 1 ∧ ceOp.port' 0x123 = 1 ∧ ceOp.port' 0x126 = 0 ∧ (s.core 0).folios = .empty ∧ (s.core 0).stopping = false ∧ ceOp.late = [] ∧
    after (.ceGranuleLand 0 4) s (fun t => t.here.spad 0x4FFFE == 7 && t.here.spad 0x4FFFF == 9 && t.here.spad 0x100 == 7) = true := by decide +kernel
theorem test_EngineCompletes :
    let s := withOp { ceOp with st := .running, prog := 1 }
    let e := withOp { ceOp with st := .running, err := some (0x60, 39) }
    let p := withOp { ceOp with st := .parked 2, prog := 1 }
    unitsOf s 0 4 { ceOp with st := .running, prog := 1 } ≤ 1 ∧ ceOp.follow = none ∧ ceOp.late = [] ∧ ceOp.runs = [] ∧ (s.timetabled.all fun t => t.op != 4) = true ∧ after (.engineOpComplete 0 4) s (fun t => (t.core 0).join 3 == 1 && (t.core 0).ops.isEmpty) = true ∧
    after (.engineOpComplete 0 4) e (fun t => (t.core 0).join 3 == 1 && (t.core 0).ceStat.getLsbD 0) = true ∧ goes (.engineOpComplete 0 4) p p = true := by decide +kernel
theorem test_FollowOnPlaced :
    let o : Op := { ceOp with st := .follow, cfg := ceOp.cfg.put 0 0x126 (BitVec.ofNat 64 (2 ^ 63 + 0x200)) }
    let s := (withOp o).modCore 0 fun k => { k with scratch := k.scratch.put 0 0x200 5 }
    o.follow = some 0x200 ∧ gatedCount (s.core 0) 1 + releasedCount (s.core 0) 1 < 2 ∧ (s.core 0).allPresent (spadFolios 0x200 64) = true ∧
    followBad (s.core 0) { followOp (s.core 0) o 0x200 with id := 0 } ((s.core 0).spad64 0x200) ((s.core 0).spad64 0x238) = false ∧
    after (.meFollowOn 0 4) s (fun t => (t.core 0).ops.map (fun o => (o.port, o.id)) == [(0x385, 0)]) = true := by decide +kernel
theorem test_EntriesDeliver :
    let o : Op := { newOp s0.here 0x3B5 0 15 6 with id := 4, cfg := Tab.empty.put 0 0x12F (BitVec.ofNat 64 (9 * 65536)) }
    let s := withOp o
    let last := withOp { o with prog := 7 }
    s.op 0 4 = some o ∧ isFifoOp o.port = true ∧ mayEnter (s.core 0) o = true ∧ okOf (tdEntry s 0 o) (fun d => d.length == 128) = true ∧ fifoUnits o = 8 ∧
    after (.dxEntryDeliver 0 4) s (fun t => (t.core 0).fifo.length == 1 && (t.core 0).join 15 == 0) = true ∧ after (.dxEntryDeliver 0 4) last (fun t => (t.core 0).fifo.length == 1 && (t.core 0).join 15 == 1) = true ∧
    goes (.dxEntryDeliver 0 4) (s.modCore 0 fun k => { k with fifo := List.replicate 16 { bits := 0, op := 0 } }) (s.modCore 0 fun k => { k with fifo := List.replicate 16 { bits := 0, op := 0 } }) = true := by decide +kernel
/-- A copy with a fault record in slot 23. -/
def parked : State :=
  let s := withOp ceOp
  let r := opRecord s 0 (s.core 0) ceOp (CFault.mk' 0x16 1 15 0)
  s.modCore 0 fun k => ({ k with ops := [{ ceOp with st := .parked 23 }] }).setSlot 23 (some r)
theorem test_ParkedOperations :
    opInSlot (parked.core 0) 23 = some { ceOp with st := .parked 23 } ∧ ((parked.core 0).slot 23).isSome = true ∧ parked.policyLoaded = false ∧ goes (.engineOpResume 0 23) parked parked = true ∧
    after (.engineOpResume 0 23) { parked with policyLoaded := true } (fun t => (t.core 0).slot 23 == none && (t.op 0 4).map (·.st) == some .running) = true ∧
    after (.engineOpCancel 0 23) parked (fun t => (t.core 0).slot 23 == none && (t.op 0 4) == none && (t.core 0).join 3 == 1 && (t.core 0).ceStat != 0) = true := by decide +kernel
def loop1 : Loop := { count := 3, idx := 0, start := 1, stop := 4 }
/-- At bundle 4 with `n` loops and `cu.lend` 9. -/
def looped (v n : Nat) : State := (s3 v).modArch 0 fun a => { a with pc := 4, loops := List.replicate n loop1, lend := 9 }
theorem test_ControlRuns :
    let calls := fun (n : Nat) => (looped 2047 0).modArch 0 fun a => { a with calls := List.replicate n 0 }
    let dbg := (s3 5).modCore 0 fun k => { k with debugger := true }
    readsB (looped 3 5) 3 (val 3) = true ∧ after (.cuLpPush (mv 0 3)) (looped 3 5) (fun u => u.here.arch.loops.length == 6 && u.here.arch.pc == 4) = true ∧
    goes (.cuLpPush (mv 0 3)) (looped 3 6) (faulted (looped 3 6) 0x04 1 0 0) = true ∧ after (.cuLpPush (mv 0 3)) (looped (2 ^ 32) 6) (fun u => u.here.arch.pc == 10 && u.here.arch.loops.length == 6) = true ∧
    goes (.cuLpPush (mv 0 3)) ((looped 3 0).modArch 0 fun a => { a with lend := 4 }) (faulted ((looped 3 0).modArch 0 fun a => { a with lend := 4 }) 0x17 11 0 0) = true ∧
    after (.cuLpPush (mv 0 3)) ((looped 3 0).modArch 0 fun a => { a with lend := 5 }) (fun u => u.here.arch.loops.map (·.stop) == [5]) = true ∧
    after (.cuJump (mv 0 3)) (looped 2049 0) (fun u => u.here.arch.pc == 1) = true ∧ after (.cuCall (mv 0 3)) (calls 7) (fun u => u.here.arch.pc == 2047 && u.here.arch.calls.head? == some 5) = true ∧
    goes (.cuCall (mv 0 3)) (calls 8) (faulted (calls 8) 0x06 1 0 0) = true ∧ after (.cuBrk (mv 0 3)) dbg (fun u => u.here.debugHalt) = true ∧ goes (.cuBrk (mv 0 3)) (s3 5) (faulted (s3 5) 0x51 5 0 0) = true ∧
    after (.cuWdog (mv 0 3)) (s3 5) (fun u => u.here.wdog == some 5) = true ∧ after (.cuWdog (mv 0 3)) (s3 (2 ^ 32)) (fun u => u.here.wdog == none) = true := by decide +kernel
/-- Core 0 ready at bundle 1, which passes its checks and is no mark. -/
def readyB (s : State) : Bool :=
  mayIssue s.here && !s.here.paced && frozenFetch s.here == none && !isMarkBundle s.here.arch s.here.bundle && okOf (stepRings s 0) (presentB · [32]) && okOf (decodeBundle s.here.bundle) fun _ => true
/-- p1 is true; two loops deep, one call deep. -/
def treeState (fork : Bool) (tests leaves : List Nat) (n : Nat) : State :=
  (atBundle (bundleOf [] [100, 200, 300] (ctlOf fork tests leaves))).modArch 0 fun a => { a with p := a.p.put false 1 true, loops := List.replicate n loop1, calls := [77] }
/-- Test byte 1 is p1, 2 is p2, 0x81 not p1; a leaf is its target times 4, and its pops. -/
theorem test_LeafTaken :
    let takes := fun (s : State) (pc n calls : Nat) => readyB s && after .bundleIssue s fun t => t.here.arch.pc == BitVec.ofNat 11 pc && t.here.arch.loops.length == n && t.here.arch.calls.length == calls && t.here.arch.count == 2
    takes (treeState false [2, 1] [0, 5, 20] 1) 200 0 1 = true ∧ takes (treeState false [2, 0x81] [0, 4, 20] 1) 2 1 1 = true ∧ takes (treeState false [1] [24, 0] 0) 77 0 0 = true ∧
    readyB (treeState false [2, 1] [0, 6, 20] 1) = true ∧ goes .bundleIssue (treeState false [2, 1] [0, 6, 20] 1) (faulted (treeState false [2, 1] [0, 6, 20] 1) 5 2 9 0) = true ∧
    takes (treeState true [1, 2] [20, 4, 20] 0) 200 0 1 = true ∧ takes (treeState true [1, 1] [0, 20, 20] 0) 100 0 1 = true ∧ takes (treeState true [2, 1] [20, 20, 8] 0) 300 0 1 = true ∧
    takes (treeState true [2, 2, 1] [20, 20, 8, 20] 0) 300 0 1 = true ∧ takes (treeState true [2, 1, 2] [20, 20, 20, 8] 0) 300 0 1 = true ∧
    takes (treeState true [1, 1, 2, 2] [20, 4, 20, 20, 20] 0) 200 0 1 = true ∧ takes (treeState true [1, 1, 2, 1] [4, 20, 20, 20, 20] 0) 200 0 1 = true ∧ takes (treeState true [1, 2, 1, 1] [20, 20, 4, 20, 20] 0) 200 0 1 = true ∧
    takes (treeState true [2, 2, 1, 2] [20, 20, 20, 4, 20] 0) 200 0 1 = true ∧ takes (treeState true [2, 2, 2, 2] [20, 20, 20, 20, 24] 0) 77 0 0 = true := by decide +kernel
/-- A `lend 1` at the end of loop 1, which starts at bundle 9; s3 holds `v`. -/
def lendState (v count : Nat) (moves : List (Nat × Nat)) (more : Nat) : State :=
  (atBundle (bundleOf moves [100] (2 ^ 12 + (0x100000 + 1) * 2 ^ 208 + more))).modArch 0 fun a =>
    { (a.setS 3 (BitVec.ofNat 64 v)) with loops := [{ count := BitVec.ofNat 32 count, idx := 0, start := 9, stop := 1 }], lend := 5 }
theorem test_NextPcOrder :
    let takes := fun (s : State) (pc : Nat) (l : List Nat) => readyB s && after .bundleIssue s fun t => t.here.arch.pc == BitVec.ofNat 11 pc && t.here.arch.loops.map (·.idx.toNat) == l
    okOf (decodeBundle (lendState 0 3 [] 0).here.bundle) (fun b => b.adr.map (·.instr) == some (.lend 1)) = true ∧ takes (lendState 0 3 [] 0) 9 [1] = true ∧ takes (lendState 0 1 [] 0) 2 [] = true ∧
    takes (lendState 50 3 [(0, mvWord 3 0x3E2 0)] 0) 50 [1] = true ∧ takes (lendState 0 3 [(0, mvWord 3 0x3E0 0)] 0) 9 [1] = true ∧ takes (lendState 0 3 [] (ctlOf false [1] [0, 0])) 100 [0] = true := by decide +kernel
theorem test_EmptyLoopSkips :
    let s := (atBundle (bundleOf [(0, mvWord 3 0x3E0 0)] [] 0)).modArch 0 fun a => { (a.setS 3 0) with lend := 5 }
    readyB s = true ∧ after .bundleIssue s (fun t => t.here.arch.pc == 6 && t.here.arch.loops.isEmpty) = true := by decide +kernel
theorem test_LoopPop :
    (looped 0 2).here.arch.loops = [loop1] ++ [loop1] ∧ after (.cuLpPop (mv 0 3)) (looped 0 2) (fun u => u.here.arch.loops == [loop1] && u.here.arch.pc == 4) = true ∧
    goes (.cuLpPop (mv 0 3)) (looped 0 0) (faulted (looped 0 0) 0x05 1 0 0) = true ∧ okOf (leafPops 0 2 (looped 0 3)) (fun t => t.here.arch.loops == [loop1]) = true := by decide +kernel
theorem test_TrapTakes : readsB (s3 0x12345) 3 (val 0x12345) = true ∧ after (.cuTrap (mv 0 3)) (s3 0x12345) (fun u => u.here.run == .faulted && (u.here.slot 0).map (fun r => (r.code, r.sub)) == some (0x50, 0x2345)) = true := by decide +kernel
theorem test_AddressSlots :
    let last := (looped 0 0).modArch 0 fun a => { a with loops := [{ loop1 with idx := 2 }] }
    (looped 0 2).here.arch.loops = [loop1] ++ [loop1] ∧ (looped 0 2).here.arch.pc = loop1.stop ∧ after (.lend 2) (looped 0 2) (fun u => u.here.arch.pc == 1 && u.here.arch.loops.map (·.idx) == [0, 1]) = true ∧
    after (.lend 1) last (fun u => u.here.arch.pc == 4 && u.here.arch.loops.isEmpty && u.here.arch.fstat == 0) = true ∧ after (.lend 1) (looped 0 2) (fun u => u.here.arch.fstat == 0x40 && u.here.arch.loops.length == 2) = true ∧
    presentB (s3 9) [32] = true ∧ after (.sbase 7 3) (s3 9) (fun u => (u.here.arch.stream 7).base == 9) = true ∧ after (.sstri 7 3 0x1FFF) (s3 9) (fun u => (u.here.arch.stream 7).st3 == 0xFFFFFFFFFF) = true ∧
    after (.sspace 7 2 31) (s3 9) (fun u => (u.here.arch.stream 7).kind == 2 && (u.here.arch.stream 7).index == 31) = true ∧ after (.swlev 7 5) (s3 9) (fun u => (u.here.arch.stream 7).b == 5) = true := by decide +kernel
theorem test_FaultAndResume :
    let f := takeFault (s3 1) 0 (CFault.mk' 0x17 1 0 0) 0 0
    let r := takeFault (s3 1) 0 (CFault.mk' 0x07 1 0 0) 0 0
    (f.core 0).run = .faulted ∧ ((f.core 0).slot 0).map (·.code) = some 0x17 ∧ goes (.coreFaultResume 0) f f = true ∧
    after (.coreFaultResume 0) { f with policyLoaded := true } (fun t => (t.core 0).run == .running && (t.core 0).slot 0 == none) = true ∧
    goes (.coreFaultResume 0) { r with policyLoaded := true } { r with policyLoaded := true } = true := by decide +kernel

/-! ### Bank engines -/

/-- Engine 0 runs list 0 of core 0. -/
def b0 : State := State.reset.withCommand 0
def bk (f : Bank → Bank) : State := b0.modBank 0 f
def lanes (l : List (Nat × Nat)) : Tab (BitVec 32) := { cells := l.map fun x => (x.1, BitVec.ofNat 32 x.2) }
theorem test_BankCommands :
    let s := bk fun b => { b with acc := lanes [(0, 0x3F800000), (63, 0x40000000)], xb := { cells := [(0, 1), (768, 2)] } }
    let w := bk fun b => { b with writes := [{ place := { host := false, addr := 64 }, page := 0, data := [9] }] }
    let x := b0.modCore 0 fun k => { k with scratch := k.scratch.put 0 0x4FFFF 7 }
    (s.bank 0).list = some (0, 0) ∧ (findList s 0).isSome = true ∧ listCore s 0 = some 0 ∧ memberCore s 0 0 = some 0 ∧ (spadFolios 0x4FF00 256).all (fun f => ((x.core 0).folio f).pres == .present) = true ∧
    after (.bzero true 1) s (fun t => (t.bank 0).acc.cells.isEmpty && (t.bank 0).xb.cells == [(768, 2)] && (t.bank 0).idx == 1) = true ∧
    after (.bscale false 0 0x40000000) s (fun t => (t.bank 0).lane 0 == 0x40000000 && (t.bank 0).lane 63 == 0x40800000) = true ∧ after .bfence w (fun t => t.mem.cells == [(64, 9)] && (t.bank 0).writes.isEmpty) = true ∧
    after (.bjoin 15) w (fun t => t.mem.cells == [(64, 9)] && (t.core 0).join 15 == 1) = true ∧ after (.bload 3 false 0x4FF00) x (fun t => (t.bank 0).xb.get 0 1023 == 7) = true ∧
    after (.bsync 0x4FFF0 0) b0 (fun t => (t.bank 0).wait == .none && (t.bank 0).idx == 1) = true ∧ after (.bsync 0x4FFF0 1) b0 (fun t => (t.bank 0).wait == .bsync && (t.bank 0).idx == 0) = true := by decide +kernel
/-- One row, one group; then a row count and format that subcode 4 refuses, and a row off the stack's banks. -/
def mac (wfmt : Nat) : Mac := { xb := 0, wfmt := BitVec.ofNat _ wfmt, afmt := 0, sc := false, sxb := 0, e8 := 127, nr1 := 0, k1 := 0, koff := 0, row := 0 }
theorem test_MultiplyCommands :
    let w := fun (leaf : Nat) => ({ tables leaf (b0.modCore 0 fun k => { k with lists := k.lists.map fun l => { l with pasid := 7 } }) with regions := Tab.empty.put (regionReset 0) 0 0x40000000001FFC00 } : State)
    let s := ((w (leaf5 + 0x1000)).modBank 0 fun b => { b with hdr := [1, 0x30000, 0, 0], xb := { cells := [(0, 2)] } }).writeAt { host := false, addr := 0x50000 } [3]
    let bad := (w leaf5).modBank 0 fun b => { b with hdr := [1, 0x30000, 0, 0] }
    (s.bank 0).list = some (0, 0) ∧ macField .plain (mac 15) = true ∧ goes (.bmac (mac 15)) s (parkBank s 0 0x60 4) = true ∧ macField .plain (mac 0) = false ∧
    (match findList s 0 with | some l => okOf (macRows .plain (mac 0) 0 l [0] s) (fun x => x.1.banks == s.banks && x.2 == [[3]]) | none => false) = true ∧
    after (.bmac (mac 0)) s (fun u => (u.bank 0).idx == 1) = true ∧
    (match findList bad 0 with | some l => (match macRows .plain (mac 0) 0 l [0] bad with | .error (.behind w (.fault code sub a)) => code == 0x60 && sub == 5 && a == 0 && goes (.bmac (mac 0)) bad (parkBank (bad.keepWalks w) 0 0x60 5) | _ => false) | none => false) = true := by decide +kernel
/-- 2 · 3 in lane 0. -/
theorem test_MultiplyCommands_lane : macLane .plain (mac 0) [2] [3] 127 0 = 0x40C00000 := by decide +kernel
theorem test_BankTransfers :
    let s := bk fun b => { b with acc := lanes [(0, 0x3F800000)] }
    (s.bank 0).cstride = 0 ∧ ((findList s 0).map fun l => l.targets.find? fun t => t.2 == 0) = some (some (0, 0)) ∧
    after (.bsend false 0 0 0x4FFC 0 false) s (fun u => ofLeBytes ((u.core 0).spadRead 0x4FFC 4) == 0x3F800000) = true ∧ goes (.bsend false 0 5 0 0 false) s (parkBank s 0 0x60 7) = true ∧
    goes (.bstore false 0 2) s (parkBank s 0 0x60 4) = true ∧ goes (.bred 0) s (arriveBred (parkBank s 0 0x60 4) 0) = true ∧
    after .bend s (fun u => (u.bank 0).list == none && (u.bank 0).acc.cells.isEmpty && (u.core 0).lists.map (·.left) == [0]) = true := by decide +kernel
/-- Engines 0 and 1 run one list and meet in BRED 1. -/
theorem test_BankTransfers_bred :
    let s := ((bk fun b => { b with acc := lanes [(0, 0x3F800000)] }).modCore 0 fun k => { k with lists := k.lists.map fun l => { l with mask := 3, left := 3 } }).modBank 1 fun b => { b with list := some (0, 0), acc := lanes [(0, 0x40000000)] }
    partnerHere s 0 1 0 = false ∧ after (.bred 1) s (fun u => (u.bank 0).wait == .bred && (u.bank 0).offer == (u.bank 0).acc) = true ∧
    (match exec (.bred 1) s with
     | .next t => partnerHere { t with eng := 1 } 0 0 0 && after (.bred 1) { t with eng := 1 } (fun u => (u.bank 0).lane 0 == 0x40400000 && (u.bank 1).lane 0 == 0x40400000 && (u.bank 0).idx == 1 && (u.bank 1).idx == 1)
     | _ => false) = true := by decide +kernel
def queued (hdr : Nat) : State :=
  let s := b0.modBank 0 fun _ => { Bank.idle with queue := [(0, 0)] }
  s.modCore 0 fun k => { k with lists := k.lists.map fun l => { l with started := false, image := leBytes 32 hdr ++ leBytes 8 0xFC00000000000000 } }
theorem test_BankLists :
    let s := b0.modCore 0 fun k => { k with lists := k.lists.map fun l => { l with left := 0, j := 15 } }
    ((queued 1).bank 0).list = none ∧ ((queued 1).bank 0).queue = [(0, 0)] ∧ (findList (queued 1) 0).map (fun l => l.image.length) = some 40 ∧
    after (.bankListStart 0) (queued 1) (fun t => (t.bank 0).list == some (0, 0) && (t.bank 0).queue.isEmpty) = true ∧ after (.bankListStart 0) (queued 2) (fun t => (t.bank 0).wait == .parked) = true ∧
    goes (.bankWaitRelease 0) b0 b0 = true ∧ listCore s 0 = some 0 ∧ (findList s 0).map (fun l => (l.left, l.counted)) = some (0, false) ∧ after (.bankListComplete 0 0) s (fun t => (t.core 0).join 15 == 1 && (t.core 0).lists.isEmpty) = true ∧ goes (.bankListComplete 0 0) b0 b0 = true := by decide +kernel
/-- The wait for a folio of core 0, a member of gathering 0. -/
theorem test_BankLists_folio :
    let s := fun (p : Presence) => (bk fun b => { b with wait := .folio 0 70 }).modCore 0 fun k => { k with folios := k.folios.set 70 { pres := p, dirty := false } }
    let c := b0.modCore 0 fun k => { k with lists := k.lists.map fun l => { l with left := 0 } }
    ((s .inFlight).bank 0).list = some (0, 0) ∧ (findList (s .inFlight) 0).map (·.gath) = some 0 ∧ ((s .inFlight).core 0).runs 0 = true ∧ bankMayGo (s .inFlight) 0 = false ∧ goes (.bankWaitRelease 0) (s .inFlight) (s .inFlight) = true ∧
    bankMayGo (s .present) 0 = true ∧ bankMayGo (s .absent) 0 = true ∧ after (.bankWaitRelease 0) (s .present) (fun t => (t.bank 0).wait == .none) = true ∧ listCore c 0 = some 0 ∧ goes (.bankListComplete 1 0) c c = true := by decide +kernel
theorem test_ListReleases :
    let o : Op := { newOp s0.here 0x3C0 0 0 6 with cfg := Tab.empty.put 0 0x131 (1 <<< 63) }
    let full := { s0 with status := 1 <<< 63 }
    o.port' 0x131 ≠ 0 ∧ full.status.getLsbD 63 = true ∧ ((release full 0 o).bank 63).queue = [(0, 0)] ∧ ((release full 0 o).bank 62).queue = [] ∧ s0.status.getLsbD 63 = false ∧
    ((release s0 0 o).bank 63).queue = [] ∧ ((release s0 0 o).core 0).join 0 = 1 ∧ (((release s0 0 o).core 0).slot 1).map (fun r => (r.code, r.sub, r.cls)) = some (0x60, 9, 2) ∧ (newOp s0.here 0x3C0 0 0 6).port' 0x131 = 0 ∧
    ((release full 0 (newOp s0.here 0x3C0 0 0 6)).core 0).join 0 = 1 ∧ ((release full 0 (newOp s0.here 0x3C0 0 0 6)).core 0).slot 1 = none ∧
    (((release s0 0 (newOp s0.here 0x3C0 0 0 6)).core 0).slot 1).map (fun r => (r.code, r.sub)) = some (0x60, 9) := by decide +kernel

/-! ### Translation -/

/-- Core 0 frozen at the page of VA 0x30010, whose leaf has these bits. -/
def frozenAt (why : Freeze) (bits : Nat) : State := (tables (leaf5 + bits) (s3 1)).modCore 0 fun k => { k with freeze := why, waitVa := some 0x30010, waitAt := 6 }
theorem test_WalkChecks :
    canonical (2 ^ 56) = false ∧ canonical (2 ^ 56 - 1) = true ∧ isErr ((walk walkDue hubAgent 7 (2 ^ 56) true).map fun _ => ()) (.fault 0x10 1) = true ∧
    isErr ((walk walkDue hubAgent 8 0x30010 true).map fun _ => ()) (.fault 0x10 9) = true ∧
    (walkDue.read64 { host := false, addr := 0x200008 }).getLsbD 0 = false ∧ isErr ((walk walkDue hubAgent 7 (2 ^ 39) true).map fun _ => ()) (.fault 0x10 2) = true ∧
    okOf (walkTables walkDue 0x30010 4 0x200000) (fun x => x.1 == 0x402018 && (leafCheck hubAgent x.2).isNone && (leafAts walkDue hubAgent 7 0x30010 true x.2).isNone) = true ∧
    okOf (walk walkDue hubAgent 7 0x30010 true) (fun x => x.1.read64 { host := false, addr := 0x402018 } == BitVec.ofNat 64 (leaf5 + 0x60)) = true ∧
    (match walk (tables (leaf5 + 0x10) s0) hubAgent 7 0x30010 true with | .error (.cow t) => t.read64 { host := false, addr := 0x402018 } == BitVec.ofNat 64 (leaf5 + 0x70) | _ => false) = true := by decide +kernel
def go (e : Nat) : Word := BitVec.ofNat 64 (2 ^ 31 + e)
theorem test_ShootdownRequests :
    let busy := { s0 with blocks := s0.blocks.put .zero 0 { ControlBlock.zero with busy := true } }
    (go 7).getLsbD 31 = true ∧ (go 7).getLsbD 21 = false ∧ canonical 0x10000 = true ∧ after (.shootdownGo false 0 0x10000 (go 7)) busy (fun t => (t.blocks.get .zero 0).err == 1) = true ∧
    after (.shootdownGo false 0x10000 0x10000 (go 7)) s0 (fun t => (t.blocks.get .zero 0).err == 2) = true ∧ after (.shootdownGo true 1 0x10000 (go 7)) s0 (fun t => (t.blocks.get .zero 1).err == 3) = true ∧
    after (.shootdownGo true 0 0x10000 (go 7)) s0 (fun t => (t.blocks.get .zero 1).busy && t.shoots.map (fun r => (r.pasid, r.lo, r.hi, r.all)) == [(7, 0, 0x10000, false)]) = true ∧
    after (.shootdownGo true 1 0 (go 0x200007)) s0 (fun t => t.shoots.map (·.all) == [true]) = true ∧ after (.atsInvalidation 7 0x12345 0x20001) s0 (fun t => t.shoots.map (fun r => (r.lo, r.hi)) == [(0x10000, 0x30000)]) = true := by decide +kernel
/-- Without go; and bounds that are not canonical. -/
theorem test_ShootdownRequests_bounds :
    let err := fun (lo hi : Nat) => after (.shootdownGo false (BitVec.ofNat 64 lo) (BitVec.ofNat 64 hi) (go 7)) s0 (fun t => (t.blocks.get .zero 0).err == 3 && (t.blocks.get .zero 0).done && t.shoots.isEmpty)
    canonical (2 ^ 56) = false ∧ canonical (2 ^ 56 + 0x10000) = false ∧ err (2 ^ 56) (2 ^ 56 + 0x10000) = true ∧ err 0 (2 ^ 56) = true ∧ err 0 1 = true ∧
    after (.shootdownGo false 5 6 7) s0 (fun t => (t.blocks.get .zero 0).lo == 5 && (t.blocks.get .zero 0).hi == 6 && (t.blocks.get .zero 0).ctl == 7 && t.shoots.isEmpty) = true := by decide +kernel
def shot (acked : List Nat) : State :=
  let s := (handled 0 { handle0 with vpn := 3 })
  { s with shoots := [{ pasid := 7, all := false, lo := 0x30000, hi := 0x40000, refresh := false, block := some 0, ats := none, tear := false, acked := acked }], caches := [{ agent := 0, pasid := 7, base := 0x30000, leaf := BitVec.ofNat 64 leaf5 }] }
theorem test_ShootdownServes :
    (shot []).cores.rising = true ∧ ((shot []).core 0).arch.handles.rising = true ∧ ((shot []).core 0).snap.handles.rising = true ∧
    after (.shootdownAgentAck 0) (shot []) (fun t => t.caches.isEmpty && !(t.here.arch.handle 31).valid && t.shoots.map (·.acked) == [[0]]) = true ∧ goes (.shootdownAgentAck 0) (shot [0]) (shot [0]) = true ∧
    after (.shootdownAgentAck 4) (shot [0, 1, 2, 3]) (fun t => t.shoots.isEmpty && (t.blocks.get .zero 0).done) = true ∧
    goes (.shootdownAgentAck 0) s0 s0 = true ∧ goes (.shootdownAgentAck 5) (shot []) (shot []) = true ∧ (∀ c ∈ (shot []).cores.cells, inFlight { pasid := 7, all := false, lo := 0x30000, hi := 0x40000, refresh := false, block := some 0, ats := none, tear := false, acked := [] } c.2 = []) := by decide +kernel
theorem test_PageWaits :
    let m := frozenAt .stale 8
    let n := frozenAt .stale 0
    let w := frozenAt .cow 0x10
    let p := { w with pools := Tab.empty.put [] 29 [9, 10] }
    (m.core 0).run = .running ∧ isMigrating m 7 0x30010 = true ∧ goes (.migratingRewalk (.core 0)) m m = true ∧ goes (.migratingTimeout (.core 0)) m (faulted (dropFaulted m 0 7 0x30010) 0x10 10 6 0x30010) = true ∧
    isMigrating n 7 0x30010 = false ∧ goes (.migratingTimeout (.core 0)) n n = true ∧ after (.migratingRewalk (.core 0)) n (fun t => t.here.freeze == .none) = true ∧
    ((leafOf w 7 0x30010).map fun x => (x.1, leafCow x.2, leafMigrating x.2, leafSize x.2)) = some (0x402018, true, false, 1) ∧ goes (.cowDuplicate (.core 0)) w (faulted (dropFaulted w 0 7 0x30010) 0x10 11 6 0x30010) = true := by decide +kernel
theorem test_PageWaits_copy :
    let w := { tables (leaf5 + 0x10) (s3 1) with pools := Tab.empty.put [] 29 [9, 10] }
    w.pools.get [] (7 * 4 + 1) = [9, 10] ∧ 0x402018 % 8 = 0 ∧ physMapped 0x402018 = true ∧ leafFrame (moveLeaf (BitVec.ofNat 64 (leaf5 + 0x10)) 9) = 9 ∧ leafCow (moveLeaf (BitVec.ofNat 64 (leaf5 + 0x10)) 9) = false := by decide +kernel

/-! ### Contexts -/

theorem test_KernelEntry : (entryCore Core.idle { newGath s0 7 0 1 0 0 0 [] { packet := none, job := none, block := 0 } with id := 5 } 17 3 .empty .empty .empty 1).member.gath = 5 := by decide +kernel
/-- Cores 0 and 1 of gathering 1; core 0 has arrived, and core 1 where `b` says so. -/
def barrier (b : Bool) : State :=
  (withK fun k => { k with arrived := some 1 }).modCore 1 fun k => { k with run := .running, member := { k.member with gath := 1, rank := 1 }, arrived := if b then some 1 else none }
theorem test_BarriersAndWatchdog :
    let w := fun (h : Bool) => withK fun k => { k with wdog := some 5, debugHalt := h }
    ((barrier true).core 0).arrived = some 1 ∧ barrierMembers (barrier true) 0 1 = [0, 1] ∧ goes (.phaseBarrierComplete 0) (barrier false) (barrier false) = true ∧
    after (.phaseBarrierComplete 0) (barrier true) (fun t => (t.core 0).phaseDone && (t.core 1).phaseDone && (t.core 1).arrived == none) = true ∧ ((w false).core 0).wdog.isSome = true ∧
    goes (.watchdogExpiry 0) (w true) (w true) = true ∧ after (.watchdogExpiry 0) (w false) (fun t => (t.core 0).run == .faulted && (t.core 0).wdog == none && ((t.core 0).slot 0).map (fun r => (r.code, r.sub)) == some (0x52, 1)) = true := by decide +kernel
theorem test_DebuggerActs :
    let d := withK fun k => { k with debugger := true }
    let h := withK fun k => { k with debugHalt := true }
    (d.core 0).debugger = true ∧ (h.core 0).debugHalt = true ∧ (s0.core 0).debugger = false ∧ (s0.core 0).run = .running ∧ (s0.core 0).powerGated = false ∧ (s0.core 0).stopping = false ∧
    after (.debugHalt 0) d (fun t => (t.core 0).debugHalt && !mayIssue (t.core 0)) = true ∧ after (.singleStep 0) h (fun t => mayIssue (t.core 0)) = true := by decide +kernel
def inFlight (f : Nat) (e : MapEntry) : State :=
  withK fun k => { k with folios := k.folios.set f { pres := .inFlight, dirty := false }, ep := k.ep.setEntry f e, freeze := .folio, waitVa := some f }
def entry1 (d : BitVec 32) : MapEntry := { addr := 0x10000001000, digest := d, kind := 1, node := 0, core := 0 }
theorem test_FoliosPull :
    let z := inFlight 34 { MapEntry.zero with kind := 5 }
    let r := inFlight 62 { MapEntry.zero with kind := 7 }
    let f := inFlight 62 { MapEntry.zero with kind := 2 }
    (z.core 0).run ≠ .off ∧ ((z.core 0).folio 34).pres = .inFlight ∧ heldFolio (z.core 0) 34 = none ∧ ((z.core 0).ep.entry 34).kind = 5 ∧
    after (.folioPullComplete 0 34) (z.modArch 0 fun a => a.setV 3 9) (fun t => (t.core 0).folio 34 == { pres := .present, dirty := false } && (t.core 0).arch.v.get 0 3 == 0) = true ∧
    6 < ((r.core 0).ep.entry 62).kind ∧ goes (.folioPullComplete 0 62) r (pullFail r 0 62 2) = true ∧ goes (.pullTimeout 0 62) f (pullFail f 0 62 1) = true ∧ goes (.pullTimeout 0 62) r r = true ∧
    (f.core 0).freeze = .folio ∧ (f.core 0).waitVa = some 62 ∧ ((pullFail f 0 62 1).core 0).run = .faulted ∧ locMapped 1 0x10000001000 4096 = true := by decide +kernel
/-- A location whose bytes have the digest of its entry, and one whose bytes have not. -/
theorem test_FoliosPull_digest :
    (let s := inFlight 62 (entry1 (digest32 (s0.readAt { host := false, addr := 0x10000001000 } 4096)))
     ((s.core 0).folio 62).pres = .inFlight ∧ digest32 (s.readAt { host := false, addr := 0x10000001000 } 4096) = ((s.core 0).ep.entry 62).digest) ∧
    (let s := inFlight 62 (entry1 (digest32 (s0.readAt { host := false, addr := 0x10000001000 } 4096) + 1))
     digest32 (s.readAt { host := false, addr := 0x10000001000 } 4096) ≠ ((s.core 0).ep.entry 62).digest) := by
  have e : ∀ d, ((inFlight 62 (entry1 d)).core 0).ep.entry 62 = entry1 d ∧ (inFlight 62 (entry1 d)).readAt { host := false, addr := 0x10000001000 } 4096 = s0.readAt { host := false, addr := 0x10000001000 } 4096 ∧
      (((inFlight 62 (entry1 d)).core 0).folio 62).pres = .inFlight := fun d => by
    refine ⟨?_, rfl, by rw [inFlight, withK, State.modCore, State.core_setCore_same]; exact congrArg FolioState.pres (Tab.get_set_same (s0.core 0).folios _ _ _)⟩
    rw [inFlight, withK, State.modCore, State.core_setCore_same]; exact Tab.get_put_same ..
  refine ⟨⟨(e _).2.2, by rw [(e _).1, (e _).2.1]; rfl⟩, ?_⟩
  show digest32 _ ≠ _
  rw [(e _).1, (e _).2.1]
  show _ ≠ digest32 _ + 1
  simp
def saved1 : Saved :=
  { gath := 1, rank := 0, member := { Member.zero with gath := 1, size := 1, pasid := 7 }, coreid := 0, arch := { Arch.entry with pc := 9 }, phaseDone := false, shape := 0, joins := .empty, ceStat := 0, wdog := none,
    ops := [], lists := [], folio0 := .empty, veDone := 0, veMetric := 0, faulted := false, halted := false, exit := 0, ep := { Endpaper.zero with ibase := 0x10000, ikind := 1, map := Tab.empty.put .zero 62 (entry1 0) }, pulls := [70] }
def gath1 (st : GathState) : Gath := { newGath s0 7 0 1 0 0 0 [] { packet := some 3, job := none, block := 0 } with id := 1, state := st }
/-- A pull that its member left IN_FLIGHT ends as a clean copy for it. -/
theorem test_FoliosPull_left :
    let s := { State.reset with saved := [{ saved1 with pulls := [62], ep := saved1.ep.setEntry 62 { MapEntry.zero with kind := 5 } }] }
    (s.core 0).run = .off ∧ heldFolio (s.core 0) 62 = none ∧ (leftPull s 0 62).isSome = true ∧
    after (.folioPullComplete 0 62) s (fun t => (heldFolio (t.core 0) 62).map (fun x => (x.gath, x.rank, x.dirty)) == some (1, 0, false) && t.saved.map (·.pulls) == [[]]) = true := by decide +kernel
def heldState (pushing dirty : Bool) : State :=
  { State.reset.modCore 0 fun k => { k with held := [{ gath := 1, rank := 0, folio := 62, data := .scratch .empty, dirty := dirty, stamp := 0, pushing := pushing }] } with saved := [saved1], gaths := [gath1 .saved], status := 0xF00000000000000 }
theorem test_FoliosPush :
    (heldFolio ((heldState true true).core 0) 62).isSome = true ∧ (savedMember (heldState true true) 1 0) = some saved1 ∧ noTiles (.scratch .empty) = false ∧ (pushLoc saved1.ep 62).kind = 1 ∧
    locMapped 1 (pushLoc saved1.ep 62).addr 4096 = true ∧ (folioBytes 0 62 (.scratch .empty)).length = 4096 ∧
    after (.backgroundPush 0 62) (heldState false true) (fun t => (heldFolio (t.core 0) 62).map (·.pushing) == some true) = true ∧ goes (.backgroundPush 0 62) (heldState false false) (heldState false false) = true ∧
    goes (.folioPushComplete 0 62 0) (heldState false true) (heldState false true) = true := by decide +kernel
/-- The push of one member's copy leaves the other's, and the folio OWED. -/
theorem test_FoliosPush_other :
    let s := (heldState true true).modCore 0 fun k => { k with run := .running, folios := k.folios.set 62 { pres := .owed, dirty := false }, held := k.held ++ k.held.map fun x => { x with gath := 2, pushing := false } }
    after (.folioPushComplete 0 62 0) s (fun t => (t.core 0).held.map (·.gath) == [2] && ((t.core 0).folio 62).pres == .owed) = true := by decide +kernel
/-- Running at bundle 12, marked at bundle 9. -/
def running1 : State := { (withK fun k => { k with arch := { k.arch with pc := 12, count := 30 }, snap := { k.snap with pc := 9, count := 20 } }) with gaths := [gath1 .running], status := 0xF00000000000000 }
theorem test_PreemptionSaves :
    running1.gath? 1 = some (gath1 .running) ∧ running1.membersOf 1 = [0] ∧ (running1.core 0).run = .running ∧ (running1.core 0).ops.isEmpty = true ∧
    (let u := haltMember (finishUnits (drainMember (stopMember running1 0) 0) 0) 0
     let v := savedOf 0 (u.core 0) (owedMap u 0 (holdFolios u.fresh (u.core 0)) (dropMap (u.core 0) (saveEndpaper 0 (u.core 0))))
     noTiles (folioData (u.core 0) 62) = false ∧ (match writeEager u v with | .ok w => w.saved == running1.saved && w.core 0 == u.core 0 && w.gaths == u.gaths | .error _ => false) = true) ∧
    after (.preemptRequest 1) running1 (fun t => (t.core 0).run == .off && t.saved.map (fun v => (v.gath, v.arch.pc, v.arch.count)) == [(1, 9, 20)] && (t.gath? 1).map (·.state) == some .saved && (heldFolio (t.core 0) 62).isSome) = true := by decide +kernel
/-- A dirty tile folio with no tile defined is dropped at the save, and entered as undefined (R276). -/
theorem test_PreemptionSaves_tiles :
    let s := running1.modCore 0 fun k => { k with folios := k.folios.set 36 { pres := .present, dirty := true } }
    after (.preemptRequest 1) s (fun t => (heldFolio (t.core 0) 36).isNone && t.saved.map (fun v => (v.ep.entry 36).kind) == [6]) = true := by decide +kernel
theorem test_RestoreResumes :
    let s := heldState false true
    s.gath? 1 = some (gath1 .saved) ∧ s.saved.filter (fun x => x.gath == 1) = [saved1] ∧ saved1.rank = 0 ∧ freeCore s 0 = true ∧
    after (.contextRestore 1 [0]) s (fun t => (t.core 0).run == .running && (t.core 0).arch.pc == 9 && (t.core 0).folio 62 == { pres := .present, dirty := true } && ((t.core 0).folio 63).pres == .absent && ((t.core 0).folio 70).pres == .inFlight && (t.core 0).ep.coreid == 0 && t.saved.isEmpty) = true := by decide +kernel
def pkt (type : Nat) (w : List Nat) : QPacket := { id := 3, slot := 5, pasid := 7, words := (BitVec.ofNat 64 (7 * 65536 + 256 + type)) :: w.map (BitVec.ofNat 64), started := false }
theorem test_GatheringEnds :
    let s := { running1 with packets := [pkt 1 [0, 1]] }
    let h := s.modCore 0 fun k => { k with run := .halted, exit := 4 }
    let l := { (s.modCore 0 fun k => { k with run := .loaded }) with gaths := [{ gath1 .loaded with span := true, tick := 256 }], time := 256 }
    s.gath? 1 = some (gath1 .running) ∧ (gath1 .running).owner.packet = some 3 ∧ (gath1 .running).colophon = 0 ∧ (gath1 .running).span = false ∧ s.saved = [] ∧ s.packet? 3 = some (pkt 1 [0, 1]) ∧ (pkt 1 [0, 1]).sig = false ∧
    after (.killGathering 1) s (fun t => t.gaths.isEmpty && t.packets.isEmpty && (t.core 0).run == .off) = true ∧ goes (.instanceComplete 1) s s = true ∧ after (.instanceComplete 1) h (fun t => t.gaths.isEmpty && t.packets.isEmpty) = true ∧
    reached l.time 256 = true ∧ after (.tickLaunchTimeout 1) l (fun t => t.gaths.isEmpty) = true ∧ goes (.tickLaunchTimeout 1) { l with time := 255 } { l with time := 255 } = true ∧ goes (.tickLaunchTimeout 1) s s = true ∧
    killVerdict s 1 = { status := 7, code := 0, sub := 0, bundle := 0, idx := 0 } ∧ (killVerdict (takeFault s 0 (CFault.mk' 0x17 1 0 0) 2 0) 1).code = 0x17 := by decide +kernel
theorem test_ProcessEnds :
    let s := { running1 with packets := [pkt 1 [0, 1]], pasids := Tab.empty.set 7 { root := some 0x200000, table := 0, tearing := false } }
    (gath1 .running).pasid = 7 ∧ (s.core 0).runs 1 = true ∧ after (.pasidTeardown 7) s (fun t => t.gaths.isEmpty && t.packets.isEmpty && (t.pasids.get .none 7).root == none && (t.core 0).run == .off && t.shoots.map (fun r => (r.all, r.tear)) == [(true, true)] && (t.pasids.get .none 7).tearing) = true := by decide +kernel
/-- A spanning gathering whose other module has not arrived; and a member that halted with an entry nobody reads. -/
theorem test_GatheringEnds_span :
    let f : Op := { newOp s0.here 0x3B5 0 15 6 with id := 4, st := .follow }
    let h := (running1.modCore 0 fun k => { k with run := .halted, ops := [f] })
    let g : Gath := { gath1 .running with span := true, modules := [0, 1] }
    let s := { h with gaths := [g], packets := [pkt 1 [0, 1]] }
    isFifoOp f.port = true ∧ f.st = .follow ∧ (h.core 0).lists.isEmpty = true ∧ after (.instanceComplete 1) { h with packets := [pkt 1 [0, 1]] } (fun t => t.gaths.isEmpty) = true ∧
    s.gath? 1 = some g ∧ s.membersOf 1 = [0] ∧
    (let d := (s.membersOf 1).foldl (fun s c => performAll (settleAtomics s c) c) s
     (fabricPhase d 1).2 = false ∧ goes (.instanceComplete 1) s (fabricPhase d 1).1 = true) := by decide +kernel

/-! ### The command processor -/

/-- The module in service; the page of VA 0x30000 is used and dirty, and holds 64-bit words at these offsets. -/
def mod0 (l : List (Nat × Nat)) : State :=
  l.foldl (fun s x => s.write64 { host := false, addr := 0x50000 + x.1 } (BitVec.ofNat 64 x.2)) (tables (leaf5 + 0x60) { State.reset with status := 0xF00000000000000, fresh := 50 })
def memWord (s : State) (o : Nat) : Nat := (s.read64 { host := false, addr := 0x50000 + o }).toNat
/-- The queue 1 of PASID 7 in its home slot: four slots of 64 bytes at VA 0x30000. -/
def q1 (rd wr : Nat) : Qcb := { Qcb.free with state := 1, pasid := 7, queue := 1, m := 2, ring := 0x30000, rd := rd, wr := wr }
def slot1 : Nat := qcbHome 7 1
def queueState (q : Qcb) (cached : Bool) (l : List (Nat × Nat)) : State :=
  { mod0 l with qcbs := Tab.empty.put .free slot1 q, apertures := Tab.empty.put none 3 (some 7), caches := if cached then [{ agent := 4, pasid := 7, base := 0x30000, leaf := BitVec.ofNat 64 (leaf5 + 0x60) }] else [] }
theorem test_QueuesRun_notify :
    let s := queueState (q1 0 0) false []
    s.apertures.get none 3 = some 7 ∧ qcbFind s 7 1 = some slot1 ∧ (s.qcb slot1).state = 1 ∧ s.apertures.get none 4 = none ∧
    after (.notifyWrite 3 1 4) s (fun t => (t.qcb slot1).wr == 4 && (t.qcb slot1).rej == 0) = true ∧ after (.notifyWrite 3 1 5) s (fun t => (t.qcb slot1).wr == 0 && (t.qcb slot1).rej == 1) = true ∧
    after (.notifyWrite 4 1 4) s (fun t => t.counters.get 0 cntNotify == 1) = true := by decide +kernel
theorem test_QueuesRun_fetch :
    let e := queueState (q1 1 1) true []
    let u := queueState (q1 1 2) false []
    let c := fun (l : List (Nat × Nat)) => queueState (q1 1 2) true l
    let w := c [(64, 6 + 256 + 7 * 65536)]
    goes (.packetFetch slot1) e e = true ∧ slotCached u (u.qcb slot1) = false ∧ after (.packetFetch slot1) u (fun t => (t.qcb slot1).outst == 1) = true ∧
    slotCached w (w.qcb slot1) = true ∧ okOf (hubRead w 7 0x30040 64) (fun x => slotWords x.2 == (BitVec.ofNat 64 (6 + 256 + 7 * 65536)) :: List.replicate 7 0) = true ∧
    badPacket { id := 50, slot := slot1, pasid := 7, words := BitVec.ofNat 64 (6 + 256 + 7 * 65536) :: List.replicate 7 0, started := false } = false ∧
    after (.packetFetch slot1) (c []) (fun t => (t.qcb slot1).stopped) = true ∧
    after (.packetFetch slot1) w (fun t => t.packets.map (fun p => (p.id, p.type)) == [(50, 6)] && (t.qcb slot1).rd == 2 && memWord t 64 == 6 + 7 * 65536) = true := by decide +kernel
theorem test_QueuesRun_age :
    let p := fun (q : Qcb) => { queueState q false [] with packets := [{ id := 3, slot := slot1, pasid := 7, words := [], started := false }] }
    let n := fun (q : Qcb) => queueState q false []
    (headPacket (p (q1 0 0)) slot1).isSome = true ∧ headPacket (n (q1 0 0)) slot1 = none ∧ after (.queueAging slot1) (p { q1 0 0 with cur := 7 }) (fun t => (t.qcb slot1).cur == 7) = true ∧
    after (.queueAging slot1) (p { q1 0 0 with cur := 6 }) (fun t => (t.qcb slot1).cur == 7) = true ∧ goes (.queueAging slot1) (n (q1 0 0)) (n (q1 0 0)) = true ∧
    goes (.fetcherTranslationReturn slot1) (n (q1 0 0)) (n (q1 0 0)) = true ∧ after (.fetcherTranslationReturn slot1) (n { q1 0 0 with state := 2, outst := 1 }) (fun t => (t.qcb slot1).state == 0) = true ∧
    okOf (hubLeaf (n (q1 0 0)) 7 (slotVa (q1 0 0)) true) (fun _ => true) = true ∧ after (.fetcherTranslationReturn slot1) (n { q1 0 0 with outst := 1 }) (fun t => (t.qcb slot1).outst == 0) = true := by decide +kernel
/-- An instance of a job that the window's energy defers. -/
theorem test_QueuesRun_deferred :
    let g : Gath := { gath1 .waiting with estimate := 9, owner := { packet := none, job := some 9, block := 0 } }
    let s : State := { queueState { q1 0 0 with cur := 2 } false [] with
      gaths := [g], budget := { State.reset.budget with left := 5, empty := false }, jobs := [{ id := 9, pasid := 7, ctx := 7, jcb := 0, image := 0, n := 1, args := [], estimate := 9, packet := some 3, graph := none, entries := 0, blocks := [], redo := [], flags := 0, exits := [] }],
      packets := [{ id := 3, slot := slot1, pasid := 7, words := [], started := true }] }
    gathSlot s g = slot1 ∧ energyOk s slot1 9 = false ∧ g.owner.job.isSome = true ∧ after (.queueAging slot1) s (fun t => (t.qcb slot1).cur == 3) = true := by decide +kernel
/-- A kernel of one bundle of filler, and no data, at VA 0x31000; its estimate is 5. -/
def kernel1 : List (Nat × Nat) := (0x1000, 1 + 5 * 2 ^ 32) :: (List.range 8).map fun i => (0x1040 + 8 * i, fillBundle.toNat / 2 ^ (64 * i) % 2 ^ 64)
def holds (p : QPacket) (l : List (Nat × Nat)) : State := { mod0 l with packets := [p] }
theorem test_LaunchChecks :
    let p := fun n => pkt 1 [0x31000, n]
    let s := fun n => holds (p n) kernel1
    let b := holds (p 384) [(0x1000, 1), (0x1040, 2 ^ 64 - 1)]
    (s 385).packet? 3 = some (p 385) ∧ (p 384).type = 1 ∧ isHead (s 384) (p 384) = true ∧ ((p 384).word 0x10).getLsbD 31 = false ∧ inService (s 384) = 384 ∧
    after (.launchPacket 3) (s 385) (fun t => t.packets.isEmpty && t.gaths.isEmpty) = true ∧
    okOf (loadKernel b 7 0x31000) (fun x => isErr (x.2.map fun _ => ()) { status := 1, code := cIllegalBundle, sub := ((checkBundle (BitVec.ofNat 512 (2 ^ 64 - 1))).map (·.1)).getD 99, bundle := 0, idx := 0 }) = true ∧
    after (.launchPacket 3) b (fun t => t.packets.isEmpty && t.cores == b.cores) = true ∧
    okOf (loadKernel (s 384) 7 0x31000) (fun x => okOf x.2 fun k => k.energy == 5 && k.bundles == [fillBundle]) = true ∧ okOf (readArgs (s 384) 7 (p 384).word) (fun x => x.2.isEmpty) = true ∧
    after (.launchPacket 3) (s 384) (fun t => t.gaths.map (fun g => (g.n, g.estimate, g.state, g.image)) == [(384, 5, .waiting, 0x31000)] && t.packets.length == 1) = true := by decide +kernel
def waiting1 : Gath := { gath1 .waiting with image := 0x31000, estimate := 5 }
theorem test_PlacementAndRelease_place :
    let s := { holds (pkt 1 [0x31000, 1]) kernel1 with gaths := [waiting1] }
    s.gath? 1 = some waiting1 ∧ waiting1.state = .waiting ∧ waiting1.span = false ∧ mayPlace s waiting1 [0] = true ∧ okOf (loadKernel s 7 0x31000) (fun x => okOf x.2 fun _ => true) = true ∧
    (s.core 0).held = [] ∧ mayPlace s waiting1 [0, 1] = false := by decide +kernel
theorem test_PlacementAndRelease_release :
    let s := fun (g : Gath) => { (mod0 []).modCore 0 fun k => { k with run := .loaded, member := { k.member with gath := 1 } } with gaths := [g] }
    let a := s { gath1 .loaded with tick := 512 }
    let b := s { gath1 .loaded with tick := 512, span := true, count := 2, modules := [0, 1] }
    a.gath? 1 = some { gath1 .loaded with tick := 512 } ∧ holdsReady b { gath1 .loaded with tick := 512, span := true, count := 2, modules := [0, 1] } = false ∧ goes (.gatheringRelease 1) b b = true ∧ reached a.time 512 = false ∧ holdsReady { b with readies := [(1, 1)] } { gath1 .loaded with tick := 512, span := true, count := 2, modules := [0, 1] } = true ∧
    after (.gatheringRelease 1) { b with readies := [(1, 1)] } (fun t => (t.core 0).run == .running && t.time == 512) = true ∧
    after (.gatheringRelease 1) a (fun t => (t.core 0).run == .running && t.time == 512 && (t.gath? 1).map (·.state) == some .running) = true := by decide +kernel
theorem test_PlainPacketsComplete :
    let d := (0, 0x1234)
    let copy := holds (pkt 4 [0x30000, 0x30100, 16]) [d]
    let sig := holds (pkt 5 [0x30000, 5]) [(0, 2 ^ 64 - 2)]
    let wait := fun v => holds (pkt 6 [0x30000, v]) [d]
    let cap := holds (pkt 7 [77]) []
    let bar := holds (pkt 9 []) []
    let late := { bar with packets := [{ pkt 6 [] with id := 2, started := true }, pkt 9 []] }
    mayLaunch copy (pkt 4 [0x30000, 0x30100, 16]) = true ∧ (pkt 4 []).sig = false ∧ after (.copyPacket 3) copy (fun t => memWord t 0x100 == 0x1234 && t.packets.isEmpty) = true ∧
    mayLaunch sig (pkt 5 [0x30000, 5]) = true ∧ after (.signalPacket 3) sig (fun t => memWord t 0 == 3 && t.packets.isEmpty) = true ∧
    mayLaunch (wait 0x1234) (pkt 6 [0x30000, 0x1234]) = true ∧ after (.waitPacket 3) (wait 0x1234) (·.packets.isEmpty) = true ∧ after (.waitPacket 3) (wait 0x1233) (fun t => t.packets.map (·.started) == [true]) = true ∧
    mayLaunch cap (pkt 7 [77]) = true ∧ after (.energyPacket 3) cap (fun t => (t.qcb 5).ecap == 77 && t.packets.isEmpty) = true ∧
    isOldest bar (pkt 9 []) = true ∧ after (.barrierPacket 3) bar (·.packets.isEmpty) = true ∧
    isOldest late (pkt 9 []) = false ∧ mayLaunch late (pkt 9 []) = true ∧ after (.barrierPacket 3) late (fun t => t.packets.map (·.started) == [true, true]) = true := by decide +kernel
theorem test_PlainPacketsComplete_later :
    let b := { pkt 9 [] with started := true }
    let w := { pkt 6 [0x30000, 0] with started := true }
    let p : QPacket := { id := 3, slot := 5, pasid := 7, words := [BitVec.ofNat 64 (6 + 256 + 512), 0, 0, 0, 0, 0, 0, 0x30008], started := false }
    let c := fun (p : QPacket) => { p with words := p.words.take 1 ++ List.replicate 6 0 ++ [0x30008] }
    isOldest (holds b []) b = true ∧ after (.barrierPacket 3) (holds b []) (·.packets.isEmpty) = true ∧ after (.waitPacket 3) (holds w []) (·.packets.isEmpty) = true ∧ (c p).pasid = 7 := by decide +kernel
/-- A word in module 1's window, and that module's answer to the addition. -/
theorem test_PlainPacketsComplete_away :
    let p := pkt 5 [0x30000, 5]
    let q := hubRequest false 4 0 8 (leBytes 8 5)
    let s : State := { tables (0xFFF0000000000000 + 2 ^ 39 + 0x4161) { State.reset with status := 0x8F00000000000000 } with
      packets := [p], domain := [0, 1], hubRuns := [{ pasid := 7, run := { dest := q.dest, nth := 0, fseq := 0, len := 8, write := false, data := q.data, answer := some [] }, nak := none }] }
    mayLaunch s p = true ∧ okOf (hubPlace (launchPacket s p) hubAgent 7 0x30000 true) (fun x => x.2 == .there q.dest && okOf (hubTake (hubSend x.1 7 q) 7 q) fun y => y.2.isEmpty) = true ∧
    after (.signalPacket 3) s (fun t => t.packets.isEmpty && t.hubRuns.isEmpty) = true := by decide +kernel
/-- A JCB at VA 0x30200: expected, completed, cursor; block table of 4 entries at VA 0x30300. -/
def jcb1 (expected completed cursor : Nat) : List (Nat × Nat) := [(0x200, expected), (0x208, completed), (0x210, cursor), (0x218, 0x30300), (0x220, 4)]
def job1 (blocks : List Block) : Job :=
  { id := 9, pasid := 7, ctx := 7, jcb := 0x30200, image := 0x31000, n := 1, args := [], estimate := 5, packet := some 3, graph := none, entries := blocks.length, blocks := blocks, redo := [], flags := 0, exits := [] }
def block1 (ended : Nat) : Block := { entry := 0, die := 1, first := 0, n := 64, started := 64, ended := ended }
theorem test_JobsRun_start :
    let p := fun n => pkt 2 [0x31000, n, 0x30200]
    let s := fun n => holds (p n) (kernel1 ++ jcb1 100 0 0)
    (p 1).type = 2 ∧ mayLaunch (s 385) (p 385) = true ∧ after (.jobPacket 3) (s 385) (fun t => t.jobs.isEmpty && t.packets.isEmpty) = true ∧
    after (.jobPacket 3) (s 384) (fun t => t.jobs.map (fun j => (j.id, j.n, j.estimate, j.jcb)) == [(51, 384, 5, 0x30200)] && t.packets.map (·.started) == [true]) = true := by decide +kernel
theorem test_JobsRun_blocks :
    let s := fun (l : List (Nat × Nat)) (b : List Block) => { mod0 (kernel1 ++ l) with jobs := [job1 b], packets := [{ pkt 2 [] with started := true }] }
    let h := s (jcb1 100 0 64) [block1 0]
    h.job? 9 = some (job1 [block1 0]) ∧ h.status.getLsbD 57 = true ∧ dieFits h 1 1 = true ∧ okOf (readJcb h (job1 [block1 0])) (fun x => x.2.cursor == 64 && x.2.expected == 100 && x.2.bcap == 4) = true ∧
    after (.blockHandout 9 1) h (fun t => memWord t 0x308 == 2 ^ 56 + 35 * 2 ^ 48 + 64 && memWord t 0x210 == 100 && t.gaths.map (fun g => (g.n, g.jobidx)) == [(1, 64)] && (t.job? 9).map (·.entries) == some 2) = true ∧
    goes (.blockReport 9 0) (s (jcb1 100 0 64) [block1 63]) (s (jcb1 100 0 64) [block1 63]) = true ∧
    after (.blockReport 9 0) (s (jcb1 100 0 64) [block1 64]) (fun t => memWord t 0x208 == 64 && (t.job? 9).map (·.blocks.length) == some 0 && memWord t 0x300 == 2 ^ 63 + 2 ^ 56 + 63 * 2 ^ 48) = true ∧
    after (.blockReport 9 0) (s (jcb1 100 36 100) [block1 64]) (fun t => memWord t 0x208 == 100 && t.jobs.isEmpty && t.packets.isEmpty) = true ∧
    after (.dieFence 1) h (fun t => t.deadDies == [1] && t.jobs.map (fun j => (j.redo, j.entries, j.blocks.length)) == [([(0, 64)], 1, 0)]) = true ∧ h.gaths = [] ∧ h.deadDies = [] := by decide +kernel
/-- A graph of branches 1 and 2, branch 1 at the node at VA 0x30400. -/
def graph1 (both : Bool) : Graph := { id := 9, pasid := 7, packet := 3, colophon := 0, branches := if both then [(1, 0x30400), (2, 0x30600)] else [(1, 0x30400)], done := 0, flags := 0, exits := [] }
def nodeState (both : Bool) (l : List (Nat × Nat)) : State := { mod0 l with graphs := [graph1 both], packets := [{ pkt 3 [] with started := true }] }
def at1 (t : State) : List (Nat × Nat) := ((t.graph? 9).map (·.branches)).getD []
theorem test_GraphsRun :
    let p := pkt 3 [0x30400, 0]
    let n := fun (w0 count x : Nat) => nodeState true [(0x400, w0), (0x408, 0x30440), (0x410, 0x30480), (0x418, 0x30500), (0x420, count), (0x500, x)]
    p.type = 3 ∧ mayLaunch (holds p []) p = true ∧ after (.graphPacket 3) (holds p []) (fun t => t.graphs.map (fun g => (g.id, g.branches)) == [(51, [(52, 0x30400)])]) = true ∧
    (n 2 0 1).graph? 9 = some (graph1 true) ∧ okOf (hubRead (n 2 0 1) 7 0x30400 64) (fun x => !badNode x.2 && leField x.2 0 1 == 2) = true ∧
    after (.condNode 9 1) (n 2 0 1) (fun t => at1 t == [(2, 0x30600), (1, 0x30440)]) = true ∧ after (.condNode 9 1) (n 2 0 0) (fun t => at1 t == [(2, 0x30600), (1, 0x30480)]) = true ∧
    after (.whileNode 9 1) (n (3 + 3 * 2 ^ 32) (2 * 2 ^ 32) 0) (fun t => at1 t == [(2, 0x30600), (1, 0x30480)] && memWord t 0x420 == 0) = true ∧
    after (.whileNode 9 1) (n (3 + 3 * 2 ^ 32) (2 * 2 ^ 32) 1) (fun t => at1 t == [(2, 0x30600), (1, 0x30440)] && memWord t 0x420 == 3 * 2 ^ 32) = true ∧
    after (.whileNode 9 1) (n (3 + 3 * 2 ^ 32) (3 * 2 ^ 32) 1) (fun t => t.graphs.isEmpty && t.packets.isEmpty) = true ∧
    after (.joinNode 9 1) (n (4 + 2 * 65536) 1 0) (fun t => at1 t == [(2, 0x30600), (1, 0x30440)] && memWord t 0x420 == 0) = true ∧
    after (.joinNode 9 1) (n (4 + 2 * 65536) 0 0) (fun t => at1 t == [(2, 0x30600)] && memWord t 0x420 == 1) = true ∧ after (.endNode 9 1) (n 5 0 0) (fun t => at1 t == [(2, 0x30600)]) = true ∧
    after (.endNode 9 1) (nodeState false [(0x400, 5)]) (fun t => t.graphs.isEmpty && t.packets.isEmpty) = true := by decide +kernel
theorem test_GraphsRun_kernel :
    let s := nodeState true (kernel1 ++ jcb1 0 5 5 ++ [(0x400, 1), (0x408, 0x30440), (0x418, 0x30500), (0x500, 2 + 256 + 7 * 65536), (0x508, 0x31000), (0x510, 1 + 100 * 2 ^ 32), (0x518, 0x30200), (0x300, 77)])
    okOf (hubRead s 7 0x30400 64) (fun x => !badNode x.2 && leField x.2 0 1 == 1) = true ∧ okOf (hubRead s 7 0x30500 64) (fun x => !badPacket { id := 0, slot := 0, pasid := 7, words := slotWords x.2, started := false }) = true ∧
    okOf (prepareJcb s 7 0x30200 100) (fun _ => true) = true ∧
    after (.kernelNode 9 1) s (fun t => memWord t 0x200 == 100 && memWord t 0x208 == 0 && memWord t 0x300 == 0 && t.jobs.map (fun j => (j.graph, j.n)) == [(some (9, 1), 1)]) = true := by decide +kernel
theorem test_EnergyBudget :
    let b := { s0 with budget := { s0.budget with nextAllowance := 100, debt := 30, empty := false, pacing := true }, qcbs := Tab.empty.put .free 4 { q1 0 0 with used := 9 } }
    after .energyWindowEnd b (fun t => t.budget == { s0.budget with allowance := 100, nextAllowance := 100, left := 70, debt := 0, window := s0.budget.window + 1, empty := true, pacing := false } && (t.qcb 4).used == 0) = true ∧
    after (.energyPacing true) s0 (fun t => (t.core 0).paced && after .bundleIssue t (fun u => (u.core 0).freeze == .pacing && (u.core 0).arch == (s0.core 0).arch)) = true ∧
    after (.energyAllowanceWrite 2800001) s0 (fun t => t.budget.nextAllowance == 2800000) = true ∧ after (.energyAllowanceWrite 2799999) s0 (fun t => t.budget.nextAllowance == 2799999) = true := by decide +kernel

/-! ### The fabric -/

/-- A packet of PASID 7 for node 0, from node 9, with number 0. -/
def packet1 (op : BitVec 4) : Packet := { Packet.zero with op := op, src := 9, pasid := 7, va := 0x10 }
/-- PASID 7's window starts at VA 0x30000. -/
def home (l : List (Nat × Nat)) : State := { mod0 l with windows := Tab.empty.put none 7 (some 0x30000) }
def sent (t : State) : List (Nat × Nat) := t.tx.map fun p => (p.op.toNat, p.dst.toNat)
def stopCode {α : Type} (x : HRes α) : Option (Nat × Nat) := match x with | .error (.fault c n _) => some (c, n) | _ => none
def waits {α : Type} (x : HRes α) : Bool := match x with | .error (.wait _) => true | _ => false
theorem test_RequestsServed :
    let w := { packet1 1 with len1 := 1, data := [3, 4] }
    let r := { packet1 2 with len1 := 1 }
    let a := { packet1 4 with operand := 5 }
    let s := home [(0x10, 7)]
    let dup := { home [] with flows := Tab.empty.put .zero (pKey w) { Flow.zero with base := 1 } }
    let away := (home []).write64 { host := false, addr := 0x402018 } (BitVec.ofNat 64 (leaf5 + 0x68))
    w.dst.toNat / 4 = s.module ∧ keptAnswer s w = none ∧ (s.flow (pKey w)).window 0 = .fresh ∧ (s.flow (pKey w)).base < 2 ^ 32 ∧ (s.flow (pKey w)).unacked.length < 64 ∧ s.windows.get none 7 = some 0x30000 ∧
    okOf (agentPlaces (fabricAgent 0 54) 7 true false (ranges 0x30010 2) s) (fun _ => true) = true ∧ okOf (agentPlaces (fabricAgent 0 55) 7 false false (ranges 0x30010 2) s) (fun _ => true) = true ∧
    after (.fabricWrite w) s (fun t => memWord t 0x10 == 0x403 && sent t == [(6, 9)]) = true ∧ after (.fabricRead r) s (fun t => sent t == [(6, 9), (3, 9)] && t.tx.map (·.data) == [[], [7, 0]]) = true ∧
    okOf (agentLeaf s (fabricAgent 0 53) 7 0x30010 true) (fun _ => true) = true ∧ after (.atomic a) s (fun t => memWord t 0x10 == 12 && sent t == [(6, 9), (5, 9)] && t.tx.map (·.operand) == [0, 7]) = true ∧
    after (.atomic { a with aop := 10 }) s (fun t => memWord t 0x10 == 7 && sent t == [(6, 9), (5, 9)]) = true ∧
    stopCode (serve (mod0 []) w false false) = some (0x10, 7) ∧ after (.fabricWrite w) (mod0 []) (fun t => sent t == [(8, 9)] && t.mem == (mod0 []).mem && t.tx.map (·.operand) == [BitVec.ofNat 64 (0x10 * 2 ^ 56 + 7 * 2 ^ 40)]) = true ∧
    waits (serve away w false false) = true ∧ after (.fabricWrite w) away (fun t => t.tx == [] && t.mem == away.mem && t.flows == away.flows) = true ∧
    (dup.flow (pKey w)).window 0 = .duplicate ∧ after (.fabricWrite w) dup (fun t => sent t == [(6, 9)] && t.mem == dup.mem) = true := by decide +kernel
/-- TID 1 of PASID 7: 16 INT8 elements at VA 0x30200, map version 5. -/
def tidWords : List (Nat × Nat) := [(0x80, 1 + 2 ^ 53), (0x88, 16), (0x98, 1), (0xB8, 0x30200), (0xD8, 5)]
def run1 (va mapver : Nat) : Packet := { packet1 2 with tid := 1, va := BitVec.ofNat 57 va, mapver := BitVec.ofNat 32 mapver }
theorem test_ShardRunsDecided :
    let s := mod0 (tidWords ++ [(0x208, 77)])
    let geom : RunGeom := { id := 1, first := [8, 0, 0, 0], tbase := 0x30200, tst := [1, 0, 0, 0] }
    let hp := { run1 0x30208 6 with run := some geom }
    let h := { s with runs := [{ p := hp, own := none }] }
    let k := { s with runs := [{ p := run1 0x31208 6, own := none }] }
    let entry := fun (q : Asked) => okOf (targetEntry s (q.node % 4) q.pasid q.tid q.mapver false) fun x => (tidFault x.2 []).isNone && x.2.nshard == 0 && x.2.mapver == 5
    entry (askedOf (run1 0x30208 5)) = true ∧ (run1 0 5).dst.toNat / 4 = s.module ∧ keptAnswer s (run1 0x30208 5) = none ∧ (s.flow (pKey (run1 0x30208 5))).window 0 = .fresh ∧
    okOf (decide' s (run1 0x30208 5) false) (fun x => x.2 == .serve false && okOf (serve (dropRun x.1 (run1 0x30208 5)) (run1 0x30208 5) true false) fun _ => true) = true ∧
    okOf (decide' s (run1 0x31208 6) false) (fun x => x.2 == .hold) = true ∧ okOf (decide' s (run1 0x31208 5) false) (fun x => x.2 == .moved 5) = true ∧
    after (.runReceive (run1 0x30208 5)) s (fun t => sent t == [(6, 9), (3, 9)] && t.tx.map (·.data) == [[], [77]]) = true ∧ after (.runReceive (run1 0x31208 6)) s (fun t => t.runs.length == 1 && t.tx.isEmpty) = true ∧
    after (.runReceive (run1 0x31208 5)) s (fun t => sent t == [(7, 9)] && t.tx.map (·.mapver) == [5]) = true ∧
    okOf (decide' h hp true) (fun x => x.2 == .serve false) = true ∧ after (.shardHoldReread 0) h (fun t => t.runs.isEmpty && sent t == [(6, 9), (3, 9)]) = true ∧
    okOf (decide' k (run1 0x31208 6) true) (fun x => x.2 == .hold && x.1.runs.any fun y => y.p == run1 0x31208 6) = true ∧ after (.shardHoldReread 0) k (fun t => t.runs.length == 1 && t.tx.isEmpty) = true ∧
    after (.shardHoldTimeout 0) k (fun t => t.runs.isEmpty && sent t == [(7, 9)] && t.tx.map (·.mapver) == [5]) = true := by decide +kernel
/-- The run begins at coordinate 64 of a box of two of node 1 at 0x9000: rows 64 to 95 after v6 (R66's example). -/
theorem test_ShardRunsDecided_owner :
    let g : RunGeom := { id := 1, first := [64, 0, 0, 0], tbase := 0x9000, tst := [32, 1, 0, 0] }
    let q : Asked := { node := 4, pasid := 7, tid := 1, mapver := 5, va := 0x9800, geom := some g }
    let e := { tidOfBytes (List.replicate 128 0) with word := 2 * 2 ^ 53, dims := [128, 32, 0, 0], nshard := 2, base := 0x9000, strides := [32, 1, 0, 0] }
    let box := fun node lo hi => { shardOfBytes (List.replicate 128 0) with node := node, lo := [lo, 0, 0, 0], hi := [hi, 32, 0, 0], tbase := 0x9000, tst := [32, 1, 0, 0] }
    boxOf e [box 8 0 64, box 4 64 128] g.first = some 1 ∧ ownsRun q e [box 8 0 64, box 4 64 128] = true ∧ ownsRun q e [box 4 0 64, box 8 64 128] = false ∧
    boxOf e [box 4 0 8, box 4 8 64] g.first = none ∧ ownsRun q e [box 4 0 8, box 4 8 64] = false ∧ ownsRun q { e with nshard := 0 } [] = true := by decide +kernel
/-- The copy asked node 9 under number 4. -/
def dest1 (retried : Bool) : Dest := { node := 9, va := 0x10, tid := 0, mapver := 5, geom := none, retried := retried }
def asked (retried : Bool) : Op := { ceOp with runs := [{ dest := dest1 retried, nth := 0, fseq := 4, len := 2, write := false, data := [], answer := none }] }
def lost1 : Lost := { dest := dest1 false, version := 6, coords := [], boxes := [] }
/-- One element of the run was resolved. -/
def lost2 : Lost := { lost1 with coords := [[0]] }
def reply (op : BitVec 4) : Packet := { packet1 op with cmp := 4 }
theorem test_AnswersTaken :
    let s := withOp (asked false)
    requester s (reply 3) = some (.op 0 4) ∧ ceOp.isParked = false ∧ ceOp.err = none ∧ s.op 0 4 = some (asked false) ∧ (s.flow (pKey (reply 3))).window 0 = .fresh ∧
    after (.rdata { reply 3 with data := [1, 2] }) s (fun t => ((t.op 0 4).map fun o => o.runs.map (·.answer)) == some [some [1, 2]] && sent t == [(6, 9)]) = true ∧
    after (.aresp { reply 5 with operand := 9 }) s (fun t => ((t.op 0 4).map fun o => o.runs.map (·.answer)) == some [some [9, 0, 0, 0, 0, 0, 0, 0]]) = true ∧
    after (.moved { reply 7 with mapver := 6 }) s (fun t => t.op 0 4 == some { ceOp with moved := [lost1] }) = true ∧
    after (.nak { reply 8 with operand := BitVec.ofNat 64 (0x10 * 2 ^ 56 + 7 * 2 ^ 40) }) s (fun t => (t.op 0 4).map (fun o => (o.st, o.runs)) == some (.parked 1, []) && ((t.core 0).slot 1).map (fun r => (r.code, r.sub)) == some (0x10, 7)) = true := by decide +kernel
theorem test_AnswersTaken_moved :
    let s := fun b => withOp (asked b)
    let m := tables (leaf5 + 0x60) (withOp { ceOp with moved := [lost2] })
    let n := withOp ceOp
    let caught := m.writeAt { host := false, addr := 0x50058 } [6]
    after (.shardMovedReceive 0 4 6) (s false) (fun t => t.op 0 4 == some { ceOp with moved := [lost1] }) = true ∧
    after (.shardMovedReceive 0 4 6) (s true) (fun t => (t.op 0 4).map (·.st) == some (.parked 1) && ((t.core 0).slot 1).map (fun r => (r.code, r.sub)) == some (0x15, 2)) = true ∧
    goes (.shardRequesterReread 0 4) n n = true ∧ goes (.shardRequesterTimeout 0 4) n n = true ∧ stillOld m 0 4 { ceOp with moved := [lost2] } lost2 = true ∧ engineFree (m.core 0) { ceOp with moved := [lost2] } = true ∧
    after (.shardRequesterTimeout 0 4) m (fun t => ((t.core 0).slot 1).map (fun r => (r.code, r.sub)) == some (0x15, 3)) = true ∧
    stillOld caught 0 4 { ceOp with moved := [lost2] } lost2 = false ∧ goes (.shardRequesterTimeout 0 4) caught caught = true ∧ mayRun (m.core 0) { ceOp with moved := [lost2] } = true ∧
    okOf (opUnit m 0 4 { ceOp with moved := [lost2] }) (fun _ => true) = true ∧ after (.shardRequesterReread 0 4) m (fun t => (t.op 0 4).map (fun o => (o.prog, o.moved)) == some (1, [])) = true := by decide +kernel
/-- A WRITE of the copy to node 9, sent `n` times. -/
def flying (n : Nat) : State :=
  let q := { packet1 1 with dst := 9, fseq := 3 }
  { withOp { asked false with runs := (asked false).runs.map fun r => { r with fseq := 3 } } with flows := Tab.empty.put .zero 9 { Flow.zero with unacked := [(q, n, 0, 4)] } }
theorem test_FlowsRun :
    let b := { packet1 9 with operand := 1, cmp := 2 }
    let g := { s0 with gaths := [gath1 .running] }
    (packet1 6).dst.toNat / 4 = (flying 1).module ∧ pKey (packet1 6) = 9 ∧ ((flying 1).flow 9).unacked.filter (fun u => covers { packet1 6 with fseq := 4 } u.1.fseq.toNat) = ((flying 1).flow 9).unacked ∧
    after (.sack { packet1 6 with fseq := 4 }) (flying 1) (fun t => (t.flow 9).unacked.isEmpty && ((t.op 0 4).map fun o => o.runs.map (·.answer)) == some [some []]) = true ∧
    goes (.sprayRetransmitTimer 9 4) (flying 1) (flying 1) = true ∧ after (.sprayRetransmitTimer 9 3) (flying 4) (fun t => (t.flow 9).unacked.map (fun u => u.2.1) == [5] && sent t == [(1, 9)]) = true ∧
    after (.sprayRetransmitTimer 9 3) (flying 5) (fun t => (t.flow 9).unacked.isEmpty && t.tx.isEmpty && ((t.core 0).slot 1).map (fun r => (r.code, r.sub)) == some (0x40, 1)) = true ∧
    g.gath? 1 = some (gath1 .running) ∧ keptAnswer g b = none ∧ after (.fabricBarrier b) g (fun t => (t.gath? 1).map (·.fabric) == some [(2, 2)] && sent t == [(6, 9)]) = true ∧
    after (.ready { packet1 10 with operand := 1 }) g (fun t => t.readies == [(1, 2)]) = true := by decide +kernel
set_option maxRecDepth 100000 in
theorem test_FlitsCarryPackets : packetOfHeader (headerBody { packet1 15 with circ := 255, dst := 0x7FFF, len1 := 4095, sw := 0x7FFFF, operand := 0xFFFFFFFFFFFFFFFF }) = { packet1 15 with circ := 255, dst := 0x7FFF, len1 := 4095, sw := 0x7FFFF, operand := 0xFFFFFFFFFFFFFFFF } ∧ crcOk (mkFlit 15 4095 5) = true := by decide +kernel
/-- In slot `slot` the hub's table has input 1 for output 2 in every slot, and output 3 FREE. -/
def linked (slot : Nat) (l : Link) : State := { s0.setLink 3 l with time := slot, slotTabs := Tab.empty.put [] 0 (List.replicate 256 (BitVec.ofNat 128 (2 ^ 115 - 1 - 30 * 2 ^ 10))) }
def fl (x : BitVec 512) : InFlit := { stream := 2, bits := x, run := none, gath := 0 }
def head1 (op : BitVec 4) : BitVec 512 := mkFlit 1 5 (headerBody (packet1 op))
def vacant (s : State) : Bool := !(s.link 3).retraining && (s.link 3).damaged.isEmpty && (s.link 3).queue.isEmpty && s.landing.isEmpty && ((s.link 3).lane 2).items.isEmpty && ((s.link 3).lane 2).part.isNone
set_option maxRecDepth 100000 in
theorem test_LinksRun :
    let s := linked 0 { Link.zero with rxSeq := 4095 }
    vacant s = true ∧ crcOk (mkFlit 7 5 0) = true ∧ after (.flitReceive 3 (fl (mkFlit 7 5 0))) s (fun t => t.counters.get 0 19 == 1) = true ∧ routerOutputs s 0 0 3 = [] ∧
    after (.flitReceive 3 (fl (mkFlit 3 4095 0))) s (fun t => (t.link 3).rxSeq == 0) = true ∧ hasPayload 1 = true ∧ packetOfHeader (flitBody (head1 1)) = packet1 1 ∧
    after (.flitReceive 3 (fl (head1 1))) s (fun t => (t.link 3).rxSeq == 6 && (((t.link 3).lane 2).part.map (·.head)) == some (packet1 1)) = true ∧
    hasPayload 10 = false ∧ after (.flitReceive 3 (fl (head1 10))) s (fun t => t.readies == [(0, 2)]) = true ∧
    routes s 0 8 0 1 = [.link 2] ∧ (s.link 1).transit = [] ∧ (s.modLink 2 fun l => { l with slotAt := some 0 }).time = 0 ∧ after (.flitReceive 1 (fl (head1 10))) s (fun t => t.readies.isEmpty && (t.link 2).out == [numberFlit (head1 10) 0] && (t.link 1).rxSeq == 6) = true ∧
    after (.flitRetentionExpiry 3 5) s (fun t => (t.link 3).kept.isEmpty) = true := by decide +kernel
set_option maxRecDepth 100000 in
/-- The slot of output 2 is taken: the flit leaves in a later one. Of two kept flits of one number the newest is sent again, and the oldest's retention ends. -/
theorem test_LinksRun_transit :
    let b := (linked 0 { Link.zero with rxSeq := 4095 }).modLink 2 fun l => { l with slotAt := some 0 }
    let k := linked 0 { Link.zero with kept := [(5, mkFlit 3 5 1), (5, mkFlit 3 5 2)], txSeq := 6 }
    slotOpen b 2 = false ∧ routes b 0 8 0 1 = [.link 2] ∧ after (.flitReceive 1 (fl (head1 10))) b (fun t => (t.link 2).out.isEmpty && (t.link 1).transit == [(0, 2, head1 10)]) = true ∧
    after (.lreq 3 5 3) k (fun t => (t.link 3).out == [mkFlit 3 5 2]) = true ∧ after (.flitRetentionExpiry 3 5) k (fun t => (t.link 3).kept == [(5, mkFlit 3 5 2)]) = true := by decide +kernel
set_option maxRecDepth 100000 in
/-- A damaged flit is asked for in a FREE or a guard slot, and once per slot. -/
theorem test_LinksRun_damaged :
    let bad := mkFlit 3 5 0 ^^^ 1
    let s := fun slot => linked slot { Link.zero with rxSeq := 4095 }
    let b := (s 0).modLink 3 fun l => { l with slotAt := some 0 }
    crcOk bad = false ∧ slotOpen (s 0) 3 = true ∧ freeSlot (s 0) 3 = true ∧ freeSlot (s 31) 3 = false ∧ vacant b = true ∧ slotOpen b 3 = false ∧
    after (.flitReceive 3 (fl bad)) (s 0) (fun t => (t.link 3).out == [numberFlit (controlFlit 5 4095 1 0) 0] && (t.link 3).rxSeq == 0 && (t.link 3).damaged.map (fun d => (d.lseq, d.flit.stream, d.waitNo)) == [(4095, 2, 1)]) = true ∧
    after (.flitReceive 3 (fl bad)) (s 31) (fun t => (t.link 3).queue.isEmpty && (t.link 3).out.length == 1) = true ∧
    after (.flitReceive 3 (fl bad)) b (fun t => (t.link 3).queue == [(false, controlFlit 5 4095 1 0)] && (t.link 3).out.isEmpty) = true ∧
    after (.linkRetrain 3) (s 0) (fun t => (t.link 3).retraining && goes (.flitReceive 3 (fl bad)) t t && after (.linkRetrainDone 3) t (fun u => !(u.link 3).retraining)) = true := by decide +kernel
def parity1 : Nat := ofLeBytes (rsParity (leBytes 64 (mkFlit 3 5 0).toNat))
set_option maxRecDepth 100000 in
/-- The sender's answers: parity halves, the flit, which waits for a FREE slot, and LOST. -/
theorem test_LinksRun_request :
    let s := fun slot => linked slot { Link.zero with kept := [(5, mkFlit 3 5 0)], txSeq := 6 }
    vacant (s 0) = true ∧ (s 0).landing = [] ∧ after (.lreq 3 6 1) (s 0) (fun t => (t.link 3).out == [numberFlit (controlFlit 6 6 0 0) 6]) = true ∧ after (.lreq 3 5 3) (s 0) (fun t => (t.link 3).out == [mkFlit 3 5 0]) = true ∧
    after (.lreq 3 5 3) (s 31) (fun t => (t.link 3).queue == [(true, mkFlit 3 5 0)]) = true ∧
    after (.lreq 3 5 1) (s 0) (fun t => (t.link 3).out == [numberFlit (controlFlit 4 5 0 (BitVec.ofNat 128 parity1)) 6]) = true ∧ after (.lreq 3 5 2) (s 31) (fun t => (t.link 3).out.map flitType == [4]) = true := by decide +kernel
def damaged1 (n : Nat) (lo : Option (BitVec 128)) : Damaged := { lseq := 5, flit := fl (mkFlit 3 5 0 ^^^ 1), slot := 0, waitNo := n, parity := lo, resends := 0 }
def repair1 (n : Nat) (lo : Option (BitVec 128)) : State := linked 0 { Link.zero with damaged := [damaged1 n lo], lanes := Tab.empty.put .empty 2 { items := [.waits 5], part := none, passing := 0 }, rxSeq := 6 }
set_option maxRecDepth 100000 in
/-- The first supplement corrects one wrong bit; a wrong second one does not. -/
theorem test_LinksRun_repair :
    ((repair1 1 none).link 3).lane 2 = { items := [.waits 5], part := none, passing := 0 } ∧
    after (.supp 3 5 0 (BitVec.ofNat 128 parity1)) (repair1 1 none) (fun t => (t.link 3).damaged.isEmpty && (t.link 3).out.isEmpty && ((t.link 3).lane 2).items.isEmpty) = true ∧
    after (.supp 3 5 1 1) (repair1 2 (some 1)) (fun t => (t.link 3).damaged.map (·.waitNo) == [3] && (t.link 3).out == [numberFlit (controlFlit 5 5 3 0) 0]) = true ∧
    after (.lost 3 5) (repair1 1 none) (fun t => (t.link 3).damaged.isEmpty && ((t.link 3).lane 2) == .empty) = true ∧ goes (.lost 3 6) (repair1 1 none) (repair1 1 none) = true := by decide +kernel
set_option maxRecDepth 100000 in
/-- Quire 0 of die 0 has the die's hub port in slot 0, and die 0 has link 3. -/
theorem test_LinksRun_circuit :
    let hub := [BitVec.ofNat 128 (2 ^ 115 - 1 - 31 * 2 ^ 15 + 18 * 2 ^ 15)]
    let die := [BitVec.ofNat 128 (2 ^ 60 - 1 - 31 * 2 ^ 40)]
    let c := fun (slots : BitVec 256) => { (withOp { ceOp with port := 0x3A4, b := BitVec.ofNat 64 (2 * 2 ^ 56) }).setLink 3 .zero with circuits := Tab.empty.put .none 2 { slots := slots, target := 9, valid := true }, slotTabs := (Tab.empty.put [] 0 hub).put [] 1 die, time := 256 }
    let q := fun r => { c 1 with timetabled := [{ circ := 2, core := 0, op := 4, p := packet1 1, flits := head1 1 :: r }] }
    let b := (q []).modLink 3 fun l => { l with slotAt := some 256 }
    goes (.circuitSlotInject 2) (c 2) (c 2) = true ∧ injectLinks (c 1) 0 0 = [3] ∧ after (.circuitSlotInject 2) (c 1) (fun t => (t.link 3).out.map flitType == [3]) = true ∧
    slotOpen (q []) 3 = true ∧ slotOpen b 3 = false ∧ goes (.circuitSlotInject 2) b b = true ∧
    after (.circuitSlotInject 2) (q []) (fun t => t.timetabled.isEmpty && (t.link 3).out.map flitType == [1] && (t.link 3).txSeq == 1) = true ∧
    after (.circuitSlotInject 2) (q [5]) (fun t => t.timetabled.map (·.flits) == [[5]] && (t.link 3).out.map flitType == [1]) = true := by decide +kernel

/-! ### Firmware, checkpoints, power -/

/-- Firmware reads under PASID 7. -/
def firm (l : List (Nat × Nat)) : State := { mod0 l with savePasid := 7 }
def mailed (t : State) : Nat := (t.mailbox.get 0 8).toNat
theorem test_FirmwareBinds :
    let q := { firm [] with qcbs := Tab.empty.put .free slot1 { q1 0 0 with state := 2, outst := 1 } }
    let e := { firm [] with qcbs := Tab.empty.put .free slot1 (q1 0 0) }
    let busy := { firm [] with mailbox := Tab.empty.put 0 8 1 }
    let full := { firm [] with qcbs := (qcbSlots 7 1).foldl (fun t i => t.put .free i { q1 0 0 with queue := 5 }) .empty }
    ((firm []).mailbox.get 0 8).getLsbD 0 = false ∧ canonical 0x30000 = true ∧ after (.pasidBind 0xFFFFF 0x200000 0x30000) (firm []) (fun t => mailed t == 2 && (t.pasids.get .none 0xFFFFF).root == some 0x200000) = true ∧
    after (.pasidBind 0x100000 0x200000 0x30000) (firm []) (fun t => mailed t == 0x202) = true ∧ after (.pasidBind 7 0x200000 0x30000) q (fun t => mailed t == 1) = true ∧
    (busy.mailbox.get 0 8).getLsbD 0 = true ∧ after (.pasidBind 7 0x200000 0x30000) busy (fun t => mailed t == 0x101) = true ∧
    qcbFind (firm []) 7 1 = none ∧ (qcbSlots 7 1).find? (fun i => ((firm []).qcb i).state == 0) = some slot1 ∧
    after (.qcbCreate 7 1 20 0x30000 7 5) (firm []) (fun t => mailed t == 2 && ((t.qcb slot1).m, (t.qcb slot1).ecap) == (20, 5)) = true ∧ (qcbFind e 7 1).isSome = true ∧ after (.qcbCreate 7 1 4 0x30000 0 0) e (fun t => mailed t == 0x302) = true ∧
    (qcbSlots 7 1).all (fun i => (full.qcb i).state != 0) = true ∧ after (.qcbCreate 7 1 4 0x30000 0 0) full (fun t => mailed t == 0x302) = true ∧
    e.qcbs.rising = true ∧ after (.qcbDestroy 7 1) (firm []) (fun t => mailed t == 0x202) = true ∧ after (.qcbDestroy 7 1) e (fun t => mailed t == 2 && (t.qcb slot1).state == 0) = true ∧
    after (.qcbDestroy 7 1) { firm [] with qcbs := Tab.empty.put .free slot1 { q1 0 0 with outst := 1 } } (fun t => (t.qcb slot1).state == 2) = true := by decide +kernel
theorem test_FirmwareBinds_rest :
    after (.notifyBind 4095 7) (firm []) (fun t => mailed t == 2 && t.apertures.get none 4095 == some 7) = true ∧ after (.notifyBind 4096 7) (firm []) (fun t => mailed t == 0x202) = true ∧
    after (.sliceBind 63 7 9) (firm []) (fun t => mailed t == 2 && t.slices.get none 63 == some (7, 9)) = true ∧ after (.sliceBind 64 7 9) (firm []) (fun t => mailed t == 0x202) = true ∧
    canonical (2 ^ 37) = true ∧ after (.window 7 0x2000000000) (firm []) (fun t => mailed t == 2 && t.windows.get none 7 == some (2 ^ 37)) = true ∧ after (.window 7 1) (firm []) (fun t => mailed t == 0x202) = true ∧
    okOf (hubRead (setMail (firm []) (mailArgs 0x0A [0x30000]) 0) 7 0x30000 32) (fun _ => true) = true := by decide +kernel
theorem test_FirmwareBinds_members :
    let s := firm [(0, 5), (0x400, 1)]
    okOf (hubRead (setMail s (mailArgs 0x0B [0x30000, 0x30400]) 0) 7 0x30000 1024) (fun x => bitmapList x.2 == [0, 2] && okOf (hubRead x.1 7 0x30400 1024) fun y => bitmapList y.2 == [0]) = true ∧
    after (.fabricMembers 0x30000 0x30400) s (fun t => mailed t == 2 && t.members == [0, 2] && t.domain == [0]) = true ∧ after (.fabricMembers 0x30400 0x30000) s (fun t => mailed t == 0x202) = true := by decide +kernel
/-- A SHAKE256 output of 32 bytes has 32 bytes. -/
theorem test_shake_length (m : List Byte) : (shake256 m 32).length = 32 := by
  have round : ∀ a rc, (keccakRound a rc).length = 25 := fun a rc => by simp [keccakRound, chi]
  have f : ∀ n r (a : List Word), a.length = 25 → (keccakRounds n r a).length = 25 := by
    intro n; induction n with
    | zero => exact fun r a h => h
    | succ n ih => exact fun r a _ => ih _ _ (round a _)
  have blocks : ∀ n a m, a.length = 25 → (absorbBlocks n a m).length = 25 := by
    intro n; induction n with
    | zero => exact fun a m h => h
    | succ n ih => exact fun a m h => ih _ _ (f _ _ _ (by simp))
  have h := blocks (m.length / 136 + 1) (List.replicate 25 0) (m ++ shakePad m.length) (by simp)
  have bytes : ∀ n x, (leBytes n x).length = n := fun n => by induction n with
    | zero => exact fun _ => rfl
    | succ n ih => exact fun x => by simp [leBytes, ih]
  have eights : ∀ l : List Word, (l.map fun _ => 8).sum = 8 * l.length := fun l => by induction l with
    | nil => rfl
    | cons x r ih => simp [ih]; omega
  rw [shake256, List.length_take, List.length_flatMap]
  simp only [bytes, eights, List.length_take, h]
  rfl
/-- IDENTITY's write fits the page, whatever the signature. -/
theorem test_FirmwareBinds_identity :
    let s := { firm [] with caches := [{ agent := 4, pasid := 7, base := 0x30000, leaf := BitVec.ofNat 64 (leaf5 + 0x60) }] }
    ∀ nonce, ∃ u, hubWrite s 7 (0x30000 + 32) (withSignature (shake256 (Config.measurement s.policyLoaded ++ nonce) 32)) = .ok u := by
  intro s nonce
  have bytes : ∀ n x, (leBytes n x).length = n := fun n => by induction n with
    | zero => exact fun _ => rfl
    | succ n ih => exact fun x => by simp [leBytes, ih]
  have h : (withSignature (shake256 (Config.measurement s.policyLoaded ++ nonce) 32)).length = 3341 := by simp [withSignature, test_shake_length, bytes]
  rw [hubWrite, agentWrite, h]
  exact ⟨_, rfl⟩
def guards : List (Nat × Nat) := (List.range 8).flatMap fun k => [(16 * (31 + 32 * k), 2 ^ 64 - 1), (16 * (31 + 32 * k) + 8, 2 ^ 51 - 1)]
def map1 : List Word := 0x1FFC00 :: List.replicate 15 0
theorem test_TablesTakeEffect_maps :
    let s := firm [(0, 0x1FFC00)]
    let t := { firm [] with newRegions := Tab.empty.set 3 map1 }
    let b := { lateState (.load { host := false, addr := 64 } 2 0) with newRegions := Tab.empty.set 0 map1 }
    okOf (hubRead (setMail s (mailArgs 4 [7, 0x30000]) 0) 7 0x30000 128) (fun x => (List.range 16).map (fun i => BitVec.ofNat 64 (leField x.2 (8 * i) 8)) == map1) = true ∧ mapOk map1 = true ∧
    after (.hbmMap 7 0x30000) s (fun t => mailed t == 2 && t.newRegions.find? 7 == some map1) = true ∧ mapOk (List.replicate 16 0) = false ∧ after (.hbmMap 7 0x30000) (firm []) (fun t => mailed t == 0x302) = true ∧
    t.newRegions.find? 3 = some map1 ∧ stackBusy t 3 = false ∧ (List.range 16).all (fun k => !regionChanged (t.regions.get (regionReset (48 + k)) (48 + k)) (map1.getD k 0)) = true ∧
    after (.hbmMapEffect 3) t (fun u => u.newRegions.find? 3 == none && u.mem == t.mem) = true ∧ stackBusy b 0 = true ∧ goes (.hbmMapEffect 0) b b = true := by decide +kernel
/-- The table of guard slots with no connection, and of other slots with input 0 everywhere, is good. -/
theorem test_TablesTakeEffect_slots :
    let s := firm guards
    let d := s.readAt { host := false, addr := 0x50000 } 4096
    okOf (hubRead (setMail s (mailArgs 5 [0, 0x30000, 256]) 0) 7 0x30000 4096) (fun _ => true) = true ∧ s.circuits.cells = [] ∧
    (((List.range 256).zip ((List.range 256).map fun i => BitVec.ofNat 128 (leField d (16 * i) 16))).any fun x => entryBad (0 == 0) (x.1 % 32 == 31) x.2) = false := by
  refine ⟨by decide +kernel, by decide +kernel, ?_⟩
  have part : ∀ i < 256, leField ((firm guards).readAt { host := false, addr := 0x50000 } 4096) (16 * i) 16 = ofLeBytes ((List.range 16).map fun j => (firm guards).mem.read (0x50000 + (16 * i + j))) := by
    intro i hi
    rw [leField]
    congr 1
    apply List.ext_getElem
    · simp [State.readAt]; omega
    · intro j h1 h2
      simp only [List.length_map, List.length_range] at h2
      have : physMapped (327680 + (16 * i + j)) = true := by simp [physMapped, kindHolds]; omega
      simp [State.readAt, State.byteAt, Place.add, this]
  have low : (firm guards).mem.cells.all (fun c => decide (0x60000 ≤ c.1) || decide (496 ≤ (c.1 - 0x50000) % 512)) = true := by decide +kernel
  have scram : (firm guards).mem.scram = [] := by decide +kernel
  have absent : ∀ (l : List (Nat × Byte)) (x : Byte) (a : Nat), (∀ c ∈ l, c.1 ≠ a) → cellGet l x a = x := by
    intro l x a; induction l with
    | nil => exact fun _ => rfl
    | cons c r ih => exact fun h => by rw [cellGet, if_neg (h c (by simp)), ih fun d hd => h d (by simp [hd])]
  have zero : ∀ i < 256, i % 32 ≠ 31 → ∀ j < 16, (firm guards).mem.read (0x50000 + (16 * i + j)) = 0 := by
    intro i hi hn j hj
    refine (absent _ _ _ fun c hc he => ?_).trans (by simp [Memory.blank, Memory.stampAt, scram])
    have h := List.all_eq_true.mp low c hc
    simp only [he, Bool.or_eq_true, decide_eq_true_eq] at h
    omega
  have guard : ∀ k < 8, ofLeBytes ((List.range 16).map fun j => (firm guards).mem.read (0x50000 + (16 * (31 + 32 * k) + j))) = 2 ^ 115 - 1 := by decide +kernel
  rw [List.any_eq_false]
  intro x hx
  obtain ⟨i, hi, rfl⟩ := List.getElem_of_mem hx
  simp only [List.length_zip, List.length_range, List.length_map, Nat.min_self] at hi
  simp only [List.getElem_zip, List.getElem_range, List.getElem_map, part i hi]
  by_cases hg : i % 32 = 31
  · have h := guard (i / 32) (by omega)
    rw [show 31 + 32 * (i / 32) = i by omega] at h
    rw [h, hg]
    decide +kernel
  · have h : (List.range 16).map (fun j => (firm guards).mem.read (0x50000 + (16 * i + j))) = List.replicate 16 0 := by
      apply List.ext_getElem (by simp)
      intro j h1 h2
      simp only [List.length_replicate] at h2
      simp only [List.getElem_map, List.getElem_range, List.getElem_replicate, zero i hi hg j h2]
    rw [h, beq_false_of_ne hg]
    decide +kernel
theorem test_TablesTakeEffect_activate :
    let n := { firm [] with slotNext := Tab.empty.set 4 [5], slotTime := 512 }
    let q := { n with timetabled := [{ circ := 2, core := 0, op := 4, p := packet1 1, flits := [] }] }
    after (.slotTable 4 0x30000 256) (firm []) (fun t => mailed t == 0x302) = true ∧ q.timetabled ≠ [] ∧ goes .slotTableActivate q q = true ∧ circuitsBusy n = false ∧
    (let r := n.setLink 3 { Link.zero with lanes := Tab.empty.put .empty 2 { Lane.empty with passing := 1 } }; (r.link 3).lane 2 ≠ .empty ∧ goes .slotTableActivate r r = true) ∧
    n.slotNext.cells = [(4, [5])] ∧ after .slotTableActivate n (fun t => t.slotTabs.get [] 4 == [5] && t.time == 512) = true := by decide +kernel
theorem test_TablesTakeEffect_circuits :
    let good := [(0, 1), (32, 0x7FFF + 2 ^ 16)]
    let bad := [(0, 2 ^ 31), (32, 0x7FFF + 2 ^ 16)]
    okOf (hubRead (setMail (firm good) (mailArgs 6 [255, 0x30000]) 0) 7 0x30000 64) (fun x => leField x.2 32 2 == 0x7FFF && leField x.2 34 1 == 1 && leField x.2 35 29 == 0) = true ∧
    after (.circuit 255 0x30000) (firm good) (fun t => mailed t == 2 && t.circuits.get .none 255 == { slots := 1, target := 0x7FFF, valid := true }) = true ∧
    after (.circuit 1 0x30000) (firm bad) (fun t => mailed t == 0x302 && t.circuits.cells.isEmpty) = true := by decide +kernel
def checkpoint1 (stage : Nat) (pages : List (Nat × Nat)) (shards : List (Nat × Nat × Nat)) : Checkpoint :=
  { gen := 1, area := 0, pasid := 7, shards := shards, extra := 0, control := none, pages := pages, dsig := 0x30500, colophon := 0, stage := stage }
/-- A CHECKPOINT of generation 1 of the one page at VA 0x30000, with the flags given. -/
def snapshot1 (flags : Nat) : State := holds (pkt 8 [0x30400, 2 ^ 32 + flags, 1, 0x30500, 0]) [(0x400, 0x30000), (0x408, 0x10000)]
theorem test_CheckpointsRun_snapshot :
    let p := pkt 8 [0x30400, 2 ^ 32, 1, 0x30500, 0]
    let s := snapshot1 0
    let w := { s with checkpoint := some (checkpoint1 1 [] []) }
    let old := { s with manifests := Tab.empty.set 1 { Manifest.empty with gen := 1, state := 1 } }
    mayLaunch s p = true ∧ p.sig = false ∧ newGen s 1 = true ∧ okOf (hubRead s 7 0x30400 16) (fun x => planShards x.2 1 == [(0x30000, 0x10000)] && !planBad (planShards x.2 1) && okOf (allPages 7 (planShards x.2 1) x.1) fun l => l.2 == [(0x30000, 0x10000)]) = true ∧
    (leafOf s 7 0x30000).map (·.1) = some 0x402018 ∧ mayLaunch w p = true ∧ goes (.checkpointPacket 3) w w = true ∧ newGen old 1 = false ∧ after (.checkpointPacket 3) old (fun t => t.packets.isEmpty && t.checkpoint.isNone) = true ∧
    after (.checkpointPacket 3) s (fun t => t.packets.isEmpty && t.checkpoint == some (checkpoint1 0 [(0x30000, 0x10000)] [(0x30000, 0x10000, 0x80000000)]) && t.shoots.map (·.refresh) == [true] && (t.read64 { host := false, addr := 0x402018 }).getLsbD 4) = true := by decide +kernel
/-- A cut: what runs is pre-empted first, then a circuit drains. -/
theorem test_CheckpointsRun_cut :
    let p := pkt 8 [0x30400, 2 ^ 32 + 2, 1, 0x30500, 0]
    let s := snapshot1 2
    let g := { s with gaths := [gath1 .running] }
    let q := { s with timetabled := [{ circ := 2, core := 0, op := 4, p := packet1 1, flits := [] }] }
    (p.word 0x10).getLsbD 1 = true ∧ mayLaunch g p = true ∧ okOf (hubRead g 7 0x30400 16) (fun x => okOf (allPages 7 (planShards x.2 1) x.1) fun _ => true) = true ∧ mayLaunch q p = true ∧
    after (.checkpointPacket 3) g (fun t => t.checkpoint.isNone && t.gaths.map (·.state) == [.saved]) = true ∧ cutReady q = false ∧ goes (.checkpointPacket 3) q q = true ∧
    cutReady s = true ∧ after (.checkpointPacket 3) s (fun t => (t.checkpoint.map fun c => c.control.isSome && decide (0 < c.extra)) == some true) = true := by decide +kernel
theorem test_CheckpointsRun_copy :
    let s := fun (bits : Nat) => { (tables (leaf5 + bits) State.reset).write64 { host := false, addr := 0x50000 } 77 with checkpoint := some (checkpoint1 0 [(0x30000, 8)] [(0x30000, 8, 0x80000000)]) }
    let big := { s 0x10 with checkpoint := some (checkpoint1 0 [(0x30000, 8)] [(0x30000, 0x2A80010000, 0x80000000)]) }
    let moved := { s 0 with snapFrames := [(7 * 2 ^ 64 + 0x30000, BitVec.ofNat 64 (leaf5 + 0x10000))] }
    (leafOf (s 0x10) 7 0x30000).map (fun x => (x.1, leafMigrating x.2, leafCow x.2)) = some (0x402018, false, true) ∧ leafOf (holdPage (s 0x10) 7 0x30000) 7 0x30000 = some (0x402018, BitVec.ofNat 64 (leaf5 + 0x18)) ∧ physMapped 0x402018 = true ∧ 0x402018 < nvAddr ∧
    after .checkpointPageCopy (s 0x10) (fun t => t.read64 { host := false, addr := nvAddr + 0x80000000 } == 77 && t.read64 { host := false, addr := 0x402018 } == BitVec.ofNat 64 leaf5 && t.checkpoint.map (·.stage) == some 1) = true ∧
    (leafOf (s 0x18) 7 0x30000).map (fun x => leafMigrating x.2) = some true ∧ goes .checkpointPageCopy (s 0x18) (s 0x18) = true ∧
    after .checkpointPageCopy big (fun t => t.checkpoint.isNone) = true ∧ (leafOf moved 7 0x30000).map (fun x => (leafMigrating x.2, leafCow x.2)) = some (false, false) ∧
    after .checkpointPageCopy moved (fun t => t.snapFrames.isEmpty && t.read64 { host := false, addr := nvAddr + 0x80000000 } == 0 && t.pools.get [] (poolKey 7 1) == [leafFrame (BitVec.ofNat 64 (leaf5 + 0x10000))]) = true := by decide +kernel
/-- A page at node 4 is held, migrating, while its bytes are read there, and the copier goes on with it. -/
theorem test_CheckpointsRun_held :
    let e := 0xFFF0000000000000 + 2 ^ 39 + 0x4111
    let s := { tables e State.reset with checkpoint := some (checkpoint1 0 [(0x30000, 8)] [(0x30000, 8, 0x80000000)]), domain := [0, 1], status := 1 <<< 63 }
    let u := holdPage s 7 0x30000
    leafOf u 7 0x30000 = some (0x402018, BitVec.ofNat 64 (e + 8)) ∧ leafKind (BitVec.ofNat 64 e) = 4 ∧
    (match readLeaf u 7 0x30000 (BitVec.ofNat 64 (e + 8)) with | .error (.wait t) => goes .checkpointPageCopy s { u.keep t with checkpoint := some { checkpoint1 0 [(0x30000, 8)] [(0x30000, 8, 0x80000000)] with copying := true } } | _ => false) = true ∧
    after .checkpointPageCopy s (fun t => (t.read64 { host := false, addr := 0x402018 }).getLsbD 3 && t.tx.length == 16 && goes .checkpointPageCopy t t) = true := by decide +kernel
/-- A page of 64 KiB whose shard is the page: the premises of the last clause. -/
theorem test_CheckpointsRun_page :
    let e := BitVec.ofNat 64 (leaf5 + 0x10)
    leafMigrating e = false ∧ leafCow e = true ∧ pageBytes (leafSize e) = 65536 ∧ (checkpoint1 0 [(0x30000, 65536)] [(0x30000, 65536, 0x80000000)]).bytes ≤ 0x2A80000000 ∧ 0x80000000 + 65536 ≤ 0x8000000000 := by decide +kernel
/-- The done signal can be decremented, whatever the signature written before. -/
theorem test_CheckpointsRun_commit :
    let c := checkpoint1 1 [] []
    let s := { queueState (q1 0 0) true [(0x500, 9)] with checkpoint := some c }
    let t := discard (s.writeAt { host := false, addr := nvAddr + 0x40000000 } (manifestBytes s 1 (shardRecords s c))) c
    ∃ t₀ pl u x v, hubPlace { t with manifests := (t.manifests.set 1 { gen := 1, area := 0, state := 1, shards := shardRecords s c, control := none }).set 0 (s.manifests.get .empty 0) } hubAgent 7 0x30500 true = .ok (t₀, .here pl) ∧
      hubRead64 t₀ 7 0x30500 = .ok (u, x) ∧ hubWrite u 7 0x30500 (leBytes 8 (x - 1).toNat) = .ok v := by
  intro c s t
  obtain ⟨m, h, x, e⟩ := s.writeAt_eq { host := false, addr := nvAddr + 0x40000000 } (manifestBytes s 1 (shardRecords s c))
  rw [show t = discard _ c from congrArg (discard · c) e]
  exact ⟨_, _, _, _, _, rfl, rfl, rfl⟩
/-- A manifest written to a slot is the one a restore takes, whatever its signature. -/
theorem test_PowerAndErrors_restore :
    let m := manifestBody .reset 1 []
    let s := { State.reset.writeAt (slotAddr 0) (withSignature m) with manifests := Tab.empty.set 0 { gen := 1, area := 0, state := 1, shards := [], control := some { saved := [], gaths := [], qcbs := .empty } } }
    s.status = 0 ∧ restoreSlot s = some 0 ∧ (s.manifests.get .empty 0).control.isSome = true := by
  intro m s
  have bytes : ∀ n x, (leBytes n x).length = n := fun n => by induction n with
    | zero => exact fun _ => rfl
    | succ n ih => exact fun x => by simp [leBytes, ih]
  have size : (withSignature m).length = 3373 := by simp only [withSignature, List.length_append, bytes]; rfl
  have ecc : ∀ n, s.readAt (slotAddr 0) n = (State.reset.writeAt (slotAddr 0) (withSignature m)).readAt (slotAddr 0) n := fun n =>
    have same : ∀ (t : State) (x : Tab Manifest) (p : Place), State.readAt { t with manifests := x } p n = t.readAt p n := fun _ _ _ => rfl
    same _ _ _
  have read : ∀ n ≤ 3373, s.readAt (slotAddr 0) n = (withSignature m).take n := fun n h => by
    rw [ecc, State.readAt_writeAt_take _ _ _ (by omega) fun i hi => Or.inr (by simp only [slotAddr, nvAddr, physMapped, kindHolds, Place.add]; simp; omega)]
  have len : m.length = 64 := rfl
  have body : s.readAt (slotAddr 0) 64 = m := by rw [read 64 (by omega), withSignature, List.take_append_of_le_length (Nat.le_of_eq len.symm), List.take_of_length_le (Nat.le_of_eq len)]
  have valid : slotValid s 0 = true := by
    simp only [slotValid, body, show leField m 16 8 = 0 from rfl, Nat.mul_zero, Nat.add_zero, read (64 + 3309) (by omega), List.take_of_length_le (Nat.le_of_eq size)]
    simp only [List.range_zero, List.all_nil, Bool.and_true, beq_self_eq_true]
    rfl
  have other : (s.manifests.get .empty 1).state = 0 := rfl
  have first : (s.manifests.get .empty 0).state = 1 := rfl
  have status : s.status = 0 := by
    obtain ⟨_, _, _, e⟩ := State.reset.writeAt_eq (slotAddr 0) (withSignature m)
    have k : ∀ (t : State) (x : Tab Manifest), State.status { t with manifests := x } = t.status := fun _ _ => rfl
    exact (k _ _).trans ((congrArg State.status e).trans rfl)
  exact ⟨status, by simp [restoreSlot, show List.range 2 = [0, 1] from rfl, other, first, valid], rfl⟩
theorem test_PowerAndErrors :
    let s := { (running1.write64 { host := false, addr := nvAddr } 3).write64 { host := false, addr := 64 } 4 with packets := [pkt 1 [0, 1]], slices := Tab.empty.put none 2 (some (7, 0x30000)) }
    let m := { firm [(8, 5)] with slices := Tab.empty.put none 2 (some (7, 0x30000)) }
    s.mem.wf ∧ s.host.wf ∧ s.mem.scram = [] ∧ after .powerLoss s (fun t => t.read64 { host := false, addr := nvAddr } == 3 && t.read64 { host := false, addr := 64 } == 0 && t.gaths.isEmpty && t.status == 0) = true ∧
    State.reset.status = 0 ∧ after (.bringUp 0xF00000000000001) State.reset (fun t => t.status == 0xF00000000000000) = true ∧ goes (.bringUp 5) s s = true ∧ after .fullService s (fun t => t.status == 0x8F00000000000000) = true ∧
    after (.powerGating 0 true) s (fun t => goes .bundleIssue t t && !(t.here.arch.handle 31).valid) = true ∧ after (.powerGating 0 false) s (fun t => !t.here.powerGated) = true ∧
    s.gath? 1 = some (gath1 .running) ∧ after (.eccUncorrectable 9 1) s (fun t => t.reports == [.ecc 9 (granuleHome s 9)] && t.gaths.isEmpty && t.packets.isEmpty) = true ∧
    after (.hostLinkUncorrectableError 4) s (fun t => t.reports == [.link 4] && t.hostOut == [.interrupt]) = true ∧ s.slices.get none 3 = none ∧ goes (.hostBar4Access (3 * 2 ^ 30) 8 none) s s = true ∧ goes (.hostBar4Access (3 * 2 ^ 30) 1 (some [9])) s s = true ∧ 
    okOf (agentWrite m hostAgent 7 0x30008 [9]) (fun _ => true) = true ∧ after (.hostBar4Access (2 * 2 ^ 30 + 8) 1 (some [9])) m (fun t => memWord t 8 == 9) = true ∧
    after (.hostBar4Access (2 * 2 ^ 30 + 8) 1 none) m (fun t => t.hostOut == [.data [5]]) = true ∧
    stopCode (agentWrite s hostAgent 7 0x30008 [9]) = some (0x10, 9) ∧ goes (.hostBar4Access (2 * 2 ^ 30 + 8) 1 (some [9])) s s = true := by decide +kernel

/-! ### The machine as a whole -/

theorem test_StepKeepsInv : (s3 4).Inv ∧ Goes { s3 4 with agenda := [.core 0] } := by
  refine ⟨⟨⟨by decide +kernel, by decide +kernel⟩, by decide +kernel, by decide +kernel⟩, ?_⟩
  exact ⟨_, rfl⟩
end Sys2Proof.Tests
end

section
/-!
SUPPORT. Laws of the tag table: what a slot holds after a write or a clear, and what the tag triggers do (R73 to R78).
-/

namespace Sys2Proof.Machine

/-! ### Entries and slots -/

theorem bnat_le_one (b : Bool) : bnat b ≤ 1 := by cases b <;> decide

theorem tagKey_lt (e : Word) : tagKey e < 2 ^ 56 := Nat.mod_lt _ (by decide)
theorem tagAge_lt (e : Word) : tagAge e < 8 := Nat.mod_lt _ (by decide)
theorem tagSize_lt (e : Word) : tagSize e < 4 := Nat.mod_lt _ (by decide)

/-- An entry whose fields are in range is the sum of its fields, which no carry leaves (Table 4.1). -/
theorem toNat_tagEntry {key z age : Nat} (valid : Bool) (hk : key < 2 ^ 56) (hz : z < 4) (ha : age < 8) :
    (tagEntry key z age valid).toNat = key * 256 + age * 16 + z * 4 + bnat valid := by
  have hv := bnat_le_one valid
  simp only [tagEntry, fld, Nat.shiftLeft_eq, BitVec.toNat_ofNat]
  omega

theorem tagValid_tagEntry {key z age : Nat} (valid : Bool) (hk : key < 2 ^ 56) (hz : z < 4) (ha : age < 8) :
    tagValid (tagEntry key z age valid) = valid := by
  have hv := bnat_le_one valid
  have odd : (key * 256 + age * 16 + z * 4 + bnat valid) % 2 = bnat valid := by omega
  rw [tagValid, bit, ← BitVec.testBit_toNat, toNat_tagEntry valid hk hz ha, Nat.testBit_zero, odd]
  cases valid <;> rfl

theorem tagAge_tagEntry {key z age : Nat} (valid : Bool) (hk : key < 2 ^ 56) (hz : z < 4) (ha : age < 8) :
    tagAge (tagEntry key z age valid) = age := by
  have hv := bnat_le_one valid
  simp only [tagAge, bits, toNat_tagEntry valid hk hz ha, Nat.shiftRight_eq_div_pow]
  omega

@[simp] theorem Arch.tag_setTag (a : Arch) (n : Nat) (e : Word) : (a.setTag n e).tag n = e := Tab.get_put_same ..
theorem Arch.tag_setTag_other (a : Arch) {n k : Nat} (e : Word) (h : k ≠ n) : (a.setTag n e).tag k = a.tag k := Tab.get_put_other _ _ _ _ h

/-- What R78 does to a slot. -/
theorem Arch.tagValid_tagClear (a : Arch) (n : Nat) : tagValid ((a.tagClear n).tag n) = false := by
  simp only [tagClear, tag_setTag, tagValid_tagEntry _ (tagKey_lt _) (tagSize_lt _) (tagAge_lt _)]

/-- A deleted way keeps its age (R78). -/
theorem Arch.tagAge_tagClear (a : Arch) (n : Nat) : tagAge ((a.tagClear n).tag n) = tagAge (a.tag n) := by
  simp only [tagClear, tag_setTag, tagAge_tagEntry _ (tagKey_lt _) (tagSize_lt _) (tagAge_lt _)]

theorem Arch.tagClear_other (a : Arch) {n k : Nat} (h : k ≠ n) : (a.tagClear n).tag k = a.tag k := a.tag_setTag_other _ h

theorem Arch.tagDelete_found {a : Arch} {key z w : Nat} (h : a.tagFind key z = some w) :
    a.tagDelete key z = a.tagClear (tagSet key z * 8 + w) := by simp only [tagDelete, h]

theorem Arch.tagDelete_missing {a : Arch} {key z : Nat} (h : a.tagFind key z = none) : a.tagDelete key z = a := by simp only [tagDelete, h]

/-! ### An operation on a PRESENT tag folio -/

/-- Every operation on the table names one of the two tag folios (Table 18.6). -/
theorem TagOp.folio_mem (o : TagOp) : o.folio ∈ [60, 61] := by
  have slot (n : Nat) : tagFolio n ∈ [60, 61] := by
    unfold tagFolio
    split <;> decide
  cases o <;> exact slot _

@[simp] theorem Core.arch_dirty (k : Core) (f : Nat) : (k.dirty f).arch = k.arch := by
  unfold Core.dirty
  split <;> rfl

/-- A dirty bit stands among the folios: the rest of the core is as it was. -/
theorem Core.dirty_eq (k : Core) (f : Nat) : k.dirty f = { k with folios := (k.dirty f).folios } := by
  unfold Core.dirty
  split <;> rfl

/-- The state that `tagWrite` leaves where the folio is PRESENT (`tagWrite_present`), on the current core. -/
def tagWritten (t : State) (o : TagOp) : State := t.setCore t.cur ({ t.here with arch := o.apply t.here.arch }.dirty o.folio)

theorem here_tagWritten (t : State) (o : TagOp) : (tagWritten t o).here = { t.here with arch := o.apply t.here.arch }.dirty o.folio :=
  State.core_setCore_same ..

@[simp] theorem arch_tagWritten (t : State) (o : TagOp) : (tagWritten t o).here.arch = o.apply t.here.arch := by
  rw [here_tagWritten, Core.arch_dirty]

/-- It leaves the core but for its registers and the dirty bits. -/
theorem core_tagWritten (t : State) (o : TagOp) : { (tagWritten t o).here with arch := t.here.arch, folios := t.here.folios } = t.here := by
  rw [here_tagWritten, Core.dirty_eq]

/-- An operation without effect leaves every register too. -/
theorem core_tagWritten_same {t : State} {o : TagOp} (h : o.apply t.here.arch = t.here.arch) :
    { (tagWritten t o).here with folios := t.here.folios } = t.here := by
  rw [here_tagWritten, Core.dirty_eq, h]

section Triggers

variable {s t : State} {m : Mv} {v : Val}

theorem Reads.sameModule_tagWritten (h : Reads s m.bus m.src m.keep v t) (o : TagOp) : SameModule s (tagWritten t o) := h.sameModule

theorem Reads.sameOthers_tagWritten (h : Reads s m.bus m.src m.keep v t) (o : TagOp) : SameOthers s (tagWritten t o) := fun d hd =>
  (State.core_setCore_other _ _ (h.cur ▸ hd)).trans (h.sameOthers d hd)

/-! ### The tag triggers -/

theorem exec_mTdel (m : Mv) (s : State) : exec (.mTdel m) s = runMv m 0x355 tdel s := rfl
theorem exec_mTins (m : Mv) (s : State) : exec (.mTins m) s = runMv m 0x354 tins s := rfl
theorem exec_mTlook (m : Mv) (s : State) : exec (.mTlook m) s = runMv m 0x353 tlook s := rfl

/-- ILLEGAL_MODE 8 of R75, R77 and R78, at unit `bus`. -/
def tagSizeFault (bus : Nat) : CFault := CFault.mk' cIllegalMode 8 bus 0

theorem tdel_slot {x : Trig} (h : bit (unitC (t.core x.c) x.bus) 2 = true) : tdel x t = tagWrite x t (.clear (bits x.b.lo 9 0)) := by
  simp only [tdel, h, if_true]

theorem tdel_key {x : Trig} {z : Nat} (h : bit (unitC (t.core x.c) x.bus) 2 = false) (hz : bits (unitC (t.core x.c) x.bus) 1 0 = z) (h3 : z ≠ 3) :
    tdel x t = tagWrite x t (.delete x.b.lo.toNat z) := by
  simp only [tdel, h, hz, h3, if_false, Bool.false_eq_true]

theorem tdel_sizeFault {x : Trig} (h : bit (unitC (t.core x.c) x.bus) 2 = false) (hz : bits (unitC (t.core x.c) x.bus) 1 0 = 3) :
    tdel x t = .error (.fault (tagSizeFault x.bus)) := by
  simp only [tdel, h, hz, if_true, if_false, Bool.false_eq_true]
  rfl

theorem tlook_sizeFault {x : Trig} (hz : bits (unitC (t.core x.c) x.bus) 1 0 = 3) : tlook x t = .error (.fault (tagSizeFault x.bus)) := by
  simp only [tlook, hz, if_true]
  rfl

theorem tins_sizeFault {x : Trig} (hz : bits (unitC (t.core x.c) x.bus) 1 0 = 3) : tins x t = .error (.fault (tagSizeFault x.bus)) := by
  simp only [tins, hz, if_true]
  rfl

theorem Reads.needLatches {l : List Nat} (h : Reads s m.bus m.src m.keep v t) (hp : Present t l) (h32 : 32 ∈ l) (port : Nat) :
    needLatches t s.cur port = .ok () := h.cur ▸ needLatches_present hp h32 port

/-- A trigger whose body writes the table acts at once where S0 and the tag folios are PRESENT. -/
theorem runMv_tagWritten {port : Nat} {body : Body} {o : TagOp} (h : Reads s m.bus m.src m.keep v t) (hp : Present t [32, 60, 61])
    (hb : let x : Trig := { c := s.cur, bus := m.bus.val, port := port, b := v, w := 1024, pre := s.here.arch }
      body x t = tagWrite x t o) :
    runMv m port body s = .next (tagWritten t o) := by
  refine runMv_next h (h.needLatches hp (by decide) port) (hb.trans ?_)
  rw [← h.cur]
  exact tagWrite_present (hp _ (List.mem_cons_of_mem _ o.folio_mem))

end Triggers

/-! ### What `tdel` leaves -/

/-- Slot `n` is cleared and keeps its age; every other slot, register and core, and the module, is as before (R78). -/
def SlotCleared (s t u : State) (n : Nat) : Prop :=
  tagValid (u.here.arch.tag n) = false ∧ tagAge (u.here.arch.tag n) = tagAge (t.here.arch.tag n) ∧ (∀ k, k ≠ n → u.here.arch.tag k = t.here.arch.tag k) ∧
    { u.here.arch with tags := t.here.arch.tags } = t.here.arch ∧ { u.here with arch := t.here.arch, folios := t.here.folios } = t.here ∧ SameModule s u ∧ SameOthers s u

theorem slotCleared_tagWritten {s t : State} {m : Mv} {v : Val} {o : TagOp} {n : Nat} (h : Reads s m.bus m.src m.keep v t)
    (ho : o.apply t.here.arch = t.here.arch.tagClear n) : SlotCleared s t (tagWritten t o) n := by
  rw [SlotCleared, arch_tagWritten, ho]
  exact ⟨Arch.tagValid_tagClear _ n, Arch.tagAge_tagClear _ n, fun _ hk => Arch.tagClear_other _ hk, rfl, core_tagWritten t o,
    h.sameModule_tagWritten o, h.sameOthers_tagWritten o⟩

/-- Settles O21, by the four outcomes of `tdel`: a slot, a key that a way holds, a key that none holds, and size code 3. -/
theorem tagDelete : Obligations.TagDelete := by
  unfold Obligations.TagDelete
  intro m s t v _ h hp c b z
  have hl (port : Nat) : needLatches t s.cur port = .ok () := h.needLatches hp (by decide) port
  have hc : unitC (t.core s.cur) m.bus.val = c := by rw [← h.cur]; rfl
  have hz : bits (unitC (t.core s.cur) m.bus.val) 1 0 = z := by rw [hc]; rfl
  have byKey (hk : c.getLsbD 2 = false) (h3 : z ≠ 3) : exec (.mTdel m) s = .next (tagWritten t (.delete b.toNat z)) :=
    (exec_mTdel m s).trans (runMv_tagWritten h hp (tdel_key (hc ▸ hk) hz h3))
  refine ⟨fun hs => ?slot, fun hk h3 w hw => ?found, fun hk h3 hn => ?missing, fun h3 => ⟨fun hk => ?tdel, ?tlook, ?tins⟩⟩
  case slot =>
    exact ⟨_, (exec_mTdel m s).trans (runMv_tagWritten h hp (tdel_slot (hc ▸ hs))), slotCleared_tagWritten h rfl⟩
  case found => exact ⟨_, byKey hk h3, slotCleared_tagWritten h (Arch.tagDelete_found hw)⟩
  case missing =>
    have same : TagOp.apply t.here.arch (.delete b.toNat z) = t.here.arch := Arch.tagDelete_missing hn
    exact ⟨_, byKey hk h3, (arch_tagWritten t _).trans same, core_tagWritten_same same, h.sameModule_tagWritten _, h.sameOthers_tagWritten _⟩
  case tdel => exact (exec_mTdel m s).trans (runMv_fault h (hl _) (tdel_sizeFault (hc ▸ hk) (hz.trans h3)))
  case tlook => exact (exec_mTlook m s).trans (runMv_fault h (hl _) (tlook_sizeFault (hz.trans h3)))
  case tins => exact (exec_mTins m s).trans (runMv_fault h (hl _) (tins_sizeFault (hz.trans h3)))

end Sys2Proof.Machine
end

section
/-!
SUPPORT. Laws of moves into registers, and of `fstat`: its source port, its write-one-to-clear port, and kernel entry (R209).
-/

namespace Sys2Proof.Machine

/-! ### A move on its own -/

section Moves

variable {s t : State} {m : Mv} {v : Val} {dst : BitVec 11}

theorem exec_move (m : Mv) (dst : BitVec 11) (s : State) : exec (.move m dst) s = execMove m dst s := rfl

/-- A move whose source can be read and whose destination lies in a PRESENT folio, or in none, writes it. -/
theorem execMove_next (h : Reads s m.bus m.src m.keep v t) (hd : needDest s.here dst.toNat = .ok ()) :
    execMove m dst s = .next (writeDest t t.cur dst.toNat v) := by
  have hcur := h.cur
  obtain ⟨hv, hpop⟩ := h
  have step : moveStep s.cur m.bus.val m.src.toNat m.keep dst.toNat s = .ok (writeDest t t.cur dst.toNat v) := by
    rw [State.here] at hd hpop
    simp only [moveStep, hv, hd, hcur, bind, except_ok_bind]
    split at hpop
    case isTrue hc => rw [if_pos hc, hpop]; rfl
    case isFalse hc => rw [if_neg hc]; cases hpop; rfl
  rw [execMove, step, finish]

/-- A write of the current core leaves what a read left of the module. -/
theorem Reads.sameModule_modCore (h : Reads s m.bus m.src m.keep v t) (f : Core → Core) : SameModule s (t.modCore t.cur f) := h.sameModule

theorem Reads.sameOthers_modCore (h : Reads s m.bus m.src m.keep v t) (f : Core → Core) : SameOthers s (t.modCore t.cur f) := fun d hd =>
  (State.core_modCore_other _ _ (h.cur ▸ hd)).trans (h.sameOthers d hd)

end Moves

/-! ### `fstat` -/

theorem readSource_fstat (s : State) (c : Nat) : readSource s c 0x0F6 = .ok (.scalar (s.core c).arch.fstat) := rfl

/-- The port lies in the sequencer block, which is always there. -/
theorem needDest_fstat (k : Core) : needDest k 0x141 = .ok () := rfl

/-- A write to destination 0x141 makes no folio dirty. -/
theorem writeDest_fstat (t : State) (c : Nat) (v : Val) :
    writeDest t c 0x141 v = t.modCore c fun k => { k with arch := { k.arch with fstat := fstatClear k.arch.fstat v.lo } } := rfl

theorem here_writeDest_fstat (t : State) (v : Val) :
    (writeDest t t.cur 0x141 v).here = { t.here with arch := { t.here.arch with fstat := fstatClear t.here.arch.fstat v.lo } } := by
  rw [writeDest_fstat]
  exact State.core_modCore_same ..

theorem getLsbD_fstatMask (i : Nat) : (0x7FF : Word).getLsbD i = decide (i < 11) := by
  have mask : (0x7FF : Word).getLsbD i = Nat.testBit (2 ^ 11 - 1) i := rfl
  rw [mask, Nat.testBit_two_pow_sub_one]

/-- A flag stands after a clear if it stood before and its bit of the value is 0; the reserved bits are 0 (Table 9.8). -/
theorem getLsbD_fstatClear (f x : Word) (i : Nat) : (fstatClear f x).getLsbD i = (decide (i < 11) && (f.getLsbD i && !x.getLsbD i)) := by
  rw [fstatClear, BitVec.getLsbD_and, BitVec.getLsbD_and, BitVec.getLsbD_not, getLsbD_fstatMask]
  by_cases hi : i < 11
  · have inWord : i < 64 := by omega
    simp [hi, inWord]
  · simp [hi]

theorem Val.getLsbD_lo {i : Nat} (v : Val) (h : i < 64) : v.lo.getLsbD i = v.bits.getLsbD i := by
  simp [Val.lo, h]

/-- A core loaded for kernel entry has its registers at their entry values. -/
theorem arch_entryCore (k : Core) (g : Gath) (c r : Nat) (data : Tab Byte) (imem : Tab (BitVec 512)) (map : Tab MapEntry) (n : Nat) :
    (entryCore k g c r data imem map n).arch = Arch.entry := rfl

/-- Settles O8: the read port, the write-one-to-clear port by the law of a move, kernel entry. -/
theorem fstatPort : Obligations.FstatPort := by
  unfold Obligations.FstatPort
  refine ⟨readSource_fstat, fun m s t v h => ?write, fun k g c r data imem map n => ?entry⟩
  case write =>
    have run : exec (.move m 0x141) s = .next (writeDest t t.cur 0x141 v) := (exec_move m 0x141 s).trans (execMove_next h (needDest_fstat _))
    refine ⟨_, run, ?_⟩
    rw [here_writeDest_fstat]
    refine ⟨fun i hi => ?flags, fun i hi => ?reserved, rfl, rfl, h.sameModule_modCore _, h.sameOthers_modCore _⟩
    case flags => rw [getLsbD_fstatClear, v.getLsbD_lo (by omega), decide_eq_true hi, Bool.true_and]
    case reserved => rw [getLsbD_fstatClear, decide_eq_false (Nat.not_lt.2 hi), Bool.false_and]
  case entry => rw [arch_entryCore]; rfl

end Sys2Proof.Machine
end

section
/-!
SUPPORT. Laws of the control unit and of core faults: what a fault leaves, `cu.trap` (R233, R350, R354) and the pops of
the loop stack (R229).
-/

namespace Sys2Proof.Machine

/-! ### Taking a core fault -/

/-- The withdrawal of a barrier arrival changes the gatherings and nothing else (R133). -/
theorem withdrawFabric_eq (s : State) (c : Nat) : ∃ g, withdrawFabric s c = { s with gaths := g } := by
  unfold withdrawFabric
  split
  · exact ⟨_, rfl⟩
  · exact ⟨s.gaths, rfl⟩

/-- A core fault changes the gatherings and one core, and nothing else. -/
theorem takeFault_eq (s : State) (c : Nat) (f : CFault) (bundle count : Nat) :
    ∃ g k, takeFault s c f bundle count = ({ s with gaths := g } : State).setCore c k := by
  obtain ⟨g, hg⟩ := withdrawFabric_eq s c
  exact ⟨g, _, congrArg (State.setCore · c _) hg⟩

/-- A core that has faulted: at its last mark, with the record in slot 0, in state FAULTED (R350, R351). -/
def Core.faulted (k : Core) (r : Record) : Core := { (k.rollback.setSlot 0 (some r)).epState 2 with run := .faulted }

@[simp] theorem Core.faulted_run (k : Core) (r : Record) : (k.faulted r).run = .faulted := rfl
@[simp] theorem Core.faulted_arch (k : Core) (r : Record) : (k.faulted r).arch = k.snap := rfl
@[simp] theorem Core.faulted_gate (k : Core) (r : Record) : (k.faulted r).gate = [] := rfl
@[simp] theorem Core.faulted_marked (k : Core) (r : Record) : (k.faulted r).marked = true := rfl
@[simp] theorem Core.faulted_fifo (k : Core) (r : Record) : (k.faulted r).fifo = k.popped ++ k.fifo := rfl
@[simp] theorem Core.faulted_scratch (k : Core) (r : Record) : (k.faulted r).scratch = k.scratch := rfl
@[simp] theorem Core.faulted_joins (k : Core) (r : Record) : (k.faulted r).joins = k.joins := rfl
@[simp] theorem Core.faulted_slot (k : Core) (r : Record) : (k.faulted r).slot 0 = some r := Core.slot_setSlot ..

theorem core_takeFault_same (s : State) (c : Nat) (f : CFault) (bundle count : Nat) :
    (takeFault s c f bundle count).core c = (s.core c).faulted (coreRecord s c (s.core c) f bundle count) :=
  State.core_setCore_same ..

theorem core_takeFault_other (s : State) {c d : Nat} (f : CFault) (bundle count : Nat) (h : d ≠ c) :
    (takeFault s c f bundle count).core d = s.core d := by
  obtain ⟨g, k, e⟩ := takeFault_eq s c f bundle count
  rw [e]
  exact State.core_setCore_other _ _ h

@[simp] theorem takeFault_cur (s : State) (c : Nat) (f : CFault) (bundle count : Nat) : (takeFault s c f bundle count).cur = s.cur := by
  obtain ⟨g, k, e⟩ := takeFault_eq s c f bundle count
  rw [e]
  rfl

@[simp] theorem takeCoreFault_cur (s : State) (c : Nat) (f : CFault) : (takeCoreFault s c f).cur = s.cur := takeFault_cur ..

/-- The record is that of the bundle about to issue (R354). -/
theorem here_takeCoreFault (s : State) (f : CFault) :
    (takeCoreFault s s.cur f).here = s.here.faulted (coreRecord s s.cur s.here f s.here.arch.pc.toNat s.here.arch.count) := by
  rw [State.here, takeCoreFault_cur]
  exact core_takeFault_same ..

theorem sameModule_takeCoreFault (s : State) (c : Nat) (f : CFault) : SameModule s { takeCoreFault s c f with gaths := s.gaths } := by
  obtain ⟨g, k, e⟩ := takeFault_eq s c f (s.core c).arch.pc.toNat (s.core c).arch.count
  rw [takeCoreFault, e]
  rfl

theorem sameMemory_takeCoreFault (s : State) (c : Nat) (f : CFault) : SameMemory s (takeCoreFault s c f) := by
  obtain ⟨g, k, e⟩ := takeFault_eq s c f (s.core c).arch.pc.toNat (s.core c).arch.count
  rw [takeCoreFault, e]
  exact fun _ => rfl

theorem sameOthers_takeCoreFault (s : State) (f : CFault) : SameOthers s (takeCoreFault s s.cur f) := fun _ h => core_takeFault_other s f _ _ h

/-! ### `cu.trap` -/

theorem exec_cuTrap (m : Mv) (s : State) : exec (.cuTrap m) s = runMv m 0x3E4 cuTrap s := rfl

/-- TRAP with the subcode of B[15:0], at unit `bus`. -/
def trapFault (bus : Nat) (b : Val) : CFault := CFault.mk' cTrap (b.lo.toNat % 2 ^ 16) bus 0

theorem cuTrap_fault (x : Trig) (t : State) : cuTrap x t = .error (.fault (trapFault x.bus x.b)) := rfl

theorem exec_cuTrap_fault {m : Mv} {s t : State} {v : Val} (h : Reads s m.bus m.src m.keep v t) :
    exec (.cuTrap m) s = .next (takeCoreFault s s.cur (trapFault m.bus.val v)) :=
  (exec_cuTrap m s).trans (runMv_fault h (needLatches_cu t s.cur rfl) (cuTrap_fault _ t))

/-- Settles O30: `cu.trap` takes the core fault TRAP, and the laws of a core fault say what that leaves. -/
theorem trapTakes : Obligations.TrapTakes := by
  unfold Obligations.TrapTakes
  intro m s t v h
  refine ⟨_, exec_cuTrap_fault h, ?run, ?arch, ?gate, ?marked, ?fifo, ?slot, ?scratch, ?joins,
    sameModule_takeCoreFault s _ _, sameMemory_takeCoreFault s _ _, sameOthers_takeCoreFault s _⟩
  case slot =>
    rw [here_takeCoreFault, Core.faulted_slot]
    rfl
  all_goals simp [here_takeCoreFault]

/-! ### Popping loops -/

/-- Two updates of the registers that give the same registers are the same. -/
theorem State.modArch_congr {s : State} {c : Nat} {f g : Arch → Arch} (h : f (s.core c).arch = g (s.core c).arch) : s.modArch c f = s.modArch c g := by
  simp only [State.modArch, State.modCore, h]

/-- Entries are held outermost first, so that a pop of as many as `r` holds leaves `l`. -/
theorem take_append_pops (l r : List Loop) : (l ++ r).take ((l ++ r).length - r.length) = l :=
  List.take_left' (by simp)

theorem dropTop_append_top (l : List Loop) (top : Loop) : dropTop (l ++ [top]) = l := take_append_pops l [top]

/-- A leaf's pop count removes that many entries (R224, R229). -/
theorem leafPops_append {s : State} {c : Nat} {l r : List Loop} (h : (s.core c).arch.loops = l ++ r) :
    leafPops c r.length s = .ok (s.modArch c fun a => { a with loops := l }) := by
  have enough : ¬ (s.core c).arch.loops.length < r.length := by simp [h]
  rw [leafPops, if_neg enough]
  exact congrArg Except.ok (State.modArch_congr (by rw [h, take_append_pops]))

theorem exec_cuLpPop (m : Mv) (s : State) : exec (.cuLpPop m) s = runMv m 0x3E1 lpPop s := rfl

/-- LOOP_UNDERFLOW 1 of R229, at unit `bus`. -/
def popFault (bus : Nat) : CFault := CFault.mk' cLoopUnderflow 1 bus 0

theorem lpPop_empty {x : Trig} {t : State} (h : (t.core x.c).arch.loops = []) : lpPop x t = .error (.fault (popFault x.bus)) := by
  rw [lpPop, if_pos h]
  rfl

theorem lpPop_append_top {x : Trig} {t : State} {l : List Loop} {top : Loop} (h : (t.core x.c).arch.loops = l ++ [top]) :
    lpPop x t = .ok (t.modArch x.c fun a => { a with loops := l }) := by
  have nonempty : (t.core x.c).arch.loops ≠ [] := by simp [h]
  rw [lpPop, if_neg nonempty]
  exact congrArg Except.ok (State.modArch_congr (by rw [h, dropTop_append_top]))

/-- Settles O29: `cu.lp.pop` on an empty stack and on one with a top entry, and the pops of a leaf. -/
theorem loopPop : Obligations.LoopPop := by
  unfold Obligations.LoopPop
  refine ⟨fun m s t v h => ?trigger, fun s c n l r hl hn => ?leaf⟩
  case trigger =>
    rw [State.here, h.cur, exec_cuLpPop]
    have latches : needLatches t s.cur 0x3E1 = .ok () := needLatches_cu t s.cur rfl
    exact ⟨fun empty => runMv_fault h latches (lpPop_empty empty), fun l top hl => runMv_next h latches (lpPop_append_top hl)⟩
  case leaf =>
    subst hn
    exact leafPops_append hl

end Sys2Proof.Machine
end

section
/-!
SUPPORT. Facts about the standard types that several parts use. The text builds on core Lean alone, as the model does, so they are proved here.
-/

namespace Sys2Proof

theorem if_iff_congr {α : Type} {c d : Prop} [Decidable c] [Decidable d] {x y u v : α} (h : c ↔ d) (hx : x = u) (hy : y = v) :
    (if c then x else y) = if d then u else v := by
  subst hx hy
  exact ite_congr (propext h) (fun _ => rfl) fun _ => rfl

theorem getD_of_lt {α : Type} (l : List α) (d : α) {n : Nat} (h : n < l.length) : l.getD n d = l[n] := by
  rw [List.getD_eq_getElem?_getD, List.getElem?_eq_getElem h, Option.getD_some]

/-- Whether a computation gives a value, as a check that runs. -/
def gives {ε α : Type} [DecidableEq α] (x : Except ε α) (a : α) : Bool :=
  match x with
  | .ok b => decide (b = a)
  | .error _ => false

theorem eq_ok_of_gives {ε α : Type} [DecidableEq α] {x : Except ε α} {a : α} (h : gives x a = true) : x = .ok a := by
  cases x with
  | ok b => exact congrArg Except.ok (of_decide_eq_true h)
  | error e => exact nomatch h

end Sys2Proof
end

section
/-!
SUPPORT. Decoding and encoding agree (O2): a move stands in its table at its own destination, and the fields of an address-slot
word or of a bank command are read back from the number that the word is.
-/

namespace Sys2Proof

/-! ### Moves -/

/-- The operands of a move word as a trigger without widths takes them. -/
def MoveWord.mv (m : MoveWord) : Mv := { bus := m.bus, src := m.src, keep := m.mod.getLsbD 1 }

/-- The operands of a move word as a vector or special-function trigger takes them. -/
def MoveWord.vm (m : MoveWord) : Vm := { bus := m.bus, src := m.src, w := m.mod }

@[simp] theorem ofMv_mv (m : Mv) (d : BitVec 11) : (ofMv m d).mv = m := by
  have : (BitVec.ofBool m.keep ++ 0#1).getLsbD 1 = m.keep := by cases m.keep <;> decide
  simp only [ofMv, MoveWord.mv, this]

@[simp] theorem ofVm_vm (m : Vm) (d : BitVec 11) : (ofVm m d).vm = m := rfl

@[simp] theorem ofMv_dst (m : Mv) (d : BitVec 11) : (ofMv m d).dst = d := rfl
@[simp] theorem ofVm_dst (m : Vm) (d : BitVec 11) : (ofVm m d).dst = d := rfl

@[simp] theorem vm_ofVm (m : MoveWord) : ofVm m.vm m.dst = m := rfl

/-- A move word without the width of a vector trigger holds its modifier's high bit alone. -/
theorem mv_ofMv {m : MoveWord} (h : m.mod.getLsbD 0 = false) : ofMv m.mv m.dst = m := by
  have all : ∀ w : BitVec 2, w.getLsbD 0 = false → BitVec.ofBool (w.getLsbD 1) ++ 0#1 = w := by decide
  simp only [ofMv, MoveWord.mv, all m.mod h]

/-- What Table 8.15 holds at destination `p`, for the operands of a move of either kind. -/
def instrAt (p : Nat) (mv : Mv) (vm : Vm) : Option Instr :=
  if isRegisterDst p then some (.move mv (BitVec.ofNat 11 p))
  else if isSaTrig p then opAt saOps (p - 0x200) mv
  else if isVaTrig p then opAt vaOps (p - 0x280) vm
  else if isSfTrig p then opAt sfOps (p - 0x300) vm
  else if isMemTrig p then opAt memOps (p - 0x340) mv
  else if isMeTrig p then opAt meOps (p - 0x380) mv
  else if isCeTrig p then opAt ceOps (p - 0x3A0) mv
  else if isXuTrig p then opAt xuOps (p - 0x3B0) mv
  else if isBkTrig p then opAt bkOps (p - 0x3C0) mv
  else opAt cuOps (p - 0x3E0) mv

theorem decodeMove_eq (m : MoveWord) : decodeMove m = if m.wf then instrAt m.dst.toNat m.mv m.vm else none := by
  unfold decodeMove instrAt
  rw [BitVec.ofNat_toNat, BitVec.setWidth_eq]
  cases m.wf <;> rfl

/-- Every instruction that is a move stands in its table at its destination. -/
theorem instrAt_moveWord {i : Instr} {m : MoveWord} (h : i.moveWord = some m) (hm : i.isMove = true) :
    instrAt m.dst.toNat m.mv m.vm = some i := by
  cases i
  case move v d =>
    obtain rfl := Option.some.inj h
    have hd : isRegisterDst d.toNat = true := hm
    have hp : (ofMv v d).dst = d := rfl
    rw [instrAt, hp, if_pos hd, ofMv_mv, BitVec.ofNat_toNat, BitVec.setWidth_eq]
  all_goals first
    | (obtain rfl := Option.some.inj h
       simp only [ofMv_dst, ofVm_dst, ofMv_mv, ofVm_vm, BitVec.reduceToNat]
       simp only [instrAt, Nat.reduceSub]
       rfl)
    | cases h

/-- The operations of `l` are moves to consecutive destinations from `p` on. -/
def PortsFrom {α : Type} (word : α → BitVec 11 → MoveWord) : Nat → List (α → Instr) → Prop
  | _, [] => True
  | p, f :: r => (∀ a, (f a).moveWord = some (word a (BitVec.ofNat 11 p))) ∧ PortsFrom word (p + 1) r

theorem PortsFrom.opAt {α : Type} {word : α → BitVec 11 → MoveWord} {l : List (α → Instr)} {p k : Nat} {a : α} {i : Instr}
    (h : PortsFrom word p l) (hi : opAt l k a = some i) : i.moveWord = some (word a (BitVec.ofNat 11 (p + k))) := by
  induction l generalizing p k with
  | nil => exact nomatch hi
  | cons f r ih =>
    obtain ⟨hf, hr⟩ := h
    cases k with
    | zero =>
      obtain rfl : f a = i := Option.some.inj hi
      exact hf a
    | succ k =>
      rw [show p + (k + 1) = p + 1 + k by omega]
      exact ih hr hi

theorem saOps_ports : PortsFrom ofMv 0x200 saOps := by repeat (first | exact trivial | refine ⟨fun _ => rfl, ?_⟩)
theorem vaOps_ports : PortsFrom ofVm 0x280 vaOps := by repeat (first | exact trivial | refine ⟨fun _ => rfl, ?_⟩)
theorem sfOps_ports : PortsFrom ofVm 0x300 sfOps := by repeat (first | exact trivial | refine ⟨fun _ => rfl, ?_⟩)
theorem memOps_ports : PortsFrom ofMv 0x340 memOps := by repeat (first | exact trivial | refine ⟨fun _ => rfl, ?_⟩)
theorem meOps_ports : PortsFrom ofMv 0x380 meOps := by repeat (first | exact trivial | refine ⟨fun _ => rfl, ?_⟩)
theorem ceOps_ports : PortsFrom ofMv 0x3A0 ceOps := by repeat (first | exact trivial | refine ⟨fun _ => rfl, ?_⟩)
theorem xuOps_ports : PortsFrom ofMv 0x3B0 xuOps := by repeat (first | exact trivial | refine ⟨fun _ => rfl, ?_⟩)
theorem bkOps_ports : PortsFrom ofMv 0x3C0 bkOps := by repeat (first | exact trivial | refine ⟨fun _ => rfl, ?_⟩)
theorem cuOps_ports : PortsFrom ofMv 0x3E0 cuOps := by repeat (first | exact trivial | refine ⟨fun _ => rfl, ?_⟩)

theorem inRange_iff {p lo n : Nat} : inRange p lo n = true ↔ lo ≤ p ∧ p < lo + n := by simp [inRange]

theorem register_below_triggers {p : Nat} (h : isRegisterDst p = true) : p < 0x200 := by
  simp only [isRegisterDst, isScalarReg, isVectorReg, isPredReg, isLatch, Bool.or_eq_true, inRange_iff] at h
  omega

theorem hasWidth_iff {p : Nat} : hasWidth p = true ↔ isVaTrig p = true ∨ isSfTrig p = true := by simp [hasWidth]

/-- Outside 0x280 to 0x30F no destination has a width. -/
theorem no_width {p : Nat} (h : p < 0x280 ∨ 0x310 ≤ p) : hasWidth p = false := by
  rw [← Bool.not_eq_true, hasWidth_iff, isVaTrig, isSfTrig, inRange_iff, inRange_iff]
  omega

theorem PortsFrom.narrow {l : List (Mv → Instr)} {p lo n : Nat} {mv : Mv} {vm : Vm} {i : Instr} (h : PortsFrom ofMv lo l)
    (hr : inRange p lo n = true) (apart : lo + n ≤ 0x280 ∨ 0x310 ≤ lo) (hi : Sys2Proof.opAt l (p - lo) mv = some i) :
    i.moveWord = some (if hasWidth p then ofVm vm (BitVec.ofNat 11 p) else ofMv mv (BitVec.ofNat 11 p)) := by
  rw [inRange_iff] at hr
  have place : lo + (p - lo) = p := by omega
  have word := h.opAt hi
  rw [place] at word
  rw [word, no_width (by omega)]
  rfl

theorem PortsFrom.wide {l : List (Vm → Instr)} {p lo n : Nat} {mv : Mv} {vm : Vm} {i : Instr} (h : PortsFrom ofVm lo l)
    (hr : inRange p lo n = true) (wide : hasWidth p = true) (hi : Sys2Proof.opAt l (p - lo) vm = some i) :
    i.moveWord = some (if hasWidth p then ofVm vm (BitVec.ofNat 11 p) else ofMv mv (BitVec.ofNat 11 p)) := by
  rw [inRange_iff] at hr
  have place : lo + (p - lo) = p := by omega
  have word := h.opAt hi
  rw [place] at word
  rw [word, wide]
  rfl

/-- What stands at a destination of Table 8.15 is a move to it. -/
theorem moveWord_instrAt {p : Nat} {mv : Mv} {vm : Vm} {i : Instr} (hp : dstListed p = true) (h : instrAt p mv vm = some i) :
    i.moveWord = some (if hasWidth p then ofVm vm (BitVec.ofNat 11 p) else ofMv mv (BitVec.ofNat 11 p)) := by
  simp only [dstListed, isTrigger, isEngineTrig, Bool.or_eq_true] at hp
  unfold instrAt at h
  split at h
  next reg =>
    obtain rfl := Option.some.inj h
    have := register_below_triggers reg
    rw [no_width (by omega)]
    rfl
  split at h
  next sa => exact saOps_ports.narrow sa (by decide) h
  split at h
  next va => exact vaOps_ports.wide va (hasWidth_iff.2 (.inl va)) h
  split at h
  next sf => exact sfOps_ports.wide sf (hasWidth_iff.2 (.inr sf)) h
  split at h
  next mem => exact memOps_ports.narrow mem (by decide) h
  split at h
  next me => exact meOps_ports.narrow me (by decide) h
  split at h
  next ce => exact ceOps_ports.narrow ce (by decide) h
  split at h
  next xu => exact xuOps_ports.narrow xu (by decide) h
  split at h
  next bk => exact bkOps_ports.narrow bk (by decide) h
  next reg sa va sf mem me ce xu bk =>
    have cu : isCuTrig p = true := by simpa [reg, sa, va, sf, mem, me, ce, xu, bk] using hp
    exact cuOps_ports.narrow cu (by decide) h

/-- A move that decodes is the move word of what it decodes to. -/
theorem moveWord_decodeMove {m : MoveWord} {i : Instr} (h : decodeMove m = some i) : i.moveWord = some m := by
  rw [decodeMove_eq] at h
  split at h
  next wf =>
    simp only [MoveWord.wf, Bool.and_eq_true] at wf
    obtain ⟨⟨⟨-, listed⟩, -⟩, modifier⟩ := wf
    rw [moveWord_instrAt listed h, BitVec.ofNat_toNat, BitVec.setWidth_eq]
    split at modifier
    next wide => rw [if_pos wide, vm_ofVm]
    next narrow =>
      have low : m.mod.getLsbD 0 = false := by simp only [Bool.and_eq_true, Bool.not_eq_true'] at modifier; exact modifier.1
      rw [if_neg narrow, mv_ofMv low]
  next => exact nomatch h

/-- A well-formed move word is read back as its instruction. -/
theorem decodeMove_moveWord {i : Instr} {m : MoveWord} (h : i.moveWord = some m) (hm : i.isMove = true) (hw : m.wf = true) : decodeMove m = some i := by
  rw [decodeMove_eq, if_pos hw, instrAt_moveWord h hm]

/-! ### Fields of a word -/

theorem toNat_append_eq {k l : Nat} (x : BitVec k) (y : BitVec l) : (x ++ y).toNat = x.toNat * 2 ^ l + y.toNat := by
  rw [BitVec.toNat_append, ← Nat.shiftLeft_add_eq_or_of_lt y.isLt, Nat.shiftLeft_eq]

theorem bits_eq_div {n : Nat} (x : BitVec n) (hi lo : Nat) : bits x hi lo = x.toNat / 2 ^ lo % 2 ^ (hi + 1 - lo) := by
  rw [bits, Nat.shiftRight_eq_div_pow]

theorem field_eq {n k lo : Nat} {w : BitVec n} {x : BitVec k} (h : w.toNat / 2 ^ lo % 2 ^ k = x.toNat) : w.extractLsb' lo k = x :=
  BitVec.eq_of_toNat_eq (by rw [BitVec.extractLsb'_toNat, Nat.shiftRight_eq_div_pow, h])

theorem toNat_field {n : Nat} (w : BitVec n) (lo k : Nat) : (w.extractLsb' lo k).toNat = w.toNat / 2 ^ lo % 2 ^ k := by
  rw [BitVec.extractLsb'_toNat, Nat.shiftRight_eq_div_pow]

theorem bit_toNat {n : Nat} (w : BitVec n) (i : Nat) : (bit w i).toNat = w.toNat / 2 ^ i % 2 := by
  rw [bit, BitVec.getLsbD, Nat.testBit_eq_decide_div_mod_eq]
  rcases Nat.mod_two_eq_zero_or_one (w.toNat / 2 ^ i) with h | h <;> simp [h]

theorem word_moveOfWord (bus : Fin 8) (w : BitVec 24) : (moveOfWord bus w).word = w := by
  have value : (w.extractLsb' 13 11 ++ w.extractLsb' 2 11 ++ w.extractLsb' 0 2).toNat = w.toNat := by
    simp only [toNat_append_eq, toNat_field]
    omega
  exact BitVec.eq_of_toNat_eq value

theorem moveOfWord_word (m : MoveWord) : moveOfWord m.bus m.word = m := by
  have value : m.word.toNat = (m.src.toNat * 2 ^ 11 + m.dst.toNat) * 2 ^ 2 + m.mod.toNat := by
    simp only [MoveWord.word, ← toNat_append_eq]
  have hsrc : m.word.extractLsb' 13 11 = m.src := field_eq (by omega)
  have hdst : m.word.extractLsb' 2 11 = m.dst := field_eq (by omega)
  have hmod : m.word.extractLsb' 0 2 = m.mod := field_eq (by omega)
  simp only [moveOfWord, hsrc, hdst, hmod]

/-! ### The address slot -/

/-- The number that an address-slot word is, field by field (Table 8.9). -/
def slotValue : Instr → Nat
  | .lend d => 1 * 2 ^ 20 + d.toNat
  | .sbase a s => 2 * 2 ^ 20 + a.toNat * 2 ^ 17 + s.toNat
  | .sstr a l s => 3 * 2 ^ 20 + a.toNat * 2 ^ 17 + l.toNat * 2 ^ 15 + s.toNat
  | .sstri a l imm => 4 * 2 ^ 20 + a.toNat * 2 ^ 17 + l.toNat * 2 ^ 15 + imm.toNat
  | .sspace a kind idx => 5 * 2 ^ 20 + a.toNat * 2 ^ 17 + kind.toNat * 2 ^ 5 + idx.toNat
  | .swlev a b => 6 * 2 ^ 20 + a.toNat * 2 ^ 17 + b.toNat
  | .srst a => 7 * 2 ^ 20 + a.toNat * 2 ^ 17
  | _ => 0

theorem toNat_encodeSlot {i : Instr} {w : BitVec 24} (h : encodeSlot i = some w) : w.toNat = slotValue i := by
  cases i
  case lend | sbase | sstr | sstri | sspace | swlev | srst =>
    rw [← Option.some.inj h]
    refine (toNat_append_eq _ _).trans ?_
    simp only [toNat_append_eq, BitVec.reduceToNat, slotValue] <;> omega
  all_goals cases h

theorem fieldsOk_lend (d : BitVec 3) : (Instr.lend d).fieldsOk = (decide (1 ≤ d.toNat) && decide (d.toNat ≤ 6)) := rfl

theorem fieldsOk_sspace (a : BitVec 3) (kind : BitVec 2) (idx : BitVec 5) :
    (Instr.sspace a kind idx).fieldsOk = (kind != 3 && (kind != 0 || idx == 0) && (kind != 1 || decide (idx.toNat < 12))) := rfl

theorem fieldsOk_swlev (a b : BitVec 3) : (Instr.swlev a b).fieldsOk = decide (b.toNat ≤ 5) := rfl

theorem decodeSlot_encodeSlot {i : Instr} {w : BitVec 24} (h : encodeSlot i = some w) (hf : i.fieldsOk = true) : decodeSlot w = some i := by
  have hw := toNat_encodeSlot h
  have hb : ∀ hi lo, bits w hi lo = slotValue i / 2 ^ lo % 2 ^ (hi + 1 - lo) := fun hi lo => by rw [bits_eq_div, hw]
  cases i
  case lend d =>
    simp only [slotValue] at hw hb
    have aop : bits w 23 20 = 1 := by rw [hb]; omega
    have zero : bits w 19 3 = 0 := by rw [hb]; omega
    have depth : bits w 2 0 = d.toNat := by rw [hb]; omega
    have hd : w.extractLsb' 0 3 = d := field_eq (by omega)
    have range : ¬(d.toNat = 0 ∨ d.toNat = 7) := by
      simp only [fieldsOk_lend, Bool.and_eq_true, decide_eq_true_eq] at hf
      omega
    simp [decodeSlot, slotFault, aop, zero, depth, range, hd]
  case sbase a s =>
    simp only [slotValue] at hw hb
    have aop : bits w 23 20 = 2 := by rw [hb]; omega
    have zero : bits w 16 6 = 0 := by rw [hb]; omega
    have ha : w.extractLsb' 17 3 = a := field_eq (by omega)
    have hs : w.extractLsb' 0 6 = s := field_eq (by omega)
    simp [decodeSlot, slotFault, aop, zero, ha, hs]
  case sstr a l s =>
    simp only [slotValue] at hw hb
    have aop : bits w 23 20 = 3 := by rw [hb]; omega
    have zero : bits w 14 6 = 0 := by rw [hb]; omega
    have ha : w.extractLsb' 17 3 = a := field_eq (by omega)
    have hl : w.extractLsb' 15 2 = l := field_eq (by omega)
    have hs : w.extractLsb' 0 6 = s := field_eq (by omega)
    simp [decodeSlot, slotFault, aop, zero, ha, hl, hs]
  case sstri a l imm =>
    simp only [slotValue] at hw hb
    have aop : bits w 23 20 = 4 := by rw [hb]; omega
    have zero : bits w 14 13 = 0 := by rw [hb]; omega
    have ha : w.extractLsb' 17 3 = a := field_eq (by omega)
    have hl : w.extractLsb' 15 2 = l := field_eq (by omega)
    have hi : w.extractLsb' 0 13 = imm := field_eq (by omega)
    simp [decodeSlot, slotFault, aop, zero, ha, hl, hi]
  case sspace a kind idx =>
    simp only [slotValue] at hw hb
    have aop : bits w 23 20 = 5 := by rw [hb]; omega
    have zero : bits w 16 7 = 0 := by rw [hb]; omega
    have space : bits w 6 5 = kind.toNat := by rw [hb]; omega
    have index : bits w 4 0 = idx.toNat := by rw [hb]; omega
    have ha : w.extractLsb' 17 3 = a := field_eq (by omega)
    have hk : w.extractLsb' 5 2 = kind := field_eq (by omega)
    have hi : w.extractLsb' 0 5 = idx := field_eq (by omega)
    simp only [fieldsOk_sspace, Bool.and_eq_true, Bool.or_eq_true, bne_iff_ne, beq_iff_eq, decide_eq_true_eq, ne_eq,
      ← BitVec.toNat_inj, BitVec.reduceToNat] at hf
    have plain : ¬(kind.toNat = 0 ∧ ¬ idx.toNat = 0) := by omega
    have range : ¬(kind.toNat = 3 ∨ kind.toNat = 1 ∧ 12 ≤ idx.toNat) := by omega
    simp [decodeSlot, slotFault, aop, zero, space, index, plain, range, ha, hk, hi]
  case swlev a b =>
    simp only [slotValue] at hw hb
    have aop : bits w 23 20 = 6 := by rw [hb]; omega
    have zero : bits w 16 3 = 0 := by rw [hb]; omega
    have level : bits w 2 0 = b.toNat := by rw [hb]; omega
    have ha : w.extractLsb' 17 3 = a := field_eq (by omega)
    have hl : w.extractLsb' 0 3 = b := field_eq (by omega)
    have range : b.toNat < 6 := by
      simp only [fieldsOk_swlev, decide_eq_true_eq] at hf
      omega
    simp [decodeSlot, slotFault, aop, zero, level, range, ha, hl]
  case srst a =>
    simp only [slotValue] at hw hb
    have aop : bits w 23 20 = 7 := by rw [hb]; omega
    have zero : bits w 16 15 = 0 := by rw [hb]; omega
    have low : bits w 14 0 = 0 := by rw [hb]; omega
    have ha : w.extractLsb' 17 3 = a := field_eq (by omega)
    simp [decodeSlot, slotFault, aop, zero, low, ha]
  all_goals cases h

/-- A word that decodes has the value of its instruction: its reserved bits are 0. -/
theorem ite_some_none {c : Prop} [Decidable c] {n : Nat} {y : Option Nat} : (if c then some n else y) = none ↔ ¬c ∧ y = none := by
  split <;> simp [*]

theorem ite_none_some {c : Prop} [Decidable c] {n : Nat} {y : Option Nat} : (if c then y else some n) = none ↔ c ∧ y = none := by
  split <;> simp [*]

theorem slotValue_decodeSlot {w : BitVec 24} {i : Instr} (h : decodeSlot w = some i) : slotValue i = w.toNat ∧ ∃ u, encodeSlot i = some u := by
  unfold decodeSlot at h
  split at h
  · cases h
  next sound =>
    have ok : slotFault w = none := by simpa using sound
    split at h
    case h_8 => exact nomatch h
    all_goals
      rename_i aop
      obtain rfl := Option.some.inj h
      refine ⟨?_, _, rfl⟩
      simp [slotFault, aop, ite_some_none, ite_none_some] at ok
      simp only [bits_eq_div] at aop ok
      simp only [slotValue, toNat_field]
      omega

theorem encodeSlot_decodeSlot {w : BitVec 24} {i : Instr} (h : decodeSlot w = some i) : encodeSlot i = some w := by
  obtain ⟨value, u, hu⟩ := slotValue_decodeSlot h
  rw [hu, BitVec.eq_of_toNat_eq ((toNat_encodeSlot hu).trans value)]

/-! ### Bank commands -/

/-- The number that the fields of a multiply command are (Table 5.6). -/
def macValue (p : Mac) : Nat :=
  p.xb.toNat * 2 ^ 56 + p.afmt.toNat * 2 ^ 49 + p.sc.toNat * 2 ^ 48 + p.sxb.toNat * 2 ^ 46 + p.e8.toNat * 2 ^ 38 + p.nr1.toNat * 2 ^ 32 +
    p.k1.toNat * 2 ^ 24 + p.koff.toNat * 2 ^ 18 + p.row.toNat

theorem some_eq_iff {n v : Nat} {x w : BitVec n} (hx : x.toNat = v) : some x = some w ↔ w.toNat = v := by
  rw [Option.some.injEq, ← BitVec.toNat_inj, hx, eq_comm]

theorem toNat_macLow (p : Mac) : (macLow p).toNat = p.sc.toNat * 2 ^ 48 + p.sxb.toNat * 2 ^ 46 + p.e8.toNat * 2 ^ 38 + p.nr1.toNat * 2 ^ 32 +
    p.k1.toNat * 2 ^ 24 + p.koff.toNat * 2 ^ 18 + p.row.toNat := by
  apply (some_eq_iff (x := BitVec.ofBool p.sc ++ p.sxb ++ p.e8 ++ p.nr1 ++ p.k1 ++ p.koff ++ p.row) ?_).1 rfl
  simp only [toNat_append_eq, BitVec.toNat_ofBool]
  omega

theorem bload_word {xb : BitVec 2} {src : Bool} {off : BitVec 40} {w : BitVec 64} :
    encodeBank (.bload xb src off) = some w ↔ w.toNat = 0x01 * 2 ^ 58 + xb.toNat * 2 ^ 56 + src.toNat * 2 ^ 55 + off.toNat :=
  some_eq_iff (x := 0x01#6 ++ xb ++ BitVec.ofBool src ++ 0#15 ++ off) (by
    simp only [toNat_append_eq, BitVec.toNat_ofBool, BitVec.reduceToNat]
    omega)

theorem bmac_word {p : Mac} {w : BitVec 64} :
    encodeBank (.bmac p) = some w ↔ w.toNat = 0x02 * 2 ^ 58 + p.wfmt.toNat * 2 ^ 51 + macValue p :=
  some_eq_iff (x := 0x02#6 ++ p.xb ++ p.wfmt ++ p.afmt ++ macLow p) (by
    simp only [toNat_append_eq, toNat_macLow, macValue, BitVec.reduceToNat]
    omega)

theorem bmact_word {p : Mac} {w : BitVec 64} :
    encodeBank (.bmact p) = some w ↔ w.toNat = 0x03 * 2 ^ 58 + p.wfmt.toNat * 2 ^ 51 + macValue p :=
  some_eq_iff (x := 0x03#6 ++ p.xb ++ p.wfmt ++ p.afmt ++ macLow p) (by
    simp only [toNat_append_eq, toNat_macLow, macValue, BitVec.reduceToNat]
    omega)

theorem bmacq_word {tq : Bool} {shift : BitVec 2} {p : Mac} {w : BitVec 64} :
    encodeBank (.bmacq tq shift p) = some w ↔ w.toNat = 0x04 * 2 ^ 58 + (tq.toNat * 2 ^ 4 + shift.toNat * 2 ^ 2) * 2 ^ 51 + macValue p :=
  some_eq_iff (x := 0x04#6 ++ p.xb ++ BitVec.ofBool tq ++ shift ++ 0#2 ++ p.afmt ++ macLow p) (by
    simp only [toNat_append_eq, BitVec.toNat_ofBool, toNat_macLow, macValue, BitVec.reduceToNat]
    omega)

theorem bscale_word {perlane : Bool} {xb : BitVec 2} {factor : BitVec 32} {w : BitVec 64} :
    encodeBank (.bscale perlane xb factor) = some w ↔ w.toNat = 0x05 * 2 ^ 58 + perlane.toNat * 2 ^ 35 + xb.toNat * 2 ^ 33 + factor.toNat :=
  some_eq_iff (x := 0x05#6 ++ 0#22 ++ BitVec.ofBool perlane ++ xb ++ 0#1 ++ factor) (by
    simp only [toNat_append_eq, BitVec.toNat_ofBool, BitVec.reduceToNat]
    omega)

theorem bstore_word {ofmt : Bool} {n1 : BitVec 6} {off : BitVec 40} {w : BitVec 64} :
    encodeBank (.bstore ofmt n1 off) = some w ↔ w.toNat = 0x06 * 2 ^ 58 + ofmt.toNat * 2 ^ 57 + n1.toNat * 2 ^ 48 + off.toNat :=
  some_eq_iff (x := 0x06#6 ++ BitVec.ofBool ofmt ++ 0#3 ++ n1 ++ 0#8 ++ off) (by
    simp only [toNat_append_eq, BitVec.toNat_ofBool, BitVec.reduceToNat]
    omega)

theorem bsend_word {ofmt : Bool} {n1 : BitVec 6} {coreid : BitVec 9} {off : BitVec 19} {sw : BitVec 15} {swv : Bool} {w : BitVec 64} :
    encodeBank (.bsend ofmt n1 coreid off sw swv) = some w ↔ w.toNat = 0x07 * 2 ^ 58 + ofmt.toNat * 2 ^ 57 + n1.toNat * 2 ^ 51 + coreid.toNat * 2 ^ 42 + off.toNat * 2 ^ 23 + sw.toNat * 2 ^ 8 + swv.toNat :=
  some_eq_iff (x := 0x07#6 ++ BitVec.ofBool ofmt ++ n1 ++ coreid ++ off ++ sw ++ 0#7 ++ BitVec.ofBool swv) (by
    simp only [toNat_append_eq, BitVec.toNat_ofBool, BitVec.reduceToNat]
    omega)

theorem bzero_word {acc : Bool} {mask : BitVec 4} {w : BitVec 64} :
    encodeBank (.bzero acc mask) = some w ↔ w.toNat = 0x08 * 2 ^ 58 + acc.toNat * 2 ^ 4 + mask.toNat :=
  some_eq_iff (x := 0x08#6 ++ 0#53 ++ BitVec.ofBool acc ++ mask) (by
    simp only [toNat_append_eq, BitVec.toNat_ofBool, BitVec.reduceToNat]
    omega)

theorem bjoin_word {j : BitVec 4} {w : BitVec 64} :
    encodeBank (.bjoin j) = some w ↔ w.toNat = 0x09 * 2 ^ 58 + j.toNat :=
  some_eq_iff (x := 0x09#6 ++ 0#54 ++ j) (by
    simp only [toNat_append_eq, BitVec.reduceToNat] <;> omega)

theorem bfence_word {w : BitVec 64} :
    encodeBank .bfence = some w ↔ w.toNat = 0x0A * 2 ^ 58 :=
  some_eq_iff (x := 0x0A#6 ++ 0#58) (rfl)

theorem bred_word {d : BitVec 6} {w : BitVec 64} :
    encodeBank (.bred d) = some w ↔ w.toNat = 0x0B * 2 ^ 58 + d.toNat * 2 ^ 52 :=
  some_eq_iff (x := 0x0B#6 ++ d ++ 0#52) (by
    simp only [toNat_append_eq, BitVec.reduceToNat]
    omega)

theorem bsync_word {sw : BitVec 19} {gen : BitVec 16} {w : BitVec 64} :
    encodeBank (.bsync sw gen) = some w ↔ w.toNat = 0x0C * 2 ^ 58 + sw.toNat * 2 ^ 16 + gen.toNat :=
  some_eq_iff (x := 0x0C#6 ++ 0#23 ++ sw ++ gen) (by
    simp only [toNat_append_eq, BitVec.reduceToNat]
    omega)

theorem bend_word {w : BitVec 64} :
    encodeBank .bend = some w ↔ w.toNat = 0x3F * 2 ^ 58 :=
  some_eq_iff (x := 0x3F#6 ++ 0#58) (rfl)

theorem bit_eq {n i : Nat} {w : BitVec n} {b : Bool} (h : w.toNat / 2 ^ i % 2 = b.toNat) : bit w i = b := by
  rw [← bit_toNat] at h
  cases b <;> cases hb : bit w i <;> simp [hb] at h ⊢

/-- The opcode of a multiply command, and the five bits above its shared fields, are read back from its word. -/
theorem macWord_op {w : BitVec 64} {p : Mac} {hi f : Nat} (hh : hi < 2 ^ 6) (hf : f < 2 ^ 5) (hw : w.toNat = hi * 2 ^ 58 + f * 2 ^ 51 + macValue p) :
    bits w 63 58 = hi ∧ w.toNat / 2 ^ 51 % 2 ^ 5 = f := by
  have := p.sc.toNat_le
  simp only [macValue] at hw
  rw [bits_eq_div]
  omega

/-- The shared fields of a multiply command are read back from its word. -/
theorem macOfWord_eq {w : BitVec 64} {p : Mac} {wfmt : BitVec 5} {hi f : Nat} (hf : f < 2 ^ 5) (hw : w.toNat = hi * 2 ^ 58 + f * 2 ^ 51 + macValue p) :
    macOfWord w wfmt = { p with wfmt := wfmt } := by
  have := p.sc.toNat_le
  simp only [macValue] at hw
  have hxb : w.extractLsb' 56 2 = p.xb := field_eq (by omega)
  have hafmt : w.extractLsb' 49 2 = p.afmt := field_eq (by omega)
  have hsc : bit w 48 = p.sc := bit_eq (by omega)
  have hsxb : w.extractLsb' 46 2 = p.sxb := field_eq (by omega)
  have he8 : w.extractLsb' 38 8 = p.e8 := field_eq (by omega)
  have hnr1 : w.extractLsb' 32 6 = p.nr1 := field_eq (by omega)
  have hk1 : w.extractLsb' 24 8 = p.k1 := field_eq (by omega)
  have hkoff : w.extractLsb' 18 6 = p.koff := field_eq (by omega)
  have hrow : w.extractLsb' 0 18 = p.row := field_eq (by omega)
  simp only [macOfWord, hxb, hafmt, hsc, hsxb, he8, hnr1, hk1, hkoff, hrow]

theorem zero_field {n hi lo : Nat} {w : BitVec n} (h : w.toNat / 2 ^ lo % 2 ^ (hi + 1 - lo) = 0) : (bits w hi lo == 0) = true := by
  rw [bits_eq_div, h]
  rfl

theorem decodeBank_encodeBank {i : Instr} {w : BitVec 64} (h : encodeBank i = some w) (hf : i.fieldsOk = true) : decodeBank w = .ok i := by
  have op : bits w 63 58 = w.toNat / 2 ^ 58 % 2 ^ 6 := bits_eq_div ..
  cases i
  case bload xb src off =>
    rw [bload_word] at h
    have bsrc := src.toNat_le
    have code : bits w 63 58 = 0x01 := by rw [op]; omega
    have zero : (bits w 54 40 == 0) = true := zero_field (by omega)
    have hxb : w.extractLsb' 56 2 = xb := field_eq (by omega)
    have hsrc : bit w 55 = src := bit_eq (by omega)
    have hoff : w.extractLsb' 0 40 = off := field_eq (by omega)
    simp only [decodeBank, code, zero, hxb, hsrc, hoff, if_true]
  case bmac p =>
    rw [bmac_word] at h
    obtain ⟨code, format⟩ := macWord_op (by decide) p.wfmt.isLt h
    have hf : w.extractLsb' 51 5 = p.wfmt := field_eq format
    simp only [decodeBank, code, hf, macOfWord_eq p.wfmt.isLt h]
  case bmact p =>
    rw [bmact_word] at h
    obtain ⟨code, format⟩ := macWord_op (by decide) p.wfmt.isLt h
    have hf : w.extractLsb' 51 5 = p.wfmt := field_eq format
    simp only [decodeBank, code, hf, macOfWord_eq p.wfmt.isLt h]
  case bmacq tq shift p =>
    rw [bmacq_word] at h
    have btq := tq.toNat_le
    have above : tq.toNat * 2 ^ 4 + shift.toNat * 2 ^ 2 < 2 ^ 5 := by omega
    obtain ⟨code, upper⟩ := macWord_op (by decide) above h
    have zero : (bits w 52 51 == 0) = true := zero_field (by omega)
    have htq : bit w 55 = tq := bit_eq (by omega)
    have hshift : w.extractLsb' 53 2 = shift := field_eq (by omega)
    have hp : { p with wfmt := 0 } = p := by
      have : p.wfmt = 0 := beq_iff_eq.1 hf
      rw [← this]
    simp only [decodeBank, code, zero, htq, hshift, macOfWord_eq above h, hp, if_true]
  case bscale perlane xb factor =>
    rw [bscale_word] at h
    have bperlane := perlane.toNat_le
    have code : bits w 63 58 = 0x05 := by rw [op]; omega
    have zero0 : (bits w 57 36 == 0) = true := zero_field (by omega)
    have zero1 : (bits w 32 32 == 0) = true := zero_field (by omega)
    have hperlane : bit w 35 = perlane := bit_eq (by omega)
    have hxb : w.extractLsb' 33 2 = xb := field_eq (by omega)
    have hfactor : w.extractLsb' 0 32 = factor := field_eq (by omega)
    simp only [decodeBank, code, zero0, zero1, hperlane, hxb, hfactor, Bool.and_self, if_true]
  case bstore ofmt n1 off =>
    rw [bstore_word] at h
    have bofmt := ofmt.toNat_le
    have code : bits w 63 58 = 0x06 := by rw [op]; omega
    have zero0 : (bits w 56 54 == 0) = true := zero_field (by omega)
    have zero1 : (bits w 47 40 == 0) = true := zero_field (by omega)
    have hofmt : bit w 57 = ofmt := bit_eq (by omega)
    have hn1 : w.extractLsb' 48 6 = n1 := field_eq (by omega)
    have hoff : w.extractLsb' 0 40 = off := field_eq (by omega)
    simp only [decodeBank, code, zero0, zero1, hofmt, hn1, hoff, Bool.and_self, if_true]
  case bsend ofmt n1 coreid off sw swv =>
    rw [bsend_word] at h
    have bofmt := ofmt.toNat_le
    have bswv := swv.toNat_le
    have code : bits w 63 58 = 0x07 := by rw [op]; omega
    have zero : (bits w 7 1 == 0) = true := zero_field (by omega)
    have hofmt : bit w 57 = ofmt := bit_eq (by omega)
    have hn1 : w.extractLsb' 51 6 = n1 := field_eq (by omega)
    have hcoreid : w.extractLsb' 42 9 = coreid := field_eq (by omega)
    have hoff : w.extractLsb' 23 19 = off := field_eq (by omega)
    have hsw : w.extractLsb' 8 15 = sw := field_eq (by omega)
    have hswv : bit w 0 = swv := bit_eq (by omega)
    simp only [decodeBank, code, zero, hofmt, hn1, hcoreid, hoff, hsw, hswv, if_true]
  case bzero acc mask =>
    rw [bzero_word] at h
    have bacc := acc.toNat_le
    have code : bits w 63 58 = 0x08 := by rw [op]; omega
    have zero : (bits w 57 5 == 0) = true := zero_field (by omega)
    have hacc : bit w 4 = acc := bit_eq (by omega)
    have hmask : w.extractLsb' 0 4 = mask := field_eq (by omega)
    simp only [decodeBank, code, zero, hacc, hmask, if_true]
  case bjoin j =>
    rw [bjoin_word] at h
    have code : bits w 63 58 = 0x09 := by rw [op]; omega
    have zero : (bits w 57 4 == 0) = true := zero_field (by omega)
    have hj : w.extractLsb' 0 4 = j := field_eq (by omega)
    simp only [decodeBank, code, zero, hj, if_true]
  case bfence =>
    rw [bfence_word] at h
    have code : bits w 63 58 = 0x0A := by rw [op]; omega
    have zero : (bits w 57 0 == 0) = true := zero_field (by omega)
    simp only [decodeBank, code, zero, if_true]
  case bred d =>
    rw [bred_word] at h
    have code : bits w 63 58 = 0x0B := by rw [op]; omega
    have zero : (bits w 51 0 == 0) = true := zero_field (by omega)
    have hd : w.extractLsb' 52 6 = d := field_eq (by omega)
    simp only [decodeBank, code, zero, hd, if_true]
  case bsync sw gen =>
    rw [bsync_word] at h
    have code : bits w 63 58 = 0x0C := by rw [op]; omega
    have zero : (bits w 57 35 == 0) = true := zero_field (by omega)
    have hsw : w.extractLsb' 16 19 = sw := field_eq (by omega)
    have hgen : w.extractLsb' 0 16 = gen := field_eq (by omega)
    simp only [decodeBank, code, zero, hsw, hgen, if_true]
  case bend =>
    rw [bend_word] at h
    have code : bits w 63 58 = 0x3F := by rw [op]; omega
    have zero : (bits w 57 0 == 0) = true := zero_field (by omega)
    simp only [decodeBank, code, zero, if_true]
  all_goals cases h

theorem macValue_macOfWord (w : BitVec 64) (wfmt : BitVec 5) : macValue (macOfWord w wfmt) = w.toNat / 2 ^ 56 % 2 ^ 2 * 2 ^ 56 + w.toNat % 2 ^ 51 := by
  simp only [macValue, macOfWord, toNat_field, bit_toNat]
  omega

theorem need_ok {c : Bool} {i j : Instr} (h : (if c then Except.ok i else Except.error 2 : Except Nat Instr) = .ok j) : c = true ∧ i = j := by
  cases c
  · exact nomatch h
  · exact ⟨rfl, Except.ok.inj h⟩

/-- No bit of a command word is dropped: the reserved bits of one that decodes are 0. -/
theorem macOfWord_wfmt (w : BitVec 64) (f : BitVec 5) : (macOfWord w f).wfmt = f := rfl

/-- No bit of a command word is dropped: the reserved bits of one that decodes are 0. -/
theorem encodeBank_decodeBank {w : BitVec 64} {i : Instr} (h : decodeBank w = .ok i) : encodeBank i = some w := by
  unfold decodeBank at h
  have range := w.isLt
  simp only [] at h
  split at h
  next op =>
    obtain ⟨zero, rfl⟩ := need_ok h
    simp only [bits_eq_div, beq_iff_eq] at op zero
    rw [bload_word]
    simp only [toNat_field, bit_toNat]
    omega
  next op =>
    obtain rfl := Except.ok.inj h
    simp only [bits_eq_div] at op
    rw [bmac_word]
    simp only [macValue_macOfWord, toNat_field, macOfWord_wfmt]
    omega
  next op =>
    obtain rfl := Except.ok.inj h
    simp only [bits_eq_div] at op
    rw [bmact_word]
    simp only [macValue_macOfWord, toNat_field, macOfWord_wfmt]
    omega
  next op =>
    obtain ⟨zero, rfl⟩ := need_ok h
    simp only [bits_eq_div, beq_iff_eq] at op zero
    rw [bmacq_word]
    simp only [macValue_macOfWord, toNat_field, bit_toNat]
    omega
  next op =>
    obtain ⟨zero, rfl⟩ := need_ok h
    simp only [bits_eq_div, beq_iff_eq, Bool.and_eq_true] at op zero
    rw [bscale_word]
    simp only [toNat_field, bit_toNat]
    omega
  next op =>
    obtain ⟨zero, rfl⟩ := need_ok h
    simp only [bits_eq_div, beq_iff_eq, Bool.and_eq_true] at op zero
    rw [bstore_word]
    simp only [toNat_field, bit_toNat]
    omega
  next op =>
    obtain ⟨zero, rfl⟩ := need_ok h
    simp only [bits_eq_div, beq_iff_eq] at op zero
    rw [bsend_word]
    simp only [toNat_field, bit_toNat]
    omega
  next op =>
    obtain ⟨zero, rfl⟩ := need_ok h
    simp only [bits_eq_div, beq_iff_eq] at op zero
    rw [bzero_word]
    simp only [toNat_field, bit_toNat]
    omega
  next op =>
    obtain ⟨zero, rfl⟩ := need_ok h
    simp only [bits_eq_div, beq_iff_eq] at op zero
    rw [bjoin_word]
    simp only [toNat_field]
    omega
  next op =>
    obtain ⟨zero, rfl⟩ := need_ok h
    simp only [bits_eq_div, beq_iff_eq] at op zero
    rw [bfence_word]
    omega
  next op =>
    obtain ⟨zero, rfl⟩ := need_ok h
    simp only [bits_eq_div, beq_iff_eq] at op zero
    rw [bred_word]
    simp only [toNat_field]
    omega
  next op =>
    obtain ⟨zero, rfl⟩ := need_ok h
    simp only [bits_eq_div, beq_iff_eq] at op zero
    rw [bsync_word]
    simp only [toNat_field]
    omega
  next op =>
    obtain ⟨zero, rfl⟩ := need_ok h
    simp only [bits_eq_div, beq_iff_eq] at op zero
    rw [bend_word]
    omega
  next => exact nomatch h

/-! ### All words -/

/-- An instruction of the address slot or of a bank is no move. -/
theorem moveWord_of_encodeSlot {i : Instr} {w : BitVec 24} (h : encodeSlot i = some w) : i.moveWord = none := by
  cases i
  case lend | sbase | sstr | sstri | sspace | swlev | srst => rfl
  all_goals cases h

theorem moveWord_of_encodeBank {i : Instr} {w : BitVec 64} (h : encodeBank i = some w) : i.moveWord = none ∧ encodeSlot i = none := by
  cases i
  case bload | bmac | bmact | bmacq | bscale | bstore | bsend | bzero | bjoin | bfence | bred | bsync | bend => exact ⟨rfl, rfl⟩
  all_goals cases h

theorem encode_move {i : Instr} {m : MoveWord} (h : i.moveWord = some m) : encode i = some (.slot m.bus.val m.word) := by
  simp only [encode, h]

theorem encode_slot {i : Instr} {w : BitVec 24} (h : encodeSlot i = some w) : encode i = some (.slot 8 w) := by
  simp only [encode, moveWord_of_encodeSlot h, h]

theorem encode_bank {i : Instr} {w : BitVec 64} (h : encodeBank i = some w) : encode i = some (.bank w) := by
  obtain ⟨hm, hs⟩ := moveWord_of_encodeBank h
  simp only [encode, hm, hs, h, Option.map_some]

/-- The words of an instruction are those of a move, of an address slot or of a bank command. -/
theorem encode_cases {i : Instr} {e : Encoding} (h : encode i = some e) :
    (∃ m, i.moveWord = some m ∧ e = .slot m.bus.val m.word) ∨ (∃ w, encodeSlot i = some w ∧ e = .slot 8 w) ∨ ∃ w, encodeBank i = some w ∧ e = .bank w := by
  unfold encode at h
  split at h
  next m hm => exact .inl ⟨m, hm, (Option.some.inj h).symm⟩
  next =>
    split at h
    next w hw => exact .inr (.inl ⟨w, hw, (Option.some.inj h).symm⟩)
    next =>
      obtain ⟨w, hw, rfl⟩ := Option.map_eq_some_iff.1 h
      exact .inr (.inr ⟨w, hw, rfl⟩)

theorem fixedBus_val (b : Fin 8) : fixedBus b.val = b := Fin.ext (Nat.mod_eq_of_lt b.isLt)

theorem decode_place (b : Fin 8) (w : BitVec 24) : decode (.slot b.val w) = decodeMove (moveOfWord b w) := by
  simp only [decode, b.isLt, if_true, fixedBus_val]

theorem decode_slot (w : BitVec 24) : decode (.slot 8 w) = decodeSlot w := rfl

/-- Settles O2: fields are read back from a word's number, and a word that decodes has no reserved bit set. -/
theorem decodeEncode : Obligations.DecodeEncode := by
  unfold Obligations.DecodeEncode
  refine ⟨fun i e wf h => ?back, fun place w i h => ?move, fun w i h => ?slot, fun w i h => ?bank⟩
  case back =>
    simp only [Instr.wf, Bool.and_eq_true] at wf
    obtain ⟨⟨fields, isMove⟩, word⟩ := wf
    rcases encode_cases h with ⟨m, hm, rfl⟩ | ⟨w, hw, rfl⟩ | ⟨w, hw, rfl⟩
    · rw [hm] at word
      rw [decode_place, moveOfWord_word, decodeMove_moveWord hm isMove word]
    · rw [decode_slot, decodeSlot_encodeSlot hw fields]
    · simp only [decode, decodeBank_encodeBank hw fields]
  case move =>
    rw [decode_place] at h
    rw [encode_move (moveWord_decodeMove h), word_moveOfWord]
    rfl
  case slot =>
    rw [decode_slot] at h
    exact encode_slot (encodeSlot_decodeSlot h)
  case bank =>
    simp only [decode] at h
    split at h
    next j hj =>
      obtain rfl := Option.some.inj h
      exact encode_bank (encodeBank_decodeBank hj)
    next => exact nomatch h

end Sys2Proof
end

section
/-!
SUPPORT. What runs next, what reset leaves and what a member finds at kernel entry (O1, O4, O36, O55, O56).
-/

namespace Sys2Proof.Machine

/-! ### The agenda -/

variable {s : State} {r : List Act}

theorem step_of_nil (h : s.agenda = []) : step s = exec .bundleIssue s := by simp only [step, h]

theorem step_of_core {c : Nat} (h : s.agenda = .core c :: r) (hc : c < 384) : step s = exec .bundleIssue { s with agenda := r, cur := c } := by
  simp only [step, h]
  exact if_pos hc

theorem step_of_event {i : Instr} (h : s.agenda = .ev i :: r) (hw : i.wf = true) (he : encode i = none) : step s = exec i { s with agenda := r } := by
  simp only [step, h, hw, he, Option.isNone_none, Bool.and_self, if_true]

theorem step_of_bank {e : Nat} (h : s.agenda = .bank e :: r) (he : e < 512) :
    step s = match bankTurn { s with agenda := r, eng := e } e with
      | .idle => .next { s with agenda := r, eng := e }
      | .park code sub => .next (parkBank { s with agenda := r, eng := e } e code sub)
      | .run i => exec i { s with agenda := r, eng := e } := by
  simp only [step, h, he, if_true] <;> rfl

theorem step_of_engine {c id : Nat} (h : s.agenda = .eng c id :: r) (hc : c < 384) : step s = engineTurn { s with agenda := r } c id := by
  simp only [step, h]
  exact if_pos hc

theorem step_of_firmware (h : s.agenda = .firmware :: r) : step s = .next (commandTurn { s with agenda := r }) := by simp only [step, h]
theorem step_of_time {n : Nat} (h : s.agenda = .time n :: r) : step s = .next (passTime n { s with agenda := r }) := by simp only [step, h]
theorem step_of_softError {n : Nat} (h : s.agenda = .softError n :: r) : step s = .next (softError n { s with agenda := r }) := by simp only [step, h]
theorem step_of_host {a : HostAct} (h : s.agenda = .host a :: r) : step s = hostAct a { s with agenda := r } := by simp only [step, h]
theorem step_of_policy {a : PolicyAct} (h : s.agenda = .policy a :: r) : step s = .next (policyAct a { s with agenda := r }) := by simp only [step, h]

/-! ### The turn of an engine operation -/

theorem isFifoOp_iff (p : Nat) : isFifoOp p = true ↔ p = 0x3B0 ∨ p = 0x3B5 := by simp [isFifoOp]

theorem engineTurn_gone {c id : Nat} (h : s.op c id = none) : engineTurn s c id = .next s := by simp only [engineTurn, h]

section
variable {c id : Nat} {o : Op} (ho : s.op c id = some o)
include ho

theorem engineTurn_stopping (hs : (s.core c).stopping = true) (hr : o.runs = []) : engineTurn s c id = .next s := by
  simp only [engineTurn, ho, hs, hr, List.isEmpty_nil, Bool.and_self, if_true]

variable (go : (s.core c).stopping = false ∨ o.runs ≠ [])
include go

theorem engineTurn_goes : engineTurn s c id =
    if isFifoOp o.port then execDxEntryDeliver c id s
    else if o.isMe && o.live && !engineFree (s.core c) o then .next (prefetch s c id o) else .next (stepOp s c id) := by
  have : ((s.core c).stopping && o.runs.isEmpty) = false := by
    rcases go with h | h
    · rw [h, Bool.false_and]
    · simp [h]
  simp only [engineTurn, ho, this, Bool.false_eq_true, if_false]

end

theorem commandTurn_none (h : s.command = none) : commandTurn s = s := by simp only [commandTurn, h]

theorem commandTurn_some {op : Nat} {args : List Word} (h : s.command = some (op, args)) : commandTurn s = commandEnd op args s (commandBody op args s) := by
  simp only [commandTurn, h]

theorem policyAct_entry {gath rank folio : Nat} {e : MapEntry} (h : s.policyLoaded = true) :
    policyAct (.entry gath rank folio e) s = modEp s gath rank fun p => p.setEntry folio e := by simp only [policyAct, h, if_true]

/-- A unit that completes advances its operation. -/
theorem stepOp_unit {t : State} {c id : Nat} {o : Op} (ho : s.op c id = some o) (hp : isFifoOp o.port = false) (late : mcastLate s c id = s)
    (may : mayRun (s.core c) o = true) (left : o.prog < unitsOf s c id o) (unit : opUnit s c id o = .ok t) : stepOp s c id = t.modOp c id Op.advance := by
  simp only [stepOp, late, ho, may, hp, left, unit, Bool.not_false, decide_true, Bool.and_self, if_true]

/-! ### The command of a bank engine -/

theorem bankTurn_run {e id c : Nat} {l : BankList} {w : Word} {i : Instr} (hl : (s.bank e).list = some (c, id)) (hf : findList s id = some l)
    (hw : (s.bank e).wait = .none) (hh : headerFault l (s.bank e) = none) (hc : (s.bank e).cmds[(s.bank e).idx]? = some w)
    (hd : decode (.bank w) = some i) : bankTurn s e = .run i := by
  have word : decodeBank w = .ok i := by
    simp only [decode] at hd
    split at hd
    next j hj => rw [hj, Option.some.inj hd]
    next => exact nomatch hd
  have noWait : waitOver s e l = true := by simp only [waitOver, hw]
  simp only [bankTurn, hl, Option.bind_some, hf, noWait, hh, hc, word, Bool.true_eq_false, if_false]

/-- Settles O4, by the head of the agenda. -/
theorem stepRuns : Obligations.StepRuns := by
  unfold Obligations.StepRuns
  refine ⟨⟨fun s h => step_of_nil h, fun s c r h hc => step_of_core h hc, fun s e r i h he hb => ?bankRun, fun s e r code sub h he hb => ?bankPark,
    fun s i r h hw he => step_of_event h hw he, fun s n r h => step_of_time h, fun s c id r h hc => ?engine,
    fun s r h => ⟨fun hc => ?noCommand, fun op args hc => ?command⟩, fun s n r h hn => ?soft, fun s a r h => step_of_host h, fun s n r h => ?counter,
    fun s gath rank folio e r h hp => ?policy⟩, fun s e id c l w i hl hf hw hh hc hd => bankTurn_run hl hf hw hh hc hd⟩
  case bankRun => rw [step_of_bank h he, hb]
  case bankPark => rw [step_of_bank h he, hb]
  case engine =>
    rw [step_of_engine h hc]
    refine ⟨fun ho => engineTurn_gone ho, fun o ho => ⟨fun hs hr => engineTurn_stopping ho hs hr, fun go => ?_⟩⟩
    rw [engineTurn_goes (s := { s with agenda := r }) ho go]
    have plain : o.port ≠ 0x3B0 → o.port ≠ 0x3B5 → isFifoOp o.port = false := fun h0 h5 => by simp [isFifoOp, h0, h5]
    refine ⟨fun hp => if_pos ((isFifoOp_iff _).2 hp), fun h0 h5 me live busy => ?ahead, fun h0 h5 turn => ⟨?unit, fun t late may left unit => ?done⟩⟩
    case ahead =>
      have free : engineFree (State.core { s with agenda := r } c) o = false := busy
      simp only [plain h0 h5, me, live, free, Bool.not_false, Bool.and_self, Bool.false_eq_true, if_true, if_false]
    all_goals
      have notAhead : (o.isMe && o.live && !engineFree (State.core { s with agenda := r } c) o) = false := by
        have turn : o.isMe = false ∨ o.live = false ∨ engineFree (State.core { s with agenda := r } c) o = true := turn
        rcases turn with h | h | h <;> simp [h]
      simp only [plain h0 h5, notAhead, Bool.false_eq_true, if_false]
    case done => rw [stepOp_unit (s := { s with agenda := r }) ho (plain h0 h5) late may left unit]
  case noCommand => rw [step_of_firmware h, commandTurn_none (s := { s with agenda := r }) hc]
  case command => rw [step_of_firmware h, commandTurn_some (s := { s with agenda := r }) hc]
  case soft =>
    rw [step_of_softError h, softError, if_pos hn]
    rfl
  case counter =>
    rw [step_of_host h]
    simp only [hostAct, toHost, BitVec.toNat_ofNat]
  case policy => rw [step_of_policy h, policyAct_entry (s := { s with agenda := r }) hp]

/-! ### Reset and kernel entry -/

/-- Settles O56. -/
theorem invAtReset : Obligations.InvAtReset := by
  have allowance : State.reset.budget.allowance ≤ Config.windowBudget := Nat.le_refl _
  have next : State.reset.budget.nextAllowance ≤ Config.windowBudget := Nat.le_refl _
  exact ⟨State.MemOk.reset, allowance, next⟩

/-- Settles O55: every table is empty after reset, and a region register that is not listed reads as its reset value. -/
theorem resetState : Obligations.ResetState := by
  unfold Obligations.ResetState
  refine ⟨fun c => rfl, fun n => rfl, fun i => rfl, rfl, rfl, rfl, rfl, rfl, rfl, rfl, fun stack k hs hk => ?_⟩
  have region : State.reset.regions.get (regionReset (16 * stack + k)) (16 * stack + k) = regionReset (16 * stack + k) := rfl
  have place : (16 * stack + k) % 16 = 0 ↔ k = 0 := by omega
  rw [region, regionReset]
  simp only [place]

/-- Settles O36: the core is cleared of its last member, and its image stands where the loader put it. -/
theorem kernelEntry : Obligations.KernelEntry := by
  unfold Obligations.KernelEntry
  intro k g core rank scratch imem map n
  have modes : ∀ i ∈ [0x104, 0x107, 0x10A, 0x10C], cfgReset i = 0x90009 := by decide
  refine ⟨fun i => ⟨rfl, rfl, rfl⟩, fun i => ⟨rfl, rfl⟩, fun i => rfl, modes, rfl, rfl, fun i => ⟨rfl, rfl⟩, rfl, rfl, rfl, rfl, rfl, rfl, rfl, rfl, rfl, fun f => rfl,
    rfl, rfl, rfl, rfl, rfl, rfl⟩

/-- Settles O1, word by word. -/
theorem wordsDecode : Obligations.WordsDecode := by
  unfold Obligations.WordsDecode
  decide +kernel

end Sys2Proof.Machine
end

section
/-!
SUPPORT. The static check of a bundle (O3): the part that a condition of Table 8.16 names is the lowest, and so is the subcode
that is reported.
-/

namespace Sys2Proof

/-! ### The lowest move and the lowest subcode -/

/-- A move that meets a condition bounds the one that is named. -/
theorem firstMove_le {f : Nat → Bool} {k : Nat} (hk : k < 8) (h : f k = true) : ∃ w, w ≤ k ∧ firstMove f = some w := by
  have found : (firstMove f).isSome := List.find?_isSome.2 ⟨k, List.mem_range.2 hk, h⟩
  obtain ⟨w, hw⟩ := Option.isSome_iff_exists.1 found
  obtain ⟨-, -, before⟩ := List.find?_range_eq_some.1 hw
  refine ⟨w, Nat.le_of_not_lt fun hlt => ?_, hw⟩
  have := before k hlt
  simp [h] at this

theorem firstMove_none {f : Nat → Bool} (h : ∀ k, k < 8 → f k = false) : firstMove f = none :=
  List.find?_eq_none.2 fun k hk => by simp [h k (List.mem_range.1 hk)]

/-- The part that a condition names is at most the lowest move that meets it. -/
theorem partAt_le {f : Nat → Bool} {slot ctl whole : Bool} {k : Nat} (hk : k < 8) (h : f k = true) : ∃ w, w ≤ k ∧ partAt f slot ctl whole = some w := by
  obtain ⟨w, hle, hw⟩ := firstMove_le hk h
  exact ⟨w, hle, by rw [partAt, hw]⟩

theorem partAt_whole (f : Nat → Bool) (slot ctl : Bool) : (partAt f slot ctl true).isSome = true := by
  unfold partAt
  split
  · rfl
  · cases slot <;> cases ctl <;> rfl

theorem upto_succ (lo n : Nat) : upto lo (n + 1) = lo :: upto (lo + 1) n := by
  simp only [upto, List.range_succ_eq_map, List.map_cons, List.map_map, Nat.add_zero]
  congr 1
  exact List.map_congr_left fun a _ => by simp only [Function.comp_apply]; omega

/-- The first of a row of conditions that holds. -/
theorem findSome_upto {α : Type} (f : Nat → Option α) (lo n : Nat) (m : Nat) (w : α) :
    ((upto lo n).findSome? fun j => (f j).map fun w => (j, w)) = some (m, w) ↔
      lo ≤ m ∧ m < lo + n ∧ f m = some w ∧ ∀ j, lo ≤ j → j < m → f j = none := by
  induction n generalizing lo with
  | zero =>
    have empty : upto lo 0 = [] := rfl
    rw [empty]
    constructor
    · intro h; exact nomatch h
    · rintro ⟨h, h', -⟩; omega
  | succ n ih =>
    rw [upto_succ, List.findSome?_cons]
    cases hf : f lo with
    | some v =>
      simp only [Option.map_some, Option.some.injEq, Prod.mk.injEq]
      constructor
      · rintro ⟨rfl, rfl⟩
        exact ⟨Nat.le_refl _, by omega, hf, fun j h1 h2 => by omega⟩
      · rintro ⟨h1, h2, h3, h4⟩
        have : m = lo := by
          rcases Nat.eq_or_lt_of_le h1 with h | h
          · exact h.symm
          · have := h4 lo (Nat.le_refl _) h
            rw [hf] at this
            cases this
        subst this
        rw [hf] at h3
        exact ⟨rfl, Option.some.inj h3⟩
    | none =>
      simp only [Option.map_none, ih]
      constructor
      · rintro ⟨h1, h2, h3, h4⟩
        refine ⟨by omega, by omega, h3, fun j h5 h6 => ?_⟩
        rcases Nat.eq_or_lt_of_le h5 with rfl | h
        · exact hf
        · exact h4 j h h6
      · rintro ⟨h1, h2, h3, h4⟩
        have : m ≠ lo := by
          rintro rfl
          rw [hf] at h3
          cases h3
        exact ⟨by omega, by omega, h3, fun j h5 h6 => h4 j (by omega) h6⟩

theorem findSome_upto_none {α : Type} (f : Nat → Option α) (lo n : Nat) :
    ((upto lo n).findSome? fun j => (f j).map fun w => (j, w)) = none ↔ ∀ j, lo ≤ j → j < lo + n → f j = none := by
  simp only [List.findSome?_eq_none_iff, Option.map_eq_none_iff, upto, List.mem_map, List.mem_range, forall_exists_index, and_imp, forall_apply_eq_imp_iff₂]
  constructor
  · intro h j h1 h2
    have := h (j - lo) (by omega)
    rwa [show lo + (j - lo) = j by omega] at this
  · intro h a ha
    exact h _ (by omega) (by omega)

/-! ### The conditions of Table 8.16 -/

section
variable {b : BitVec 512}

theorem checkBundle_format (h : bFormat b ≠ 0) : checkBundle b = some (1, 15) := if_pos h

/-- A stray CU trigger comes before every other subcode. -/
theorem checkBundle_stray (hf : bFormat b = 0) {k : Nat} (hk : k < 8) (h : bStrayCu b k = true) :
    ∃ w, w ≤ k ∧ bFault b 9 = some w ∧ checkBundle b = some (9, w) := by
  obtain ⟨u, -, hu⟩ := firstMove_le hk h
  obtain ⟨w, hle, hw⟩ := firstMove_le (f := fun k => bStrayCu b k || (bPresent b k && (bDst b k == 0x3E2 || bDst b k == 0x3E3) && ctlJumps b)) hk
    (by simp only [h, Bool.true_or])
  have nine : bFault b 9 = some w := hw
  refine ⟨w, hle, nine, ?_⟩
  simp only [checkBundle, hf, hu, nine, ne_eq, not_true_eq_false, if_false, Option.map_some]

theorem checkBundle_ordered (hf : bFormat b = 0) (h : ∀ k, k < 8 → bStrayCu b k = false) :
    checkBundle b = (upto 2 10).findSome? fun n => (bFault b n).map fun w => (n, w) := by
  simp only [checkBundle, hf, firstMove_none h, ne_eq, not_true_eq_false, if_false]

theorem bits_ne_zero {n hi lo : Nat} {x : BitVec n} (h : x.extractLsb' lo (hi + 1 - lo) ≠ 0) : (bits x hi lo != 0) = true := by
  rw [bne_iff_ne, bits_eq_div, ← toNat_field]
  exact fun h0 => h (BitVec.eq_of_toNat_eq h0)

theorem bits_of_field {n hi lo v : Nat} {x : BitVec n} (h : x.extractLsb' lo (hi + 1 - lo) = BitVec.ofNat _ v) : bits x hi lo = v % 2 ^ (hi + 1 - lo) := by
  rw [bits_eq_div, ← toNat_field, h, BitVec.toNat_ofNat]

/-- No port of Tables 8.13 and 8.15 stands at 0x3E8 or above, and no trigger among the literals. -/
theorem not_listed {p : Nat} (h : 0x3E8 ≤ p) : srcListed p = false ∧ dstListed p = false := by
  simp only [srcListed, dstListed, isRegisterDst, isScalarReg, isVectorReg, isPredReg, isLatch, isTrigger, isEngineTrig, isSaTrig, isVaTrig, isSfTrig, isMemTrig, isMeTrig,
    isCeTrig, isXuTrig, isBkTrig, isCuTrig, ← Bool.not_eq_true, Bool.or_eq_true, inRange_iff]
  omega

theorem literal_not_dst {p : Nat} (h : 0x0A0 ≤ p) (h' : p < 0x0A5) : dstListed p = false := by
  simp only [dstListed, isRegisterDst, isScalarReg, isVectorReg, isPredReg, isLatch, isTrigger, isEngineTrig, isSaTrig, isVaTrig, isSfTrig, isMemTrig, isMeTrig,
    isCeTrig, isXuTrig, isBkTrig, isCuTrig, ← Bool.not_eq_true, Bool.or_eq_true, inRange_iff]
  omega

theorem vaTrig_of {p : Nat} (h : 0x280 ≤ p) (h' : p < 0x2A7) : isVaTrig p = true := inRange_iff.2 ⟨h, h'⟩

theorem meTrig_high_buses {k p : Nat} (hk : k < 6) (h : 0x380 ≤ p) (h' : p < 0x391) : reaches k p = false := by
  have me : isEngineTrig p = true := by simp [isEngineTrig, show isMeTrig p = true from inRange_iff.2 ⟨h, h'⟩]
  have scalar : isScalarReg p = false := by simp only [isScalarReg, ← Bool.not_eq_true, inRange_iff]; omega
  have pred : isPredReg p = false := by simp only [isPredReg, ← Bool.not_eq_true, inRange_iff]; omega
  have vector : isVectorReg p = false := by simp only [isVectorReg, ← Bool.not_eq_true, inRange_iff]; omega
  have va : inRange p 0x102 9 = false := by rw [← Bool.not_eq_true, inRange_iff]; omega
  have sf : inRange p 0x10B 8 = false := by rw [← Bool.not_eq_true, inRange_iff]; omega
  have c0 : ¬(p = 0x100 ∨ p = 0x113) := by omega
  have c1 : ¬(p = 0x101 ∨ p = 0x114) := by omega
  simp [reaches, scalar, pred, vector, va, sf, c0, c1, me, hk]

/-- Two moves into one `s` register are in conflict where every move executes. -/
theorem conflict_scalar {i j : Nat} (hij : i < j) (hi : bPresent b i = true) (hj : bPresent b j = true) (hd : bDst b i = bDst b j) (hs : bDst b i < 0x40)
    (hc : bCtl b = false) : bConflict b i j = true := by
  have register : isRegisterDst (bDst b j) = true := by
    have : isScalarReg (bDst b j) = true := inRange_iff.2 ⟨Nat.zero_le _, by omega⟩
    simp [isRegisterDst, this]
  simp [bConflict, sameTarget, bMaskUsed, hij, hi, hj, hd, hc, register]

theorem bWidth_full {k : Nat} (hp : bPresent b k = true) (hv : isVaTrig (bDst b k) = true) (hw : (bMove b k).extractLsb' 0 2 = 0) : bWidth b k = 1024 := by
  have width : bits (bMove b k) 1 0 = 0 := bits_of_field hw
  simp [bWidth, hp, hv, width]

theorem slotFault_reserved {w : BitVec 24} (h : 8 ≤ bits w 23 20) : slotFault w = some 8 := by
  simp only [slotFault]
  iterate 8 rw [if_neg (by omega)]

/-- The low three bits of the control field are the number of tests and FORK (Table 8.6). -/
theorem control_low (b : BitVec 512) : bits (bControl b) 1 0 = (b.extractLsb' 232 3).toNat % 4 ∧ (bit (bControl b) 2).toNat = (b.extractLsb' 232 3).toNat / 4 := by
  rw [bits_eq_div, bit_toNat, bControl, toNat_field, toNat_field]
  omega

theorem leaf_target (b : BitVec 512) : cLeaf (bControl b) 0 / 4 = (b.extractLsb' 270 3).toNat := by
  rw [cLeaf, bits_eq_div, bControl, toNat_field, toNat_field]
  omega

/-- A shape of one test is no FORK, and has two leaves (Table 8.9a). -/
theorem chain_of_one {b : BitVec 512} (h : b.extractLsb' 232 3 = 0) : cLeaves (bControl b) = 2 := by
  obtain ⟨tests, fork⟩ := control_low b
  rw [h] at tests fork
  have single : cTests (bControl b) = 1 := by rw [cTests, tests]; rfl
  have chain : cFork (bControl b) = false := by simpa [cFork] using fork
  simp [cLeaves, cShapeless, chain, single]

theorem fork_of_one {b : BitVec 512} (h : b.extractLsb' 232 3 = 4) : cShapeless (bControl b) = true := by
  obtain ⟨tests, fork⟩ := control_low b
  rw [h] at tests fork
  have single : cTests (bControl b) = 1 := by rw [cTests, tests]; rfl
  have forks : cFork (bControl b) = true := by simpa [cFork] using fork
  simp [cShapeless, forks, single]

/-- A first leaf that does not fall through makes the control field jump. -/
theorem ctlJumps_first {b : BitVec 512} (hc : bCtl b = true) (hn : 0 < cLeaves (bControl b)) (h : b.extractLsb' 270 3 ≠ 5) : ctlJumps b = true := by
  have jumps : cLeaf (bControl b) 0 / 4 ≠ 5 := by
    rw [leaf_target]
    exact fun h5 => h (BitVec.eq_of_toNat_eq h5)
  simp only [ctlJumps, hc, Bool.true_and, List.any_eq_true, List.mem_range, bne_iff_ne]
  exact ⟨0, hn, jumps⟩

end

/-- Settles O3. -/
theorem lowestBundleFault : Obligations.LowestBundleFault := by
  unfold Obligations.LowestBundleFault
  intro b stray
  have strayIff : ∀ k, stray k ↔ k < 8 ∧ bStrayCu b k = true := by
    intro k
    simp only [stray, bStrayCu, Bool.and_eq_true, decide_eq_true_eq]
    exact ⟨fun ⟨below, above, present, cu⟩ => ⟨below, ⟨present, above⟩, cu⟩, fun ⟨below, ⟨present, above⟩, cu⟩ => ⟨below, above, present, cu⟩⟩
  refine ⟨checkBundle_format, fun k hf h => ?stray, fun hf h => ?ordered, fun h => ?whole, fun k hk hp h => ?absent, fun k hk hp h => ?beyond,
    fun k hk hp h h' => ?literal, fun k hk hp h h' => ?me, fun i j hij hj hi hj' hd hs hc => ?twice, fun h => ?pool, fun hv ha => ?slot, fun hp hd hc ht hl => ?leaf,
    fun hc hs => ?fork, fun k hk hp h h' hw => ?width⟩
  case stray =>
    obtain ⟨hk, h⟩ := (strayIff k).1 h
    exact checkBundle_stray hf hk h
  case ordered =>
    rw [checkBundle_ordered hf fun k hk => Bool.eq_false_iff.2 fun h' => h k ((strayIff k).2 ⟨hk, h'⟩)]
    refine ⟨fun n w => ?_, ?_⟩
    · rw [findSome_upto]
      constructor <;> (rintro ⟨h1, h2, h3⟩; exact ⟨h1, by omega, h3⟩)
    · rw [findSome_upto_none]
      constructor <;> (intro h j h1 h2; exact h j h1 (by omega))
  case whole =>
    have bit14 : (bit b 14 || bits b 351 341 != 0) = true := by
      rcases h with h | h
      · rw [bit, h, Bool.true_or]
      · rw [bits_ne_zero (hi := 351) h, Bool.or_true]
    show (partAt _ _ _ (bit b 14 || bits b 351 341 != 0)).isSome = true
    rw [bit14]
    exact partAt_whole ..
  case absent =>
    refine partAt_le hk ?_
    simpa [hp] using h
  case beyond =>
    refine firstMove_le hk ?_
    simp [hp, not_listed h]
  case literal =>
    refine firstMove_le hk ?_
    simp [hp, literal_not_dst h h']
  case me =>
    refine firstMove_le (by omega) ?_
    simp [hp, meTrig_high_buses hk h h']
  case twice =>
    refine firstMove_le (by omega) ?_
    exact List.any_eq_true.2 ⟨j, List.mem_range.2 hj, conflict_scalar hij hi hj' hd hs hc⟩
  case pool =>
    have full : ∀ k ∈ [2, 3, 4], bWidth b k = 1024 := fun k hk => bWidth_full (h k hk).1 (vaTrig_of (h k hk).2.1 (h k hk).2.2.1) (h k hk).2.2.2
    refine firstMove_le (by decide) ?_
    have sum : bWidthTo b 4 = bWidth b 0 + (bWidth b 1 + (bWidth b 2 + (bWidth b 3 + (bWidth b 4 + 0)))) := rfl
    rw [sum, full 2 (by simp), full 3 (by simp), full 4 (by simp), decide_eq_true_eq]
    omega
  case slot =>
    have aop : slotFault (bSlot b) = some 8 := by
      refine slotFault_reserved ?_
      rw [toNat_field] at ha
      rw [bits_eq_div, bSlot, toNat_field]
      omega
    have valid : bAv b = true := hv
    show (if (bAv b && slotFault (bSlot b) == some 8) = true then some 8 else none) = some 8
    rw [valid, aop]
    rfl
  case leaf =>
    have jumps : ctlJumps b = true := ctlJumps_first hc (by rw [chain_of_one ht]; decide) hl
    have first : (bStrayCu b 0 || (bPresent b 0 && (bDst b 0 == 0x3E2 || bDst b 0 == 0x3E3) && ctlJumps b)) = true := by simp [hp, hd, jumps]
    obtain ⟨w, hw, named⟩ := firstMove_le
      (f := fun k => bStrayCu b k || (bPresent b k && (bDst b k == 0x3E2 || bDst b k == 0x3E3) && ctlJumps b)) (by decide) first
    obtain rfl : w = 0 := by omega
    exact named
  case fork =>
    show (if (bCtl b && cShapeless (bControl b)) = true then some 9 else none) = some 9
    rw [hc, fork_of_one hs]
    rfl
  case width =>
    have width : bits (bMove b k) 1 0 = 3 := bits_of_field hw
    have wide : hasWidth (bDst b k) = true := hasWidth_iff.2 (.inl (vaTrig_of h h'))
    refine partAt_le hk ?_
    simp [hp, width, wide]

end Sys2Proof
end

section
/-!
SUPPORT. Moves read their sources by Table 8.13 and write their destinations by Table 8.14 (O7).
-/

namespace Sys2Proof.Machine

/-! ### Sources -/

theorem inRange_true {p lo n : Nat} (h : lo ≤ p) (h' : p < lo + n) : inRange p lo n = true := inRange_iff.2 ⟨h, h'⟩

theorem inRange_false {p lo n : Nat} (h : p < lo ∨ lo + n ≤ p) : inRange p lo n = false := by
  rw [← Bool.not_eq_true, inRange_iff]
  omega

section
variable {s : State} {c p : Nat}

theorem readSource_folio {f : Nat} (hp : p ≠ 0x0B8) (hf : sourceFolio p = some f) (h : ((s.core c).folio f).pres = .present) :
    readSource s c p = .ok (sourceValue s c p) := by
  rw [readSource, if_neg hp, hf]
  simp only [needFolio_ok h]
  rfl

theorem readSource_free (hp : p ≠ 0x0B8) (hf : sourceFolio p = none) : readSource s c p = .ok (sourceValue s c p) := by
  rw [readSource, if_neg hp, hf]

/-! The folio of a source port, and its value, range by range. -/

theorem sourceFolio_scalar {n : Nat} (h : n < 64) : sourceFolio n = some 32 := by
  simp (disch := omega) [sourceFolio, isScalarReg, inRange_true]

theorem sourceFolio_pred {n : Nat} (h : n < 16) : sourceFolio (0x0C0 + n) = some 32 := by
  simp (disch := omega) [sourceFolio, isPredReg, inRange_true]

theorem sourceFolio_stream {n : Nat} (h : n < 8) : sourceFolio (0x0A8 + n) = some 32 := by
  simp (disch := omega) [sourceFolio, inRange_true]

theorem sourceFolio_low_vector {n : Nat} (h : n < 32) : sourceFolio (0x040 + n) = some 34 := by
  simp (disch := omega) [sourceFolio, isScalarReg, isPredReg, inRange_true, inRange_false]

theorem sourceFolio_high_vector {n : Nat} (h : 32 ≤ n) (h' : n < 64) : sourceFolio (0x040 + n) = some 35 := by
  simp (disch := omega) [sourceFolio, isScalarReg, isPredReg, inRange_true, inRange_false]

theorem sourceFolio_ring {k d : Nat} (h : k < 8) (hd : d < 4) : sourceFolio (0x080 + d + 4 * k) = some 33 := by
  simp (disch := omega) [sourceFolio, isScalarReg, isPredReg, inRange_true, inRange_false]

/-- Literals, loop indices, join counters and what the core knows of itself lie in no folio. -/
theorem sourceFolio_none {n : Nat} (h : 0x0A0 ≤ n ∧ n < 0x0A8 ∨ 0x0D0 ≤ n) : sourceFolio n = none := by
  simp (disch := omega) [sourceFolio, isScalarReg, isPredReg, inRange_false]

theorem sourceValue_scalar {n : Nat} (h : n < 64) : sourceValue s c n = .scalar ((s.core c).arch.s.get 0 n) := by
  simp (disch := omega) [sourceValue, isScalarReg, inRange_true]

theorem sourceValue_pred {n : Nat} (h : n < 16) : sourceValue s c (0x0C0 + n) = .scalar (ofBool64 ((s.core c).arch.p.get false n)) := by
  simp (disch := omega) [sourceValue, isScalarReg, isVectorReg, isPredReg, inRange_true, inRange_false, if_neg]

theorem sourceValue_vector {n : Nat} (h : n < 64) : sourceValue s c (0x040 + n) = .vec ((s.core c).arch.v.get 0 n) := by
  simp (disch := omega) [sourceValue, isScalarReg, isVectorReg, inRange_true, inRange_false]

theorem sourceValue_wide_ring {k d : Nat} (h : 2 ≤ k) (h' : k < 8) (hd : d < 4) :
    sourceValue s c (0x080 + d + 4 * k) = .vec (((s.core c).arch.ring k).at' d) := by
  have place : (0x080 + d + 4 * k - 0x80) / 4 = k := by omega
  have pos : (0x080 + d + 4 * k) % 4 = d := by omega
  simp (disch := omega) [sourceValue, isScalarReg, isVectorReg, inRange_true, inRange_false, place, pos]

theorem sourceValue_narrow_ring {k d : Nat} (h : k < 2) (hd : d < 4) :
    sourceValue s c (0x080 + d + 4 * k) = .scalar ((((s.core c).arch.ring k).at' d).setWidth 64) := by
  have place : (0x080 + d + 4 * k - 0x80) / 4 = k := by omega
  have pos : (0x080 + d + 4 * k) % 4 = d := by omega
  simp (disch := omega) [sourceValue, isScalarReg, isVectorReg, inRange_true, inRange_false, place, pos]

theorem sourceValue_literal {n : Nat} (h : n < 5) : sourceValue s c (0x0A0 + n) = .scalar (litValue (s.core c).bundle n) := by
  simp (disch := omega) [sourceValue, isScalarReg, isVectorReg, inRange_true, inRange_false]

theorem sourceValue_stream {n : Nat} (h : n < 8) : sourceValue s c (0x0A8 + n) = .scalar ((s.core c).arch.token n) := by
  simp (disch := omega) [sourceValue, isScalarReg, isVectorReg, inRange_true, inRange_false, if_neg]

theorem sourceValue_index {n : Nat} (h : n < 6) : sourceValue s c (0x0D0 + n) = .scalar (BitVec.ofNat 64 ((s.core c).arch.index n)) := by
  simp (disch := omega) [sourceValue, isScalarReg, isVectorReg, isPredReg, inRange_true, inRange_false, if_neg]

theorem sourceValue_join {n : Nat} (h : n < 16) : sourceValue s c (0x0E0 + n) = .scalar (((s.core c).join n).setWidth 64) := by
  simp (disch := omega) [sourceValue, isScalarReg, isVectorReg, isPredReg, inRange_true, inRange_false, if_neg]

end

/-- Two literals side by side (R180). -/
theorem litPair_eq (b : BitVec 512) (n : Nat) : litPair b n = BitVec.ofNat 32 (bLit b (n + 1)) ++ BitVec.ofNat 32 (bLit b n) := by
  have low : bLit b n < 2 ^ 32 := by rw [bLit, bits_eq_div]; exact Nat.lt_of_lt_of_eq (Nat.mod_lt _ (Nat.two_pow_pos _)) (by congr 1; omega)
  have high : bLit b (n + 1) < 2 ^ 32 := by rw [bLit, bits_eq_div]; exact Nat.lt_of_lt_of_eq (Nat.mod_lt _ (Nat.two_pow_pos _)) (by congr 1; omega)
  refine BitVec.eq_of_toNat_eq ?_
  rw [toNat_append_eq]
  simp only [litPair, fld, Nat.shiftLeft_eq, BitVec.toNat_ofNat]
  omega

/-- At most six loops are active, so that a level beyond them has index 0. -/
theorem index_eq {a : Arch} (h : a.loops.length ≤ 6) (l : Nat) :
    a.index l = if l ≤ 5 then (match a.loops[l]? with | some x => x.idx.toNat | none => 0) else 0 := by
  split
  next => rfl
  next hl =>
    have beyond : a.loops[l]? = none := List.getElem?_eq_none (by omega)
    simp only [Arch.index, beyond]

/-- The token of a stream (R239), its kind and index in their fields. -/
theorem token_eq {a : Arch} (n : Nat) (ix : Nat → Nat) (h : ∀ l, a.index l = ix l) :
    let t := a.stream n
    a.token n = BitVec.ofNat 64 (t.kind.toNat * 2 ^ 60 + (if t.kind = 1 then t.index.toNat % 16 * 2 ^ 56 else 0) + (if t.kind = 2 then t.index.toNat * 2 ^ 48 else 0) +
      (t.base.toNat + ix t.b.toNat * t.st0.toNat + ix (t.b.toNat + 1) * t.st1.toNat + ix (t.b.toNat + 2) * t.st2.toNat + ix (t.b.toNat + 3) * t.st3.toNat) % 2 ^ 40) := by
  intro t
  have field (x k : Nat) : fld x k = x * 2 ^ k := Nat.shiftLeft_eq x k
  have one : t.kind.toNat = 1 ↔ t.kind = 1 := BitVec.toNat_inj (y := 1)
  have two : t.kind.toNat = 2 ↔ t.kind = 2 := BitVec.toNat_inj (y := 2)
  have plain : (if t.kind.toNat = 1 then t.index.toNat % 16 * 2 ^ 56 else 0) = if t.kind = 1 then t.index.toNat % 16 * 2 ^ 56 else 0 := if_iff_congr one rfl rfl
  have handle : (if t.kind.toNat = 2 then t.index.toNat * 2 ^ 48 else 0) = if t.kind = 2 then t.index.toNat * 2 ^ 48 else 0 := if_iff_congr two rfl rfl
  rw [← plain, ← handle]
  unfold Arch.token
  simp only [h, field]
  rfl

/-! ### Destinations -/

section
variable {a : Arch} {p : Nat} {v : Val}

theorem Arch.write_scalar (h : p < 0x40) : a.write p v = a.setS p v.lo := by
  simp (disch := omega) [Arch.write, isScalarReg, inRange_true]

theorem Arch.write_vector (h : 0x40 ≤ p) (h' : p < 0x80) : a.write p v = a.setV (p - 0x40) v.bits := by
  simp (disch := omega) [Arch.write, isScalarReg, isVectorReg, inRange_true, inRange_false]

theorem Arch.write_pred (h : 0xC0 ≤ p) (h' : p < 0xD0) : a.write p v = a.setP (p - 0xC0) (v.lo != 0) := by
  simp (disch := omega) [Arch.write, isScalarReg, isVectorReg, isPredReg, inRange_true, inRange_false]

theorem Arch.write_wide (h : p ∈ [0x102, 0x103, 0x105, 0x106, 0x108, 0x109, 0x10B]) : a.write p v = a.setLatch p v := by
  simp only [List.mem_cons, List.not_mem_nil, or_false] at h
  rcases h with rfl | rfl | rfl | rfl | rfl | rfl | rfl <;> rfl

theorem Arch.write_narrow (h : p ∈ [0x100, 0x101, 0x113, 0x114, 0x10D, 0x110]) : a.write p v = a.setLatch p (.scalar v.lo) := by
  simp only [List.mem_cons, List.not_mem_nil, or_false] at h
  rcases h with rfl | rfl | rfl | rfl | rfl | rfl <;> rfl

theorem Arch.write_atomic (h : p ∈ [0x10E, 0x111]) : a.write p v = a.setLatch p (.vec v.bits) := by
  simp only [List.mem_cons, List.not_mem_nil, or_false] at h
  rcases h with rfl | rfl <;> rfl

theorem isConfig_mode (h : p ∈ [0x104, 0x107, 0x10A, 0x10C, 0x10F, 0x112]) : isConfig p = true := by
  simp only [List.mem_cons, List.not_mem_nil, or_false] at h
  rcases h with rfl | rfl | rfl | rfl | rfl | rfl <;> rfl

theorem isConfig_engine (h : 0x120 ≤ p) (h' : p < 0x134) : isConfig p = true := by
  simp only [isConfig, inRange_true (n := 0x14) h h', Bool.or_true]

theorem Arch.write_config (h : isConfig p = true) (hp : 0x100 ≤ p) (hp' : p < 0x140) : a.write p v = a.setConfig p v.lo := by
  simp (disch := omega) [Arch.write, isScalarReg, isVectorReg, isPredReg, inRange_false, if_neg, h]

end

theorem needDest_ok {k : Core} {p : Nat} (h : ∀ f, destFolio p = some f → (k.folio f).pres = .present) : needDest k p = .ok () := by
  unfold needDest
  split
  next f hf => exact needFolio_ok (h f hf)
  next => rfl

/-- Writing marks a folio dirty and changes no other field of a core. -/
theorem dirty_eq (k : Core) (f : Nat) : ∃ x, k.dirty f = { k with folios := x } := by
  unfold Core.dirty
  split
  · exact ⟨k.folios, rfl⟩
  · exact ⟨_, rfl⟩

theorem dirtyDest_eq (k : Core) (p : Nat) : ∃ x, dirtyDest k p = { k with folios := x } := by
  unfold dirtyDest
  split
  · exact dirty_eq k _
  · exact ⟨k.folios, rfl⟩

theorem here_writeDest (t : State) (p : Nat) (v : Val) : ∃ x, (writeDest t t.cur p v).here = { t.here with arch := t.here.arch.write p v, folios := x } := by
  obtain ⟨x, hx⟩ := dirtyDest_eq { t.here with arch := t.here.arch.write p v } p
  exact ⟨x, (State.core_modCore_same ..).trans hx⟩

/-- Settles O7. -/
theorem movesReadAndWrite : Obligations.MovesReadAndWrite := by
  unfold Obligations.MovesReadAndWrite
  refine ⟨fun s c => ?sources, fun m dst s t v wf h folios => ?write⟩
  case sources =>
    intro a at' scalar vector lit ix
    refine ⟨fun n hn h => ?s, fun n hn h => ?p, fun n hn h => ?vLow, fun n hn hn' h => ?vHigh, fun k h2 h8 h => ?wide, fun k h2 h => ?narrow,
      fun n hn => ?literal, ?pair0, ?pair2, readSource_free (by decide) rfl, fun n hn h hl => ?token, fun h => ⟨?scalarResult, ?vectorResult⟩,
      fun n hn => ?index, readSource_free (by decide) rfl, fun n hn => ?join, readSource_free (by decide) rfl, readSource_free (by decide) rfl⟩
    case s => exact (readSource_folio (by omega) (sourceFolio_scalar hn) h).trans (congrArg _ (sourceValue_scalar hn))
    case p => exact (readSource_folio (by omega) (sourceFolio_pred hn) h).trans (congrArg _ (sourceValue_pred hn))
    case vLow => exact (readSource_folio (by omega) (sourceFolio_low_vector hn) h).trans (congrArg _ (sourceValue_vector (by omega)))
    case vHigh => exact (readSource_folio (by omega) (sourceFolio_high_vector hn hn') h).trans (congrArg _ (sourceValue_vector hn'))
    case wide =>
      have read (d : Nat) (hd : d < 4) : vector (0x080 + d + 4 * k) ((a.ring k).at' d) :=
        (readSource_folio (by omega) (sourceFolio_ring h8 hd) h).trans (congrArg _ (sourceValue_wide_ring h2 h8 hd))
      exact ⟨read 0 (by decide), read 1 (by decide), read 2 (by decide), read 3 (by decide)⟩
    case narrow =>
      have read (d : Nat) (hd : d < 4) : scalar (0x080 + d + 4 * k) (((a.ring k).at' d).setWidth 64) :=
        (readSource_folio (by omega) (sourceFolio_ring (by omega) hd) h).trans (congrArg _ (sourceValue_narrow_ring h2 hd))
      exact ⟨read 0 (by decide), read 1 (by decide), read 2 (by decide), read 3 (by decide)⟩
    case literal => exact (readSource_free (by omega) (sourceFolio_none (by omega))).trans (congrArg _ (sourceValue_literal hn))
    case pair0 => exact (readSource_free (by decide) rfl).trans (congrArg (fun x => Except.ok (Val.scalar x)) (litPair_eq _ 0))
    case pair2 => exact (readSource_free (by decide) rfl).trans (congrArg (fun x => Except.ok (Val.scalar x)) (litPair_eq _ 2))
    case token =>
      have value := token_eq (a := a) n ix (index_eq hl)
      exact (readSource_folio (by omega) (sourceFolio_stream hn) h).trans (congrArg Except.ok ((sourceValue_stream hn).trans (congrArg Val.scalar value)))
    case scalarResult =>
      intro p hp
      simp only [List.mem_cons, List.not_mem_nil, or_false] at hp
      rcases hp with rfl | rfl <;> exact readSource_folio (by decide) rfl h
    case vectorResult =>
      intro p hp
      simp only [List.mem_cons, List.not_mem_nil, or_false] at hp
      rcases hp with rfl | rfl | rfl | rfl | rfl | rfl | rfl | rfl <;> exact readSource_folio (by decide) rfl h
    case index =>
      have level : a.index n = ix n := by
        simp only [ix, show n ≤ 5 by omega, if_true]
        rfl
      exact (readSource_free (by omega) (sourceFolio_none (by omega))).trans (congrArg Except.ok ((sourceValue_index hn).trans (by rw [level]; rfl)))
    case join => exact (readSource_free (by omega) (sourceFolio_none (by omega))).trans (congrArg _ (sourceValue_join hn))
  case write =>
    have ready : needDest s.here dst.toNat = .ok () := by
      refine needDest_ok fun f hf => ?_
      have present := folios f hf f List.mem_cons_self
      rw [h.arch] at present
      exact present
    refine ⟨_, (exec_move m dst s).trans (execMove_next h ready), ?_⟩
    obtain ⟨x, written⟩ := here_writeDest t dst.toNat v
    rw [written]
    refine ⟨Arch.write_scalar, fun hd => Arch.write_vector hd.1 hd.2, fun hd => Arch.write_pred hd.1 hd.2, fun hd => hd ▸ rfl, fun hd => hd ▸ rfl,
      Arch.write_wide, Arch.write_narrow, Arch.write_atomic, fun hd => ?config, rfl,
      h.sameModule_modCore _, h.sameOthers_modCore _⟩
    case config =>
      rcases hd with mode | ⟨low, high⟩
      · have range : 0x100 ≤ dst.toNat ∧ dst.toNat < 0x140 := by simp at mode; omega
        exact Arch.write_config (isConfig_mode mode) range.1 range.2
      · exact Arch.write_config (isConfig_engine low high) (by omega) (by omega)

end Sys2Proof.Machine
end

section
/-!
SUPPORT. The integer operations of the scalar units (O9): each is a scalar trigger over A, B and C, and its value is the one of
Table 11.4.
-/

namespace Sys2Proof.Machine

/-! ### Scalar triggers -/

/-- A scalar trigger delivers `f` of A, B and C after `lat` bundles. -/
def Delivers (i : Mv → Instr) (lat : Nat) (f : Word → Word → Word → Word × Word) : Prop :=
  ∀ (m : Mv) (s t : State) (v : Val), m.bus < 2 → Reads s m.bus m.src m.keep v t → Present t [32, 33] →
    let r := f (t.here.arch.latch (0x100 + m.bus.val)).lo (v.bits.setWidth 64) (t.here.arch.latch (0x113 + m.bus.val)).lo
    exec (i m) s = .next (deliver t s.cur m.bus.val (0x0B0 + m.bus.val) lat (r.1.setWidth 1024) r.2)

theorem delivers_scalar {i : Mv → Instr} {port : Nat} {op : ScalarOp} (he : ∀ m s, exec (i m) s = runMv m port (scalar op) s) : Delivers i op.lat op.f := by
  intro m s t v _ h present
  rw [he]
  refine runMv_next h (h.cur ▸ needLatches_present present (by simp) port) ?_
  rw [scalar_ok h.cur.symm present, h.cur]
  rfl

theorem Delivers.congr {i : Mv → Instr} {lat : Nat} {f g : Word → Word → Word → Word × Word} (h : Delivers i lat f) (e : ∀ a b c, f a b c = g a b c) :
    Delivers i lat g := by
  have : f = g := funext fun a => funext fun b => funext fun c => e a b c
  exact this ▸ h

/-- A scalar trigger whose value is `g`, without a flag. -/
theorem delivers_value {i : Mv → Instr} {port : Nat} {op : ScalarOp} {g : Word → Word → Word → Word} (he : ∀ m s, exec (i m) s = runMv m port (scalar op) s)
    (e : ∀ a b c, op.f a b c = (g a b c, 0)) : Delivers i op.lat fun a b c => (g a b c, 0) := (delivers_scalar he).congr e

/-! ### Values -/

theorem bits_low (b : Word) (hi : Nat) : bits b hi 0 = b.toNat % 2 ^ (hi + 1) := by rw [bits_eq_div, Nat.pow_zero, Nat.div_one, Nat.sub_zero]

theorem ofBool64_eq {p : Prop} [Decidable p] {x : Bool} (h : x = true ↔ p) : ofBool64 x = if p then 1 else 0 := by
  simp only [ofBool64, h]

theorem ite_congr_iff {p : Prop} [Decidable p] {x : Bool} (h : x = true ↔ p) (a b : Word) : (if x then a else b) = if p then a else b := if_iff_congr h rfl rfl

/-- The high half of a signed product (Table 11.4). -/
theorem mulh_eq (a b : Word) : BitVec.ofInt 64 (a.toInt * b.toInt / 2 ^ 64) = ((a.signExtend 128 * b.signExtend 128) >>> 64).setWidth 64 := by
  have wide : (a.signExtend 128 * b.signExtend 128).toNat = (a.toInt * b.toInt % 2 ^ 128).toNat := by
    rw [← BitVec.ofInt_toInt (x := a.signExtend 128 * b.signExtend 128), BitVec.toNat_ofInt, BitVec.toInt_mul, BitVec.toInt_signExtend_of_le (by decide),
      BitVec.toInt_signExtend_of_le (by decide), Int.bmod_emod]
    rfl
  refine BitVec.eq_of_toNat_eq ?_
  rw [BitVec.toNat_setWidth, BitVec.toNat_ushiftRight, wide, BitVec.toNat_ofInt, Nat.shiftRight_eq_div_pow]
  generalize a.toInt * b.toInt = z
  omega

theorem mulhu_eq (a b : Word) : BitVec.ofNat 64 (a.toNat * b.toNat / 2 ^ 64) = ((a.setWidth 128 * b.setWidth 128) >>> 64).setWidth 64 := by
  have small : a.toNat * b.toNat < 2 ^ 128 := by
    calc a.toNat * b.toNat < 2 ^ 64 * 2 ^ 64 := Nat.mul_lt_mul'' a.isLt b.isLt
      _ = 2 ^ 128 := by decide
  have wide : (a.setWidth 128 * b.setWidth 128).toNat = a.toNat * b.toNat := by
    rw [BitVec.toNat_mul, BitVec.toNat_setWidth_of_le (by decide), BitVec.toNat_setWidth_of_le (by decide), Nat.mod_eq_of_lt small]
  refine BitVec.eq_of_toNat_eq ?_
  rw [BitVec.toNat_setWidth, BitVec.toNat_ushiftRight, wide, BitVec.toNat_ofNat, Nat.shiftRight_eq_div_pow]

/-- Zero extension from the low `n` bits is a mask. -/
theorem zext_eq (b : Word) {n : Nat} (h : n ≤ 64) : (b.setWidth n).setWidth 64 = b &&& BitVec.ofNat 64 (2 ^ n - 1) := by
  have fits : 2 ^ n ≤ 2 ^ 64 := Nat.pow_le_pow_right (by decide) h
  have low : b.toNat % 2 ^ n < 2 ^ 64 := Nat.lt_of_lt_of_le (Nat.mod_lt _ (Nat.two_pow_pos _)) fits
  have pos : 0 < 2 ^ n := Nat.two_pow_pos _
  have mask : (2 ^ n - 1) % 2 ^ 64 = 2 ^ n - 1 := Nat.mod_eq_of_lt (by omega)
  refine BitVec.eq_of_toNat_eq ?_
  rw [BitVec.toNat_setWidth, BitVec.toNat_setWidth, BitVec.toNat_and, BitVec.toNat_ofNat, mask, Nat.and_two_pow_sub_one_eq_mod, Nat.mod_eq_of_lt low]

/-! Division (Table 9.7). -/

theorem divSigned_eq (a b : Word) :
    divSigned a b = if b = 0 then (BitVec.allOnes 64, 0x080) else (a.sdiv b, if a = BitVec.intMin 64 ∧ b = BitVec.allOnes 64 then 0x100 else 0) := by
  unfold divSigned
  refine if_iff_congr Iff.rfl rfl ?_
  split
  next wraps =>
    obtain ⟨rfl, rfl⟩ := wraps
    exact Prod.ext (by decide) rfl
  next =>
    refine Prod.ext (BitVec.toInt_inj.1 ?_) rfl
    rw [BitVec.toInt_ofInt, BitVec.toInt_sdiv]

theorem remSigned_eq (a b : Word) :
    remSigned a b = if b = 0 then (a, 0x080) else (a.srem b, if a = BitVec.intMin 64 ∧ b = BitVec.allOnes 64 then 0x100 else 0) := by
  unfold remSigned
  refine if_iff_congr Iff.rfl rfl ?_
  split
  next wraps =>
    obtain ⟨rfl, rfl⟩ := wraps
    exact Prod.ext (by decide) rfl
  next =>
    refine Prod.ext ?_ rfl
    show BitVec.ofInt 64 (a.toInt.tmod b.toInt) = a.srem b
    rw [← BitVec.toInt_srem, BitVec.ofInt_toInt]

/-! Bit counts and byte order. -/

theorem leadingZeros_spec (b : Word) : leadingZeros b ≤ 64 ∧ (∀ i, i < leadingZeros b → b.getLsbD (63 - i) = false) ∧
    (leadingZeros b < 64 → b.getLsbD (63 - leadingZeros b) = true) := by
  unfold leadingZeros
  split
  next zero =>
    subst zero
    exact ⟨Nat.le_refl _, fun i _ => BitVec.getLsbD_zero, fun h => absurd h (by decide)⟩
  next nonzero =>
    have hn : b.toNat ≠ 0 := fun h => nonzero (BitVec.eq_of_toNat_eq h)
    have top : b.toNat.log2 < 64 := (Nat.log2_lt hn).2 b.isLt
    refine ⟨by omega, fun i hi => ?_, fun _ => ?_⟩
    · rw [BitVec.getLsbD]
      refine Nat.testBit_lt_two_pow (Nat.lt_of_lt_of_le Nat.lt_log2_self (Nat.pow_le_pow_right (by decide) ?_))
      omega
    · rw [BitVec.getLsbD, show 63 - (63 - b.toNat.log2) = b.toNat.log2 by omega]
      exact Nat.testBit_log2 hn

theorem trailingZeros_spec (b : Word) : trailingZeros b ≤ 64 ∧ (∀ i, i < trailingZeros b → b.getLsbD i = false) ∧
    (trailingZeros b < 64 → b.getLsbD (trailingZeros b) = true) := by
  unfold trailingZeros
  cases h : (List.range 64).find? fun i => bit b i with
  | none =>
    refine ⟨Nat.le_refl _, fun i hi => ?_, fun h => absurd h (Nat.lt_irrefl _)⟩
    have := List.find?_eq_none.1 h i (List.mem_range.2 hi)
    simpa [bit] using this
  | some n =>
    obtain ⟨set, range, before⟩ := List.find?_range_eq_some.1 h
    have hn := List.mem_range.1 range
    exact ⟨Nat.le_of_lt hn, fun i hi => by simpa [bit] using before i hi, fun _ => set⟩

@[simp] theorem length_leBytes (n x : Nat) : (leBytes n x).length = n := by
  induction n generalizing x with
  | zero => rfl
  | succ n ih => rw [leBytes, List.length_cons, ih]

/-- Byte `i` of a number written in little-endian order. -/
theorem getElem_leBytes {n i : Nat} (x : Nat) (h : i < (leBytes n x).length) : (leBytes n x)[i] = BitVec.ofNat 8 (x / 256 ^ i) := by
  induction n generalizing x i with
  | zero => exact absurd h (Nat.not_lt_zero i)
  | succ n ih =>
    cases i with
    | zero => simp [leBytes]
    | succ i =>
      have tail : i < (leBytes n (x / 256)).length := by simpa using h
      simp only [leBytes, List.getElem_cons_succ]
      rw [ih (x / 256) tail, Nat.div_div_eq_div_mul, Nat.pow_succ, Nat.mul_comm]

/-- Byte `i` of the number that bytes in little-endian order are. -/
theorem byte_ofLeBytes {l : List Byte} {i : Nat} (h : i < l.length) : ofLeBytes l / 256 ^ i % 256 = l[i].toNat := by
  induction l generalizing i with
  | nil => exact absurd h (Nat.not_lt_zero i)
  | cons b r ih =>
    have head := b.isLt
    cases i with
    | zero => simp only [ofLeBytes, Nat.pow_zero, Nat.div_one, List.getElem_cons_zero]; omega
    | succ i =>
      have tail : (b.toNat + 256 * ofLeBytes r) / 256 = ofLeBytes r := by omega
      simp only [ofLeBytes, List.getElem_cons_succ]
      rw [Nat.pow_succ, Nat.mul_comm (256 ^ i), ← Nat.div_div_eq_div_mul, tail]
      exact ih (by simpa using h)

theorem ofLeBytes_lt (l : List Byte) : ofLeBytes l < 256 ^ l.length := by
  induction l with
  | nil => exact Nat.one_pos
  | cons b r ih =>
    have head := b.isLt
    rw [ofLeBytes, List.length_cons, Nat.pow_succ]
    omega

theorem byte_swapBytes (b : Word) {i : Nat} (hi : i < 8) : (swapBytes b).toNat / 256 ^ i % 256 = b.toNat / 256 ^ (7 - i) % 256 := by
  have value : (swapBytes b).toNat = ofLeBytes (leBytes 8 b.toNat).reverse := by
    have fits := ofLeBytes_lt (leBytes 8 b.toNat).reverse
    rw [List.length_reverse, length_leBytes] at fits
    rw [swapBytes, BitVec.toNat_ofNat, Nat.mod_eq_of_lt (by omega)]
  rw [value, byte_ofLeBytes (by simpa using hi), List.getElem_reverse, getElem_leBytes, BitVec.toNat_ofNat]
  simp only [length_leBytes]

theorem swapBytes_spec (b : Word) {i j : Nat} (hi : i < 8) (hj : j < 8) : (swapBytes b).getLsbD (8 * i + j) = b.getLsbD (8 * (7 - i) + j) := by
  have byte (x k : Nat) : x.testBit (8 * k + j) = (x / 256 ^ k % 256).testBit j := by
    rw [show 256 = 2 ^ 8 from rfl, ← Nat.pow_mul, Nat.testBit_mod_two_pow, Nat.testBit_div_two_pow, decide_eq_true hj, Bool.true_and, Nat.add_comm]
  rw [BitVec.getLsbD, BitVec.getLsbD, byte, byte, byte_swapBytes b hi]

theorem setBits_eq (b : Word) : setBits b = (List.range 64).countP b.getLsbD := List.countP_eq_length_filter.symm

theorem bits_shift (b : Word) : bits b 5 0 = b.toNat % 64 := bits_low b 5

/-- Settles O9, operation by operation. -/
theorem scalarInteger : Obligations.ScalarInteger := by
  unfold Obligations.ScalarInteger
  refine ⟨fun p hp => ?value, fun p hp => ?division, fun p hp => ?count⟩
  case value =>
    show Delivers p.1 p.2.1 fun a b c => (p.2.2 a b c, 0)
    simp only [List.mem_cons, List.not_mem_nil, or_false] at hp
    rcases hp with rfl | rfl | rfl | rfl | rfl | rfl | rfl | rfl | rfl | rfl | rfl | rfl | rfl | rfl | rfl | rfl | rfl | rfl | rfl | rfl | rfl | rfl | rfl |
      rfl | rfl | rfl | rfl | rfl | rfl | rfl | rfl | rfl
    · exact delivers_value (op := opSaAdd) (fun _ _ => rfl) fun a b c => rfl
    · exact delivers_value (op := opSaSub) (fun _ _ => rfl) fun a b c => rfl
    · exact delivers_value (op := opSaMul) (fun _ _ => rfl) fun a b c => rfl
    · exact delivers_value (op := opSaMulh) (fun _ _ => rfl) fun a b c => congrArg (·, 0) (mulh_eq a b)
    · exact delivers_value (op := opSaMulhu) (fun _ _ => rfl) fun a b c => congrArg (·, 0) (mulhu_eq a b)
    · exact delivers_value (op := opSaAnd) (fun _ _ => rfl) fun a b c => rfl
    · exact delivers_value (op := opSaOr) (fun _ _ => rfl) fun a b c => rfl
    · exact delivers_value (op := opSaXor) (fun _ _ => rfl) fun a b c => rfl
    · exact delivers_value (op := opSaAndn) (fun _ _ => rfl) fun a b c => rfl
    · exact delivers_value (op := opSaShl) (fun _ _ => rfl) fun a b c => congrArg (fun n => (a <<< n, 0)) (bits_shift b)
    · exact delivers_value (op := opSaShr) (fun _ _ => rfl) fun a b c => congrArg (fun n => (a >>> n, 0)) (bits_shift b)
    · exact delivers_value (op := opSaSar) (fun _ _ => rfl) fun a b c => congrArg (fun n => (a.sshiftRight n, 0)) (bits_shift b)
    · exact delivers_value (op := opSaRotl) (fun _ _ => rfl) fun a b c => congrArg (fun n => (a.rotateLeft n, 0)) (bits_shift b)
    · exact delivers_value (op := opSaMin) (fun _ _ => rfl) fun a b c => congrArg (·, 0) (ite_congr_iff BitVec.slt_iff_toInt_lt a b)
    · exact delivers_value (op := opSaMax) (fun _ _ => rfl) fun a b c => congrArg (·, 0) (ite_congr_iff BitVec.slt_iff_toInt_lt b a)
    · exact delivers_value (op := opSaMinu) (fun _ _ => rfl) fun a b c => congrArg (·, 0) (ite_congr_iff BitVec.ult_iff_toNat_lt a b)
    · exact delivers_value (op := opSaMaxu) (fun _ _ => rfl) fun a b c => congrArg (·, 0) (ite_congr_iff BitVec.ult_iff_toNat_lt b a)
    · exact delivers_value (op := opSaSeq) (fun _ _ => rfl) fun a b c => congrArg (·, 0) (ofBool64_eq beq_iff_eq)
    · exact delivers_value (op := opSaSne) (fun _ _ => rfl) fun a b c => congrArg (·, 0) ((ofBool64_eq bne_iff_ne).trans (ite_not ..))
    · exact delivers_value (op := opSaSlt) (fun _ _ => rfl) fun a b c => congrArg (·, 0) (ofBool64_eq BitVec.slt_iff_toInt_lt)
    · exact delivers_value (op := opSaSltu) (fun _ _ => rfl) fun a b c => congrArg (·, 0) (ofBool64_eq BitVec.ult_iff_toNat_lt)
    · exact delivers_value (op := opSaSle) (fun _ _ => rfl) fun a b c => congrArg (·, 0) (ofBool64_eq BitVec.sle_iff_toInt_le)
    · exact delivers_value (op := opSaSleu) (fun _ _ => rfl) fun a b c => congrArg (·, 0) (ofBool64_eq BitVec.ule_iff_toNat_le)
    · exact delivers_value (op := opSaSel) (fun _ _ => rfl) fun a b c => congrArg (·, 0) ((ite_congr_iff bne_iff_ne a b).trans (ite_not ..))
    · exact delivers_value (op := opSaPass) (fun _ _ => rfl) fun a b c => rfl
    · exact delivers_value (op := opSaSext8) (fun _ _ => rfl) fun a b c => rfl
    · exact delivers_value (op := opSaSext16) (fun _ _ => rfl) fun a b c => rfl
    · exact delivers_value (op := opSaSext32) (fun _ _ => rfl) fun a b c => rfl
    · exact delivers_value (op := opSaZext8) (fun _ _ => rfl) fun a b c => congrArg (·, 0) (zext_eq b (n := 8) (by decide))
    · exact delivers_value (op := opSaZext16) (fun _ _ => rfl) fun a b c => congrArg (·, 0) (zext_eq b (n := 16) (by decide))
    · exact delivers_value (op := opSaZext32) (fun _ _ => rfl) fun a b c => congrArg (·, 0) (zext_eq b (n := 32) (by decide))
    · exact delivers_value (op := opSaMadd) (fun _ _ => rfl) fun a b c => rfl
  case division =>
    show Delivers p.1 12 fun a b _ => p.2 a b
    simp only [List.mem_cons, List.not_mem_nil, or_false] at hp
    rcases hp with rfl | rfl | rfl | rfl
    · exact (delivers_scalar (op := opSaDiv) fun _ _ => rfl).congr fun a b _ => divSigned_eq a b
    · exact (delivers_scalar (op := opSaRem) fun _ _ => rfl).congr fun a b _ => remSigned_eq a b
    · exact (delivers_scalar (op := opSaDivu) fun _ _ => rfl).congr fun a b _ => rfl
    · exact (delivers_scalar (op := opSaRemu) fun _ _ => rfl).congr fun a b _ => rfl
  case count =>
    intro m s t v hm h present
    simp only [List.mem_cons, List.not_mem_nil, or_false] at hp
    rcases hp with rfl | rfl | rfl | rfl
    · exact ⟨_, ⟨_, rfl, leadingZeros_spec _⟩, delivers_scalar (op := opSaClz) (fun _ _ => rfl) m s t v hm h present⟩
    · exact ⟨_, ⟨_, rfl, trailingZeros_spec _⟩, delivers_scalar (op := opSaCtz) (fun _ _ => rfl) m s t v hm h present⟩
    · exact ⟨_, congrArg _ (setBits_eq _), delivers_scalar (op := opSaPopc) (fun _ _ => rfl) m s t v hm h present⟩
    · exact ⟨_, fun i j hi hj => swapBytes_spec _ hi hj, delivers_scalar (op := opSaBswap) (fun _ _ => rfl) m s t v hm h present⟩

end Sys2Proof.Machine
end

section
/-!
SUPPORT. The FP64 operations of the scalar units (O10).
-/

namespace Sys2Proof.Machine

theorem cmpD_eq (a b : Word) (p : Int → Bool) (q : Int → Prop) [DecidablePred q] (h : ∀ x, p x = true ↔ q x) :
    ofBool64 (cmpD a b p) = if (numD a).isNan = true ∨ (numD b).isNan = true then 0 else if q ((numD a).cmp (numD b)) then 1 else 0 := by
  simp only [cmpD]
  cases (numD a).isNan <;> cases (numD b).isNan
  case false.false =>
    simp only [Bool.false_eq_true, or_self, if_false, Bool.not_false, Bool.true_and]
    exact ofBool64_eq (h _)
  all_goals rfl

theorem roundingMode (c : Word) : bits c 1 0 = c.toNat % 4 := bits_low c 1

/-! What special operands deliver (R246). -/

theorem outD_nan (f : Word) : outD ⟨.nan, f⟩ = (0x7FF8000000000000, f) := Prod.ext rfl (BitVec.or_zero)

theorem outD_inf (neg : Bool) (f : Word) : outD ⟨.inf neg, f⟩ = (if neg then 0xFFF0000000000000 else 0x7FF0000000000000, f) := by
  refine Prod.ext ?_ BitVec.or_zero
  cases neg <;> rfl

theorem inf_add_opposite (n : Bool) (rm : Nat) : (Num.inf n).add (.inf !n) rm = ⟨.nan, flagNV⟩ := if_neg (by cases n <;> decide)

theorem inf_mul_zero (n m : Bool) (e : Int) : (Num.inf n).mul (.ofDyadic m 0 e) = ⟨.nan, flagNV⟩ := rfl

theorem fin_div_zero {x z : Ex} (hx : x.n ≠ 0) (hz : z.n = 0) : (Num.fin x).div (.fin z) = ⟨.inf (x.neg != z.neg), flagDZ⟩ := by
  have zero : z.isZero = true := by simp [Ex.isZero, hz]
  have finite : x.isZero = false := by simp [Ex.isZero, hx]
  simp only [Num.div, zero, finite, if_true, Bool.false_eq_true, if_false]

theorem nan_add (x : Num) (rm : Nat) : Num.nan.add x rm = ⟨.nan, 0⟩ := by cases x <;> rfl
theorem add_nan (x : Num) (rm : Nat) : x.add .nan rm = ⟨.nan, 0⟩ := by cases x <;> rfl
theorem nan_mul (x : Num) : Num.nan.mul x = ⟨.nan, 0⟩ := by cases x <;> rfl
theorem mul_nan (x : Num) : x.mul .nan = ⟨.nan, 0⟩ := by cases x <;> rfl
theorem nan_div (x : Num) : Num.nan.div x = ⟨.nan, 0⟩ := by cases x <;> rfl
theorem div_nan (x : Num) : x.div .nan = ⟨.nan, 0⟩ := by cases x <;> rfl

/-- Settles O10: each operation is a scalar trigger, and the special operands are those of R246. -/
theorem scalarFloat : Obligations.ScalarFloat := by
  unfold Obligations.ScalarFloat
  refine ⟨fun p hp => ?value, fun n => ?infSum, fun n m => ?infProduct, fun x z hx hz => ?byZero, fun x => ?nan⟩
  case value =>
    show Delivers p.1 p.2.1 p.2.2
    simp only [List.mem_cons, List.not_mem_nil, or_false] at hp
    rcases hp with rfl | rfl | rfl | rfl | rfl | rfl | rfl | rfl | rfl | rfl | rfl | rfl | rfl | rfl
    · exact delivers_scalar (op := opSaFaddD) fun _ _ => rfl
    · exact delivers_scalar (op := opSaFsubD) fun _ _ => rfl
    · exact delivers_scalar (op := opSaFmulD) fun _ _ => rfl
    · exact delivers_scalar (op := opSaFmaddD) fun _ _ => rfl
    · exact delivers_scalar (op := opSaFdivD) fun _ _ => rfl
    · exact delivers_scalar (op := opSaFminD) fun _ _ => rfl
    · exact delivers_scalar (op := opSaFmaxD) fun _ _ => rfl
    · exact (delivers_scalar (op := opSaFeqD) fun _ _ => rfl).congr fun a b _ => congrArg (·, 0) (cmpD_eq a b _ (· = 0) fun _ => beq_iff_eq)
    · exact (delivers_scalar (op := opSaFltD) fun _ _ => rfl).congr fun a b _ => congrArg (·, 0) (cmpD_eq a b _ (· < 0) fun _ => decide_eq_true_iff)
    · exact (delivers_scalar (op := opSaFleD) fun _ _ => rfl).congr fun a b _ => congrArg (·, 0) (cmpD_eq a b _ (· ≤ 0) fun _ => decide_eq_true_iff)
    · exact (delivers_scalar (op := opSaCvtDi) fun _ _ => rfl).congr fun _ b c => congrArg (fun n => ofFlagged (fp64.out (.ofInt b.toInt) n false)) (roundingMode c)
    · exact (delivers_scalar (op := opSaCvtId) fun _ _ => rfl).congr fun _ b c => congrArg (fun n => ofFlagged (toIntFmt cInt64 (numD b) n)) (roundingMode c)
    · exact (delivers_scalar (op := opSaCvtSd) fun _ _ => rfl).congr fun _ b c => congrArg (fun n => ofFlagged (fp32.out (numD b) n (bit c 2))) (roundingMode c)
    · exact (delivers_scalar (op := opSaCvtDs) fun _ _ => rfl).congr fun _ b _ => congrArg (fun n => ofFlagged (fp64.out (fp32.decode n) 0 false)) (bits_low b 31)
  case infSum => rw [inf_add_opposite, outD_nan]; rfl
  case infProduct => rw [inf_mul_zero, outD_nan]; rfl
  case byZero =>
    rw [fin_div_zero hx hz, outD_inf]
    cases x.neg <;> cases z.neg <;> rfl
  case nan => simp only [nan_add, add_nan, nan_mul, mul_nan, nan_div, div_nan, outD_nan, and_self]

end Sys2Proof.Machine
end

section
/-!
SUPPORT. Vector-width triggers: what one does whose source can be read, and the special functions on bus 5 (O12).
-/

namespace Sys2Proof.Machine

/-! ### Triggers whose source can be read -/

/-- With a readable source a trigger is its body, in the state that the read leaves. -/
theorem runTrigger_eq {s t : State} {bus : Fin 8} {src : BitVec 11} {keep : Bool} {v : Val} (h : Reads s bus src keep v t) (port w : Nat) (body : Body) :
    runTrigger s.cur bus.val src.toNat keep port w body s =
      atPart bus.val (startTrigger { c := s.cur, bus := bus.val, port := port, b := v, w := w, pre := s.here.arch } body t) := by
  obtain ⟨value, state⟩ := h
  simp only [runTrigger, value, atPart_ok, bind, except_ok_bind]
  split at state
  · rename_i pops
    simp only [State.here] at state
    rw [if_pos pops, state]
    rfl
  · rename_i stays
    rw [if_neg stays]
    cases state
    rfl

theorem startTrigger_present {t : State} {l : List Nat} (present : Present t l) (h32 : 32 ∈ l) {x : Trig} (hc : x.c = t.cur) (body : Body) :
    startTrigger x body t = body x t := by
  rw [startTrigger, hc, needLatches_present present h32]
  rfl

theorem runVm_fault {s t : State} {m : Vm} {v : Val} {port : Nat} {body : Body} {f : CFault} (h : Reads s m.bus m.src false v t)
    (hl : needLatches t s.cur port = .ok ()) (hb : body { c := s.cur, bus := m.bus.val, port := port, b := v, w := widthBits m.w, pre := s.here.arch } t = .error (.fault f)) :
    runVm m port body s = .next (takeCoreFault s s.cur f) := by
  have run : runTrigger s.cur m.bus.val m.src.toNat false port (widthBits m.w) body s = .error (.fault f) := by
    rw [runTrigger_eq h, startTrigger, hl, except_ok_bind, hb]
    rfl
  rw [runVm, run]
  rfl

/-! ### The special-function unit -/

/-- Operands of a special function (R260). -/
def sfArgs (t : State) (w : Nat) (b : Val) : VArgs :=
  { mode := Mode.of (t.here.arch.config 0x10C), unit := 5, count := t.here.arch.count, w := w, a := t.here.arch.latch 0x10B, b := b, c := Val.zero }

/-- ILLEGAL_MODE with a subcode, on a bus. -/
def modeRecord (sub bus : Nat) : CFault := { code := 0x17, sub := sub, whereAt := bus, addr := 0, detail := 0, aux := 0 }

theorem halfType_iff (t : Nat) : halfType t = true ↔ t ∈ [cFp32, cBf16, cFp16] := by
  simp [halfType, or_assoc]

theorem halfType_known {t : Nat} (h : halfType t = true) : badCode t = false := by
  rw [halfType_iff] at h
  simp only [List.mem_cons, List.not_mem_nil, or_false] at h
  rcases h with rfl | rfl | rfl <;> rfl

/-- An SF trigger: its value where the type is one of R260, else ILLEGAL_MODE. -/
theorem special_eq {x : Trig} {t : State} (hc : x.c = t.cur) (hb : x.bus = 5) (present : Present t [32, 33]) (lat : Nat) (f : VArgs → Nat × Word) :
    special lat f x t =
      if badCode (sfArgs t x.w x.b).mode.type then .error (.fault (modeRecord 1 5))
      else if halfType (sfArgs t x.w x.b).mode.type then
        .ok (deliver t t.cur 5 0x0B5 lat (BitVec.ofNat 1024 (f (sfArgs t x.w x.b)).1) (f (sfArgs t x.w x.b)).2)
      else .error (.fault (modeRecord 2 5)) := by
  have folios : needFolios (t.core x.c) [32, 33] = .ok () := hc ▸ present.folios
  obtain ⟨c, bus, port, b, w, pre⟩ := x
  subst hc hb
  simp only [special, folios, bind, except_ok_bind, Bool.not_eq_true']
  change (if badCode (sfArgs t w b).mode.type = true then _ else if halfType (sfArgs t w b).mode.type = false then _ else _) = _
  cases badCode (sfArgs t w b).mode.type <;> cases halfType (sfArgs t w b).mode.type <;> rfl

/-- What an SF instruction does, by the type of its mode (R260, R261). -/
def SpecialRuns (i : Vm → Instr) (lat : Nat) (f : VArgs → Nat × Word) : Prop :=
  ∀ (m : Vm) (s t : State) (v : Val), m.bus = 5 → Reads s m.bus m.src false v t → Present t [32, 33] →
    let x := sfArgs t (widthBits m.w) v
    (x.mode.type ∈ [cFp32, cBf16, cFp16] → exec (i m) s = .next (deliver t s.cur 5 0x0B5 lat (BitVec.ofNat 1024 (f x).1) (f x).2)) ∧
    (badCode x.mode.type = true → exec (i m) s = .next (takeCoreFault s s.cur (modeRecord 1 5))) ∧
    (badCode x.mode.type = false → x.mode.type ∉ [cFp32, cBf16, cFp16] → exec (i m) s = .next (takeCoreFault s s.cur (modeRecord 2 5)))

theorem specialRuns {i : Vm → Instr} {port lat : Nat} {f : VArgs → Nat × Word} (he : ∀ m s, exec (i m) s = runVm m port (special lat f) s) :
    SpecialRuns i lat f := by
  intro m s t v hbus h present
  have latches : needLatches t s.cur port = .ok () := h.cur ▸ needLatches_present present (by simp) port
  have body := special_eq (x := { c := s.cur, bus := m.bus.val, port := port, b := v, w := widthBits m.w, pre := s.here.arch }) h.cur.symm
    (congrArg Fin.val hbus) present lat f
  simp only [he, ← halfType_iff, Bool.not_eq_true]
  refine ⟨fun half => ?value, fun bad => ?unknown, fun good other => ?refused⟩
  case value =>
    refine runVm_next h latches (body.trans ?_)
    rw [halfType_known half, if_neg Bool.false_ne_true, if_pos half, h.cur]
  case unknown => exact runVm_fault h latches (body.trans (if_pos bad))
  case refused =>
    refine runVm_fault h latches (body.trans ?_)
    rw [good, other, if_neg Bool.false_ne_true, if_neg Bool.false_ne_true]

/-! ### Table 12.3 -/

theorem sfExactCase_nan (port : Nat) : sfExactCase port .nan = some ⟨.nan, 0⟩ := rfl

theorem sfExactCase_zero {z : Ex} (h : z.n = 0) (port : Nat) :
    sfExactCase port (.fin z) =
      if port = 0x300 ∨ port = 0x301 ∨ port = 0x309 then some ⟨numOne, 0⟩
      else if port = 0x302 ∨ port = 0x303 then some ⟨.inf true, flagDZ⟩
      else if port = 0x305 then some ⟨.inf z.neg, flagDZ⟩
      else if port = 0x30B then some ⟨.ofDyadic false 1 (-1), 0⟩
      else if port = 0x30F then none
      else some ⟨.fin z, 0⟩ := by
  simp only [sfExactCase, if_pos h]

theorem sfExactCase_negative {port : Nat} (hp : port = 0x302 ∨ port = 0x303 ∨ port = 0x305) {z : Ex} (h : z.n ≠ 0) (neg : z.neg = true) :
    sfExactCase port (.fin z) = some ⟨.nan, flagNV⟩ := by
  simp only [sfExactCase, if_neg h, if_pos (And.intro hp neg)]

/-- Settles O12: each operation is an SF trigger, and the special operands are Table 12.3's rows. -/
theorem specialFunctions : Obligations.SpecialFunctions := by
  unfold Obligations.SpecialFunctions
  refine ⟨fun p hp => ?runs, sfExactCase_nan, fun port hp z hz => ?log, fun z hz => ?rsqrt, fun port hp z hz neg => ?negative, fun port hp n => ?sine,
    fun port hp z hz => ?one, fun n => ?tanh⟩
  case runs =>
    show SpecialRuns p.1 p.2.1 p.2.2
    simp only [List.mem_cons, List.not_mem_nil, or_false] at hp
    rcases hp with rfl | rfl | rfl | rfl | rfl | rfl | rfl | rfl | rfl | rfl | rfl | rfl | rfl | rfl | rfl | rfl <;> exact specialRuns fun _ _ => rfl
  case log =>
    simp only [List.mem_cons, List.not_mem_nil, or_false] at hp
    rcases hp with rfl | rfl <;> rw [sfExactCase_zero hz] <;> rfl
  case rsqrt => rw [sfExactCase_zero hz]; rfl
  case negative => exact sfExactCase_negative (by simpa using hp) hz neg
  case sine =>
    simp only [List.mem_cons, List.not_mem_nil, or_false] at hp
    rcases hp with rfl | rfl <;> rfl
  case one => rw [sfExactCase_zero hz, if_pos (by simpa using hp)]; rfl
  case tanh => cases n <;> rfl

end Sys2Proof.Machine
end

section
/-!
SUPPORT. The frame of the arithmetic triggers (O13): each delivers a result or takes a core fault, and nothing else changes.
-/

namespace Sys2Proof.Machine

/-! ### Vector triggers -/

/-- A VA, VB or VC trigger: its value where the mode passes Table 11.3, else ILLEGAL_MODE. -/
theorem vector_eq {x : Trig} {t : State} (hc : x.c = t.cur) (present : Present t [32, 33]) (op : VectorOp) :
    vector op x t =
      match modeFault op (vectorArgs t x.bus x.w x.b).mode with
      | some sub => .error (.fault (modeRecord sub x.bus))
      | none => .ok (deliver t t.cur x.bus (busResult x.bus) (op.lat (vectorArgs t x.bus x.w x.b).mode.type)
          (BitVec.ofNat 1024 (op.f (vectorArgs t x.bus x.w x.b)).1) (op.f (vectorArgs t x.bus x.w x.b)).2) := by
  have folios : needFolios (t.core x.c) [32, 33] = .ok () := hc ▸ present.folios
  obtain ⟨c, bus, port, b, w, pre⟩ := x
  subst hc
  have second : 0x102 + 3 * (bus - 2) + 1 = 0x103 + 3 * (bus - 2) := by omega
  have third : 0x102 + 3 * (bus - 2) + 2 = 0x104 + 3 * (bus - 2) := by omega
  simp only [vector, folios, bind, except_ok_bind, second, third]
  change (match modeFault op (vectorArgs t bus w b).mode with | some _ => _ | none => _) = _
  cases modeFault op (vectorArgs t bus w b).mode <;> rfl

/-! ### Bodies that only compute -/

/-- A body that delivers a result or faults, and does nothing else. -/
def Computes (body : Body) : Prop :=
  ∀ (x : Trig) (t : State), x.c = t.cur → x.bus < 8 → Present t [32, 33] →
    (∃ bus port lat v f, body x t = .ok (deliver t t.cur bus port lat v f)) ∨ ∃ f, body x t = .error (.fault f)

theorem computes_scalar (op : ScalarOp) : Computes (scalar op) := fun _ _ hc _ present => .inl ⟨_, _, _, _, _, scalar_ok hc present⟩

theorem computes_vector (op : VectorOp) : Computes (vector op) := by
  intro x t hc _ present
  rw [vector_eq hc present]
  split
  · exact .inr ⟨_, rfl⟩
  · exact .inl ⟨_, _, _, _, _, rfl⟩

theorem computes_special (lat : Nat) (f : VArgs → Nat × Word) : Computes (special lat f) := by
  intro x t hc _ present
  have folios : needFolios (t.core x.c) [32, 33] = .ok () := hc ▸ present.folios
  simp only [special, folios, bind, except_ok_bind]
  split
  · exact .inr ⟨_, rfl⟩
  · split
    · exact .inr ⟨_, rfl⟩
    · rw [due, hc]
      exact .inl ⟨_, _, _, _, _, rfl⟩

/-- The triggers below 0x340 are those of SA, SB, VA, VB, VC and SF (Table 8.15). -/
theorem computes_trigger {i : Instr} {tr : Trigger} (h : triggerOf i = some tr) (hp : tr.port < 0x340) : Computes tr.body := by
  cases i
  all_goals first
    | (obtain rfl := Option.some.inj h; exact computes_scalar _)
    | (obtain rfl := Option.some.inj h; exact computes_vector _)
    | (obtain rfl := Option.some.inj h; exact computes_special _ _)
    | (obtain rfl := Option.some.inj h; exact absurd hp (Nat.not_lt.2 (Nat.le_of_ble_eq_true rfl)))
    | cases h

theorem notMark_of_low {p : Nat} (h : p < 0x340) : isMarkTrig p = false := by
  simp only [isMarkTrig, isAtomicTrig, Bool.or_eq_false_iff, Bool.and_eq_false_iff, beq_eq_false_iff_ne, decide_eq_false_iff_not]
  omega

/-- An arithmetic trigger whose source can be read delivers a result or faults. -/
theorem exec_arithmetic {i : Instr} {tr : Trigger} {s t : State} {v : Val} {bus : Fin 8} (h : triggerOf i = some tr) (hp : tr.port < 0x340)
    (hbus : tr.bus = bus.val) (hsrc : tr.src < 2048) (reads : Reads s bus (BitVec.ofNat 11 tr.src) tr.keep v t) (present : Present t [32, 33]) :
    (∃ b port lat v f, exec i s = .next (deliver t t.cur b port lat v f)) ∨ ∃ f, exec i s = .next (takeCoreFault s s.cur f) := by
  have hx : (BitVec.ofNat 11 tr.src).toNat = tr.src := by simpa using hsrc
  have run := runTrigger_eq reads tr.port tr.width tr.body
  rw [hx, ← hbus, startTrigger_present present (by simp) reads.cur.symm] at run
  rw [exec_trigger s h (notMark_of_low hp), run]
  rcases computes_trigger h hp { c := s.cur, bus := tr.bus, port := tr.port, b := v, w := tr.width, pre := s.here.arch } t reads.cur.symm
    (hbus ▸ bus.isLt) present with ⟨b, port, lat, v, f, value⟩ | ⟨f, fault⟩
  · exact .inl ⟨b, port, lat, v, f, by rw [value]; rfl⟩
  · exact .inr ⟨f, by rw [fault]; rfl⟩

/-! ### What stays -/

/-- The bytes of memory are part of the module. -/
theorem SameModule.memory {s t : State} (h : SameModule s t) : SameMemory s t := by
  intro p
  rw [← h]
  rfl

theorem here_deliver (t : State) (bus port lat : Nat) (v : Vec) (f : Word) :
    (deliver t t.cur bus port lat v f).here = { t.here with arch := t.here.arch.addDue (knownDue t.here.arch bus port lat v f) } := State.core_modCore_same ..

theorem sameModule_deliver {s t : State} (h : SameModule s t) (c bus port lat : Nat) (v : Vec) (f : Word) : SameModule s (deliver t c bus port lat v f) := h

theorem sameOthers_deliver {s t : State} {i : Fin 8} {src : BitVec 11} {keep : Bool} {b : Val} (h : Reads s i src keep b t) (bus port lat : Nat) (v : Vec) (f : Word) :
    SameOthers s (deliver t t.cur bus port lat v f) := fun d hd => (State.core_modCore_other _ _ (h.cur ▸ hd)).trans (h.sameOthers d hd)

/-- The run state is not what a read pops. -/
theorem Reads.run {s t : State} {bus : Fin 8} {src : BitVec 11} {keep : Bool} {v : Val} (h : Reads s bus src keep v t) : t.here.run = s.here.run := by
  rw [h.arch]

/-- Settles O13: an arithmetic trigger delivers a result, which only adds to the results due, or takes a core fault, whose laws say what it leaves. -/
theorem arithmeticFrame : Obligations.ArithmeticFrame := by
  unfold Obligations.ArithmeticFrame
  intro i tr s t u v bus h hp hbus hsrc running reads present exec_eq
  rcases exec_arithmetic h hp hbus hsrc reads present with ⟨b, port, lat, r, f, value⟩ | ⟨f, fault⟩
  · obtain rfl := Host.Outcome.next.inj (exec_eq.symm.trans value)
    have same : SameModule s (deliver t t.cur b port lat r f) := sameModule_deliver reads.sameModule ..
    have gaths : (deliver t t.cur b port lat r f).gaths = s.gaths := congrArg (fun m : State => m.gaths) same.symm ▸ rfl
    have run : (deliver t t.cur b port lat r f).here.run = .running := by rw [here_deliver]; exact reads.run.trans running
    refine ⟨?_, same.memory, sameOthers_deliver reads b port lat r f, fun _ => ⟨gaths, ?_⟩, fun stopped => absurd run stopped⟩
    · rw [← gaths]; exact same
    · rw [here_deliver]; rfl
  · obtain rfl := Host.Outcome.next.inj (exec_eq.symm.trans fault)
    have run : (takeCoreFault s s.cur f).here.run = .faulted := by rw [here_takeCoreFault]; rfl
    exact ⟨sameModule_takeCoreFault s _ f, sameMemory_takeCoreFault s _ f, sameOthers_takeCoreFault s f, fun running => (nomatch run.symm.trans running),
      fun _ => ⟨f, rfl⟩⟩

end Sys2Proof.Machine
end

section
/-!
SUPPORT. Laws of the issue of a bundle: what issues, what step 2 leaves (O6).
-/

namespace Sys2Proof.Machine

/-! ### A bundle that may issue -/

theorem exec_bundleIssue (s : State) : exec .bundleIssue s = .next (issue s s.cur) := rfl

section Issue

variable {s : State} (may : mayIssue s.here = true) (unpaced : s.here.paced = false) (fetched : frozenFetch s.here = none)
include may unpaced fetched

/-- A bundle that passes its checks and is no mark runs steps 2 to 7. -/
theorem exec_bundleIssue_pass {b : Bundle} (decoded : decodeBundle s.here.bundle = .ok b) (unmarked : isMarkBundle s.here.arch s.here.bundle = false) :
    exec .bundleIssue s = finish s s.cur (issueSteps s s.cur false b) := by
  simp only [State.here] at may unpaced fetched decoded unmarked
  simp only [exec_bundleIssue, issue, may, unpaced, fetched, decoded, unmarked, Bool.true_eq_false, Bool.false_eq_true, if_false]
  cases issueSteps s s.cur false b <;> rfl

/-- A bundle that fails a static check faults ILLEGAL_BUNDLE. -/
theorem exec_bundleIssue_illegal {sub part : Nat} (refused : decodeBundle s.here.bundle = .error (sub, part)) :
    exec .bundleIssue s = .next (takeCoreFault s s.cur (CFault.mk' cIllegalBundle sub part 0)) := by
  simp only [State.here] at may unpaced fetched refused
  simp only [exec_bundleIssue, issue, may, unpaced, fetched, refused, Bool.true_eq_false, Bool.false_eq_true, if_false]

end Issue

/-- The bundle without moves, slot and control field. -/
def emptyBundle : Bundle := { mark := false, slots := [], adr := none, tree := none, lits := [0, 0, 0, 0, 0] }

theorem decodeBundle_zero : decodeBundle 0 = .ok emptyBundle := eq_ok_of_gives (by decide +kernel)

theorem holdsPort_zero (f : Nat → Bool) : holdsPort 0 f = false := by simp [holdsPort, bPresent, bit]

theorem isMarkBundle_zero {a : Arch} (h : a.count ≠ 0) : isMarkBundle a 0 = false := by
  have ports : holdsPort (0#512) isMarkTrig = false := holdsPort_zero _
  simp [isMarkBundle, bMark, bit, ports, h]

/-- The empty bundle, after the entry bundle. -/
theorem exec_bundleIssue_zero {s : State} (may : mayIssue s.here = true) (unpaced : s.here.paced = false) (fetched : frozenFetch s.here = none)
    (zero : s.here.bundle = 0) (entered : s.here.arch.count ≠ 0) : exec .bundleIssue s = finish s s.cur (issueSteps s s.cur false emptyBundle) :=
  exec_bundleIssue_pass may unpaced fetched (zero ▸ decodeBundle_zero) (zero ▸ isMarkBundle_zero entered)

theorem issueSteps_stopped {s : State} {c : Nat} {e : Stop} (h : stepRings s c = .error e) (mark : Bool) (b : Bundle) : issueSteps s c mark b = .error e := by
  rw [issueSteps, h]
  rfl

/-! ### Step 2 -/

theorem get_shiftAll (t : Tab Ring) {k : Nat} (h : k < 8) : (shiftAll t).get .empty k = (t.get .empty k).shift := by
  have upto : ∀ n, ((List.range n).foldl (fun (u : Tab Ring) k => u.put .empty k ((t.get .empty k).shift)) t).get .empty k =
      if k < n then (t.get .empty k).shift else t.get .empty k := by
    intro n
    induction n with
    | zero => rfl
    | succ n ih =>
      rw [List.range_succ, List.foldl_append, List.foldl_cons, List.foldl_nil]
      by_cases same : k = n
      · subst same
        rw [Tab.get_put_same, if_pos (Nat.lt_succ_self k)]
      · rw [Tab.get_put_other _ _ _ _ same, ih]
        exact if_iff_congr (by omega) rfl rfl
  rw [shiftAll, upto, if_pos h]

/-- Registers as they stand when results fall due: the rings shifted and the list shortened. -/
def Arch.shifted (a : Arch) : Arch := { a with rings := shiftAll a.rings, due := a.due.filter fun d => d.dueAt != a.count }

theorem enterAll_one {a : Arch} {d : Due} (h : dueNow a = [d]) : enterAll a = enterDue a.shifted d := by
  rw [enterAll, h]
  rfl

/-- What one result that falls due writes: ring, port and flags; `xlt`'s handle too. -/
theorem enterDue_value {a : Arch} {d : Due} {v : Vec} (h : d.val = some v) (hb : d.bus < 8) :
    enterDue a.shifted d = settleResult { a.shifted with
      rings := (shiftAll a.rings).put .empty d.bus { d0 := some v, d1 := (a.ring d.bus).d0, d2 := (a.ring d.bus).d1, d3 := (a.ring d.bus).d2 }
      res := a.res.put 0 d.port v } d := by
  simp only [enterDue, h, Option.getD_some, Arch.shifted, Arch.ring, get_shiftAll _ hb, Ring.shift]

/-- Step 2 for one result, on PRESENT folios. -/
theorem stepRings_one {s : State} {d : Due} (now : dueNow s.here.arch = [d]) (h33 : needFolio s.here 33 = .ok ())
    (h32 : d.inst.isSome = true → needFolio s.here 32 = .ok ()) :
    stepRings s s.cur =
      match d.bad, d.val with
      | some f, _ => .error (.faultAt f d.bundle d.count)
      | none, none => .error (.freeze .late d.tag 15)
      | none, some _ =>
        let k := { s.here with arch := enterDue s.here.arch.shifted d }.dirty 33
        .ok (s.setCore s.cur (if d.inst.isSome then k.dirty 32 else k)) := by
  simp only [State.here] at now h33 h32 ⊢
  simp only [stepRings, h33, now, bind, except_ok_bind, List.any_cons, List.any_nil, Bool.or_false, enterAll_one now, needDue]
  cases inst : d.inst.isSome
  · cases d.bad <;> cases d.val <;> rfl
  · rw [h32 inst]
    cases d.bad <;> cases d.val <;> rfl

theorem Core.folio_dirty (k : Core) (f : Nat) : ((k.dirty f).folio f).dirty = true := by
  unfold Core.dirty
  split
  case isTrue dirty => exact dirty
  case isFalse => simp

theorem due_leaves {a : Arch} {d : Due} (h : dueNow a = [d]) : d ∉ a.shifted.due := by
  have now : d ∈ dueNow a := by simp [h]
  have at' : d.dueAt = a.count := by simpa using (List.mem_filter.1 now).2
  simp [Arch.shifted, at']

theorem sameOthers_setCore (s : State) (k : Core) : SameOthers s (s.setCore s.cur k) := fun _ h => State.core_setCore_other _ _ h

theorem settleResult_some {a : Arch} {d : Due} {n : Nat} {h : Handle} (e : d.inst = some (n, h)) : settleResult a d = (a.raise d.flags).setHandle n h := by
  simp only [settleResult, e]

theorem settleResult_none {a : Arch} {d : Due} (e : d.inst = none) : settleResult a d = a.raise d.flags := by
  simp only [settleResult, e]

/-- Settles O6: step 2 for the one result due now, by whether its walk failed, it has arrived, and it brings a handle. -/
theorem resultsFallDue : Obligations.ResultsFallDue := by
  unfold Obligations.ResultsFallDue
  refine ⟨fun s d v present now val inst bad bus => ?arrived, fun s d may unpaced fetched zero entered present now val inst bad => ?late,
    fun s d now => ⟨fun v n h present val inst bad bus => ?handle, fun f present bad may unpaced fetched zero entered => ?failed⟩⟩
  case arrived =>
    have step := stepRings_one now (present.folio (by simp)) (by simp [inst])
    simp only [bad, val, inst, enterDue_value val bus, settleResult_none inst, Option.isSome_none, Bool.false_eq_true, if_false] at step
    refine ⟨_, step, ?_⟩
    simp only [State.here, State.setCore_cur, State.core_setCore_same, Core.arch_dirty]
    exact ⟨congrArg Ring.d0 (Tab.get_put_same ..), congrArg Ring.d1 (Tab.get_put_same ..), congrArg Ring.d2 (Tab.get_put_same ..),
      congrArg Ring.d3 (Tab.get_put_same ..), Tab.get_put_same .., rfl, due_leaves now, rfl, rfl, rfl, rfl, fun _ => rfl, sameOthers_setCore s _⟩
  case late =>
    have step := stepRings_one now (present.folio (by simp)) (by simp [inst])
    simp only [bad, val] at step
    have run : exec .bundleIssue s = .next (takeFreeze s s.cur .late d.tag 15) := by
      rw [exec_bundleIssue_zero may unpaced fetched zero entered, issueSteps_stopped step]
      rfl
    refine ⟨_, run, ?_, ?_, rfl, fun _ => rfl⟩ <;> simp [takeFreeze, State.here]
  case handle =>
    have step := stepRings_one now (present.folio (by simp)) fun _ => present.folio (by simp)
    simp only [bad, val, inst, enterDue_value val bus, settleResult_some inst, Option.isSome_some, if_true] at step
    refine ⟨_, step, ?_⟩
    simp only [State.here, State.setCore_cur, State.core_setCore_same, Core.arch_dirty]
    exact ⟨Tab.get_put_same .., fun m hm => Tab.get_put_other _ _ _ _ hm, congrArg Ring.d0 (Tab.get_put_same ..), Tab.get_put_same .., due_leaves now,
      Core.folio_dirty _ _, rfl, fun _ => rfl, sameOthers_setCore s _⟩
  case failed =>
    have step := stepRings_one now (present.folio (by simp)) fun _ => present.folio (by simp)
    simp only [bad] at step
    rw [exec_bundleIssue_zero may unpaced fetched zero entered, issueSteps_stopped step]
    rfl

end Sys2Proof.Machine
end

section
/-!
SUPPORT. Why O5 does not hold of every state: a bundle that stops behind step 2 keeps the walks of its try, and where a state
already lists a leaf that a walk has faulted on, what is kept sets the leaf's accessed bit beside the fault that O5 names.
-/

namespace Sys2Proof.Machine

namespace FaultedLeaf

/-- A chain of one test on p0: the first leaf falls through, the last one pops a loop. -/
def tree : Tree :=
  { fork := false, tests := [{ inv := false, kind := 0, idx := 0 }], leaves := [{ target := 5, pop := 0 }, { target := 5, pop := 1 }] }

/-- A bundle that holds the tree alone. -/
def word : BitVec 512 := BitVec.ofNat 512 (2 ^ 15 + 2 ^ 232 * (20 * 2 ^ 36 + 21 * 2 ^ 41))

def bundle : Bundle := { mark := false, slots := [], adr := none, tree := some tree, lits := [0, 0, 0, 0, 0] }

/-- The last level of PASID 7's tables holds the leaf of a 64 KiB page, accessed bit 0. -/
def leafAt : Place := { host := false, addr := 0x402018 }
def leaf : Word := 0xFFF0000000050101

def mapped : State :=
  (((({ State.reset with pasids := State.reset.pasids.set 7 { root := some 0x200000, table := 0x30000, tearing := false } } : State).write64
    { host := false, addr := 0x200000 } 0x400007).write64 { host := false, addr := 0x400000 } 0x401005).write64 { host := false, addr := 0x401000 } 0x402003).write64 leafAt leaf

/-- A cached leaf, accessed, on which a walk has faulted. -/
def cached : CacheEntry := { agent := 0, pasid := 7, base := 0x30000, leaf := leaf ||| 0x20, faulted := true }

/-- Core 0 at bundle 1, with an empty loop stack. -/
def state : State :=
  { mapped with caches := [cached] }.modCore 0 fun k =>
    { k with run := .running, folios := k.folios.set 0 { pres := .present, dirty := false }, imem := k.imem.set 1 word, arch := { k.arch with pc := 1, count := 1 } }

/-- The state after step 2. -/
def rung : State := match stepRings state state.cur with | .ok t => t | .error _ => state

theorem state_issues : mayIssue state.here = true ∧ state.here.paced = false ∧ frozenFetch state.here = none := by decide +kernel
theorem state_decodes : decodeBundle state.here.bundle = .ok bundle := eq_ok_of_gives (by decide +kernel)
theorem state_unmarked : isMarkBundle state.here.arch state.here.bundle = false := by decide +kernel
theorem state_rung : stepRings state state.cur = .ok rung := eq_ok_of_gives (by decide +kernel)
theorem rung_present : Present rung [32] := by
  have present : (rung.here.folio 32).pres = .present := by decide +kernel
  simpa [Present] using present

/-- p0 is clear and no loop stands. -/
theorem rung_arch : rung.here.arch.p.get false 0 = false ∧ rung.here.arch.loops = [] := by decide +kernel

/-- The bundle stops behind step 2, and the leaf is accessed after it. -/
theorem issued_leaf : (match exec .bundleIssue state with | .next u => u.read64 leafAt | _ => 0) = leaf ||| 0x20 := by decide +kernel

/-- A core fault leaves the leaf. -/
theorem faulted_leaf (f : CFault) : (takeCoreFault state state.cur f).read64 leafAt = leaf := by
  have bytes : (takeCoreFault state state.cur f).readAt leafAt 8 = state.readAt leafAt 8 :=
    List.map_congr_left fun _ _ => sameMemory_takeCoreFault state state.cur f _
  have before : state.read64 leafAt = leaf := by decide +kernel
  rw [State.read64, bytes]
  exact before

end FaultedLeaf

section Refutation

open FaultedLeaf

/-- Refutes O5: on a state whose caches list a leaf that a walk has faulted on, a leaf with too many pops does not leave the state
of its fault alone. The accessed bit of that leaf is set too (`keepWalks`). -/
theorem not_bundlesIssue : ¬ Obligations.BundlesIssue := by
  unfold Obligations.BundlesIssue
  rintro ⟨-, -, -, leafTaken, -⟩
  obtain ⟨may, unpaced, fetched⟩ := state_issues
  obtain ⟨p0, loops⟩ := rung_arch
  have last : (match exec .bundleIssue state with | .next u => u.read64 leafAt | _ => 0) = leaf := by
    rw [(leafTaken state rung bundle tree { target := 5, pop := 1 } 1 may unpaced fetched state_decodes state_unmarked rfl rfl rfl state_rung rung_present
      ?chain ?two ?three ?four rfl).1 (by simp [loops])]
    case chain =>
      refine fun _ => ⟨Nat.le_refl 1, fun j hj => ?_, fun more => absurd more (Nat.lt_irrefl 1)⟩
      obtain rfl : j = 0 := Nat.lt_one_iff.1 hj
      simp [tree, p0]
    case two => exact fun fork => nomatch fork
    case three => exact fun fork => nomatch fork
    case four => exact fun fork => nomatch fork
    exact faulted_leaf _
  exact absurd (issued_leaf.symm.trans last) (by decide)

end Refutation

end Sys2Proof.Machine
end

section
/-!
SUPPORT. The control unit's triggers (O28) and the address slot (O31).
-/

namespace Sys2Proof.Machine

/-! ### Triggers of the control unit -/

section Control

variable {s t : State} {m : Mv} {v : Val}

/-- What a CU trigger's body reads. -/
def cuTrig (s : State) (m : Mv) (v : Val) (port : Nat) : Trig := { c := s.cur, bus := m.bus.val, port := port, b := v, w := 1024, pre := s.here.arch }

/-- The low 11 bits of an operand, a bundle's number. -/
theorem bits_low11 (b : Word) : bits b 10 0 = b.toNat % 2048 := bits_low b 10

theorem lpPush_beyond {x : Trig} (h : (t.core x.c).arch.lend.toNat % 2048 < (t.core x.c).arch.pc.toNat + 1) :
    lpPush x t = .error (.fault (CFault.mk' 0x17 11 x.bus 0)) := by
  simp only [lpPush, bits_low11]
  rw [if_pos h]
  rfl

/-- The count of a push, as a number. -/
theorem count_eq_zero (w : Word) : w.setWidth 32 = (0 : BitVec 32) ↔ w.toNat % 2 ^ 32 = 0 := by
  rw [← BitVec.toNat_inj]
  simp

theorem lpPush_empty {x : Trig} (h : (t.core x.c).arch.pc.toNat + 1 ≤ (t.core x.c).arch.lend.toNat % 2048) (zero : x.b.lo.toNat % 2 ^ 32 = 0) :
    lpPush x t = .ok (t.modArch x.c fun a => a.jumpTo ((t.core x.c).arch.lend.toNat % 2048 + 1)) := by
  simp only [lpPush, bits_low11]
  rw [if_neg (Nat.not_lt.2 h), if_pos ((count_eq_zero _).2 zero)]

theorem lpPush_full {x : Trig} (h : (t.core x.c).arch.pc.toNat + 1 ≤ (t.core x.c).arch.lend.toNat % 2048) (some : x.b.lo.toNat % 2 ^ 32 ≠ 0)
    (full : (t.core x.c).arch.loops.length = 6) : lpPush x t = .error (.fault (CFault.mk' 0x04 1 x.bus 0)) := by
  simp only [lpPush, bits_low11]
  rw [if_neg (Nat.not_lt.2 h), if_neg (mt (count_eq_zero _).1 some), if_pos full]
  rfl

theorem lpPush_pushes {x : Trig} (h : (t.core x.c).arch.pc.toNat + 1 ≤ (t.core x.c).arch.lend.toNat % 2048) (some : x.b.lo.toNat % 2 ^ 32 ≠ 0)
    (room : (t.core x.c).arch.loops.length < 6) :
    lpPush x t = .ok (t.modArch x.c fun a => { a with loops := a.loops ++
      [{ count := x.b.lo.setWidth 32, idx := 0, start := a.pc + 1, stop := BitVec.ofNat 11 ((t.core x.c).arch.lend.toNat % 2048) }] }) := by
  simp only [lpPush, bits_low11]
  rw [if_neg (Nat.not_lt.2 h), if_neg (mt (count_eq_zero _).1 some), if_neg (Nat.ne_of_lt room)]

theorem cuJump_eq (x : Trig) (t : State) : cuJump x t = .ok (t.modArch x.c fun a => a.jumpTo (x.b.lo.toNat % 2048)) := by
  rw [cuJump, bits_low11]

theorem cuCall_room {x : Trig} (h : (t.core x.c).arch.calls.length < 8) :
    cuCall x t = .ok (t.modArch x.c fun a => { a with calls := (a.pc + 1) :: a.calls }.jumpTo (x.b.lo.toNat % 2048)) := by
  rw [cuCall, if_neg (Nat.not_le.2 h), bits_low11]

theorem cuCall_deep {x : Trig} (h : 8 ≤ (t.core x.c).arch.calls.length) : cuCall x t = .error (.fault (CFault.mk' 0x06 1 x.bus 0)) := by
  rw [cuCall, if_pos h]
  rfl

theorem cuBrk_halts {x : Trig} (h : (t.core x.c).debugger = true) : cuBrk x t = .ok (t.modCore x.c fun k => { k with debugHalt := true }) := by
  rw [cuBrk, if_pos h]

theorem cuBrk_faults {x : Trig} (h : (t.core x.c).debugger = false) : cuBrk x t = .error (.fault (CFault.mk' 0x51 (x.b.lo.toNat % 2 ^ 16) x.bus 0)) := by
  rw [cuBrk, if_neg (Bool.eq_false_iff.1 h), bits_low]
  rfl

theorem cuWdog_arms {x : Trig} (h : x.b.lo.toNat % 2 ^ 32 ≠ 0) : cuWdog x t = .ok (t.modCore x.c fun k => { k with wdog := some (x.b.lo.toNat % 2 ^ 32) }) := by
  rw [cuWdog, bits_low, if_neg h]

theorem cuWdog_disarms {x : Trig} (h : x.b.lo.toNat % 2 ^ 32 = 0) : cuWdog x t = .ok (t.modCore x.c fun k => { k with wdog := none }) := by
  rw [cuWdog, bits_low, if_pos h]

/-- Settles O28: each trigger of the control unit by its body. -/
theorem controlRuns : Obligations.ControlRuns := by
  unfold Obligations.ControlRuns
  intro m s t v h
  have next {port : Nat} {body : Body} {u : State} (cu : isCuTrig port = true) (hb : body (cuTrig s m v port) t = .ok u) : runMv m port body s = .next u :=
    runMv_next h (needLatches_cu t s.cur cu) hb
  have faults {port : Nat} {body : Body} {f : CFault} (cu : isCuTrig port = true) (hb : body (cuTrig s m v port) t = .error (.fault f)) :
      runMv m port body s = .next (takeCoreFault s s.cur f) := runMv_fault h (needLatches_cu t s.cur cu) hb
  rw [State.here, h.cur]
  refine ⟨fun low => faults rfl (lpPush_beyond low), fun fits zero => next rfl (lpPush_empty fits zero), fun fits some full => faults rfl (lpPush_full fits some full),
    fun fits some room => ?push, next rfl (cuJump_eq _ t), fun room => next rfl (cuCall_room room), fun deep => faults rfl (cuCall_deep deep), fun dbg => next rfl (cuBrk_halts dbg), fun free => faults rfl (cuBrk_faults free),
    fun some => next rfl (cuWdog_arms some), fun zero => next rfl (cuWdog_disarms zero)⟩
  case push =>
    refine (next rfl (lpPush_pushes fits some room)).trans ?_
    rw [← BitVec.ofNat_toNat 32 (cuTrig s m v 0x3E0).b.lo]
    rfl

end Control

/-! ### The address slot -/

theorem exec_lend (d : BitVec 3) (s : State) : exec (.lend d) s = .next (s.modArch s.cur fun a => lendStep a d.toNat) := rfl

/-- `lend` at the end of the top loop, at its depth (R228). -/
theorem lendHits_top {a : Arch} {l : List Loop} {x : Loop} {d : Nat} (loops : a.loops = l ++ [x]) (depth : d = l.length + 1) (last : a.pc = x.stop) :
    lendHits a d = some x := by
  simp [lendHits, loops, depth, last]

theorem lendHits_none {a : Arch} {d : Nat} (h : ∀ l x, a.loops = l ++ [x] → d ≠ l.length + 1 ∨ a.pc ≠ x.stop) : lendHits a d = none := by
  rcases List.eq_nil_or_concat a.loops with empty | ⟨l, x, loops⟩
  · simp [lendHits, empty]
  · have miss := h l x (by simpa using loops)
    simp only [lendHits, loops, List.concat_eq_append, List.getLast?_append, List.getLast?_singleton, Option.some_or, List.length_append, List.length_singleton]
    rw [if_neg (by grind)]

theorem lendStep_top {a : Arch} {l : List Loop} {x : Loop} {d : Nat} (loops : a.loops = l ++ [x]) (depth : d = l.length + 1) (last : a.pc = x.stop) :
    lendStep a d =
      if (x.idx + 1).toNat < x.count.toNat then { a with loops := l ++ [{ x with idx := x.idx + 1 }], pc := x.start } else { a with loops := l } := by
  simp only [lendStep, lendHits_top loops depth last, loops, dropTop_append_top, Arch.jumpTo, BitVec.ofNat_toNat, BitVec.setWidth_eq]

theorem lendStep_miss {a : Arch} {d : Nat} (h : lendHits a d = none) : lendStep a d = a.raise flagLOOPMISS := by
  simp only [lendStep, h]

theorem fstatRaise_loopMiss (f : Word) (i : Nat) : (fstatRaise f flagLOOPMISS).getLsbD i = (f.getLsbD i || decide (i = 6)) := by
  have mask : (flagLOOPMISS &&& 0x7FF : Word) = BitVec.twoPow 64 6 := by decide
  rw [fstatRaise, BitVec.getLsbD_or, mask, BitVec.getLsbD_twoPow]
  by_cases hi : i = 6
  · simp [hi]
  · simp [hi, Ne.symm hi]

/-- A stream operation on a PRESENT state folio sets its stream. -/
theorem streamStep_ok {s : State} (present : Present s [32]) (n : Nat) (f : Arch → Stream → Stream) :
    streamStep n f s.cur s.here.arch s =
      .ok (s.modCore s.cur fun k => { k with arch := k.arch.setStream n (f s.here.arch (k.arch.stream n)) }.dirty 32) := by
  rw [streamStep, present.folio (by simp)]
  rfl

/-- What a stream operation leaves: stream `n` set, everything else as it was. -/
def SetsStream (s : State) (n : Nat) (i : Instr) (new : Stream) : Prop :=
  ∃ u, exec i s = .next u ∧ u.here.arch.stream n = new ∧ (∀ k, k ≠ n → u.here.arch.stream k = s.here.arch.stream k) ∧
    { u.here.arch with streams := s.here.arch.streams } = s.here.arch ∧ SameModule s u ∧ SameMemory s u ∧ SameOthers s u

theorem setsStream {s : State} (present : Present s [32]) {n : Nat} {f : Arch → Stream → Stream} {i : Instr} (he : exec i s = runSlot (streamStep n f) s) :
    SetsStream s n i (f s.here.arch (s.here.arch.stream n)) := by
  have run : exec i s = .next (s.modCore s.cur fun k => { k with arch := k.arch.setStream n (f s.here.arch (k.arch.stream n)) }.dirty 32) := by
    rw [he, runSlot]
    exact congrArg (finish s s.cur) (streamStep_ok present n f)
  refine ⟨_, run, ?_⟩
  simp only [State.here, State.modCore_cur, State.core_modCore_same, Core.arch_dirty, Arch.stream_setStream]
  exact ⟨trivial, fun k hk => Arch.stream_setStream_other _ _ hk, rfl, rfl, fun _ => rfl, fun d hd => State.core_modCore_other _ _ hd⟩

/-- Settles O31: `lend` by whether it stands at the end of its loop, the stream operations by the one law of a stream operation. -/
theorem addressSlots : Obligations.AddressSlots := by
  unfold Obligations.AddressSlots
  refine fun s => ⟨fun d l x loops depth last => ⟨fun more => ?iterates, fun ends bound => ?ends⟩, fun d miss => ?misses, fun present a n l kind imm idx b => ?streams⟩
  case iterates =>
    have small : (x.idx + 1).toNat < x.count.toNat := by have := x.count.isLt; bv_omega
    rw [exec_lend, State.modArch_congr (g := fun a => { a with loops := l ++ [{ x with idx := x.idx + 1 }], pc := x.start })]
    exact (lendStep_top loops depth last).trans (if_pos small)
  case ends =>
    have large : ¬ (x.idx + 1).toNat < x.count.toNat := by bv_omega
    rw [exec_lend, State.modArch_congr (g := fun a => { a with loops := l })]
    exact (lendStep_top loops depth last).trans (if_neg large)
  case misses =>
    refine ⟨_, exec_lend d s, ?_⟩
    have here : (s.modArch s.cur fun a => lendStep a d.toNat).here.arch = s.here.arch.raise flagLOOPMISS := by
      rw [← lendStep_miss (lendHits_none miss)]
      exact congrArg Core.arch (State.core_modCore_same ..)
    rw [here]
    exact ⟨fstatRaise_loopMiss _, rfl⟩
  case streams =>
    exact ⟨setsStream (n := a.toNat) (f := fun pre x => { x with base := scalar40 pre n }) present rfl,
      setsStream (n := a.toNat) (f := fun pre x => x.setStride l.toNat (scalar40 pre n)) present rfl,
      setsStream (n := a.toNat) (f := fun _ x => x.setStride l.toNat (imm.signExtend 40)) present rfl,
      setsStream (n := a.toNat) (f := fun _ x => { x with kind := kind, index := idx }) present rfl,
      setsStream (n := a.toNat) (f := fun _ x => { x with b := b }) present rfl,
      setsStream (n := a.toNat) (f := fun _ _ => .zero) present rfl⟩

end Sys2Proof.Machine
end

section
/-!
SUPPORT. Engine triggers (O24): each appends one operation to the gate, behind the checks of its engine.
-/

namespace Sys2Proof.Machine

/-! ### The gate entry of an engine operation -/

theorem gateAppend_full {s : State} {c bus : Nat} {g : Gated} (h : Config.gateEntries ≤ (s.core c).gate.length) :
    gateAppend s c bus g = .error (.fault (CFault.mk' 0x07 1 bus 0)) := by
  rw [gateAppend, if_pos h]
  rfl

theorem needPlace_ok {k : Core} {port bus : Nat}
    (h : takesPlace port = true → gatedCount k (engineOf port) + releasedCount k (engineOf port) < queueLimit (engineOf port)) : needPlace k port bus = .ok () := by
  simp only [needPlace]
  split
  · rfl
  · rename_i takes
    rw [if_pos (h (by simpa using takes))]

/-- With a place in its queue an engine operation is a gate entry. -/
theorem gateOp_eq {x : Trig} {t : State} (hc : x.c = t.cur) (present : Present t [32])
    (place : takesPlace x.port = true → gatedCount t.here (engineOf x.port) + releasedCount t.here (engineOf x.port) < queueLimit (engineOf x.port)) (j : Nat) :
    gateOp x t j = gateAppend t x.c x.bus (.engine (newOp t.here x.port x.b.lo j x.bus)) := by
  rw [gateOp, hc, show needFolio (t.core t.cur) 32 = .ok () from present.folio (by simp), show needPlace (t.core t.cur) x.port x.bus = .ok () from needPlace_ok place]
  rfl

/-! ### What an engine instruction does -/

/-- The instruction appends the operation to the gate, or faults where the gate is full. -/
def Gates (i : Instr) (bus : Nat) (s t : State) (o : Op) : Prop :=
  (t.here.gate.length < 48 → exec i s = .next (t.modCore s.cur fun k => { k with gate := k.gate ++ [.engine { o with shape := k.shape }] })) ∧
  (48 ≤ t.here.gate.length → exec i s = .next (takeCoreFault s s.cur { code := 0x07, sub := 1, whereAt := bus, addr := 0, detail := 0, aux := 0 }))

section Engine

variable {s t : State} {m : Mv} {v : Val} {port : Nat} {i : Instr} {body : Body}

/-- Operands of an engine trigger. -/
def engineTrig (s : State) (m : Mv) (v : Val) (port : Nat) : Trig := { c := s.cur, bus := m.bus.val, port := port, b := v, w := 1024, pre := s.here.arch }

theorem gates (h : Reads s m.bus m.src m.keep v t) (present : Present t [32]) (he : exec i s = runMv m port body s)
    (place : takesPlace port = true → gatedCount t.here (engineOf port) + releasedCount t.here (engineOf port) < queueLimit (engineOf port)) {j : Nat}
    (hb : body (engineTrig s m v port) t = gateOp (engineTrig s m v port) t j) :
    Gates i m.bus.val s t (newOp t.here port (v.bits.setWidth 64) j m.bus.val) := by
  have latches : needLatches t s.cur port = .ok () := h.cur ▸ needLatches_present present (by simp) port
  have entry := hb.trans (gateOp_eq h.cur.symm present place j)
  rw [State.here, h.cur] at entry ⊢
  rw [Gates, he, State.here, h.cur]
  refine ⟨fun room => runMv_next h latches (entry.trans ?_), fun full => runMv_fault h latches (entry.trans ?_)⟩
  · exact gateAppend_ok room
  · exact gateAppend_full full

theorem engine_faults (h : Reads s m.bus m.src m.keep v t) (present : Present t [32]) (he : exec i s = runMv m port body s) {f : CFault}
    (hb : body (engineTrig s m v port) t = .error (.fault f)) : exec i s = .next (takeCoreFault s s.cur f) := by
  rw [he]
  exact runMv_fault h (h.cur ▸ needLatches_present present (by simp) port) hb

end Engine

/-- The join counter of an engine operation, by the kind of its trigger: none, `me.j`, `ce.j`, or a field of operand B. -/
def engineJoin (a : Arch) (b : Word) (kind : Nat) : Nat :=
  (if kind = 0 then 0 else if kind = 1 then (a.config 0x12B).toNat else if kind = 2 then (a.config 0x125).toNat else b.toNat / 2 ^ kind) % 16

/-- What the text of O24 asks of one instruction. -/
def EngineRuns (i : Mv → Instr) (port kind : Nat) : Prop :=
  ∀ (m : Mv) (s t : State) (v : Val), Reads s m.bus m.src m.keep v t → Present t [32] →
    let a := t.here.arch
    let b : Word := v.bits.setWidth 64
    let tile := tileFault t.here.shape port ((a.config 0x12C).toNat % 64) (b.toNat % 64)
    let otype := (a.config 0x12F).toNat / 2 ^ 16 % 256
    (kind = 1 → ∀ n, tile = some n → exec (i m) s = .next (takeCoreFault s s.cur { code := 0x20, sub := n, whereAt := m.bus.val, addr := 0, detail := 0, aux := 0 })) ∧
    (port = 0x3B5 → otype ∉ [cInt8, cFp32, cBf16, cFp16] →
      exec (i m) s = .next (takeCoreFault s s.cur { code := 0x17, sub := 14, whereAt := m.bus.val, addr := 0, detail := 0, aux := 0 })) ∧
    ((kind = 1 → tile = none) → (port = 0x3B5 → otype ∈ [cInt8, cFp32, cBf16, cFp16]) →
      (takesPlace port = true → gatedCount t.here (engineOf port) + releasedCount t.here (engineOf port) < queueLimit (engineOf port)) →
        Gates (i m) m.bus.val s t (newOp t.here port b (engineJoin a b kind) m.bus.val))

section Kinds

variable {i : Mv → Instr} {port : Nat}

/-- A trigger with no check of its own. -/
theorem engineRuns_plain {kind : Nat} {body : Body} (he : ∀ m s, exec (i m) s = runMv m port body s) (hk : kind ≠ 1) (hp : port ≠ 0x3B5)
    (hb : ∀ x t, body x t = gateOp x t (engineJoin (t.core x.c).arch x.b.lo kind)) : EngineRuns i port kind := by
  intro m s t v h present
  refine ⟨fun me => absurd me hk, fun td => absurd td hp, fun _ _ place => ?_⟩
  have entry := gates h present (he m s) place (hb _ t)
  rw [State.here, h.cur] at entry ⊢
  exact entry

theorem engineRuns_none (he : ∀ m s, exec (i m) s = runMv m port (fun x s => gateOp x s 0) s) (hp : port ≠ 0x3B5) : EngineRuns i port 0 :=
  engineRuns_plain he (by decide) hp fun _ _ => rfl

theorem engineRuns_copy (he : ∀ m s, exec (i m) s = runMv m port ceTrigger s) (hp : port ≠ 0x3B5) : EngineRuns i port 2 :=
  engineRuns_plain he (by decide) hp fun x t => congrArg (gateOp x t) (bits_low ((t.core x.c).arch.config 0x125) 3)

theorem transformTrigger_eq {lo : Nat} (h : 3 ≤ lo) (x : Trig) (t : State) : transformTrigger lo x t = gateOp x t (engineJoin (t.core x.c).arch x.b.lo lo) := by
  rw [transformTrigger, bits_eq_div, engineJoin, if_neg (by omega), if_neg (by omega), if_neg (by omega), show lo + 3 + 1 - lo = 4 by omega] <;> rfl

theorem engineRuns_transform {lo : Nat} (he : ∀ m s, exec (i m) s = runMv m port (transformTrigger lo) s) (hl : 3 ≤ lo) (hp : port ≠ 0x3B5) : EngineRuns i port lo :=
  engineRuns_plain he (by omega) hp (transformTrigger_eq hl)

theorem engineRuns_matrix (he : ∀ m s, exec (i m) s = runMv m port meTrigger s) (hp : port ≠ 0x3B5) : EngineRuns i port 1 := by
  intro m s t v h present
  have body (x : Trig) : meTrigger x t =
      match tileFault (t.core x.c).shape x.port (((t.core x.c).arch.config 0x12C).toNat % 64) (x.b.lo.toNat % 64) with
      | some n => .error (.fault (CFault.mk' 0x20 n x.bus 0))
      | none => gateOp x t (engineJoin (t.core x.c).arch x.b.lo 1) := by
    simp only [meTrigger, bits_low]
    rfl
  rw [State.here, h.cur]
  refine ⟨fun _ n tile => engine_faults h present (he m s) ((body _).trans ?_), fun td => absurd td hp, fun free _ place => ?_⟩
  · simp only [engineTrig]
    rw [show (v.lo : Word) = v.bits.setWidth 64 from rfl, tile]
    rfl
  · have entry := gates (j := engineJoin (t.core s.cur).arch (v.bits.setWidth 64) 1) h present (he m s) (by rw [State.here, h.cur]; exact place) ((body _).trans (by
      simp only [engineTrig]
      rw [show (v.lo : Word) = v.bits.setWidth 64 from rfl, free rfl]))
    rw [State.here, h.cur] at entry
    exact entry

theorem tdOtypeOk_iff (cfg : Word) : tdOtypeOk cfg = true ↔ cfg.toNat / 2 ^ 16 % 256 ∈ [cInt8, cFp32, cBf16, cFp16] := by
  simp [tdOtypeOk, tdOtype, bits_eq_div, or_assoc]

theorem engineRuns_block (he : ∀ m s, exec (i m) s = runMv m 0x3B5 tdBlock s) : EngineRuns i 0x3B5 19 := by
  intro m s t v h present
  rw [State.here, h.cur]
  simp only [← tdOtypeOk_iff]
  refine ⟨fun me => absurd me (by decide), fun _ other => engine_faults h present (he m s) ?_, fun _ known place => ?_⟩
  · rw [tdBlock, tdCheck, show (engineTrig s m v 0x3B5).c = s.cur from rfl, if_neg other]
    rfl
  · have entry := gates (j := engineJoin (t.core s.cur).arch (v.bits.setWidth 64) 19) h present (he m s) (by rw [State.here, h.cur]; exact place) (by
      rw [tdBlock, tdCheck, show (engineTrig s m v 0x3B5).c = s.cur from rfl, if_pos (known trivial)]
      show transformTrigger 19 _ t = _
      exact transformTrigger_eq (by decide) _ t)
    rw [State.here, h.cur] at entry
    exact entry

end Kinds

/-- Settles O24: each instruction is an engine trigger of one of four kinds. -/
theorem engineTriggers : Obligations.EngineTriggers := by
  unfold Obligations.EngineTriggers
  intro p hp
  show EngineRuns p.1 p.2.1 p.2.2
  simp only [List.mem_cons, List.not_mem_nil, or_false] at hp
  rcases hp with me | me | me | me | me | me | me | me | me | me | me | me | ce | ce | ce | ce | ce | ce | ce | ce | ce | ce | ce |
    rfl | rfl | rfl | rfl | rfl | rfl | rfl | rfl | rfl
  iterate 12 (obtain rfl := me; exact engineRuns_matrix (fun _ _ => rfl) (by decide))
  iterate 11 (obtain rfl := ce; exact engineRuns_copy (fun _ _ => rfl) (by decide))
  · exact engineRuns_transform (fun _ _ => rfl) (by decide) (by decide)
  · exact engineRuns_none (fun _ _ => rfl) (by decide)
  · exact engineRuns_transform (fun _ _ => rfl) (by decide) (by decide)
  · exact engineRuns_transform (fun _ _ => rfl) (by decide) (by decide)
  · exact engineRuns_block fun _ _ => rfl
  · exact engineRuns_transform (fun _ _ => rfl) (by decide) (by decide)
  · exact engineRuns_transform (fun _ _ => rfl) (by decide) (by decide)
  · exact engineRuns_none (fun _ _ => rfl) (by decide)
  · exact engineRuns_none (fun _ _ => rfl) (by decide)

end Sys2Proof.Machine
end

section
/-!
SUPPORT. Address tokens and handles (R15, R16, R36 to R40): the fields of a token, the checks of an access, and what a trigger
that stops leaves.
-/

namespace Sys2Proof.Machine

/-! ### Tokens -/

section Tokens

variable {t : Word}

theorem tokKind_eq (t : Word) : tokKind t = t.toNat / 2 ^ 60 := by
  rw [tokKind, bits_eq_div]
  omega

theorem tokPeer_eq (t : Word) : tokPeer t = t.toNat / 2 ^ 56 % 16 := bits_eq_div t 59 56
theorem tokHandle_eq (t : Word) : tokHandle t = t.toNat / 2 ^ 48 % 32 := bits_eq_div t 52 48
theorem tokOff_eq (t : Word) : tokOff t = t.toNat % 2 ^ 40 := bits_low t 39

/-- The checks of Table 1.5 over the fields of a token. -/
theorem tokenFault_eq (s : State) (c : Nat) (t : Word) (size : Nat) (write : Bool) :
    tokenFault s c t size write =
      if 3 ≤ t.toNat / 2 ^ 60 then some 1
      else if t.toNat / 2 ^ 53 % 8 ≠ 0 ∨ t.toNat / 2 ^ 40 % 2 ^ 8 ≠ 0 ∨ (t.toNat / 2 ^ 60 ≠ 1 ∧ t.toNat / 2 ^ 56 % 16 ≠ 0) ∨
          (t.toNat / 2 ^ 60 ≠ 2 ∧ t.toNat / 2 ^ 48 % 32 ≠ 0) then some 2
      else if t.toNat / 2 ^ 60 ≤ 1 ∧ 0x50000 < t.toNat % 2 ^ 40 + size then some 3
      else if t.toNat / 2 ^ 60 = 1 ∧ 12 ≤ t.toNat / 2 ^ 56 % 16 then some 4
      else if t.toNat % 2 ^ 40 % size ≠ 0 then some 5
      else if t.toNat / 2 ^ 60 = 1 ∧ write = true then some 6
      else if t.toNat / 2 ^ 60 = 1 ∧ sameGathering s c (c / 12 * 12 + t.toNat / 2 ^ 56 % 16) = false then some 7
      else none := by
  have reserved : bits t 55 53 = t.toNat / 2 ^ 53 % 8 := bits_eq_div t 55 53
  have upper : bits t 47 40 = t.toNat / 2 ^ 40 % 2 ^ 8 := bits_eq_div t 47 40
  simp only [tokenFault, tokKind_eq, tokPeer_eq, tokHandle_eq, tokOff_eq, reserved, upper]
  rfl

/-- A token of the scratchpad. -/
structure LocalToken (t : Word) (size : Nat) : Prop where
  bound : t.toNat + size ≤ 0x50000
  aligned : t.toNat % size = 0

theorem LocalToken.kind {size : Nat} (h : LocalToken t size) : tokKind t = 0 := by
  rw [tokKind_eq]
  have := h.bound
  omega

theorem LocalToken.off {size : Nat} (h : LocalToken t size) : tokOff t = t.toNat := by
  rw [tokOff_eq]
  have := h.bound
  omega

theorem LocalToken.passes {size : Nat} (h : LocalToken t size) (s : State) (c w : Nat) (write : Bool) : checkToken s c t size write w = .ok () := by
  have fault : tokenFault s c t size write = none := by
    have low := h.bound
    have inside : t.toNat % 2 ^ 40 = t.toNat := Nat.mod_eq_of_lt (by omega)
    have aligned : t.toNat % 2 ^ 40 % size = 0 := inside.symm ▸ h.aligned
    rw [tokenFault_eq, if_neg (by omega), if_neg (by omega), if_neg (by omega), if_neg (by omega), if_neg (by simpa using aligned), if_neg (by omega),
      if_neg (by omega)]
  rw [checkToken, fault]

/-- A token of a peer's scratchpad. -/
structure PeerToken (t : Word) (size peer off : Nat) : Prop where
  token : t.toNat = 2 ^ 60 + peer * 2 ^ 56 + off
  peer : peer < 12
  bound : off + size ≤ 0x50000
  aligned : off % size = 0

theorem PeerToken.kind {size peer off : Nat} (h : PeerToken t size peer off) : tokKind t = 1 := by
  obtain ⟨token, low, bound, -⟩ := h
  rw [tokKind_eq]
  omega

theorem PeerToken.off_eq {size peer off : Nat} (h : PeerToken t size peer off) : tokOff t = off := by
  obtain ⟨token, low, bound, -⟩ := h
  rw [tokOff_eq]
  omega

theorem PeerToken.peer_eq {size peer off : Nat} (h : PeerToken t size peer off) : tokPeer t = peer := by
  obtain ⟨token, low, bound, -⟩ := h
  rw [tokPeer_eq]
  omega

theorem PeerToken.passes {size peer off : Nat} (h : PeerToken t size peer off) {s : State} {c : Nat} (same : sameGathering s c (c / 12 * 12 + peer) = true) (w : Nat) :
    checkToken s c t size false w = .ok () := by
  have hoff := tokOff_eq t ▸ h.off_eq
  have hpeer := tokPeer_eq t ▸ h.peer_eq
  obtain ⟨token, low, bound, aligned⟩ := h
  have fault : tokenFault s c t size false = none := by
    rw [tokenFault_eq, hoff, hpeer, if_neg (by omega), if_neg (by omega), if_neg (by omega), if_neg (by omega), if_neg (by simpa using aligned),
      if_neg (by simp), if_neg (by simp [same])]
  rw [checkToken, fault]

/-- A token of a handle. -/
structure HandleToken (t : Word) (size n off : Nat) : Prop where
  token : t.toNat = 2 ^ 61 + n * 2 ^ 48 + off
  handle : n < 32
  bound : off < 2 ^ 40
  aligned : off % size = 0

theorem HandleToken.kind {size n off : Nat} (h : HandleToken t size n off) : tokKind t = 2 := by
  obtain ⟨token, low, bound, -⟩ := h
  rw [tokKind_eq]
  omega

theorem HandleToken.off_eq {size n off : Nat} (h : HandleToken t size n off) : tokOff t = off := by
  obtain ⟨token, low, bound, -⟩ := h
  rw [tokOff_eq]
  omega

theorem HandleToken.handle_eq {size n off : Nat} (h : HandleToken t size n off) : tokHandle t = n := by
  obtain ⟨token, low, bound, -⟩ := h
  rw [tokHandle_eq]
  omega

theorem HandleToken.passes {size n off : Nat} (h : HandleToken t size n off) (s : State) (c w : Nat) (write : Bool) : checkToken s c t size write w = .ok () := by
  have hoff := tokOff_eq t ▸ h.off_eq
  obtain ⟨token, low, bound, aligned⟩ := h
  have fault : tokenFault s c t size write = none := by
    rw [tokenFault_eq, hoff, if_neg (by omega), if_neg (by omega), if_neg (by omega), if_neg (by omega), if_neg (by simpa using aligned), if_neg (by omega),
      if_neg (by omega)]
  rw [checkToken, fault]

end Tokens

/-! ### Handles -/

/-- A handle that answers an access as it stands: valid, not stale, in range, with the right. -/
structure Serves (s : State) (c : Nat) (h : Handle) (off size g : Nat) (write : Bool) : Prop where
  valid : h.valid = true
  fresh : h.stale = false
  right : h.right g = true
  range : off + size ≤ h.bytes
  ats : handleAts s c h off g write = none

theorem checkContents_ok {s : State} {c off size g : Nat} {h : Handle} {write : Bool} (serves : Serves s c h off size g write)
    (hw : write = true → h.cow = false) (inv w addr : Nat) : checkContents s c h off size g write inv w addr = .ok (s, h) := by
  obtain ⟨valid, fresh, right, range, ats⟩ := serves
  have contents : (if write = true then writableHandle s c h w addr else pure (s, h)) = .ok (s, h) := by
    cases write
    · rfl
    · rw [if_pos rfl, writableHandle, hw rfl]
      rfl
  rw [checkContents, if_neg (by simp [valid]), freshHandle, if_neg (by simp [fresh])]
  simp only [bind, except_ok_bind, upon, if_neg (Nat.not_lt.2 range), right, Bool.true_eq_false, if_false, ats, contents]
  rfl

theorem checkHandle_ok {s : State} {c size n off g : Nat} {t : Word} {write : Bool} (token : HandleToken t size n off)
    (serves : Serves s c ((s.core c).arch.handle n) off size g write) (hw : write = true → ((s.core c).arch.handle n).cow = false) (w : Nat) :
    checkHandle s c t size g write w = .ok (s.modArch c fun a => a.setHandle n ((s.core c).arch.handle n), (s.core c).arch.handle n) := by
  simp only [checkHandle, token.handle_eq, token.off_eq, checkContents_ok serves hw, bind, except_ok_bind]
  rfl

/-! ### A trigger that stops -/

theorem runMv_stop {s t : State} {m : Mv} {v : Val} {port : Nat} {body : Body} {e : Stop} (h : Reads s m.bus m.src m.keep v t)
    (hl : needLatches t s.cur port = .ok ()) (hb : body { c := s.cur, bus := m.bus.val, port := port, b := v, w := 1024, pre := s.here.arch } t = .error e) :
    runMv m port body s = .next (takeStop s s.cur (e.atPart m.bus.val)) := by
  have run : runTrigger s.cur m.bus.val m.src.toNat m.keep port 1024 body s = .error (e.atPart m.bus.val) := by
    rw [runTrigger_eq h, startTrigger, hl, except_ok_bind, hb]
    rfl
  rw [runMv, run]
  rfl

theorem Reads.fresh {s t : State} {bus : Fin 8} {src : BitVec 11} {keep : Bool} {v : Val} (h : Reads s bus src keep v t) : t.fresh = s.fresh := by
  rcases h.state with rfl | ⟨k, -, rfl⟩ <;> rfl

end Sys2Proof.Machine
end

section
/-!
SUPPORT. Loads (O14): local, from a peer and through a handle, and the token checks they make.
-/

namespace Sys2Proof.Machine

section Load

variable {s t : State} {m : Mv} {v : Val} {size sx : Nat} {x : Trig}

/-- Operands of a memory trigger. -/
def memTrig (s : State) (m : Mv) (v : Val) (port : Nat) : Trig := { c := s.cur, bus := m.bus.val, port := port, b := v, w := 1024, pre := s.here.arch }

theorem load_refused {n : Nat} (h : tokenFault t x.c x.b.lo size false = some n) (sx : Nat) :
    load size sx x t = .error (.fault (CFault.mk' 0x16 n x.bus x.b.lo.toNat)) := by
  rw [load, checkToken, h]
  rfl

/-- A local load performs what comes before it and delivers its value (R127, R266). -/
theorem load_local (token : LocalToken x.b.lo size) (folios : needFolios (t.core x.c) (spadFolios x.b.lo.toNat size) = .ok ()) (sx : Nat) :
    load size sx x t =
      let u := performBefore t x.c (t.core x.c).epoch
      .ok (deliver u x.c x.bus (busResult x.bus) 6 ((u.core x.c).ownRead (u.core x.c).arch.count x.b.lo.toNat size sx) 0) := by
  simp only [load, token.passes, token.kind, token.off, bind, except_ok_bind, if_true, folios]
  rfl

theorem load_peer {peer off : Nat} (token : PeerToken x.b.lo size peer off) (same : sameGathering t x.c (x.c / 12 * 12 + peer) = true) (sx : Nat) :
    load size sx x t = (needPeer t (x.c / 12 * 12 + peer) x.bus (spadFolios off size)).bind fun _ =>
      .ok (lateDue x t 40 0 (.peer (x.c / 12 * 12 + peer) off size sx)) := by
  rw [load, token.passes same, token.kind, if_neg (by decide), if_pos rfl, token.off_eq, token.peer_eq]
  rfl

/-- A load through a handle asks its home. -/
theorem load_handle {n off : Nat} (token : HandleToken x.b.lo size n off) (serves : Serves t x.c ((t.core x.c).arch.handle n) off size 63 false) (sx : Nat) :
    load size sx x t =
      let h := (t.core x.c).arch.handle n
      .ok (lateDue x (t.modArch x.c fun a => a.setHandle n h) 96 (h.pageOf off) (.load (t.handlePlace (t.core x.c).member.pasid h off) size sx)) := by
  rw [load, token.passes, token.kind, if_neg (by decide), if_neg (by decide), checkHandle_ok token serves (by simp), token.off_eq]
  simp only [bind, except_ok_bind, State.core_modArch_same]
  rfl

theorem performBefore_nothing {c epoch : Nat} (h : loadsBefore (t.core c) epoch = []) : performBefore t c epoch = t := by
  rw [performBefore, h]
  rfl

/-- The result that a late request waits for. -/
theorem here_lateDue {u : State} (hc : x.c = u.cur) (lat page : Nat) (req : Req) :
    (lateDue x u lat page req).here =
      { u.here with arch := { u.here.arch with due := u.here.arch.due ++ [lateEntry u.here (u.fresh + 1) x.bus lat req page] } } := by
  rw [State.here, lateDue, hc]
  exact State.core_modArch_same ..

theorem sameOthers_lateDue {u : State} (hc : x.c = u.cur) (same : SameOthers s u) (hu : u.cur = s.cur) (lat page : Nat) (req : Req) :
    SameOthers s (lateDue x u lat page req) := fun d hd =>
  (State.core_modArch_other _ _ (by rw [hc, hu]; exact hd)).trans (same d hd)

end Load

/-- What the text of O14 asks of one load, token checks apart. -/
def LoadRuns (i : Mv → Instr) (size sx : Nat) : Prop :=
  ∀ (m : Mv) (s t : State) (v : Val), 6 ≤ m.bus → Reads s m.bus m.src m.keep v t → Present t [32] →
    let tok := (v.bits.setWidth 64).toNat
    (tok + size ≤ 0x50000 → tok % size = 0 → Present t (spadFolios tok size) →
      let u := performBefore t s.cur t.here.epoch
      let k := u.core s.cur
      exec (i m) s = .next (deliver u s.cur m.bus.val (0x0B0 + m.bus.val) 6
        (extendLoad size sx ((List.range size).map fun i => gateSpad k.gate k.arch.count (tok + i) (k.spad (tok + i)))) 0) ∧
      (loadsBefore t.here t.here.epoch = [] → u = t)) ∧
    (∀ peer off, tok = 2 ^ 60 + peer * 2 ^ 56 + off → peer < 12 → off + size ≤ 0x50000 → off % size = 0 →
      sameGathering t s.cur (s.cur / 12 * 12 + peer) = true →
      let e := s.cur / 12 * 12 + peer
      ((∀ f ∈ spadFolios off size, ((t.core e).folio f).pres = .present) →
        ∃ u, exec (i m) s = .next u ∧ SameModule s u ∧ SameOthers s u ∧ u.fresh = s.fresh + 1 ∧ t.here.SameButDue u.here ∧
          u.here.arch.due = t.here.arch.due ++ [lateEntry t.here (s.fresh + 1) m.bus.val 40 (.peer e off size sx) 0]) ∧
      ∀ f, (spadFolios off size).find? (fun f => ((t.core e).folio f).pres != .present) = some f →
        exec (i m) s = .next (takeFreeze s s.cur .peer (141 * e + f) m.bus.val)) ∧
    ∀ n off, tok = 2 ^ 61 + n * 2 ^ 48 + off → n < 32 → off < 2 ^ 40 → off % size = 0 →
      (t.here.arch.handle n).valid = true → (t.here.arch.handle n).stale = false → (t.here.arch.handle n).ld = true → off + size ≤ (t.here.arch.handle n).bytes →
      handleAts t s.cur (t.here.arch.handle n) off 63 false = none →
        ∃ u, exec (i m) s = .next u ∧ SameModule s u ∧ SameOthers s u ∧ u.fresh = s.fresh + 1 ∧ u.here.arch.s = t.here.arch.s ∧ u.here.arch.v = t.here.arch.v ∧
          (∀ h, u.here.arch.handle h = t.here.arch.handle h) ∧ u.here.gate = t.here.gate ∧ u.here.scratch = t.here.scratch ∧
          u.here.arch.due = t.here.arch.due ++ [lateEntry t.here (s.fresh + 1) m.bus.val 96
            (.load (t.handlePlace t.here.member.pasid (t.here.arch.handle n) off) size sx) ((t.here.arch.handle n).pageOf off)]

theorem Arch.handle_setHandle_self (a : Arch) (n h : Nat) : (a.setHandle n (a.handle n)).handle h = a.handle h := by
  by_cases same : h = n
  · rw [same, Arch.handle_setHandle]
  · rw [Arch.handle_setHandle_other _ _ same]

theorem loadRuns {i : Mv → Instr} {port size sx : Nat} (he : ∀ m s, exec (i m) s = runMv m port (load size sx) s) : LoadRuns i size sx := by
  intro m s t v _ h present
  have latches : needLatches t s.cur port = .ok () := h.cur ▸ needLatches_present present (by simp) port
  refine ⟨fun bound aligned folios => ?own, fun peer off token low bound aligned same => ?peer, fun n off token low bound aligned valid fresh right range ats => ?handle⟩
  case own =>
    have here : t.here = t.core s.cur := by rw [State.here, h.cur]
    rw [here]
    refine ⟨?_, fun none => performBefore_nothing none⟩
    rw [he]
    refine runMv_next h latches (load_local (x := memTrig s m v port) ⟨bound, aligned⟩ ?_ sx)
    exact needFolios_ok fun f hf => here ▸ folios f hf
  case peer =>
    have body := load_peer (x := memTrig s m v port) ⟨token, low, bound, aligned⟩ same sx
    refine ⟨fun folios => ?answers, fun f absent => ?freezes⟩
    case answers =>
      have run := runMv_next h latches (body.trans (congrArg (Except.bind · _) (needPeer_ok folios)))
      refine ⟨_, (he m s).trans run, h.sameModule, sameOthers_lateDue h.cur.symm h.sameOthers h.cur _ _ _, congrArg (· + 1) h.fresh, ?_, ?_⟩
      · rw [here_lateDue h.cur.symm]
        rfl
      · rw [here_lateDue h.cur.symm, h.fresh]
        rfl
    case freezes =>
      rw [he]
      refine (runMv_stop h latches (body.trans (by rw [needPeer]; simp only [memTrig, absent]; rfl))).trans ?_
      simp only [Stop.atPart, takeStop]
      rw [if_neg (by omega)]
  case handle =>
    have here : t.here = t.core s.cur := by rw [State.here, h.cur]
    rw [here] at valid fresh right range ats ⊢
    have body := load_handle (x := memTrig s m v port) ⟨token, low, bound, aligned⟩ ⟨valid, fresh, right, range, ats⟩ sx
    let kept := t.modArch s.cur fun a => a.setHandle n ((t.core s.cur).arch.handle n)
    let page := ((t.core s.cur).arch.handle n).pageOf off
    let req := Req.load (t.handlePlace (t.core s.cur).member.pasid ((t.core s.cur).arch.handle n) off) size sx
    have run : exec (i m) s = .next (lateDue (memTrig s m v port) kept 96 page req) := (he m s).trans (runMv_next h latches body)
    have others : SameOthers s kept := fun d hd => (State.core_modArch_other _ _ hd).trans (h.sameOthers d hd)
    have core : kept.here = { t.core s.cur with arch := (t.core s.cur).arch.setHandle n ((t.core s.cur).arch.handle n) } :=
      (congrArg kept.core h.cur).trans (State.core_modArch_same ..)
    refine ⟨_, run, h.sameModule, sameOthers_lateDue h.cur.symm others h.cur _ _ _, congrArg (· + 1) h.fresh, ?_⟩
    rw [here_lateDue (show (memTrig s m v port).c = kept.cur from h.cur.symm), core, show kept.fresh = s.fresh from h.fresh]
    exact ⟨rfl, rfl, fun g => Arch.handle_setHandle_self .., rfl, rfl, rfl⟩

/-- A load whose token fails a check. -/
theorem load_refuses {i : Mv → Instr} {port size sx : Nat} (he : ∀ m s, exec (i m) s = runMv m port (load size sx) s) {m : Mv} {s t : State} {v : Val} {n : Nat}
    (h : Reads s m.bus m.src m.keep v t) (present : Present t [32]) (fault : tokenFault t s.cur (v.bits.setWidth 64) size false = some n) :
    exec (i m) s = .next (takeCoreFault s s.cur { code := 0x16, sub := n, whereAt := m.bus.val, addr := (v.bits.setWidth 64).toNat, detail := 0, aux := 0 }) := by
  rw [he]
  exact runMv_fault h (h.cur ▸ needLatches_present present (by simp) port) (load_refused (x := memTrig s m v port) fault sx)

/-- Settles O14: every load is the one law of a load at its size, and the checks are those of `tokenFault_eq`. -/
theorem loadsRun : Obligations.LoadsRun := by
  unfold Obligations.LoadsRun
  refine ⟨fun p hp => ?run, tokenFault_eq, fun p hp m s t v n _ h present fault => ?refused⟩
  case run =>
    show LoadRuns p.1 p.2.1 p.2.2
    simp only [List.mem_cons, List.not_mem_nil, or_false] at hp
    rcases hp with rfl | rfl | rfl | rfl | rfl | rfl | rfl | rfl | rfl | rfl <;> exact loadRuns fun _ _ => rfl
  case refused =>
    simp only [List.mem_cons, List.not_mem_nil, or_false] at hp
    rcases hp with rfl | rfl | rfl | rfl | rfl | rfl | rfl | rfl | rfl | rfl <;> exact load_refuses (fun _ _ => rfl) h present fault

end Sys2Proof.Machine
end

section
/-!
SUPPORT. Stores (O15): the token they go to and the one gate entry they add.
-/

namespace Sys2Proof.Machine

section Store

variable {s t : State} {x : Trig} {size : Nat}

/-- The token of a store, where `.bind` names one. -/
def boundToken (k : Core) (x : Trig) : Word := if (unitBind k x.bus).toNat = 8 then unitA k x.bus else x.pre.token (unitBind k x.bus).toNat

theorem storeToken_ok {k : Core} (h : (unitBind k x.bus).toNat ≤ 8) : storeToken k x = .ok (boundToken k x) := by
  simp only [storeToken, boundToken]
  split
  · rw [if_neg (by omega)]
  · rename_i high
    have eight : (unitBind k x.bus).toNat = 8 := by omega
    rw [if_pos eight, if_pos eight]

theorem store_unbound (h : 9 ≤ (unitBind (t.core x.c) x.bus).toNat) (size : Nat) : store size x t = .error (.fault (CFault.mk' 0x17 12 x.bus 0)) := by
  simp only [store, storeToken]
  rw [if_neg (by omega), if_neg (by omega)]
  rfl

/-- The gate entry of a store. -/
def storeEntry (k : Core) (h : Option Nat) (off size : Nat) (b : Val) : Gated :=
  .store { h := h, off := off, data := leBytes size b.bits.toNat, shadow := none, count := k.arch.count }

theorem store_local (names : (unitBind (t.core x.c) x.bus).toNat ≤ 8) (token : LocalToken (boundToken (t.core x.c) x) size)
    (folios : needFolios (t.core x.c) (spadFolios (boundToken (t.core x.c) x).toNat size) = .ok ()) :
    store size x t = gateAppend t x.c x.bus (storeEntry (t.core x.c) none (boundToken (t.core x.c) x).toNat size x.b) := by
  simp only [store, storeToken_ok names, bind, except_ok_bind, token.passes, token.kind, token.off, if_true, folios]
  rfl

theorem store_handle {n off : Nat} (names : (unitBind (t.core x.c) x.bus).toNat ≤ 8) (token : HandleToken (boundToken (t.core x.c) x) size n off)
    (serves : Serves t x.c ((t.core x.c).arch.handle n) off size 62 true) (owned : ((t.core x.c).arch.handle n).cow = false) (room : (t.core x.c).gate.length < 48) :
    store size x t = .ok ((t.modArch x.c fun a => a.setHandle n ((t.core x.c).arch.handle n)).modCore x.c fun k =>
      { k with gate := k.gate ++ [storeEntry (t.core x.c) (some n) off size x.b] }) := by
  have append (g : Gated) := gateAppend_ok (bus := x.bus) (g := g)
    (show ((t.modArch x.c fun a => a.setHandle n ((t.core x.c).arch.handle n)).core x.c).gate.length < Config.gateEntries by
      rw [State.core_modArch_same]; exact room)
  have kind : ¬ tokKind (boundToken (t.core x.c) x) = 0 := by rw [token.kind]; decide
  simp only [store, storeToken_ok names, bind, except_ok_bind, token.passes, if_neg kind, token.off_eq, token.handle_eq,
    checkHandle_ok token serves fun _ => owned, append, upon, State.core_modArch_same]
  rfl

end Store

/-- What the text of O15 asks of one store. -/
def StoreRuns (i : Mv → Instr) (size : Nat) : Prop :=
  ∀ (m : Mv) (s t : State) (v : Val) (tok : Nat), 6 ≤ m.bus → Reads s m.bus m.src m.keep v t → Present t [32] →
    let bind := (t.here.arch.config (0x10F + 3 * (m.bus.val - 6))).toNat
    (9 ≤ bind → exec (i m) s = .next (takeCoreFault s s.cur { code := 0x17, sub := 12, whereAt := m.bus.val, addr := 0, detail := 0, aux := 0 })) ∧
    (bind ≤ 8 → tok = (if bind = 8 then (t.here.arch.latch (0x10D + 3 * (m.bus.val - 6))).lo else s.here.arch.token bind).toNat →
      (tok + size ≤ 0x50000 → tok % size = 0 → Present t (spadFolios tok size) →
        (t.here.gate.length < 48 → exec (i m) s = .next (t.modCore s.cur fun k => { k with gate := k.gate ++
          [.store { h := none, off := tok, data := leBytes size v.bits.toNat, shadow := none, count := t.here.arch.count }] })) ∧
        (48 ≤ t.here.gate.length → exec (i m) s = .next (takeCoreFault s s.cur { code := 0x07, sub := 1, whereAt := m.bus.val, addr := 0, detail := 0, aux := 0 }))) ∧
      ∀ n off, tok = 2 ^ 61 + n * 2 ^ 48 + off → n < 32 → off < 2 ^ 40 → off % size = 0 → t.here.gate.length < 48 →
        (t.here.arch.handle n).valid = true → (t.here.arch.handle n).stale = false → (t.here.arch.handle n).st = true → (t.here.arch.handle n).cow = false →
        off + size ≤ (t.here.arch.handle n).bytes → handleAts t s.cur (t.here.arch.handle n) off 62 true = none →
          ∃ u, exec (i m) s = .next u ∧ SameModule s u ∧ SameMemory s u ∧ SameOthers s u ∧ u.here.scratch = t.here.scratch ∧ u.here.pub = t.here.pub ∧
            u.here.gate = t.here.gate ++ [.store { h := some n, off := off, data := leBytes size v.bits.toNat, shadow := none, count := t.here.arch.count }])

theorem storeRuns {i : Mv → Instr} {port size : Nat} (he : ∀ m s, exec (i m) s = runMv m port (store size) s) : StoreRuns i size := by
  intro m s t v tok _ h present
  have latches : needLatches t s.cur port = .ok () := h.cur ▸ needLatches_present present (by simp) port
  have here : t.here = t.core s.cur := by rw [State.here, h.cur]
  rw [he, here]
  refine ⟨fun unbound => runMv_fault h latches (store_unbound (x := memTrig s m v port) unbound size), fun bound token => ⟨fun low aligned folios => ?own, ?handle⟩⟩
  case own =>
    subst token
    have body := store_local (t := t) (x := memTrig s m v port) bound ⟨low, aligned⟩ (needFolios_ok fun f hf => here ▸ folios f hf)
    exact ⟨fun room => runMv_next h latches (body.trans (gateAppend_ok room)), fun full => runMv_fault h latches (body.trans (gateAppend_full full))⟩
  case handle =>
    intro n off named low bound' aligned room valid fresh right owned range ats
    have body := store_handle (x := memTrig s m v port) bound ⟨token.symm.trans named, low, bound', aligned⟩ ⟨valid, fresh, right, range, ats⟩ owned room
    refine ⟨_, runMv_next h latches body, h.sameModule, h.sameModule.memory, fun d hd => ?_, ?_⟩
    · exact (State.core_modCore_other _ _ hd).trans ((State.core_modArch_other _ _ hd).trans (h.sameOthers d hd))
    · rw [State.here, State.modCore_cur, State.modArch_cur, h.cur]
      simp only [memTrig, State.core_modCore_same, State.core_modArch_same]
      exact ⟨trivial, trivial, rfl⟩

/-- Settles O15: every store is the one law of a store at its size. -/
theorem storesRun : Obligations.StoresRun := by
  unfold Obligations.StoresRun
  intro p hp
  show StoreRuns p.1 p.2
  simp only [List.mem_cons, List.not_mem_nil, or_false] at hp
  rcases hp with rfl | rfl | rfl | rfl | rfl | rfl | rfl <;> exact storeRuns fun _ _ => rfl

end Sys2Proof.Machine
end

section
/-!
SUPPORT. Handles, walks and the gate entries of `jset` and `xfence` (O20).
-/

namespace Sys2Proof.Machine

/-! ### What a walk changes -/

/-- A walk that finds a leaf changes memory and the translation caches, and nothing else. -/
theorem walk_eq {s u : State} {ag : Agent} {pasid va : Nat} {write : Bool} {e : Word} (h : walk s ag pasid va write = .ok (u, e)) :
    ∃ m g x c, u = { s with mem := m, host := g, ecc := x, caches := c } := by
  have touched (a : Nat) (e : Word) : ∃ m g x, (touchLeaf s a e write).1 = { s with mem := m, host := g, ecc := x } := by
    simp only [touchLeaf]
    generalize e ||| 0x20 ||| (if write then 0x40 else 0) = set
    split
    · exact ⟨s.mem, s.host, s.ecc, rfl⟩
    · exact State.writeAt_eq ..
  simp only [walk] at h
  split at h
  · cases h
  · split at h
    · cases h
    · split at h
      · cases h
      · rename_i a leaf _
        obtain ⟨m, g, x, hu⟩ := touched a leaf
        split at h
        · cases h
        · split at h
          · cases h
          · obtain ⟨rfl, -⟩ := Prod.mk.inj (Except.ok.inj h)
            exact ⟨m, g, x, _, by rw [hu]⟩

theorem core_of_walk {s u : State} {ag : Agent} {pasid va : Nat} {write : Bool} {e : Word} (h : walk s ag pasid va write = .ok (u, e)) (c : Nat) :
    u.core c = s.core c := by
  obtain ⟨m, g, x, l, rfl⟩ := walk_eq h
  rfl

/-! ### Gate entries -/

section Gate

variable {s t : State} {m : Mv} {v : Val} {port : Nat} {body : Body} {g : Gated}

/-- A trigger that is one gate entry. -/
theorem runMv_gate (h : Reads s m.bus m.src m.keep v t) (present : Present t [32]) (room : t.here.gate.length < 48)
    (hb : body (memTrig s m v port) t = gateAppend t s.cur m.bus.val g) :
    runMv m port body s = .next (t.modCore s.cur fun k => { k with gate := k.gate ++ [g] }) := by
  rw [State.here, h.cur] at room
  exact runMv_next h (h.cur ▸ needLatches_present present (by simp) port) (hb.trans (gateAppend_ok room))

end Gate

/-! ### `hrel` and `xlt` -/

/-- The handle that `hrel` names: a token's, or the low bits. -/
def relHandle (b : Word) : Nat := if b.toNat / 2 ^ 60 = 2 then b.toNat / 2 ^ 48 % 32 else b.toNat % 32

theorem hrel_eq {x : Trig} {t : State} (present : needFolio (t.core x.c) 32 = .ok ()) :
    hrel x t =
      .ok (if ((t.core x.c).arch.handle (relHandle x.b.lo)).valid then
        t.setCore x.c ({ t.core x.c with
          arch := (t.core x.c).arch.setHandle (relHandle x.b.lo) { ((t.core x.c).arch.handle (relHandle x.b.lo)) with valid := false }
          gate := shadowGate (relHandle x.b.lo) ((t.core x.c).arch.handle (relHandle x.b.lo)) (t.core x.c).gate }.dirty 32)
      else t) := by
  have named : (if bits x.b.lo 63 60 = 2 then bits x.b.lo 52 48 else bits x.b.lo 4 0) = relHandle x.b.lo := by
    rw [relHandle, show bits x.b.lo 63 60 = x.b.lo.toNat / 2 ^ 60 from tokKind_eq _, bits_eq_div, bits_low] <;> rfl
  simp only [hrel, named, present, bind, except_ok_bind, pure, Except.pure]
  split <;> rfl

theorem xlt_eq {x : Trig} {t : State} (present : needFolio (t.core x.c) 32 = .ok ()) :
    xlt x t = .ok (lateDue x t 24 0 (.xlt x.b.lo ((unitA (t.core x.c) x.bus).toNat % 32))) := by
  rw [xlt, present, bits_low]
  rfl

theorem jset_eq (x : Trig) (t : State) : jset x t = gateAppend t x.c x.bus (.jset ((unitA (t.core x.c) x.bus).toNat % 16) (x.b.bits.setWidth 32)) := by
  have low : x.b.lo.setWidth 32 = x.b.bits.setWidth 32 := BitVec.setWidth_setWidth_of_le _ (by decide)
  have join : bits (unitA (t.core x.c) x.bus) 3 0 = (unitA (t.core x.c) x.bus).toNat % 16 := bits_low _ 3
  rw [jset, join, low]

theorem xfence_eq (x : Trig) (t : State) :
    xfence x t = if x.b.lo.toNat % 8 = 0 then gateAppend t x.c x.bus .xfence else .error (.fault (CFault.mk' 0x17 10 x.bus 0)) := by
  rw [xfence, bits_low]
  rfl

/-! ### The end of a walk -/

theorem exec_walkArrival (c tag : Nat) (s : State) : exec (.xltWalkComplete c tag) s = .next (walkArrival s c tag) := rfl

theorem findDue_one {k : Core} {d : Due} (h : k.arch.due = [d]) (tagged : d.tag ≠ 0) : findDue k d.tag = some d := by
  simp [findDue, h, tagged]

theorem arch_fillBoth (s : State) (c tag : Nat) (f : Due → Due) :
    ((fillBoth s c tag f).core c).arch = { (s.core c).arch with due := fillDue tag f (s.core c).arch.due } := by
  rw [fillBoth, State.core_modCore_same]

theorem fillDue_one (d : Due) (f : Due → Due) : fillDue d.tag f [d] = [f d] := by simp [fillDue]

theorem handleToken_eq (n off : Nat) : handleToken n off = 2 * 2 ^ 60 + n * 2 ^ 48 + off := by
  simp [handleToken, fld, Nat.shiftLeft_eq]

section Walk

variable {s : State} {c : Nat} {d : Due} {va : Word} {n : Nat} (one : (s.core c).arch.due = [d]) (tagged : d.tag ≠ 0) (req : d.req = .xlt va n)
include one tagged req

theorem walkArrival_found {u : State} {e : Word} (found : walk s (memUnit (dieOf c)) (s.core c).member.pasid va.toNat false = .ok (u, e)) :
    walkArrival s c d.tag = fillBoth u c d.tag fun d =>
      { d.arrived (BitVec.ofNat 1024 (handleToken n (va.toNat % pageBytes (leafSize e)))) with inst := some (n, handleOf e va.toNat) } := by
  simp only [walkArrival, findDue_one one tagged, req, found]

theorem walkArrival_failed {code sub : Nat} (failed : walk s (memUnit (dieOf c)) (s.core c).member.pasid va.toNat false = .error (.fault code sub)) :
    walkArrival s c d.tag = fillBoth (dropFaulted s (dieOf c) (s.core c).member.pasid va.toNat) c d.tag fun d =>
      { d with req := .none, bad := some (CFault.mk' code sub d.bus va.toNat) } := by
  simp only [walkArrival, findDue_one one tagged, req, failed]

end Walk

/-- Settles O20: each operation by its own equation, the end of a walk by what the walk found. -/
theorem handlesAndWalks : Obligations.HandlesAndWalks := by
  unfold Obligations.HandlesAndWalks
  refine ⟨fun m s t v _ h present => ?operations, fun s c d va n one tagged req => ⟨fun u e found => ?found, fun code sub failed => ?failed⟩⟩
  case operations =>
    have here : t.here = t.core s.cur := by rw [State.here, h.cur]
    have folio : needFolio (t.core s.cur) 32 = .ok () := here ▸ present.folio (by simp)
    have latches (port : Nat) : needLatches t s.cur port = .ok () := h.cur ▸ needLatches_present present (by simp) port
    rw [here]
    refine ⟨?xlt, fun invalid => ?stays, fun valid => ?released, fun room => ?jset, fun room ok => ?xfence, fun reserved => ?refused⟩
    case xlt =>
      have run : exec (.mXlt m) s = .next _ := runMv_next h (latches 0x351) (xlt_eq (x := memTrig s m v 0x351) folio)
      refine ⟨_, run, h.sameModule, sameOthers_lateDue h.cur.symm h.sameOthers h.cur _ _ _, congrArg (· + 1) h.fresh, ?_, ?_⟩
      all_goals rw [here_lateDue h.cur.symm, here]
      · rfl
      · rw [h.fresh]
        rfl
    case stays =>
      refine runMv_next h (latches 0x352) ((hrel_eq (x := memTrig s m v 0x352) folio).trans ?_)
      exact congrArg Except.ok (if_neg (Bool.eq_false_iff.1 invalid))
    case released =>
      have run : exec (.mHrel m) s = .next _ := runMv_next h (latches 0x352) ((hrel_eq (x := memTrig s m v 0x352) folio).trans (congrArg Except.ok (if_pos valid)))
      refine ⟨_, run, h.sameModule, h.sameModule.memory, fun d hd => (State.core_setCore_other _ _ hd).trans (h.sameOthers d hd), ?_⟩
      have kept : ((t.setCore s.cur ({ t.core s.cur with
          arch := (t.core s.cur).arch.setHandle (relHandle v.lo) { ((t.core s.cur).arch.handle (relHandle v.lo)) with valid := false }
          gate := shadowGate (relHandle v.lo) ((t.core s.cur).arch.handle (relHandle v.lo)) (t.core s.cur).gate }.dirty 32)).here) = _ :=
        (congrArg _ h.cur).trans (State.core_setCore_same ..)
      simp only [memTrig]
      rw [kept, Core.dirty_eq]
      exact ⟨Arch.handle_setHandle .., fun g hg => Arch.handle_setHandle_other _ _ hg, rfl⟩
    case jset =>
      exact runMv_gate (port := 0x35B) h present (here ▸ room) (jset_eq (memTrig s m v 0x35B) t)
    case xfence => exact runMv_gate (port := 0x365) h present (here ▸ room) ((xfence_eq (memTrig s m v 0x365) t).trans (if_pos ok))
    case refused => exact runMv_fault h (latches 0x365) ((xfence_eq (memTrig s m v 0x365) t).trans (if_neg reserved))
  case found =>
    rw [exec_walkArrival]
    refine ⟨_, rfl, ?_⟩
    rw [walkArrival_found one tagged req found, arch_fillBoth, core_of_walk found, handleToken_eq]
    refine ⟨?_, rfl⟩
    rw [one, fillDue_one]
    rfl
  case failed =>
    rw [exec_walkArrival]
    refine ⟨_, rfl, ?_⟩
    rw [walkArrival_failed one tagged req failed, arch_fillBoth]
    exact ⟨fun _ => rfl, by rw [show (dropFaulted s (dieOf c) (s.core c).member.pasid va.toNat).core c = s.core c from rfl, one, fillDue_one]; rfl⟩

end Sys2Proof.Machine
end

section
/-!
SUPPORT. Why O22 does not hold of every tag table: making a way youngest writes its entry again from the fields of Table 4.1,
and so clears the bits that the table reserves, which a table of the model may hold.
-/

namespace Sys2Proof.Machine

/-- A table whose slot 0 holds key 0 with size code 0, valid, and reserved bit 1 set. -/
def reservedTag : Arch := Arch.entry.setTag 0 3

/-- Refutes O22: a hit in slot 0 of that table clears the reserved bit, which is none of the age. -/
theorem not_tagLookup : ¬ Obligations.TagLookup := by
  unfold Obligations.TagLookup
  rintro ⟨-, -, -, hit, -⟩
  have found : reservedTag.tagFind 0 0 = some 0 := by decide +kernel
  obtain ⟨-, -, -, same, -⟩ := hit reservedTag 0 0 0 (by decide) (by decide) found
  have cleared : (reservedTag.tagLook 0 0).1.tag 0 ||| 0x70 = 0x71 := by decide +kernel
  have before : reservedTag.tag 0 ||| 0x70 = 0x73 := by decide +kernel
  exact absurd (cleared.symm.trans ((same 0 (by decide)).trans before)) (by decide)

end Sys2Proof.Machine
end

section
/-!
SUPPORT. The scratchpad as reads see its writes, and sync words (O23).
-/

namespace Sys2Proof

/-- A number's low bytes give it back modulo their range (R7). -/
theorem ofLeBytes_leBytes (n x : Nat) : ofLeBytes (leBytes n x) = x % 256 ^ n := by
  induction n generalizing x with
  | zero => rw [Nat.pow_zero, Nat.mod_one]; rfl
  | succ n ih =>
    rw [leBytes, ofLeBytes, ih, BitVec.toNat_ofNat, show 2 ^ 8 = 256 by decide, Nat.pow_succ', Nat.mod_mul]

end Sys2Proof

namespace Sys2Proof.Machine

/-! ### Writes of bytes -/

theorem get_tabWrite_other (d : List Byte) (t : Tab Byte) {off x : Nat} (h : x < off ∨ off + d.length ≤ x) : (tabWrite t off d).get 0 x = t.get 0 x := by
  induction d generalizing t off with
  | nil => rfl
  | cons b r ih =>
    rw [List.length_cons] at h
    rw [tabWrite, ih _ (by omega), Tab.get_put_other _ _ _ _ (by omega)]

theorem get_tabWrite_same (d : List Byte) (t : Tab Byte) {off i : Nat} (h : i < d.length) : (tabWrite t off d).get 0 (off + i) = d[i] := by
  induction d generalizing t off i with
  | nil => exact absurd h (Nat.not_lt_zero i)
  | cons b r ih =>
    cases i with
    | zero =>
      rw [tabWrite, get_tabWrite_other r _ (.inl (by omega))]
      exact Tab.get_put_same ..
    | succ i =>
      rw [List.length_cons] at h
      rw [tabWrite, show off + (i + 1) = off + 1 + i by omega, ih _ (by omega)]
      rfl

/-- Dirty bits stand among the folios. -/
theorem Core.dirtyAll_eq (k : Core) (l : List Nat) : k.dirtyAll l = { k with folios := (k.dirtyAll l).folios } := by
  induction l generalizing k with
  | nil => rfl
  | cons f r ih =>
    have first := k.dirty_eq f
    rw [Core.dirtyAll, ih (k.dirty f), first]

/-- A write of the scratchpad changes its bytes and the dirty bits. -/
theorem Core.spadWrite_eq (k : Core) (off : Nat) (d : List Byte) :
    k.spadWrite off d = { k with scratch := tabWrite k.scratch off d, folios := (k.spadWrite off d).folios } := Core.dirtyAll_eq _ _

theorem Core.spad_spadWrite_other (k : Core) {off x : Nat} (d : List Byte) (h : x < off ∨ off + d.length ≤ x) : (k.spadWrite off d).spad x = k.spad x := by
  rw [Core.spadWrite_eq]
  exact get_tabWrite_other d _ h

theorem Core.spad_spadWrite_same (k : Core) {off i : Nat} (d : List Byte) (h : i < d.length) : (k.spadWrite off d).spad (off + i) = d[i] := by
  rw [Core.spadWrite_eq]
  exact get_tabWrite_same d _ h

theorem Core.spadRead_spadWrite (k : Core) (off : Nat) (d : List Byte) : (k.spadWrite off d).spadRead off d.length = d := by
  refine List.ext_getElem (by simp [Core.spadRead]) fun i h _ => ?_
  have inside : i < d.length := by simpa [Core.spadRead] using h
  simp [Core.spadRead, Core.spad_spadWrite_same k d inside]

@[simp] theorem Core.spadWrite_arch (k : Core) (off : Nat) (d : List Byte) : (k.spadWrite off d).arch = k.arch := by rw [Core.spadWrite_eq]

/-! ### Sync words -/

/-- A word whose fields are those of the format (Table 4.4). -/
structure SyncWord.Fits (w : SyncWord) : Prop where
  target : w.target < 2 ^ 32
  count : w.count < 2 ^ 32
  gen : w.gen < 2 ^ 16
  top : w.top < 2 ^ 45

theorem SyncWord.fits_ofNat (x : Nat) : (SyncWord.ofNat x).Fits :=
  ⟨Nat.mod_lt _ (by decide), Nat.mod_lt _ (by decide), Nat.mod_lt _ (by decide), Nat.mod_lt _ (by decide)⟩

theorem bnat_eq_one (b : Bool) : (bnat b == 1) = b := by cases b <;> rfl

theorem SyncWord.toNat_eq (w : SyncWord) :
    w.toNat = w.target + w.count * 2 ^ 32 + w.gen * 2 ^ 64 + bnat w.err * 2 ^ 80 + bnat w.ovr * 2 ^ 81 + bnat w.oneshot * 2 ^ 82 + w.top * 2 ^ 83 := by
  simp only [SyncWord.toNat, fld, Nat.shiftLeft_eq]

/-- Every field is read back from the word's number. -/
theorem SyncWord.ofNat_toNat {w : SyncWord} (h : w.Fits) : SyncWord.ofNat w.toNat = w := by
  obtain ⟨target, count, gen, top⟩ := h
  have err := bnat_le_one w.err
  have ovr := bnat_le_one w.ovr
  have oneshot := bnat_le_one w.oneshot
  have e1 : w.toNat % 2 ^ 32 = w.target := by rw [w.toNat_eq]; omega
  have e2 : w.toNat / 2 ^ 32 % 2 ^ 32 = w.count := by rw [w.toNat_eq]; omega
  have e3 : w.toNat / 2 ^ 64 % 2 ^ 16 = w.gen := by rw [w.toNat_eq]; omega
  have e4 : w.toNat / 2 ^ 80 % 2 = bnat w.err := by rw [w.toNat_eq]; omega
  have e5 : w.toNat / 2 ^ 81 % 2 = bnat w.ovr := by rw [w.toNat_eq]; omega
  have e6 : w.toNat / 2 ^ 82 % 2 = bnat w.oneshot := by rw [w.toNat_eq]; omega
  have e7 : w.toNat / 2 ^ 83 % 2 ^ 45 = w.top := by rw [w.toNat_eq]; omega
  rw [SyncWord.ofNat, e1, e2, e3, e4, e5, e6, e7, bnat_eq_one, bnat_eq_one, bnat_eq_one]

theorem SyncWord.toNat_lt {w : SyncWord} (h : w.Fits) : w.toNat < 256 ^ 16 := by
  obtain ⟨target, count, gen, top⟩ := h
  have err := bnat_le_one w.err
  have ovr := bnat_le_one w.ovr
  have oneshot := bnat_le_one w.oneshot
  rw [w.toNat_eq]
  omega

theorem SyncWord.Fits.match' {w : SyncWord} (h : w.Fits) : w.match'.Fits := by
  obtain ⟨target, count, gen, top⟩ := h
  unfold SyncWord.match'
  split
  · exact ⟨target, count, gen, top⟩
  · rename_i met
    split
    · exact ⟨Nat.two_pow_pos 32, Nat.two_pow_pos 32, Nat.mod_lt _ (by decide), top⟩
    · exact ⟨target, Nat.lt_of_le_of_lt (Nat.mod_le _ _) count, Nat.mod_lt _ (by decide), top⟩

theorem SyncWord.match'_below {w : SyncWord} (h : w.target = 0 ∨ w.count < w.target) : w.match' = w := if_pos h

theorem SyncWord.match'_met {w : SyncWord} (h : 0 < w.target) (met : w.target ≤ w.count) :
    w.match' =
      if w.oneshot then { w with gen := (w.gen + 1) % 2 ^ 16, ovr := w.ovr || decide (w.target < w.count), count := 0, target := 0 }
      else { w with gen := (w.gen + w.count / w.target) % 2 ^ 16, count := w.count % w.target } := if_neg (by omega)

theorem SyncWord.match'_err (w : SyncWord) : w.match'.err = w.err := by
  unfold SyncWord.match'
  split
  · rfl
  · split <;> rfl

/-- Only a ONESHOT word whose count passed the target sets OVR (Table 4.5). -/
theorem SyncWord.match'_ovr (w : SyncWord) : w.match'.ovr = (w.ovr || w.oneshot && decide (w.target ≠ 0) && decide (w.target < w.count)) := by
  unfold SyncWord.match'
  split
  · rename_i below
    have none : (decide (w.target ≠ 0) && decide (w.target < w.count)) = false := by
      simp only [Bool.and_eq_false_iff, decide_eq_false_iff_not]
      omega
    rw [Bool.and_assoc, none, Bool.and_false, Bool.or_false]
  · rename_i met
    have some : decide (w.target ≠ 0) = true := decide_eq_true (by omega)
    cases once : w.oneshot <;> simp [some]

/-- A posted word before its match (R84). -/
def SyncWord.posted (w : SyncWord) (b : Word) : SyncWord :=
  { w with count := if b.getLsbD 34 then 0 else w.count, err := w.err && !b.getLsbD 33, ovr := w.ovr && !b.getLsbD 33, target := b.toNat % 2 ^ 32,
           oneshot := b.getLsbD 32 }

theorem SyncWord.post_eq (w : SyncWord) (b : Word) : w.post b = (w.posted b).match' := by
  have low : bits b 31 0 = b.toNat % 2 ^ 32 := bits_low b 31
  rcases Bool.eq_false_or_eq_true (b.getLsbD 34) with clear | clear <;> rcases Bool.eq_false_or_eq_true (b.getLsbD 33) with errors | errors <;>
    simp only [SyncWord.post, SyncWord.posted, bit, low, clear, errors, if_true, Bool.false_eq_true, if_false, Bool.not_true, Bool.not_false, Bool.and_false,
      Bool.and_true]

theorem SyncWord.Fits.post {w : SyncWord} (h : w.Fits) (b : Word) : (w.post b).Fits := by
  obtain ⟨target, count, gen, top⟩ := h
  rw [SyncWord.post_eq]
  refine SyncWord.Fits.match' ⟨Nat.mod_lt _ (by decide), ?_, gen, top⟩
  simp only [SyncWord.posted]
  split
  · decide
  · exact count

theorem Core.syncWord_fits (k : Core) (off : Nat) : (k.syncWord off).Fits := SyncWord.fits_ofNat _

theorem Core.syncWord_setSyncWord (k : Core) (off : Nat) {w : SyncWord} (h : w.Fits) : (k.setSyncWord off w).syncWord off = w := by
  have read := k.spadRead_spadWrite off (leBytes 16 w.toNat)
  rw [length_leBytes] at read
  rw [Core.syncWord, Core.setSyncWord, read, ofLeBytes_leBytes, Nat.mod_eq_of_lt (SyncWord.toNat_lt h), SyncWord.ofNat_toNat h]

/-! ### The operations on sync words -/

section Operations

variable {x : Trig} {t : State}

theorem unitA_off (k : Core) (bus : Nat) : bits (unitA k bus) 18 0 = (unitA k bus).toNat % 2 ^ 19 := bits_low _ 18

theorem syncOffset_eq (k : Core) (bus : Nat) :
    syncOffset k bus =
      if 0x50000 ≤ (unitA k bus).toNat % 2 ^ 19 then .error (.fault (CFault.mk' 0x16 3 bus (unitA k bus).toNat))
      else if (unitA k bus).toNat % 2 ^ 19 % 16 ≠ 0 then .error (.fault (CFault.mk' 0x16 5 bus (unitA k bus).toNat))
      else .ok ((unitA k bus).toNat % 2 ^ 19) := by
  rw [syncOffset, unitA_off]
  rfl

theorem syncOffset_ok {k : Core} {bus : Nat} (h : (unitA k bus).toNat % 2 ^ 19 < 0x50000) (aligned : (unitA k bus).toNat % 2 ^ 19 % 16 = 0) :
    syncOffset k bus = .ok ((unitA k bus).toNat % 2 ^ 19) := by
  rw [syncOffset_eq, if_neg (Nat.not_le.2 h), if_neg (by simpa using aligned)]

theorem swpost_ok {off : Nat} (h : syncOffset (t.core x.c) x.bus = .ok off) : swpost x t = gateAppend t x.c x.bus (.swpost off x.b.lo) := by
  rw [swpost, h]
  rfl

theorem swadd_ok {off : Nat} (h : syncOffset (t.core x.c) x.bus = .ok off) : swadd x t = gateAppend t x.c x.bus (.swadd off (x.b.bits.setWidth 32).toNat) := by
  have low : bits x.b.lo 31 0 = (x.b.bits.setWidth 32).toNat := by
    rw [bits_low, Val.lo, BitVec.toNat_setWidth, BitVec.toNat_setWidth, Nat.mod_mod_of_dvd _ (Nat.pow_dvd_pow 2 (by decide))]
  rw [swadd, h, low]
  rfl

/-- `swrd` with nothing before it to perform. -/
theorem swrd_ok {off : Nat} (h : syncOffset (t.core x.c) x.bus = .ok off) (folios : needFolios (t.core x.c) (spadFolios off 16) = .ok ())
    (before : loadsBefore (t.core x.c) (t.core x.c).epoch = []) :
    swrd x t = .ok (deliver t x.c x.bus (busResult x.bus) 6 ((gatedWord off (t.core x.c).gate ((t.core x.c).syncWord off)).read.setWidth 1024) 0) := by
  simp only [swrd, h, bind, except_ok_bind, folios, ownDue, performBefore_nothing before]
  rfl

theorem sync_stops {e : Stop} (h : syncOffset (t.core x.c) x.bus = .error e) : swpost x t = .error e ∧ swadd x t = .error e ∧ swrd x t = .error e := by
  refine ⟨?_, ?_, ?_⟩
  · rw [swpost, h]; rfl
  · rw [swadd, h]; rfl
  · rw [swrd, h]; rfl

end Operations

/-! ### A mark over one gated post -/

theorem markFirst_commits {s : State} {c : Nat} {u : State} (walks : needWalks (s.core c).arch.due = .ok ()) (unmarked : (s.core c).marked = false)
    (commit : commitGate s c = .ok u) : markFirst s c = .ok (snapshot u c) := by
  rw [markFirst, walks]
  simp only [bind, except_ok_bind, unmarked, Bool.false_eq_true, if_false, commit]
  rfl

theorem commitGate_one {s u : State} {c : Nat} {g : Gated} (gate : (s.core c).gate = [g]) (entry : commitEntry s c g = .ok u) :
    commitGate s c = .ok (u.modCore c fun k => { k with gate := [] }) := by
  rw [commitGate, gate, commitEntries, entry]
  rfl

theorem commitEntry_swpost {s : State} {c off : Nat} (folios : needFolios (s.core c) (spadFolios off 16) = .ok ()) (b : Word) :
    commitEntry s c (.swpost off b) = .ok (s.modCore c fun k => k.setSyncWord off ((k.syncWord off).post b)) := by
  rw [commitEntry, folios]
  rfl

/-- Settles O23: the operations by the offset they name, the arithmetic by the match of Table 4.5, a mark by the commit of its one entry. -/
theorem syncWordsRun : Obligations.SyncWordsRun := by
  unfold Obligations.SyncWordsRun
  refine ⟨fun m s t v _ h present => ?operations, fun w b n gen count => ⟨fun fits => ?adds, fun large target => ?saturates, ?posts, ?commits⟩⟩
  case operations =>
    have here : t.here = t.core s.cur := by rw [State.here, h.cur]
    have latches (port : Nat) : needLatches t s.cur port = .ok () := h.cur ▸ needLatches_present present (by simp) port
    rw [here]
    refine ⟨fun high f hf => ?beyond, fun low odd f hf => ?unaligned, fun low aligned => ⟨fun room => ?gated, fun folios before => ?read⟩⟩
    case beyond =>
      have stops (port : Nat) := sync_stops (x := memTrig s m v port) (t := t) ((syncOffset_eq _ _).trans (if_pos high))
      simp only [List.mem_cons, List.not_mem_nil, or_false] at hf
      rcases hf with rfl | rfl | rfl
      · exact runMv_fault h (latches 0x356) (stops 0x356).1
      · exact runMv_fault h (latches 0x357) (stops 0x357).2.1
      · exact runMv_fault h (latches 0x358) (stops 0x358).2.2
    case unaligned =>
      have stops (port : Nat) := sync_stops (x := memTrig s m v port) (t := t) ((syncOffset_eq _ _).trans ((if_neg (Nat.not_le.2 low)).trans (if_pos odd)))
      simp only [List.mem_cons, List.not_mem_nil, or_false] at hf
      rcases hf with rfl | rfl | rfl
      · exact runMv_fault h (latches 0x356) (stops 0x356).1
      · exact runMv_fault h (latches 0x357) (stops 0x357).2.1
      · exact runMv_fault h (latches 0x358) (stops 0x358).2.2
    case gated =>
      exact ⟨runMv_gate (port := 0x356) h present (here ▸ room) (swpost_ok (syncOffset_ok low aligned)),
        runMv_gate (port := 0x357) h present (here ▸ room) (swadd_ok (syncOffset_ok low aligned))⟩
    case read =>
      exact runMv_next h (latches 0x358) (swrd_ok (x := memTrig s m v 0x358) (syncOffset_ok low aligned) (needFolios_ok fun f hf => here ▸ folios f hf) before)
  case adds =>
    rw [SyncWord.add, if_pos fits]
    refine ⟨SyncWord.match'_ovr _, SyncWord.match'_err _, fun below => ?_, fun some met once => ?_, fun some met again => ?_⟩
    · rw [SyncWord.match'_below (w := { w with count := w.count + n }) below]
      exact ⟨rfl, rfl, rfl⟩
    · rw [SyncWord.match'_met (w := { w with count := w.count + n }) some met, if_pos once]
      exact ⟨rfl, rfl, rfl⟩
    · rw [SyncWord.match'_met (w := { w with count := w.count + n }) some met, if_neg (Bool.eq_false_iff.1 again)]
      exact ⟨rfl, rfl, rfl⟩
  case saturates =>
    rw [SyncWord.add, if_neg (Nat.not_lt.2 large)]
    refine ⟨SyncWord.match'_ovr _, SyncWord.match'_err _, fun zero => ?_, fun some once => ?_, fun some again => ?_⟩
    · rw [SyncWord.match'_below (w := { w with count := 2 ^ 32 - 1, ovr := true }) (.inl zero)]
      exact ⟨rfl, rfl, zero⟩
    · rw [SyncWord.match'_met (w := { w with count := 2 ^ 32 - 1, ovr := true }) some (Nat.le_sub_one_of_lt target), if_pos once]
      exact ⟨rfl, rfl, rfl⟩
    · rw [SyncWord.match'_met (w := { w with count := 2 ^ 32 - 1, ovr := true }) some (Nat.le_sub_one_of_lt target), if_neg (Bool.eq_false_iff.1 again)]
      exact ⟨rfl, rfl, rfl⟩
  case posts =>
    rw [SyncWord.post_eq]
    refine ⟨fun below => SyncWord.match'_below below, fun some met once => ?_, fun some met again => ?_⟩
    · exact (SyncWord.match'_met some met).trans (if_pos once)
    · exact (SyncWord.match'_met some met).trans (if_neg (Bool.eq_false_iff.1 again))
  case commits =>
    intro s off walks unmarked gate low aligned present
    have run := markFirst_commits walks unmarked (commitGate_one gate (commitEntry_swpost present.folios b))
    refine ⟨_, run, ?_⟩
    simp only [State.here, snapshot, State.modCore_cur, State.core_modCore_same]
    refine ⟨trivial, ?_, ?_, rfl, fun _ => rfl, ?_⟩
    · exact Core.syncWord_setSyncWord _ _ ((Core.syncWord_fits _ _).post b)
    · exact fun x hx => Core.spad_spadWrite_other _ _ (by rwa [length_leBytes])
    · exact fun d hd => (State.core_modCore_other _ _ hd).trans ((State.core_modCore_other _ _ hd).trans (State.core_modCore_other _ _ hd))

end Sys2Proof.Machine
end

section
/-!
SUPPORT. Why O19 does not hold of every state: a `phase` whose scope is reserved faults behind its mark's commit, and the fault
keeps the walks made since the bundle was tried, as in the refutation of O5 (`FaultedLeaf`).
-/

namespace Sys2Proof.Machine

namespace FaultedLeaf

/-- A `phase` of scope 0, from the literal zero. -/
def phaseZero : Mv := { bus := 6, src := 0x0A7, keep := false }

/-- The state after the mark's commit and snapshot. -/
def marked : State := match markFirst state state.cur with | .ok t => t | .error _ => state

theorem state_marked : markFirst state state.cur = .ok marked := eq_ok_of_gives (by decide +kernel)
theorem marked_reads : readSource marked marked.cur phaseZero.src.toNat = .ok (.scalar 0) := eq_ok_of_gives (by decide +kernel)
theorem marked_present : Present marked [32] := by
  have present : (marked.here.folio 32).pres = .present := by decide +kernel
  simpa [Present] using present

/-- The phase faults, and the leaf is accessed after it. -/
theorem phase_leaf : (match exec (.mPhase phaseZero) state with | .next u => u.read64 leafAt | _ => 0) = leaf ||| 0x20 := by decide +kernel

end FaultedLeaf

section Refutation

open FaultedLeaf

/-- Refutes O19: on a state whose caches list a leaf that a walk has faulted on, a `phase` of scope 0 does not leave the state of
its fault alone. The accessed bit of that leaf is set too (`keepWalks`). -/
theorem not_waitsRun : ¬ Obligations.WaitsRun := by
  unfold Obligations.WaitsRun
  intro waits
  obtain ⟨-, -, phase, -⟩ := waits phaseZero state marked marked (.scalar 0) state_marked ⟨marked_reads, rfl⟩ marked_present
  have kept : (match exec (.mPhase phaseZero) state with | .next u => u.read64 leafAt | _ => 0) = leaf := by
    rw [(phase (by decide)).1 (.inl rfl)]
    exact faulted_leaf _
  exact absurd (phase_leaf.symm.trans kept) (by decide)

end Refutation

end Sys2Proof.Machine
end

section
/-!
SUPPORT. Late loads (O17), and what a mark commits and the publish buffer performs (O16).
-/

namespace Sys2Proof

/-! ### Looking a key up -/

theorem find_cellPut_same {α : Type} (l : List (Nat × α)) (k : Nat) (v : α) : (cellPut l k v).find? (fun c => c.1 == k) = some (k, v) := by
  induction l with
  | nil => simp [cellPut]
  | cons c r ih =>
    obtain ⟨j, w⟩ := c
    rw [cellPut]
    split
    · simp
    · split
      · simp
      · rename_i other
        have ne : (j == k) = false := by simpa using fun h => other h.symm
        simp [ne, ih]

theorem find_cellPut_other {α : Type} (l : List (Nat × α)) (v : α) {j k : Nat} (h : j ≠ k) :
    (cellPut l k v).find? (fun c => c.1 == j) = l.find? (fun c => c.1 == j) := by
  have put : (k == j) = false := by simpa using fun e => h e.symm
  induction l with
  | nil => simp [cellPut, put]
  | cons c r ih =>
    obtain ⟨i, w⟩ := c
    rw [cellPut]
    split
    · simp [put]
    · split
      · rename_i same
        subst same
        simp [put]
      · rw [List.find?_cons, List.find?_cons, ih]

@[simp] theorem Tab.find_set_same {α : Type} (t : Tab α) (k : Nat) (v : α) : (t.set k v).find? k = some v := by
  simp [Tab.find?, Tab.set, find_cellPut_same]

theorem Tab.find_set_other {α : Type} (t : Tab α) (v : α) {j k : Nat} (h : j ≠ k) : (t.set k v).find? j = t.find? j := by
  simp only [Tab.find?, Tab.set, find_cellPut_other _ _ h]

end Sys2Proof

namespace Sys2Proof.Machine

/-! ### Late loads -/

theorem exec_lateArrival (c tag : Nat) (s : State) : exec (.lateResultArrival c tag) s = .next (lateArrival s c tag) := rfl

theorem core_fillBoth_other (s : State) {c e : Nat} (tag : Nat) (f : Due → Due) (h : e ≠ c) : (fillBoth s c tag f).core e = s.core e :=
  State.core_modCore_other _ _ h

/-- What the arrival of a value leaves, where one result is due. -/
theorem fillBoth_one {s : State} {c : Nat} {d : Due} (one : (s.core c).arch.due = [d]) (f : Due → Due) :
    SameMemory s (fillBoth s c d.tag f) ∧ ((fillBoth s c d.tag f).core c).arch.due = [f d] ∧
      (s.core c).arch.SameButDue ((fillBoth s c d.tag f).core c).arch ∧ ∀ e, e ≠ c → (fillBoth s c d.tag f).core e = s.core e := by
  refine ⟨fun _ => rfl, ?_, ?_, fun e he => core_fillBoth_other _ _ _ he⟩
  all_goals rw [arch_fillBoth]
  · rw [one, fillDue_one]
  · rfl

section Late

variable {s : State} {c : Nat} {d : Due} (one : (s.core c).arch.due = [d]) (tagged : d.tag ≠ 0) (before : loadsBefore (s.core c) d.epoch = [])
include one tagged before

theorem lateArrival_load {p : Place} {size sx : Nat} (req : d.req = .load p size sx) :
    lateArrival s c d.tag =
      fillBoth s c d.tag (Due.arrived (extendLoad size sx ((List.range size).map fun i => loadGlobal s c d.count (p.add i)))) := by
  simp only [lateArrival, findDue_one one tagged, req, performBefore_nothing before, before, List.isEmpty_nil, if_true, performLoad]

theorem lateArrival_peer {e off size sx : Nat} (req : d.req = .peer e off size sx) (folios : (s.core e).allPresent (spadFolios off size) = true) :
    lateArrival s c d.tag = fillBoth s c d.tag (Due.arrived (extendLoad size sx ((s.core e).spadRead off size))) := by
  simp only [lateArrival, findDue_one one tagged, req, performBefore_nothing before, before, List.isEmpty_nil, if_true, performLoad, folios]

end Late

/-- Settles O17. -/
theorem lateLoadArrives : Obligations.LateLoadArrives := by
  unfold Obligations.LateLoadArrives
  refine fun s c d one tagged before => ⟨fun p size sx req => ?load, fun e off size sx req folios => ?peer⟩
  case load =>
    rw [exec_lateArrival, lateArrival_load one tagged before req]
    exact ⟨_, rfl, fillBoth_one one _⟩
  case peer =>
    have present : (s.core e).allPresent (spadFolios off size) = true := by simpa [Core.allPresent] using folios
    rw [exec_lateArrival, lateArrival_peer one tagged before req present]
    exact ⟨_, rfl, fillBoth_one one _⟩

/-! ### Memory as reads see it -/

/-- A byte after a write of one byte. -/
theorem byteAt_writeByte (s : State) (p q : Place) (b : Byte) :
    (s.writeByte p b).byteAt q = if q = p ∧ (p.host = true ∨ physMapped p.addr = true) then b else s.byteAt q := by
  split
  · rename_i h
    rw [h.1, State.byteAt_writeByte_same _ _ _ h.2]
  · rename_i h
    by_cases same : q = p
    · subst same
      have unmapped : q.host = false ∧ physMapped q.addr = false := by simpa using h
      simp [State.writeByte, unmapped]
    · exact State.byteAt_writeByte_other _ _ same

/-- States whose memories read the same do so after the same writes. -/
theorem SameMemory.writeBytesFrom {s t : State} (h : SameMemory s t) (d : List Byte) (p : Place) :
    SameMemory (writeBytesFrom p d s) (writeBytesFrom p d t) := by
  induction d generalizing s t p with
  | nil => exact h
  | cons b r ih => exact ih (fun q => by rw [byteAt_writeByte, byteAt_writeByte, h q]) _

theorem byteAt_writeAt_eq (s : State) (p q : Place) (d : List Byte) : (s.writeAt p d).byteAt q = (writeBytesFrom p d s).byteAt q := by
  unfold State.writeAt
  split <;> rfl

theorem SameMemory.writeAt {s t : State} (h : SameMemory s t) (p : Place) (d : List Byte) : SameMemory (s.writeAt p d) (t.writeAt p d) := fun q => by
  rw [byteAt_writeAt_eq, byteAt_writeAt_eq, h.writeBytesFrom]

theorem SameMemory.read64 {s t : State} (h : SameMemory s t) (p : Place) : t.read64 p = s.read64 p := by
  have bytes : t.readAt p 8 = s.readAt p 8 := List.map_congr_left fun i _ => h (p.add i)
  rw [State.read64, State.read64, bytes]

theorem SameMemory.walkTables {s t : State} (h : SameMemory s t) (va l a : Nat) : walkTables t va l a = walkTables s va l a := by
  induction l generalizing a with
  | zero => rfl
  | succ l ih =>
    simp only [Machine.walkTables, h.read64, ih]

theorem SameMemory.leafOf {s t : State} (h : SameMemory s t) (pasids : t.pasids = s.pasids) (pasid va : Nat) : leafOf t pasid va = leafOf s pasid va := by
  simp only [Machine.leafOf, pasids, h.walkTables]

theorem SameMemory.dirtyPage {s t : State} (h : SameMemory s t) (pasids : t.pasids = s.pasids) (pasid : Nat) (x : Handle) :
    SameMemory (dirtyPage s pasid x) (dirtyPage t pasid x) := by
  simp only [Machine.dirtyPage, h.leafOf pasids]
  split
  · split
    · exact h.writeAt _ _
    · exact h
  · exact h

theorem dirtyPage_eq (s : State) (pasid : Nat) (x : Handle) : ∃ m g e, dirtyPage s pasid x = { s with mem := m, host := g, ecc := e } := by
  unfold dirtyPage
  split
  · split
    · exact State.writeAt_eq ..
    · exact ⟨s.mem, s.host, s.ecc, rfl⟩
  · exact ⟨s.mem, s.host, s.ecc, rfl⟩

theorem dirtyPage_core (s : State) (pasid c : Nat) (x : Handle) : (dirtyPage s pasid x).core c = s.core c := by
  obtain ⟨m, g, e, h⟩ := dirtyPage_eq s pasid x
  rw [h]
  rfl

theorem dirtyPage_cur (s : State) (pasid : Nat) (x : Handle) : (dirtyPage s pasid x).cur = s.cur := by
  obtain ⟨m, g, e, h⟩ := dirtyPage_eq s pasid x
  rw [h]

/-! ### Publish entries -/

/-- What a merge holds at an offset: the one byte that the list has for it. -/
theorem find_pubWrite {l : List (Nat × Byte)} {t : Tab Byte} {o : Nat} {b : Byte} (only : ∀ e ∈ l, e.1 = o → e.2 = b)
    (held : (∃ e ∈ l, e.1 = o) ∨ t.find? o = some b) : (pubWrite t l).find? o = some b := by
  induction l generalizing t with
  | nil =>
    rcases held with ⟨e, he, -⟩ | here
    · exact absurd he (List.not_mem_nil)
    · exact here
  | cons e r ih =>
    obtain ⟨k, v⟩ := e
    rw [pubWrite]
    refine ih (fun x hx => only x (List.mem_cons_of_mem _ hx)) ?_
    by_cases same : k = o
    · have value : v = b := only (k, v) List.mem_cons_self same
      rw [same, value]
      exact .inr (Tab.find_set_same ..)
    · rcases held with ⟨x, hx, key⟩ | here
      · rcases List.mem_cons.1 hx with rfl | tail
        · exact absurd key same
        · exact .inl ⟨x, tail, key⟩
      · exact .inr ((Tab.find_set_other _ _ fun h => same h.symm).trans here)

theorem mem_granuleBytes {p g : Place} {d : List Byte} {o : Nat} {b : Byte} :
    (o, b) ∈ granuleBytes p d g ↔ o < 32 ∧ (p.addr ≤ g.addr + o ∧ g.addr + o < p.addr + d.length) ∧ d[g.addr + o - p.addr]? = some b := by
  simp only [granuleBytes, List.mem_filterMap, List.mem_range]
  constructor
  · rintro ⟨n, hn, h⟩
    split at h
    · rename_i inside
      obtain ⟨x, hx, e⟩ := Option.map_eq_some_iff.1 h
      obtain ⟨rfl, rfl⟩ := Prod.mk.inj e
      exact ⟨hn, inside, hx⟩
    · cases h
  · rintro ⟨hn, inside, hx⟩
    exact ⟨o, hn, by rw [if_pos inside, hx]; rfl⟩

/-- The granule of a place, as `granulesOf` numbers it. -/
theorem granuleOf_eq (p : Place) : granuleOf p = { p with addr := 32 * (p.addr / 32) } := by rw [granuleOf, Nat.mul_comm]

theorem granulesOf_one {p : Place} {n : Nat} (some : 0 < n) (fits : p.addr % 32 + n ≤ 32) : granulesOf p n = [granuleOf p] := by
  have one : (p.addr + n - 1) / 32 - p.addr / 32 + 1 = 1 := by omega
  rw [granulesOf, if_neg (by omega), one, granuleOf_eq]
  rfl

/-- The entry that a store within one granule makes holds its bytes. -/
theorem pubByte_granule {p : Place} {d : List Byte} {page i : Nat} (fits : p.addr % 32 + d.length ≤ 32) (hi : i < d.length) (b : Byte) :
    pubByte [{ place := granuleOf p, data := pubWrite .empty (granuleBytes p d (granuleOf p)), pages := [page] }] (p.add i) b = d[i] := by
  have granule : granuleOf (p.add i) = granuleOf p := by
    rw [granuleOf, granuleOf, Place.add, show (p.addr + i) / 32 = p.addr / 32 by omega]
  have key : (granuleOf p).addr + (p.addr + i) % 32 = p.addr + i := by rw [granuleOf]; dsimp only; omega
  have found : (pubWrite .empty (granuleBytes p d (granuleOf p))).find? ((p.addr + i) % 32) = some d[i] := by
    refine find_pubWrite (fun e he keyed => ?_) (.inl ⟨((p.addr + i) % 32, d[i]), mem_granuleBytes.2 ⟨Nat.mod_lt _ (by decide), ?_, ?_⟩, rfl⟩)
    · obtain ⟨o, x⟩ := e
      obtain ⟨-, -, value⟩ := mem_granuleBytes.1 he
      dsimp only at keyed
      rw [keyed, key, Nat.add_sub_cancel_left, List.getElem?_eq_getElem hi] at value
      exact (Option.some.inj value).symm
    · rw [key]; omega
    · rw [key, Nat.add_sub_cancel_left, List.getElem?_eq_getElem hi]
  rw [pubByte, granule]
  simp only [List.find?_cons, beq_self_eq_true, Place.add, found, Option.getD_some]

/-! ### A mark over one gated store -/

theorem spad_spadWrite (k : Core) (off a : Nat) (d : List Byte) :
    (k.spadWrite off d).spad a = if off ≤ a ∧ a < off + d.length then d.getD (a - off) 0 else k.spad a := by
  split
  · rename_i inside
    obtain ⟨i, rfl⟩ := Nat.exists_eq_add_of_le inside.1
    have hi : i < d.length := by omega
    rw [Core.spad_spadWrite_same _ _ hi, Nat.add_sub_cancel_left, getD_of_lt _ _ hi]
  · rename_i outside
    exact Core.spad_spadWrite_other _ _ (by omega)

/-- A store within one granule, into an empty buffer. -/
theorem publish_one {s : State} {c page : Nat} {p : Place} {d : List Byte} (empty : (s.core c).pub = []) (free : dueAtomics (s.core c) (granuleOf p) = [])
    (some : 0 < d.length) (fits : p.addr % 32 + d.length ≤ 32) :
    publish s c page p d =
      s.modCore c fun k => { k with pub := [{ place := granuleOf p, data := pubWrite .empty (granuleBytes p d (granuleOf p)), pages := [page] }] } := by
  have settled : settleGranule s c (granuleOf p) = s := by rw [settleGranule, free]; rfl
  have room : pubRoom s c (granuleOf p) = s := by
    simp only [pubRoom, empty]
    rw [if_pos (.inl (by decide))]
  rw [publish, granulesOf_one some fits, List.foldl_cons, List.foldl_nil, settled, room]
  simp only [State.modCore, empty, pubMerge]

/-- The commit of a store of the scratchpad, and of one through a handle that answers as it stands. -/
theorem commitEntry_local {s : State} {c : Nat} {x : Store} (h : x.h = none) : commitEntry s c (.store x) = .ok (s.modCore c fun k => k.spadWrite x.off x.data) := by
  simp only [commitEntry, commitStore, h]

theorem commitEntry_handle {s : State} {c n : Nat} {x : Store} (h : x.h = some n) (open' : x.shadow = none)
    (serves : Serves s c ((s.core c).arch.handle n) x.off x.data.length 62 true) (owned : ((s.core c).arch.handle n).cow = false) :
    commitEntry s c (.store x) =
      .ok (publishStore (s.modArch c fun a => a.setHandle n ((s.core c).arch.handle n)) c ((s.core c).arch.handle n) x) := by
  simp only [commitEntry, commitStore, h, open', checkContents_ok serves fun _ => owned, bind, except_ok_bind]
  rfl

theorem publishStore_one {s : State} {c : Nat} {h : Handle} {x : Store} (n : Nat) (empty : (s.core c).pub = [])
    (free : dueAtomics (s.core c) (granuleOf (s.handlePlace (s.core c).member.pasid h x.off)) = []) (some : 0 < x.data.length)
    (fits : (s.handlePlace (s.core c).member.pasid h x.off).addr % 32 + x.data.length ≤ 32) :
    let q := s.handlePlace (s.core c).member.pasid h x.off
    publishStore (s.modArch c fun a => a.setHandle n h) c h x =
      (dirtyPage (s.modArch c fun a => a.setHandle n h) (s.core c).member.pasid h).modCore c fun k =>
        { k with pub := [{ place := granuleOf q, data := pubWrite .empty (granuleBytes q x.data (granuleOf q)), pages := [h.pageOf x.off] }] } := by
  have core : (dirtyPage (s.modArch c fun a => a.setHandle n h) (s.core c).member.pasid h).core c = { s.core c with arch := (s.core c).arch.setHandle n h } := by
    rw [dirtyPage_core, State.core_modArch_same]
  have member : ((s.modArch c fun a => a.setHandle n h).core c).member.pasid = (s.core c).member.pasid := by rw [State.core_modArch_same]
  simp only [publishStore, member]
  exact publish_one (by rw [core]; exact empty) (by rw [core]; exact free) some fits

/-! ### The performance of an entry -/

theorem byteAt_writeMasked_other {l : List (Nat × Byte)} {s : State} {p q : Place} (h : ∀ c ∈ l, q ≠ p.add c.1) : (writeMasked p l s).byteAt q = s.byteAt q := by
  induction l generalizing s with
  | nil => rfl
  | cons c r ih =>
    obtain ⟨o, b⟩ := c
    rw [writeMasked, ih fun x hx => h x (List.mem_cons_of_mem _ hx), State.byteAt_writeByte_other _ _ (h (o, b) List.mem_cons_self)]

theorem lt_of_rising {l : List (Nat × Byte)} {lo : Nat} (rising : cellRising l lo = true) {c : Nat × Byte} (hc : c ∈ l) : lo ≤ c.1 := by
  induction l generalizing lo with
  | nil => exact absurd hc List.not_mem_nil
  | cons d r ih =>
    obtain ⟨j, v⟩ := d
    simp only [cellRising, Bool.and_eq_true, decide_eq_true_eq] at rising
    rcases List.mem_cons.1 hc with rfl | tail
    · exact rising.1
    · have := ih rising.2 tail
      omega

theorem Place.add_inj {p : Place} {m n : Nat} (h : p.add m = p.add n) : m = n := by
  have := congrArg Place.addr h
  simp only [Place.add] at this
  omega

theorem byteAt_writeMasked_same {l : List (Nat × Byte)} {s : State} {p : Place} {lo o : Nat} {b : Byte} (rising : cellRising l lo = true) (mem : (o, b) ∈ l)
    (mapped : (p.add o).host = true ∨ physMapped (p.add o).addr = true) : (writeMasked p l s).byteAt (p.add o) = b := by
  induction l generalizing s lo with
  | nil => exact absurd mem List.not_mem_nil
  | cons d r ih =>
    obtain ⟨j, v⟩ := d
    simp only [cellRising, Bool.and_eq_true, decide_eq_true_eq] at rising
    rw [writeMasked]
    rcases List.mem_cons.1 mem with head | tail
    · obtain ⟨rfl, rfl⟩ := Prod.mk.inj head
      rw [byteAt_writeMasked_other, State.byteAt_writeByte_same _ _ _ mapped]
      intro c hc same
      have above := lt_of_rising rising.2 hc
      have equal := Place.add_inj same
      omega
    · exact ih rising.2 tail

/-- An existing granule exists as a whole (Table 5.1). -/
theorem physMapped_granule {g o : Nat} (h : physMapped (32 * g) = true) (ho : o < 32) : physMapped (32 * g + o) = true := by
  simp [physMapped, kindHolds] at h ⊢
  omega

section Entry

variable {s : State} {e : Pub} (rising : e.data.rising = true) (small : ∀ x ∈ e.data.cells, x.1 < 32)
  (mapped : ∀ o, o < 32 → (e.place.add o).host = true ∨ physMapped (e.place.add o).addr = true)
include rising small mapped

/-- One entry performed: its masked bytes, and no other. -/
theorem byteAt_performPub (q : Place) :
    (performPub s e).byteAt q = if q.host = e.place.host ∧ e.place.addr ≤ q.addr ∧ q.addr < e.place.addr + 32 then
      (e.data.find? (q.addr - e.place.addr)).getD (s.byteAt q) else s.byteAt q := by
  have memory : (performPub s e).byteAt q = (writeMasked e.place e.data.cells s).byteAt q := by
    unfold performPub
    split <;> rfl
  rw [memory]
  split
  · rename_i inside
    obtain ⟨host, low, high⟩ := inside
    have here : q = e.place.add (q.addr - e.place.addr) := by
      cases q
      simp only [Place.add] at host low ⊢
      rw [host, Nat.add_sub_cancel' low]
    cases found : e.data.cells.find? fun c => c.1 == q.addr - e.place.addr with
    | none =>
      rw [Tab.find?, found, byteAt_writeMasked_other]
      · rfl
      · intro c hc same
        have key := List.find?_eq_none.1 found c hc
        rw [here] at same
        exact key (by simpa using (Place.add_inj same).symm)
    | some c =>
      obtain ⟨o, b⟩ := c
      have key : o = q.addr - e.place.addr := by simpa using List.find?_some found
      rw [Tab.find?, found, here, ← key, byteAt_writeMasked_same rising (List.mem_of_find?_eq_some found) (mapped o (by omega))]
      rfl
  · rename_i outside
    refine byteAt_writeMasked_other fun c hc same => outside ?_
    have := small c hc
    rw [same]
    exact ⟨rfl, Nat.le_add_right .., Nat.add_lt_add_left this _⟩

end Entry

theorem performPub_core (s : State) (e : Pub) (c : Nat) : (performPub s e).core c = s.core c := by
  have masked (l : List (Nat × Byte)) (p : Place) (s : State) : (writeMasked p l s).core c = s.core c := by
    induction l generalizing s with
    | nil => rfl
    | cons x r ih =>
      rw [writeMasked, ih]
      obtain ⟨m, g, h⟩ := s.writeByte_eq (p.add x.1) x.2
      rw [h]
      rfl
  rw [← masked e.data.cells e.place s]
  unfold performPub
  split <;> rfl

theorem exec_publishEntryPerform (c g : Nat) (s : State) :
    exec (.publishEntryPerform c g) s =
      .next (if mayPublish s c { host := decide (2 ^ 47 ≤ g), addr := 32 * (g % 2 ^ 47) } then performGranule s c { host := decide (2 ^ 47 ≤ g), addr := 32 * (g % 2 ^ 47) }
        else s) := rfl

/-- A core whose gate has been committed at its mark. -/
theorem core_committed (d : State) (c : Nat) :
    (snapshot (d.modCore c fun k => { k with gate := [] }) c).core c =
      { d.core c with
        gate := [], snap := (d.core c).arch, epoch := (d.core c).epoch + 1, popped := [], ops := dropStreams { d.core c with gate := [] }, marked := true,
        phaseDone := false, arrived := none } := by
  rw [snapshot, State.core_modCore_same, State.core_modCore_same]

theorem snapshot_committed_cur (d : State) (c : Nat) : (snapshot (d.modCore c fun k => { k with gate := [] }) c).cur = d.cur := rfl

/-- Settles O16: the commit of a local store, of one through a handle within one granule, and the performance of one entry. -/
theorem commitAndPublish : Obligations.CommitAndPublish := by
  unfold Obligations.CommitAndPublish
  refine ⟨fun s x walks unmarked gate own => ?local', ?global, fun s c g => ⟨fun barred => ?barred, fun e may only place rising small mapped => ?performed⟩⟩
  case local' =>
    refine ⟨_, markFirst_commits walks unmarked (commitGate_one gate (commitEntry_local own)), ?_⟩
    simp only [State.here, snapshot, State.modCore_cur, State.core_modCore_same, Core.spadWrite_arch]
    refine ⟨trivial, trivial, trivial, trivial, fun a => spad_spadWrite _ _ _ _, rfl, fun _ => rfl, fun d hd => ?_⟩
    exact (State.core_modCore_other _ _ hd).trans ((State.core_modCore_other _ _ hd).trans (State.core_modCore_other _ _ hd))
  case global =>
    intro s x n h pasid q walks unmarked gate empty through open' valid fresh right owned ats free range some fits
    have run := markFirst_commits walks unmarked (commitGate_one gate (commitEntry_handle through open' ⟨valid, fresh, right, range, ats⟩ owned))
    have stored := publishStore_one (s := s) (c := s.cur) (x := x) (h := h) n empty free some fits
    have memory : SameMemory (dirtyPage s pasid h) (dirtyPage (s.modArch s.cur fun a => a.setHandle n h) pasid h) :=
      SameMemory.dirtyPage (s := s) (t := s.modArch s.cur fun a => a.setHandle n h) (fun _ => rfl) rfl pasid h
    refine ⟨_, run, ?_⟩
    rw [show s.core s.cur = s.here from rfl, stored]
    refine ⟨memory, ?_, ?_, fun i hi => ?_⟩
    · rw [State.here, snapshot_committed_cur, State.modCore_cur, dirtyPage_cur, State.modArch_cur, core_committed]
    · rw [State.here, snapshot_committed_cur, State.modCore_cur, dirtyPage_cur, State.modArch_cur, core_committed, State.core_modCore_same, dirtyPage_core,
        State.core_modArch_same]
      rfl
    · rw [loadGlobal, gateGlobal, core_committed, State.core_modCore_same, getD_of_lt _ _ hi]
      exact pubByte_granule fits hi _
  case barred => rw [exec_publishEntryPerform, barred]; rfl
  case performed =>
    rw [exec_publishEntryPerform, ← place, if_pos may]
    have one : performGranule s c e.place = (performPub s e).modCore c fun k => { k with pub := k.pub.filter fun e' => e'.place != e.place } := by
      rw [performGranule, only]
      rfl
    have exists' (o : Nat) (ho : o < 32) : (e.place.add o).host = true ∨ physMapped (e.place.add o).addr = true := by
      rw [place]
      rcases mapped with host | device
      · exact .inl (decide_eq_true host)
      · by_cases host : 2 ^ 47 ≤ g
        · exact .inl (decide_eq_true host)
        · right
          simp only [Place.add]
          rw [Nat.mod_eq_of_lt (by omega)]
          exact physMapped_granule device ho
    refine ⟨_, rfl, ?_⟩
    rw [one]
    refine ⟨fun q => byteAt_performPub rising small exists' q, ?_, ?_, fun d hd => (State.core_modCore_other _ _ hd).trans (performPub_core ..)⟩
    all_goals rw [State.core_modCore_same, performPub_core]

end Sys2Proof.Machine
end

section
/-!
SUPPORT. Why O25 does not hold of every state: `tshape` of D16F before full service faults behind its mark's commit, as `phase`
does in the refutation of O19 (`FaultedLeaf`).
-/

namespace Sys2Proof.Machine

namespace FaultedLeaf

/-- The state with the code of D16F in s3. -/
def shapeState : State := state.modArch 0 fun a => a.setS 3 2

/-- A `tshape` of s3. -/
def shapeMove : Mv := { bus := 6, src := 3, keep := false }

def shapeMarked : State := match markFirst shapeState shapeState.cur with | .ok t => t | .error _ => shapeState

theorem shapeState_marked : markFirst shapeState shapeState.cur = .ok shapeMarked := eq_ok_of_gives (by decide +kernel)
theorem shapeMarked_reads : readSource shapeMarked shapeMarked.cur shapeMove.src.toNat = .ok (.scalar 2) := eq_ok_of_gives (by decide +kernel)
theorem shapeMarked_present : Present shapeMarked [32] := by
  have present : (shapeMarked.here.folio 32).pres = .present := by decide +kernel
  simpa [Present] using present
theorem shapeMarked_status : shapeMarked.status.getLsbD 63 = false := by decide +kernel

/-- The operation faults, and the leaf is accessed after it. -/
theorem shape_leaf : (match exec (.meTshape shapeMove) shapeState with | .next u => u.read64 leafAt | _ => 0) = leaf ||| 0x20 := by decide +kernel

theorem faulted_shape_leaf (f : CFault) : (takeCoreFault shapeState shapeState.cur f).read64 leafAt = leaf := by
  have before : shapeState.read64 leafAt = leaf := by decide +kernel
  exact ((sameMemory_takeCoreFault shapeState shapeState.cur f).read64 leafAt).trans before

end FaultedLeaf

section Refutation

open FaultedLeaf

/-- Refutes O25: on a state whose caches list a leaf that a walk has faulted on, a `tshape` of D16F before full service does not
leave the state of its fault alone. The accessed bit of that leaf is set too (`keepWalks`). -/
theorem not_tilesAndWindows : ¬ Obligations.TilesAndWindows := by
  unfold Obligations.TilesAndWindows
  rintro ⟨-, shape, -⟩
  obtain ⟨refused, -⟩ := shape shapeMove shapeState shapeMarked shapeMarked (.scalar 2) shapeState_marked ⟨shapeMarked_reads, rfl⟩ shapeMarked_present
  have kept : (match exec (.meTshape shapeMove) shapeState with | .next u => u.read64 leafAt | _ => 0) = leaf := by
    rw [refused (by decide) shapeMarked_status]
    exact faulted_shape_leaf _
  exact absurd (shape_leaf.symm.trans kept) (by decide)

end Refutation

end Sys2Proof.Machine
end

section
/-!
SUPPORT. Why O26 does not hold of every state: an operation that a follow-on block described has that block checked whenever it
runs (R294), a copy's too, and parks on a block that is bad. The statement does not ask that the copy has none.
-/

namespace Sys2Proof.Machine

namespace BlockedCopy

/-- A copy of the byte at 0 onto itself, with a follow-on block whose word 0x38 is not zero. -/
def copy : Op :=
  { newOp (State.reset.core 0) 0x3A0 0 3 6 with
    id := 4, cfg := Tab.empty.put 0 0x123 1, block := some (0, 1) }

/-- Core 0 holds the copy alone, and every folio is PRESENT. -/
def state : State := State.reset.modCore 0 fun k => { k with ops := [copy], folios := .empty }

theorem state_op : state.op 0 4 = some copy := by decide +kernel

/-- The granule does not land: the copy makes no progress. -/
theorem lands_nothing : (match exec (.ceGranuleLand 0 4) state with | .next t => (t.op 0 4).map (·.prog) | _ => none) = some 0 := by decide +kernel

end BlockedCopy

section Refutation

open BlockedCopy

/-- Refutes O26: a plain copy whose operation carries a bad follow-on block parks on that block (`blockFault`), where the statement
has its granule land. -/
theorem not_enginesProgress : ¬ Obligations.EnginesProgress := by
  unfold Obligations.EnginesProgress
  rintro ⟨-, lands, -⟩
  obtain ⟨t, run, -, ⟨p, op, one⟩, -⟩ := lands state 0 4 copy 0 0 1 state_op rfl rfl rfl rfl rfl rfl rfl rfl rfl (Nat.le_refl 1) (by decide) (by decide)
    (by decide) (by decide +kernel) (by decide +kernel) (by decide +kernel) (by decide +kernel) (by decide +kernel) (fun f => rfl)
  have zero := lands_nothing
  rw [run] at zero
  simp [op, one] at zero

end Refutation

end Sys2Proof.Machine
end

section
/-!
SUPPORT. O27: what a core fault leaves and how the policy core ends it, and what becomes of a parked operation (R350 to R353).
-/

namespace Sys2Proof.Machine

/-! ### The core after a fault, and its resume -/

theorem Core.faulted_ops (k : Core) (r : Record) : (k.faulted r).ops = k.ops := rfl
theorem Core.faulted_snap (k : Core) (r : Record) : (k.faulted r).snap = k.snap := rfl
theorem Core.faulted_popped (k : Core) (r : Record) : (k.faulted r).popped = [] := rfl

theorem core_takeCoreFault_same (s : State) (c : Nat) (f : CFault) :
    (takeCoreFault s c f).core c = (s.core c).faulted (coreRecord s c (s.core c) f (s.core c).arch.pc.toNat (s.core c).arch.count) :=
  core_takeFault_same ..

/-- A core that the policy core resumes after a fault. -/
def Core.resumed (k : Core) : Core := { (k.setSlot 0 none).epState 0 with run := .running }

theorem Core.slot_resumed (k : Core) : k.resumed.slot 0 = none := Core.slot_setSlot ..

theorem exec_coreFaultResume (s : State) (c : Nat) : exec (.coreFaultResume c) s = .next (if s.policyLoaded then resumeCore s c else s) := rfl

theorem resumeCore_resumes {s : State} {c : Nat} {r : Record} (slot : (s.core c).slot 0 = some r) (run : (s.core c).run = .faulted) (code : r.code ≠ 0x07) :
    resumeCore s c = s.setCore c (s.core c).resumed := by
  simp only [resumeCore, slot]
  rw [if_pos ⟨run, code⟩]
  rfl

theorem resumeCore_overflow {s : State} {c : Nat} {r : Record} (slot : (s.core c).slot 0 = some r) (code : r.code = 0x07) : resumeCore s c = s := by
  simp only [resumeCore, slot]
  rw [if_neg fun both => both.2 code]

/-! ### Parked operations -/

/-- The operation found in a slot is parked there. -/
theorem opInSlot_st {k : Core} {n : Nat} {o : Op} (h : opInSlot k n = some o) : o.st = .parked n := by
  simpa using List.find?_some h

theorem opInSlot_mem {k : Core} {n : Nat} {o : Op} (h : opInSlot k n = some o) : o ∈ k.ops := List.mem_of_find?_eq_some h

/-- Unless it is an `mcast`, a parked operation has one record. -/
theorem unpark_parked {k : Core} {n : Nat} {o : Op} (h : opInSlot k n = some o) (single : o.port ≠ 0x3A6) : unpark k o = k.setSlot n none := by
  simp only [unpark, opInSlot_st h]
  rw [if_neg single]

/-- The first operation of a number becomes the one set, where there is one of that number. -/
theorem Core.op?_setOp_self {k : Core} {o p : Op} (there : o ∈ k.ops) (same : p.id = o.id) : (k.setOp p).op? o.id = some p := by
  have found : ∀ l : List Op, o ∈ l → (l.map fun x => if x.id = p.id then p else x).find? (fun x => x.id == o.id) = some p := by
    intro l
    induction l with
    | nil => exact fun h => nomatch h
    | cons x l ih =>
      intro h
      by_cases hx : x.id = o.id
      · simp [hx, same]
      · have ne : ¬ x.id = p.id := by rwa [same]
        have tail : o ∈ l := (List.mem_cons.1 h).resolve_left fun e => hx (e ▸ rfl)
        simpa [ne, hx] using ih tail
  exact found k.ops there

theorem Core.op?_dropOp_self (k : Core) (id : Nat) : (k.dropOp id).op? id = none := by
  simp [Core.op?, Core.dropOp]

theorem exec_resume_parked {s : State} {c n : Nat} {o : Op} (h : opInSlot (s.core c) n = some o) (loaded : s.policyLoaded = true) (pos : n ≠ 0)
    (single : o.port ≠ 0x3A6) (joined : o.joined = false) :
    exec (.engineOpResume c n) s = .next (s.setCore c (((s.core c).setSlot n none).setOp { o with st := .running })) := by
  have open' : ¬(n = 0 ∨ s.policyLoaded = false) := by simp [pos, loaded]
  have body : execEngineOpResume c n s = .next (s.setCore c ((unpark (s.core c) o).setOp { o with st := if o.joined then .follow else .running })) := by
    rw [execEngineOpResume]
    simp only [if_neg open', h]
  have running : (if o.joined then OpState.follow else .running) = .running := by rw [joined]; rfl
  rw [unpark_parked h single, running] at body
  exact body

theorem exec_resume_unloaded (s : State) (c n : Nat) (unloaded : s.policyLoaded = false) : exec (.engineOpResume c n) s = .next s := by
  change execEngineOpResume c n s = _
  simp [execEngineOpResume, unloaded]

/-- The core whose parked operation is canceled; of a `klatch` the latch is lost (R280). -/
def Core.canceled (k : Core) (n : Nat) (o : Op) : Core :=
  if o.port = 0x384 then (k.setSlot n none).loseLatch (bits o.b 1 0) else k.setSlot n none

/-- The cancel touches the slot and the latch's folios, and nothing that an operation's completion reads. -/
theorem Core.canceled_fields (k : Core) (n : Nat) (o : Op) :
    (k.canceled n o).ep = (k.setSlot n none).ep ∧ (k.canceled n o).arch = k.arch ∧ (k.canceled n o).joins = k.joins ∧ (k.canceled n o).ceStat = k.ceStat := by
  rw [Core.canceled]
  split
  · exact ⟨rfl, rfl, rfl, rfl⟩
  · exact ⟨rfl, rfl, rfl, rfl⟩

theorem exec_cancel_parked {s : State} {c n : Nat} {o : Op} {r : Record} (h : opInSlot (s.core c) n = some o) (slot : (s.core c).slot n = some r) (pos : n ≠ 0)
    (single : o.port ≠ 0x3A6) (late : o.late = []) (taken : o.taken = []) (joined : o.joined = false) :
    exec (.engineOpCancel c n) s = .next (finishOp (s.setCore c ((s.core c).canceled n o)) c o (some (r.code, r.sub))) := by
  change execEngineOpCancel c n s = _
  simp only [execEngineOpCancel, if_neg pos, h, slot, unpark_parked h single, joined, late, taken]
  rfl

/-- A completed operation has left its queue and counted its join; with an error of the CE `ce.stat` shows it (R89, R312). -/
theorem core_finishOp (s : State) (c : Nat) (o : Op) (code sub : Nat) :
    let k := ((s.core c).dropOp o.id).countJoin o.j
    (finishOp s c o (some (code, sub))).core c =
      if isCeTrig o.port then { k with ceStat := ceStatError k.ceStat o.j (failMask c o.failed) code sub } else k :=
  State.core_modCore_same ..

/-- What the completion with an error leaves of the core. -/
theorem finishOp_leaves (s : State) (c : Nat) (o : Op) (code sub : Nat) :
    let k := s.core c
    let k' := (finishOp s c o (some (code, sub))).core c
    k'.ep = k.ep ∧ k'.op? o.id = none ∧ k'.join o.j = k.join o.j + 1 ∧ k'.arch = k.arch ∧
      (isCeTrig o.port = true → k'.ceStat = ceStatError k.ceStat o.j (failMask c o.failed) code sub) := by
  intro k k'
  have counted : ((k.dropOp o.id).countJoin o.j).join o.j = k.join o.j + 1 := Core.join_setJoin ..
  have gone : ((k.dropOp o.id).countJoin o.j).op? o.id = none := Core.op?_dropOp_self ..
  have eq : k' = _ := core_finishOp s c o code sub
  cases ce : isCeTrig o.port with
  | true =>
    simp only [ce, if_true] at eq
    rw [eq]
    exact ⟨rfl, gone, counted, rfl, fun _ => rfl⟩
  | false =>
    simp only [ce, Bool.false_eq_true, if_false] at eq
    rw [eq]
    exact ⟨rfl, gone, counted, rfl, fun h => nomatch h⟩

/-- What a core fault leaves. -/
theorem takeCoreFault_leaves (s : State) (c : Nat) (f : CFault) :
    let t := takeCoreFault s c f
    (t.core c).run = .faulted ∧ (t.core c).arch = (s.core c).snap ∧ (t.core c).snap = (s.core c).snap ∧ (t.core c).gate = [] ∧ (t.core c).popped = [] ∧
      (t.core c).fifo = (s.core c).popped ++ (s.core c).fifo ∧ (t.core c).joins = (s.core c).joins ∧ (t.core c).scratch = (s.core c).scratch ∧ (t.core c).ops = (s.core c).ops ∧
      (∃ r, (t.core c).slot 0 = some r ∧ r.code = f.code ∧ r.sub = f.sub ∧ r.addr = f.addr ∧ r.bundle = (s.core c).arch.pc.toNat ∧ r.count = (s.core c).arch.count ∧
        r.mark = (s.core c).snap.pc.toNat) ∧ SameMemory s t ∧ ∀ d, d ≠ c → t.core d = s.core d := by
  intro t
  have core : t.core c = _ := core_takeCoreFault_same s c f
  rw [core]
  exact ⟨rfl, rfl, rfl, rfl, rfl, rfl, rfl, rfl, rfl, ⟨_, Core.faulted_slot .., rfl, rfl, rfl, rfl, rfl, rfl⟩, sameMemory_takeCoreFault s c f,
    fun d other => core_takeFault_other s f _ _ other⟩

/-- What the resume after a core fault leaves. -/
theorem exec_coreFaultResume_leaves {s : State} {c : Nat} {r : Record} (slot : (s.core c).slot 0 = some r) (run : (s.core c).run = .faulted) (loaded : s.policyLoaded = true)
    (code : r.code ≠ 0x07) :
    ∃ t, exec (.coreFaultResume c) s = .next t ∧ (t.core c).run = .running ∧ (t.core c).slot 0 = none ∧ (t.core c).arch = (s.core c).arch ∧
      SameMemory s t ∧ ∀ d, d ≠ c → t.core d = s.core d := by
  have goes : exec (.coreFaultResume c) s = .next (s.setCore c (s.core c).resumed) := by
    rw [exec_coreFaultResume, if_pos loaded, resumeCore_resumes slot run code]
  refine ⟨_, goes, ?_⟩
  rw [State.core_setCore_same]
  exact ⟨rfl, Core.slot_resumed _, rfl, fun _ => rfl, fun d other => State.core_setCore_other _ _ other⟩

/-- What the resume of a parked operation leaves. -/
theorem exec_resume_leaves {s : State} {c n : Nat} {o : Op} (parked : opInSlot (s.core c) n = some o) (loaded : s.policyLoaded = true) (pos : n ≠ 0)
    (single : o.port ≠ 0x3A6) (joined : o.joined = false) :
    ∃ t, exec (.engineOpResume c n) s = .next t ∧ (t.core c).slot n = none ∧ (t.core c).op? o.id = some { o with st := .running } ∧ (t.core c).arch = (s.core c).arch ∧
      SameMemory s t := by
  refine ⟨_, exec_resume_parked parked loaded pos single joined, ?_⟩
  rw [State.core_setCore_same]
  exact ⟨Core.slot_setSlot .., Core.op?_setOp_self (k := (s.core c).setSlot n none) (opInSlot_mem parked) rfl, rfl, fun _ => rfl⟩

/-- What the cancel of a parked operation leaves. -/
theorem exec_cancel_leaves {s : State} {c n : Nat} {o : Op} {r : Record} (parked : opInSlot (s.core c) n = some o) (slot : (s.core c).slot n = some r) (pos : n ≠ 0)
    (single : o.port ≠ 0x3A6) (late : o.late = []) (taken : o.taken = []) (joined : o.joined = false) :
    ∃ t, exec (.engineOpCancel c n) s = .next t ∧ (t.core c).slot n = none ∧ (t.core c).op? o.id = none ∧ (t.core c).join o.j = (s.core c).join o.j + 1 ∧
      (isCeTrig o.port = true → (t.core c).ceStat = ceStatError (s.core c).ceStat o.j (failMask c o.failed) r.code r.sub) ∧ (t.core c).arch = (s.core c).arch ∧ SameMemory s t := by
  refine ⟨_, exec_cancel_parked parked slot pos single late taken joined, ?_⟩
  obtain ⟨ep, arch, joins, stat⟩ := (s.core c).canceled_fields n o
  obtain ⟨ep', gone, counted, arch', stat'⟩ := finishOp_leaves (s.setCore c ((s.core c).canceled n o)) c o r.code r.sub
  rw [State.core_setCore_same] at ep' counted arch' stat'
  refine ⟨?_, gone, ?_, fun ce => ?_, arch'.trans arch, fun _ => rfl⟩
  · rw [Core.slot, ep', ep]
    exact Core.slot_setSlot ..
  · rw [counted, Core.join, joins]
    rfl
  · rw [stat' ce, stat]

/-- Settles O27: the fault is `Core.faulted` with its record, the resume `Core.resumed`; a parked operation is set running, or its
record is freed and it completes with the record's error. -/
theorem parkedAndFaulted : Obligations.ParkedAndFaulted := by
  unfold Obligations.ParkedAndFaulted
  refine ⟨⟨takeCoreFault_leaves, fun s c r slot run => ⟨exec_coreFaultResume_leaves slot run, fun unloaded => ?unloaded, fun code => ?overflow⟩⟩,
    fun s c n o r parked _ single late taken joined pos slot => ⟨fun loaded => exec_resume_leaves parked loaded (Nat.ne_of_gt pos) single joined,
      exec_resume_unloaded s c n, exec_cancel_leaves parked slot (Nat.ne_of_gt pos) single late taken joined⟩⟩
  case unloaded => rw [exec_coreFaultResume, unloaded]; rfl
  case overflow => rw [exec_coreFaultResume, resumeCore_overflow slot code, ite_self]

end Sys2Proof.Machine
end

section
/-!
SUPPORT. O46: the end of a window of the energy budget, pacing, and the allowance (R344, R395).
-/

namespace Sys2Proof.Machine

/-! ### A map over every entry of a table -/

/-- What a table holds after a map of its entries that keeps the default. -/
theorem Tab.get_map {α : Type} (t : Tab α) (f : α → α) (d : α) (keeps : f d = d) (k : Nat) :
    ({ cells := t.cells.map fun x => (x.1, f x.2) } : Tab α).get d k = f (t.get d k) := by
  have cells : ∀ l : List (Nat × α), cellGet (l.map fun x => (x.1, f x.2)) d k = f (cellGet l d k) := by
    intro l
    induction l with
    | nil => exact keeps.symm
    | cons x l ih =>
      by_cases h : x.1 = k
      · simp [cellGet, h]
      · simpa [cellGet, h] using ih
  exact cells t.cells

/-! ### The window's end -/

/-- The debt that the runs of a window leave (R344). -/
def windowDebt (s : State) : Nat :=
  s.budget.debt + ((s.gaths.filter fun g => g.state == .running).map fun g => excessOf (s.fresh + g.id) g).foldl (· + ·) 0

/-- The budget as the window after it begins. -/
def nextWindow (s : State) : Budget :=
  { s.budget with
    allowance := s.budget.nextAllowance, left := s.budget.nextAllowance - windowDebt s, debt := windowDebt s - s.budget.nextAllowance,
    window := s.budget.window + 1, empty := true, pacing := false }

/-- No queue has used anything, and no core is paced. -/
theorem exec_energyWindowEnd (s : State) :
    ∃ t, exec .energyWindowEnd s = .next t ∧ t.budget = nextWindow s ∧ (∀ i, t.qcb i = { s.qcb i with used := 0 }) ∧
      (∀ c, t.core c = { s.core c with paced := false }) ∧ SameMemory s t :=
  ⟨_, rfl, rfl, Tab.get_map s.qcbs (fun q => { q with used := 0 }) .free rfl, Tab.get_map s.cores (fun k => { k with paced := false }) .idle rfl, fun _ => rfl⟩

/-- What is left and what is owed cannot both be positive. -/
theorem nextWindow_left_or_debt (s : State) : (nextWindow s).left + (nextWindow s).debt = max (nextWindow s).left (nextWindow s).debt := by
  change (s.budget.nextAllowance - windowDebt s) + (windowDebt s - s.budget.nextAllowance) = max (s.budget.nextAllowance - windowDebt s) (windowDebt s - s.budget.nextAllowance)
  omega

theorem nextWindow_left_le (s : State) : (nextWindow s).left ≤ s.budget.nextAllowance - s.budget.debt := by
  have owed : s.budget.debt ≤ windowDebt s := Nat.le_add_right ..
  exact Nat.sub_le_sub_left owed _

/-! ### Pacing -/

theorem exec_energyPacing (s : State) (on : Bool) :
    ∃ t, exec (.energyPacing on) s = .next t ∧ (∀ c, t.core c = { s.core c with paced := on && (s.core c).run == .running }) ∧ SameMemory s t :=
  ⟨_, rfl, Tab.get_map s.cores (fun k => { k with paced := on && k.run == .running }) .idle (by cases on <;> rfl), fun _ => rfl⟩

/-- A core that is paced freezes before it issues. -/
theorem exec_bundleIssue_paced {s : State} (may : mayIssue s.here = true) (paced : s.here.paced = true) :
    exec .bundleIssue s = .next (takeFreeze s s.cur .pacing 0 15) := by
  simp only [State.here] at may paced
  simp only [exec_bundleIssue, issue, may, paced, Bool.true_eq_false, if_false, if_true]

/-- Settles O46. -/
theorem energyBudget : Obligations.EnergyBudget := by
  unfold Obligations.EnergyBudget
  refine ⟨fun s => ?window, fun s on => ?pacing, fun _ _ => rfl⟩
  case window =>
    obtain ⟨t, run, budget, queues, cores, memory⟩ := exec_energyWindowEnd s
    refine ⟨t, run, ?_⟩
    rw [budget]
    exact ⟨rfl, rfl, nextWindow_left_or_debt s, nextWindow_left_le s, rfl, rfl, rfl, queues, cores, memory⟩
  case pacing =>
    obtain ⟨t, run, cores, memory⟩ := exec_energyPacing s on
    refine ⟨t, run, cores, fun paces c running stopping halt gated => ?_⟩
    have core : ({ t with cur := c } : State).here = { s.core c with paced := on && (s.core c).run == .running } := cores c
    have may : mayIssue ({ t with cur := c } : State).here = true := by rw [core]; simp [mayIssue, running, stopping, halt, gated]
    have paced : ({ t with cur := c } : State).here.paced = true := by rw [core]; simp [paces, running]
    refine ⟨_, exec_bundleIssue_paced may paced, ?_⟩
    have frozen : (takeFreeze { t with cur := c } c .pacing 0 15).core c = { t.core c with freeze := .pacing, waitAt := 15, waitVa := none } :=
      State.core_modCore_same ..
    change ((takeFreeze { t with cur := c } c .pacing 0 15).core c).freeze = _ ∧ _
    rw [frozen, cores c]
    exact ⟨rfl, rfl, memory⟩

end Sys2Proof.Machine
end

section
/-!
SUPPORT. O37: the completion of a phase, the watchdog and the debugger (R131, R236, R364).
-/

namespace Sys2Proof.Machine

/-! ### Phases -/

/-- A member whose phase bundle may issue. -/
def Core.metPhase (k : Core) : Core := { k with phaseDone := true, arrived := none }

theorem completePhase_cons (d : Nat) (l : List Nat) (s : State) : completePhase (d :: l) s = completePhase l (s.modCore d Core.metPhase) := rfl

theorem core_completePhase_other (l : List Nat) (s : State) {d : Nat} (h : d ∉ l) : (completePhase l s).core d = s.core d := by
  induction l generalizing s with
  | nil => rfl
  | cons e l ih =>
    obtain ⟨first, rest⟩ := not_or.1 (fun x => h (List.mem_cons.2 x))
    rw [completePhase_cons, ih _ rest, State.core_modCore_other _ _ first]

/-- A member that meets twice in the list is as after once. -/
theorem core_completePhase_mem (l : List Nat) (s : State) {d : Nat} (h : d ∈ l) : (completePhase l s).core d = (s.core d).metPhase := by
  induction l generalizing s with
  | nil => exact nomatch h
  | cons e l ih =>
    rw [completePhase_cons]
    by_cases later : d ∈ l
    · rw [ih _ later]
      by_cases same : d = e
      · rw [same, State.core_modCore_same]
        rfl
      · rw [State.core_modCore_other _ _ same]
    · obtain rfl : d = e := (List.mem_cons.1 h).resolve_right later
      rw [core_completePhase_other _ _ later, State.core_modCore_same]

/-- Only cores change. -/
theorem completePhase_eq (l : List Nat) (s : State) : ∃ cores, completePhase l s = { s with cores := cores } := by
  induction l generalizing s with
  | nil => exact ⟨s.cores, rfl⟩
  | cons e l ih =>
    obtain ⟨cores, eq⟩ := ih (s.modCore e Core.metPhase)
    exact ⟨cores, eq⟩

theorem sameModule_completePhase (l : List Nat) (s : State) : SameModule s (completePhase l s) := by
  obtain ⟨cores, eq⟩ := completePhase_eq l s
  rw [eq]
  rfl

theorem sameMemory_completePhase (l : List Nat) (s : State) : SameMemory s (completePhase l s) := by
  obtain ⟨cores, eq⟩ := completePhase_eq l s
  rw [eq]
  exact fun _ => rfl

theorem exec_phaseBarrierComplete_waits {s : State} {c scope : Nat} (arrived : (s.core c).arrived = some scope)
    (missing : ∃ d ∈ barrierMembers s c scope, (s.core d).arrived ≠ some scope) : exec (.phaseBarrierComplete c) s = .next s := by
  change execPhaseBarrierComplete c s = _
  have some' : ((barrierMembers s c scope).all fun d => (s.core d).arrived == some scope) = false := by simpa using missing
  simp [execPhaseBarrierComplete, arrived, some']

theorem exec_phaseBarrierComplete_meets {s : State} {c scope : Nat} (arrived : (s.core c).arrived = some scope) (local' : scope ≠ 4)
    (all : ∀ d ∈ barrierMembers s c scope, (s.core d).arrived = some scope) :
    exec (.phaseBarrierComplete c) s = .next (completePhase (barrierMembers s c scope) s) := by
  change execPhaseBarrierComplete c s = _
  have every : ((barrierMembers s c scope).all fun d => (s.core d).arrived == some scope) = true := by simpa using all
  simp [execPhaseBarrierComplete, arrived, every, local']

/-! ### The watchdog -/

theorem exec_watchdogExpiry_not {s : State} {c : Nat} (stands : (s.core c).debugHalt = true ∧ (s.core c).stepping = false ∨ (s.core c).stopping = true) :
    exec (.watchdogExpiry c) s = .next s := by
  change execWatchdogExpiry c s = _
  rw [execWatchdogExpiry, if_pos]
  rcases stands with ⟨halt, step⟩ | stopping
  · simp [halt, step]
  · simp [stopping]

theorem exec_watchdogExpiry_faults {s : State} {c : Nat} (armed : (s.core c).wdog.isSome = true) (run : (s.core c).run = .running)
    (stopping : (s.core c).stopping = false) (goes : (s.core c).debugHalt = false ∨ (s.core c).stepping = true) :
    exec (.watchdogExpiry c) s = .next ((takeCoreFault s c (CFault.mk' cWatchdog 1 15 0)).modCore c fun k => { k with wdog := none }) := by
  change execWatchdogExpiry c s = _
  have set : (s.core c).wdog ≠ none := Option.isSome_iff_ne_none.1 armed
  rw [execWatchdogExpiry, if_neg]
  rcases goes with halt | step
  · simp [set, run, stopping, halt]
  · simp [set, run, stopping, step]

/-! ### The debugger -/

theorem exec_debugHalt (s : State) (c : Nat) :
    exec (.debugHalt c) s = .next (s.modCore c fun k => if k.debugger then { k with debugHalt := true, stepping := false } else k) := rfl

theorem exec_singleStep (s : State) (c : Nat) : exec (.singleStep c) s = .next (s.modCore c fun k => if k.debugHalt then { k with stepping := true } else k) := rfl

/-- Two updates of a core that give the same core are the same. -/
theorem State.modCore_congr {s : State} {c : Nat} {f g : Core → Core} (h : f (s.core c) = g (s.core c)) : s.modCore c f = s.modCore c g := by
  simp only [State.modCore, h]

/-- Settles O37. -/
theorem barriersAndDebug : Obligations.BarriersAndDebug := by
  unfold Obligations.BarriersAndDebug
  refine ⟨⟨fun s c scope arrived local' => ⟨exec_phaseBarrierComplete_waits arrived, fun all => ?meets⟩, fun s c armed run =>
    ⟨exec_watchdogExpiry_not, exec_watchdogExpiry_faults armed run⟩⟩, fun s c => ⟨rfl, fun attached => ?halts, fun alone => ?stays, fun halted => ?steps, rfl,
    fun k run stopping gated => ⟨?held, ?may, fun a o => ⟨rfl, rfl⟩⟩⟩⟩
  case meets =>
    exact ⟨_, exec_phaseBarrierComplete_meets arrived local' all, sameModule_completePhase _ _, sameMemory_completePhase _ _,
      fun _ => core_completePhase_mem _ _, fun _ => core_completePhase_other _ _⟩
  case halts =>
    rw [exec_debugHalt]
    exact congrArg _ (State.modCore_congr (if_pos attached))
  case stays =>
    rw [exec_debugHalt]
    exact congrArg _ (State.modCore_congr (if_neg (by simp [alone])))
  case steps =>
    rw [exec_singleStep]
    exact congrArg _ (State.modCore_congr (if_pos halted))
  case held => simp [mayIssue]
  case may => simp [mayIssue, run, stopping, gated]

end Sys2Proof.Machine
end

section
/-!
SUPPORT. Contents of folios: what a table reads with a range replaced, and the table that bytes stand for (log entry 6).
-/

namespace Sys2Proof.Machine

/-! ### A range of a table replaced -/

section Tables

variable {α : Type}

/-- The entries whose keys pass a test. -/
theorem cellGet_filter (l : List (Nat × α)) (p : Nat → Bool) (d : α) (k : Nat) : cellGet (l.filter fun c => p c.1) d k = if p k then cellGet l d k else d := by
  induction l with
  | nil => simp [cellGet]
  | cons c l ih =>
    by_cases keep : p c.1
    · by_cases same : c.1 = k
      · simp [cellGet, ← same, keep]
      · simp [cellGet, keep, same, ih]
    · have ne : p k → ¬ c.1 = k := fun hk e => keep (e ▸ hk)
      by_cases hk : p k
      · simp [cellGet, keep, hk, ne hk, ih]
      · simp [keep, hk, ih]

/-- Of rising keys, those below the first have no entry. -/
theorem cellGet_below {l : List (Nat × α)} {lo k : Nat} (rising : cellRising l lo = true) (d : α) (h : k < lo) : cellGet l d k = d := by
  induction l generalizing lo with
  | nil => rfl
  | cons c l ih =>
    simp only [cellRising, Bool.and_eq_true, decide_eq_true_eq] at rising
    obtain ⟨first, rest⟩ := rising
    have ne : ¬ c.1 = k := by omega
    simpa [cellGet, ne] using ih rest (by omega)

/-- Rising entries written one after another over a table. -/
theorem Tab.get_foldl_set {l : List (Nat × α)} {lo : Nat} (rising : cellRising l lo = true) (t : Tab α) (d : α) (k : Nat) :
    (l.foldl (fun (t : Tab α) c => t.set c.1 c.2) t).get d k = cellGet l (t.get d k) k := by
  induction l generalizing t lo with
  | nil => rfl
  | cons c l ih =>
    simp only [cellRising, Bool.and_eq_true, decide_eq_true_eq] at rising
    obtain ⟨-, rest⟩ := rising
    rw [List.foldl_cons, ih rest]
    by_cases same : c.1 = k
    · subst same
      rw [Tab.get_set_same, cellGet_below rest _ (Nat.lt_succ_self _)]
      simp [cellGet]
    · rw [Tab.get_set_other _ _ _ (Ne.symm same)]
      simp [cellGet, same]

/-- Inside the range the new table is read. -/
theorem get_tabReplace_inside (t : Tab α) {u : Tab α} (rising : u.rising = true) (d : α) {lo hi k : Nat} (inside : lo ≤ k ∧ k < hi) :
    (tabReplace t lo hi u).get d k = u.get d k := by
  have out : (decide (k < lo) || decide (hi ≤ k)) = false := by simp; omega
  rw [tabReplace, Tab.get_foldl_set rising]
  have base : ({ cells := t.cells.filter fun c => decide (c.1 < lo) || decide (hi ≤ c.1) } : Tab α).get d k = d := by
    rw [Tab.get, cellGet_filter t.cells (fun k => decide (k < lo) || decide (hi ≤ k)), out]
    rfl
  rw [base]
  rfl

/-- Outside the range the table is as it was, where the new one has nothing there. -/
theorem get_tabReplace_outside (t : Tab α) {u : Tab α} (rising : u.rising = true) (d : α) {lo hi k : Nat} (outside : k < lo ∨ hi ≤ k)
    (nothing : ∀ e, u.get e k = e) : (tabReplace t lo hi u).get d k = t.get d k := by
  have out : (decide (k < lo) || decide (hi ≤ k)) = true := by simpa using outside
  rw [tabReplace, Tab.get_foldl_set rising]
  have base : ({ cells := t.cells.filter fun c => decide (c.1 < lo) || decide (hi ≤ c.1) } : Tab α).get d k = t.get d k := by
    rw [Tab.get, cellGet_filter t.cells (fun k => decide (k < lo) || decide (hi ≤ k)), out]
    rfl
  rw [base]
  exact nothing _

/-! ### Tables of bytes -/

theorem Tab.rising_put [DecidableEq α] {t : Tab α} (rising : t.rising = true) (d : α) (k : Nat) (v : α) : (t.put d k v).rising = true := by
  unfold Tab.put
  split
  · exact cellRising_filter _ rising
  · exact cellRising_put _ rising (Nat.zero_le k)

/-- Words written at rising places from `lo` on. -/
theorem foldl_put_range [DecidableEq α] (d : α) (lo : Nat) (f : Nat → α) (n : Nat) :
    let t := (List.range n).foldl (fun (t : Tab α) i => t.put d (lo + i) (f i)) .empty
    t.rising = true ∧ ∀ i, i < n → t.get d (lo + i) = f i := by
  induction n with
  | zero => exact ⟨rfl, fun i h => nomatch h⟩
  | succ n ih =>
    obtain ⟨rising, reads⟩ := ih
    simp only [List.range_succ, List.foldl_append, List.foldl_cons, List.foldl_nil]
    refine ⟨Tab.rising_put rising d _ _, fun i hi => ?_⟩
    by_cases last : i = n
    · rw [last, Tab.get_put_same]
    · rw [Tab.get_put_other _ _ _ _ (by omega)]
      exact reads i (by omega)

end Tables

theorem rising_tabOfBytes {w : Nat} (d : BitVec w) (lo count n : Nat) (b : List Byte) : (tabOfBytes (fun _ => d) lo count n b).rising = true :=
  (foldl_put_range d lo _ count).1

theorem get_tabOfBytes {w : Nat} (d : BitVec w) (lo : Nat) {count i : Nat} (n : Nat) (b : List Byte) (hi : i < count) :
    (tabOfBytes (fun _ => d) lo count n b).get d (lo + i) = BitVec.ofNat w (leField b (n * i) n) :=
  (foldl_put_range d lo _ count).2 i hi

/-- A field of one byte. -/
theorem leField_one {b : List Byte} {i : Nat} (hi : i < b.length) : BitVec.ofNat 8 (leField b (1 * i) 1) = b[i] := by
  rw [leField, Nat.one_mul, List.drop_eq_getElem_cons hi, List.take_succ_cons, List.take_zero]
  simp [ofLeBytes]

/-! ### Scratchpad folios -/

/-- A scratchpad folio of bytes holds them. -/
theorem folioOfBytes_scratch {f : Nat} (h : 62 ≤ f) (shape : Nat) (fill : BitVec 512) (kept : Option Folio) (b : List Byte) :
    folioOfBytes f shape fill kept b = .scratch (tabOfBytes (fun _ => 0) (4096 * (f - 61)) 4096 1 b) := by
  have code : ¬ f < 32 := by omega
  have vec : ¬(f = 34 ∨ f = 35) := by omega
  have tags : ¬(f = 60 ∨ f = 61) := by omega
  rw [folioOfBytes, if_neg code, if_neg vec, if_neg tags, if_pos h]

theorem scratch_install_scratch (k : Core) (f : Nat) (t : Tab Byte) :
    (k.install f (.scratch t)).scratch = tabReplace k.scratch (4096 * (f - 61)) (4096 * (f - 61) + 4096) t := rfl

/-- The scratchpad of a core in which a scratchpad folio of bytes is installed. -/
theorem spad_install_scratch (k : Core) {f i : Nat} {b : List Byte} (len : b.length = 4096) (hi : i < 4096) :
    (k.install f (.scratch (tabOfBytes (fun _ => 0) (4096 * (f - 61)) 4096 1 b))).spad (4096 * (f - 61) + i) = b.getD i 0 := by
  have less : i < b.length := by omega
  rw [Core.spad, scratch_install_scratch, get_tabReplace_inside _ (rising_tabOfBytes ..) _ (by omega), get_tabOfBytes _ _ _ _ hi, leField_one less, getD_of_lt _ _ less]

theorem arch_install_scratch (k : Core) (f : Nat) (t : Tab Byte) : (k.install f (.scratch t)).arch = k.arch := rfl

theorem v_install_vec (k : Core) (f : Nat) (t : Tab Vec) :
    (k.install f (.vec t)).arch.v = tabReplace k.arch.v (32 * (f - 34)) (32 * (f - 34) + 32) t := rfl

/-- Only a tag folio has operations that wait for it. -/
theorem owesTags_of_not_tags (k : Core) {f : Nat} (h : f ≠ 60 ∧ f ≠ 61) : k.owesTags f = false := by
  have other : ∀ o : TagOp, ¬ o.folio = f := by
    have slot : ∀ n, tagFolio n ≠ f := fun n => by
      unfold tagFolio
      split
      · exact Ne.symm h.1
      · exact Ne.symm h.2
    intro o
    cases o <;> exact slot _
  simp [Core.owesTags, other]

theorem getD_readAt (s : State) (p : Place) {n i : Nat} (hi : i < n) : (s.readAt p n).getD i 0 = s.byteAt (p.add i) := by
  simp [State.readAt, hi]

end Sys2Proof.Machine
end

section
/-!
SUPPORT. O38: pulls, their failures, and pushes (R355 to R360).
-/

namespace Sys2Proof.Machine

/-! ### What a pull brings -/

theorem length_readAt (s : State) (p : Place) (n : Nat) : (s.readAt p n).length = n := by rw [State.readAt, List.length_map, List.length_range]

theorem arch_setFolio (k : Core) (f : Nat) (x : FolioState) : (k.setFolio f x).arch = k.arch := rfl

theorem spad_setFolio (k : Core) (f : Nat) (x : FolioState) (a : Nat) : (k.setFolio f x).spad a = k.spad a := rfl

section Pull

variable {s : State} {c : Nat} {m : Member} {ep : Endpaper} {f : Nat} (shape : Nat) (fill : BitVec 512)

theorem pullFolio_zeros (kind : (ep.entry f).kind = 5) (vec : f = 34) : pullFolio s c m ep shape fill f = .ok s (.vec .empty) := by
  subst vec
  simp [pullFolio, kind]

theorem pullFolio_reserved (kind : 6 < (ep.entry f).kind) : pullFolio s c m ep shape fill f = .fail s 2 := by
  have four : (ep.entry f).kind ≠ 4 := by omega
  have five : (ep.entry f).kind ≠ 5 := by omega
  have six : (ep.entry f).kind ≠ 6 := by omega
  simp [pullFolio, four, five, six, kind]

/-- A device location is read as its bytes stand. -/
theorem readLoc_device {l : Loc} (kind : l.kind = 1) (mapped : locMapped 1 l.addr 4096 = true) (pasid : Nat) :
    readLoc s pasid l = .ok (s, s.readAt { host := false, addr := l.addr } 4096) := by
  have zero : l.kind ≠ 0 := by omega
  have two : l.kind ≠ 2 := by omega
  have read : l.kind ≤ 3 ∧ locMapped l.kind l.addr 4096 = true := by rw [kind]; exact ⟨by omega, mapped⟩
  rw [readLoc, if_neg zero, if_neg two, if_pos read]

theorem pullFolio_device (kind : (ep.entry f).kind = 1) (mapped : locMapped 1 (ep.entry f).addr 4096 = true) (spad : 62 ≤ f) :
    pullFolio s c m ep shape fill f =
      if digest32 (s.readAt { host := false, addr := (ep.entry f).addr } 4096) ≠ (ep.entry f).digest then .fail s 2
      else .ok s (.scratch (tabOfBytes (fun _ => 0) (4096 * (f - 61)) 4096 1 (s.readAt { host := false, addr := (ep.entry f).addr } 4096))) := by
  have code : ¬ f < 32 := by omega
  have read : readLoc s s.savePasid (ep.entry f).loc = .ok (s, s.readAt { host := false, addr := (ep.entry f).addr } 4096) :=
    readLoc_device (l := (ep.entry f).loc) kind mapped _
  simp only [pullFolio, kind, code, read, folioOfBytes_scratch spad, if_false, Nat.reduceEqDiff, Nat.reduceLT]
  rfl

end Pull

section Complete

variable {s : State} {c f : Nat} (on : (s.core c).run ≠ .off) (flight : ((s.core c).folio f).pres = .inFlight) (free : heldFolio (s.core c) f = none)
  (left : leftPull s c f = none)
include on flight free left

theorem exec_pull_fails {t : State} {sub : Nat} (h : pullFolio s c (s.core c).member (s.core c).ep (s.core c).shape (s.core c).fill f = .fail t sub) :
    exec (.folioPullComplete c f) s = .next (pullFail t c f sub) := by
  change execFolioPullComplete c f s = _
  simp [execFolioPullComplete, free, left, on, flight, h]

theorem exec_pull_arrives {t : State} {d : Folio} (h : pullFolio s c (s.core c).member (s.core c).ep (s.core c).shape (s.core c).fill f = .ok t d) :
    exec (.folioPullComplete c f) s = .next (t.modCore c fun k => (k.install f d).setFolio f { pres := .present, dirty := k.owesTags f }) := by
  change execFolioPullComplete c f s = _
  simp [execFolioPullComplete, free, left, on, flight, h]

end Complete

/-- The pull of a member that has left the core ends. -/
theorem exec_pull_left {s t : State} {c f : Nat} {v : Saved} {d : Folio} (free : heldFolio (s.core c) f = none) (left : leftPull s c f = some v)
    (h : pullFolio s c v.member v.ep v.shape (s.core c).fill f = .ok t d) : exec (.folioPullComplete c f) s = .next (holdLeft t c f v d) := by
  change execFolioPullComplete c f s = _
  simp [execFolioPullComplete, free, left, h]

/-- On a core that runs nothing the copy is held for its owner. -/
theorem core_holdLeft_off {s : State} {c f : Nat} {v : Saved} {d : Folio} (off : (s.core c).run = .off) :
    (holdLeft s c f v d).core c =
      { s.core c with held := { gath := v.gath, rank := v.rank, folio := f, data := d, dirty := false, stamp := s.fresh, pushing := false } :: (s.core c).held } := by
  have core : (holdLeft s c f v d).core c = _ := State.core_modCore_same ..
  have same : (endLeftPull { s with fresh := s.fresh + 1 } v f).core c = s.core c := rfl
  rw [core, same]
  simp [off]

theorem heldFolio_holdLeft_off {s : State} {c f : Nat} {v : Saved} {d : Folio} (off : (s.core c).run = .off) :
    heldFolio ((holdLeft s c f v d).core c) f = some { gath := v.gath, rank := v.rank, folio := f, data := d, dirty := false, stamp := s.fresh, pushing := false } := by
  rw [core_holdLeft_off off]
  simp [heldFolio]

/-- The member's pull of that folio is over. -/
theorem pulls_holdLeft (s : State) (c f : Nat) (v : Saved) (d : Folio) :
    ∀ w ∈ (holdLeft s c f v d).saved, w.gath = v.gath → w.rank = v.rank → f ∉ w.pulls := by
  intro w hw gath rank
  obtain ⟨x, -, rfl⟩ := List.mem_map.1 (show w ∈ (endLeftPull { s with fresh := s.fresh + 1 } v f).saved from hw)
  by_cases same : x.gath = v.gath ∧ x.rank = v.rank
  · rw [if_pos same]
    simp
  · rw [if_neg same] at gath rank
    exact absurd ⟨gath, rank⟩ same

/-! ### A failed pull -/

/-- A core that runs as before, with the same record in slot 0. -/
def Core.SameTop (k k' : Core) : Prop := k'.run = k.run ∧ k'.slot 0 = k.slot 0

theorem Core.SameTop.refl (k : Core) : k.SameTop k := ⟨rfl, rfl⟩

theorem Core.SameTop.trans {a b c : Core} (h : a.SameTop b) (g : b.SameTop c) : a.SameTop c := ⟨g.1.trans h.1, g.2.trans h.2⟩

theorem Core.sameTop_of_eq {k k' : Core} (run : k'.run = k.run) (ep : k'.ep = k.ep) : k.SameTop k' := ⟨run, by rw [Core.slot, ep]; rfl⟩

theorem Core.sameTop_setSlot (k : Core) {n : Nat} (r : Option Record) (h : n ≠ 0) : k.SameTop (k.setSlot n r) :=
  ⟨rfl, Core.slot_setSlot_other k r (Ne.symm h)⟩

theorem Core.sameTop_touchAll (k : Core) (l : List Nat) : k.SameTop (k.touchAll l) := by
  induction l generalizing k with
  | nil => exact .refl k
  | cons f l ih =>
    have first : k.SameTop (k.touch f) := by
      unfold Core.touch
      split
      · exact sameTop_of_eq rfl rfl
      · exact sameTop_of_eq rfl rfl
      · exact .refl k
    exact first.trans (ih _)

theorem Core.sameTop_setSyncWord (k : Core) (off : Nat) (w : SyncWord) : k.SameTop (k.setSyncWord off w) := by
  rw [Core.setSyncWord, Core.spadWrite_eq]
  exact sameTop_of_eq rfl rfl

/-- Every core runs as before, with the same record in slot 0. -/
structure SameTops (s t : State) : Prop where
  core : ∀ c, (s.core c).SameTop (t.core c)

theorem SameTops.refl (s : State) : SameTops s s := ⟨fun _ => .refl _⟩

theorem SameTops.trans {s t u : State} (h : SameTops s t) (g : SameTops t u) : SameTops s u := ⟨fun c => (h.core c).trans (g.core c)⟩

theorem sameTops_setCore {s : State} {d : Nat} {k : Core} (h : (s.core d).SameTop k) : SameTops s (s.setCore d k) where
  core c := by
    by_cases same : c = d
    · subst same
      rwa [State.core_setCore_same]
    · rw [State.core_setCore_other _ _ same]
      exact .refl _

theorem sameTops_modCore (s : State) (d : Nat) {f : Core → Core} (h : ∀ k : Core, k.SameTop (f k)) : SameTops s (s.modCore d f) := sameTops_setCore (h _)

theorem sameTops_modOp (s : State) (d id : Nat) (f : Op → Op) : SameTops s (s.modOp d id f) := sameTops_modCore s d fun k => by
  split
  · exact Core.sameTop_of_eq rfl rfl
  · exact .refl k

theorem sameTops_foldl {α : Type} {f : State → α → State} (h : ∀ s a, SameTops s (f s a)) (l : List α) (s : State) : SameTops s (l.foldl f s) := by
  induction l generalizing s with
  | nil => exact .refl s
  | cons a l ih => exact (h s a).trans (ih _)

theorem sameTops_failMember (c id n code sub : Nat) (s : State) : SameTops s (failMember c id n code sub s) := sameTops_modOp ..

theorem sameTops_arrive (s : State) (c off n : Nat) : SameTops s (arrive s c off n) := sameTops_modCore s c fun k => k.sameTop_setSyncWord off _

theorem sameTops_mcastCount (c id : Nat) (all : Bool) (s : State) : SameTops s (mcastCount c id all s) := by
  unfold mcastCount
  split
  · exact .refl s
  · split
    · refine .trans (sameTops_foldl (fun t x => ?_) _ s) (sameTops_modOp ..)
      split
      · exact sameTops_arrive ..
      · exact sameTops_modCore t _ fun k => k.sameTop_touchAll _
    · exact .refl s

/-- Slot 0 is not among those that `find?` and its default choose. -/
theorem find_upto_pos {n d : Nat} (p : Nat → Bool) (hd : d ≠ 0) : ((upto 1 n).find? p).getD d ≠ 0 := by
  cases h : (upto 1 n).find? p with
  | none => exact hd
  | some m =>
    obtain ⟨i, -, rfl⟩ := List.mem_map.1 (List.mem_of_find?_eq_some h)
    exact Nat.ne_of_gt (Nat.lt_of_lt_of_le Nat.one_pos (Nat.le_add_right 1 i))

theorem find_upto_ne {n m : Nat} {p : Nat → Bool} (h : (upto 1 n).find? p = some m) : m ≠ 0 := by
  have := find_upto_pos (n := n) (d := 1) p Nat.one_ne_zero
  rwa [h] at this

theorem Core.freeSlot_ne (k : Core) : k.freeSlot ≠ 0 := by
  unfold Core.freeSlot
  split
  · next h => exact find_upto_ne h
  · exact find_upto_pos _ (by decide)

theorem Core.freePair_ne (k : Core) : k.freePair ≠ 0 := by
  unfold Core.freePair
  split
  · next h => exact find_upto_ne h
  · exact find_upto_pos _ (by decide)

theorem sameTops_recordOp (s : State) (c : Nat) (o : Op) (f : CFault) : SameTops s (recordOp s c o f).1 := by
  unfold recordOp
  split
  · exact sameTops_setCore (((s.core c).sameTop_setSlot _ (Core.freePair_ne _)).trans (Core.sameTop_setSlot _ _ (Nat.succ_ne_zero _)))
  · exact sameTops_setCore ((s.core c).sameTop_setSlot _ (Core.freeSlot_ne _))

theorem sameTops_parkOp (s : State) (c : Nat) (o : Op) (f : CFault) : SameTops s (parkOp s c o f) := by
  refine (sameTops_recordOp s c o f).trans ?_
  unfold parkOp
  simp only []
  apply sameTops_modCore
  intro k
  split
  · exact Core.sameTop_of_eq rfl rfl
  · exact Core.sameTop_of_eq rfl rfl

theorem sameTops_unitFault (s : State) (c : Nat) (o : Op) (e : EStop) : SameTops s (unitFault s c o e) := by
  unfold unitFault
  split
  · split
    · exact sameTops_modCore s c fun k => Core.sameTop_of_eq rfl rfl
    · split
      · exact sameTops_mcastCount ..
      · exact .refl s
  · exact .refl s

theorem sameTops_failMembers (c f : Nat) (bad : CFault) (d : Nat) (s : State) (o : Op) : SameTops s (failMembers c f bad d s o) :=
  sameTops_foldl (fun t n => sameTops_failMember d o.id n _ _ t) _ s

theorem sameTops_failOp (c f : Nat) (bad : CFault) (d : Nat) (s : State) (o : Op) : SameTops s (failOp c f bad d s o) := by
  refine (sameTops_failMembers c f bad d s o).trans ?_
  unfold failOp
  simp only []
  split
  · exact .refl _
  · split
    · exact (sameTops_parkOp ..).trans (sameTops_unitFault ..)
    · exact .refl _

/-- A core stopped on a fault, with its record in slot 0. -/
def Core.Failed (k : Core) (code sub : Nat) : Prop := k.run = .faulted ∧ ∃ r, k.slot 0 = some r ∧ r.code = code ∧ r.sub = sub

theorem Core.SameTop.failed {k k' : Core} (h : k.SameTop k') {code sub : Nat} (failed : k.Failed code sub) : k'.Failed code sub := by
  obtain ⟨run, r, slot, record⟩ := failed
  exact ⟨h.1.trans run, r, h.2.trans slot, record⟩

theorem Endpaper.freeSlot_ne (p : Endpaper) : p.freeSlot ≠ 0 := find_upto_pos _ (by decide)

/-- A record written over that of the fault keeps its cause, one written elsewhere leaves it. -/
theorem Core.Failed.setSlot {k k' : Core} {code sub n : Nat} {r : Record} (h : k.Failed code sub) (run : k'.run = k.run)
    (slots : k'.ep.slots = k.ep.slots.set n (some r)) (cause : n = 0 → ∀ old, k.slot 0 = some old → r.code = old.code ∧ r.sub = old.sub) : k'.Failed code sub := by
  obtain ⟨faulted, old, slot, record⟩ := h
  refine ⟨run.trans faulted, ?_⟩
  simp only [Core.slot, slots]
  by_cases zero : n = 0
  · obtain ⟨hc, hs⟩ := cause zero old slot
    rw [zero]
    exact ⟨r, Tab.get_set_same .., hc.trans record.1, hs.trans record.2⟩
  · exact ⟨old, (Tab.get_set_other _ _ _ (Ne.symm zero)).trans slot, record⟩

/-- The record that a bank list leaves where a fault's record stood keeps its cause. -/
theorem failed_parkBank {s : State} {c : Nat} {code sub : Nat} (h : (s.core c).Failed code sub) (e code' sub' : Nat) :
    ((parkBank s e code' sub').core c).Failed code sub := by
  unfold parkBank
  split
  case h_1 => exact h
  case h_2 =>
    simp only []
    split
    case h_1 => exact h
    case h_2 l _ =>
      simp only [modDesk]
      split
      case h_1 d _ =>
        by_cases same : c = d
        · subst same
          rw [State.core_modCore_same]
          refine h.setSlot rfl rfl fun zero old slot => ?_
          have slot' : l.slot = some 0 := by
            cases hs : l.slot with
            | none => exact absurd (by simpa [hs] using zero) (Endpaper.freeSlot_ne _)
            | some n => simpa [hs] using zero
          simp only [slot', Option.bind_some]
          split
          · next old' there =>
            obtain rfl : old = old' := Option.some.inj (slot.symm.trans there)
            exact ⟨rfl, rfl⟩
          · next gone => exact nomatch slot.symm.trans gone
        · rw [State.core_modCore_other _ _ same]
          exact h
      case h_2 => exact h

/-! ### The bundle that waits for the folio faults -/

/-- The core's bundle waits for its own folio. -/
def Core.AwaitsOwn (k : Core) (f : Nat) : Prop := k.run = .running ∧ k.freeze = .folio ∧ k.waitVa = some f

theorem Core.AwaitsOwn.awaits {k : Core} {f : Nat} (h : k.AwaitsOwn f) (c : Nat) : k.awaits c = some (141 * c + f) := by
  obtain ⟨run, freeze, wait⟩ := h
  simp [Core.awaits, run, freeze, wait]

theorem core_failCore_other {c f d e : Nat} (bad : CFault) (s : State) (h : e ≠ d) : (failCore c f bad s d).core e = s.core e := by
  unfold failCore
  simp only []
  split
  · exact core_takeFault_other _ _ _ _ h
  · split
    · rfl
    · split
      · split
        · exact core_takeFault_other _ _ _ _ h
        · rfl
      · rfl

theorem failCore_awaiting {c f : Nat} (bad : CFault) {s : State} (h : (s.core c).AwaitsOwn f) : ((failCore c f bad s c).core c).Failed bad.code bad.sub := by
  simp only [failCore, h.awaits, if_true]
  rw [core_takeCoreFault_same]
  exact ⟨rfl, _, Core.faulted_slot .., rfl, rfl⟩

/-- A core that has faulted does not fault again. -/
theorem failCore_failed {c f d : Nat} (bad : CFault) {s : State} {code sub : Nat} (h : (s.core c).Failed code sub) :
    ((failCore c f bad s d).core c).Failed code sub := by
  by_cases same : c = d
  · subst same
    have stays : failCore c f bad s c = s := by simp [failCore, Core.awaits, h.1]
    rwa [stays]
  · rwa [core_failCore_other bad s same]

theorem foldl_failCore_failed {c f : Nat} (bad : CFault) {code sub : Nat} (l : List Nat) {s : State} (h : (s.core c).Failed code sub) :
    ((l.foldl (failCore c f bad) s).core c).Failed code sub := by
  induction l generalizing s with
  | nil => exact h
  | cons d l ih => exact ih (failCore_failed bad h)

theorem foldl_failCore_awaiting {c f : Nat} (bad : CFault) {l : List Nat} {s : State} (mem : c ∈ l) (h : (s.core c).AwaitsOwn f) :
    ((l.foldl (failCore c f bad) s).core c).Failed bad.code bad.sub := by
  induction l generalizing s with
  | nil => exact nomatch mem
  | cons d l ih =>
    by_cases same : c = d
    · subst same
      exact foldl_failCore_failed bad l (failCore_awaiting bad h)
    · refine ih ((List.mem_cons.1 mem).resolve_left same) ?_
      rwa [core_failCore_other bad s same]

/-- A core that is not idle is among the cores. -/
theorem mem_allCores {s : State} {c : Nat} (h : s.core c ≠ .idle) : c ∈ allCores s := by
  have listed : ∀ l : List (Nat × Core), cellGet l .idle c ≠ .idle → c ∈ l.map (·.1) := by
    intro l
    induction l with
    | nil => exact fun h => absurd rfl h
    | cons x l ih =>
      intro h
      by_cases same : x.1 = c
      · exact List.mem_cons.2 (.inl same.symm)
      · exact List.mem_cons.2 (.inr (ih (by simpa [cellGet, same] using h)))
  exact listed s.cores.cells h

theorem mem_allCores_of_running {s : State} {c : Nat} (h : (s.core c).run = .running) : c ∈ allCores s := by
  refine mem_allCores fun idle => ?_
  rw [idle] at h
  exact nomatch h

/-- The bundle that waits for the folio of a failed pull faults PULL_FAIL. -/
theorem pullFail_fails {s : State} {c f : Nat} (sub : Nat) (h : (s.core c).AwaitsOwn f) : ((pullFail s c f sub).core c).Failed cPullFail sub := by
  unfold pullFail
  simp only []
  generalize hs : (s.modCore c fun k => k.setFolio f { pres := .absent, dirty := false }) = t
  have core : t.core c = (s.core c).setFolio f { pres := .absent, dirty := false } := by rw [← hs, State.core_modCore_same]
  have awaits : (t.core c).AwaitsOwn f := by rw [core]; exact h
  have failed := foldl_failCore_awaiting (pullFault f ((s.core c).ep.entry f) sub 15) (mem_allCores_of_running awaits.1) awaits
  have ops := (sameTops_foldl (fun u d => sameTops_foldl (sameTops_failOp c f (pullFault f ((s.core c).ep.entry f) sub 15) d) (u.core d).ops u)
    (allCores ((allCores t).foldl (failCore c f (pullFault f ((s.core c).ep.entry f) sub 15)) t)) _).core c |>.failed failed
  generalize List.foldl _ _ _ = u at ops ⊢
  generalize u.banks.cells.map _ = banks
  induction banks generalizing u with
  | nil => exact ops
  | cons e l ih =>
    refine ih _ ?_
    unfold failBank
    split
    · exact failed_parkBank ops ..
    · exact ops

theorem exec_pullTimeout {s : State} {c f : Nat} (on : (s.core c).run ≠ .off) (flight : ((s.core c).folio f).pres = .inFlight)
    (free : heldFolio (s.core c) f = none) :
    exec (.pullTimeout c f) s = .next (if ((s.core c).ep.entry f).kind = 2 then pullFail s c f 1 else s) := by
  change execPullTimeout c f s = _
  by_cases remote : ((s.core c).ep.entry f).kind = 2 <;> simp [execPullTimeout, on, flight, free, remote]

/-! ### Pushes -/

section Push

variable {s : State} {c f : Nat} {x : Held} (held : heldFolio (s.core c) f = some x)

theorem heldFolio_folio {k : Core} {f : Nat} {x : Held} (h : heldFolio k f = some x) : x.folio = f := by simpa using List.find?_some h

/-- A push that is asked for marks every dirty copy of the folio, and moves none. -/
theorem heldFolio_background {k : Core} {f : Nat} {x : Held} (h : heldFolio k f = some x) :
    heldFolio { k with held := k.held.map fun y => if y.folio = f ∧ y.dirty = true then { y with pushing := true } else y } f =
      some (if x.dirty = true then { x with pushing := true } else x) := by
  have folio := heldFolio_folio h
  simp only [heldFolio] at h ⊢
  rw [List.find?_map]
  have test : ((fun y : Held => y.folio == f) ∘ fun y => if y.folio = f ∧ y.dirty = true then { y with pushing := true } else y) = fun y => y.folio == f := by
    funext y
    simp only [Function.comp]
    split <;> rfl
  rw [test, h]
  simp [folio]

theorem exec_backgroundPush (s : State) (c f : Nat) :
    exec (.backgroundPush c f) s =
      .next (s.modCore c fun k => { k with held := k.held.map fun y => if y.folio = f ∧ y.dirty = true then { y with pushing := true } else y }) := rfl

/-- Without a push under way nothing completes. -/
theorem exec_folioPushComplete_none {err : Nat} (idle : ∀ y ∈ (s.core c).held, y.folio = f → y.pushing = false) : exec (.folioPushComplete c f err) s = .next s := by
  change execFolioPushComplete c f err s = _
  have nothing : ((s.core c).held.find? fun x => x.folio == f && x.pushing) = none := by
    simp only [List.find?_eq_none, Bool.and_eq_true, beq_iff_eq, not_and, Bool.not_eq_true]
    exact idle
  simp [execFolioPushComplete, nothing]

include held in
theorem exec_folioPushComplete_first (pushing : x.pushing = true) : exec (.folioPushComplete c f 0) s = .next (settleWork s (pushOut s c x)) := by
  change execFolioPushComplete c f 0 s = _
  have found : ((s.core c).held.find? fun x => x.folio == f && x.pushing) = some x := by
    have general : ∀ l : List Held, (l.find? fun x => x.folio == f) = some x → (l.find? fun x => x.folio == f && x.pushing) = some x := by
      intro l
      induction l with
      | nil => exact fun h => nomatch h
      | cons y l ih =>
        intro h
        by_cases same : y.folio = f
        · obtain rfl : y = x := by simpa [same] using h
          simp [same, pushing]
        · simp only [List.find?_cons] at h ⊢
          simp only [beq_eq_false_iff_ne.2 same, Bool.false_and] at h ⊢
          exact ih h
    exact general _ held
  simp [execFolioPushComplete, found]

/-- A device location takes the bytes. -/
theorem writeLoc_device {l : Loc} {b : List Byte} (kind : l.kind = 1) (mapped : locMapped 1 l.addr b.length = true) :
    writeLoc s l b = .ok (s.writeAt { host := false, addr := l.addr } b) := by
  have zero : l.kind ≠ 0 := by omega
  have two : l.kind ≠ 2 := by omega
  have write : l.kind ≤ 3 ∧ locMapped l.kind l.addr b.length = true := by rw [kind]; exact ⟨by omega, mapped⟩
  rw [writeLoc, if_neg zero, if_neg two, if_pos write]

/-- A byte of a mapped device range is mapped. -/
theorem physMapped_of_locMapped {a n i : Nat} (h : locMapped 1 a n = true) (hi : i < n) : physMapped (a + i) = true := by
  have bounds : (0x10000000000 ≤ a ∧ a < 0x20000000000) ∧ 0x10000000000 ≤ a + n - 1 ∧ a + n - 1 < 0x20000000000 := by
    simpa [locMapped, kindHolds] using h
  simp only [physMapped, kindHolds]
  simp
  omega

/-- The map of a saved member with an entry rewritten. -/
theorem savedMember_modEp {g r : Nat} {v : Saved} (saved : savedMember s g r = some v) (h : Endpaper → Endpaper) :
    savedMember (modEp s g r h) g r = some { v with ep := h v.ep } := by
  have member : v.gath = g ∧ v.rank = r := by simpa using List.find?_some (show s.saved.find? (fun v => v.gath == g && v.rank == r) = some v from saved)
  simp only [modEp, saved]
  simp only [savedMember] at saved ⊢
  rw [List.find?_map]
  have test : ((fun v : Saved => v.gath == g && v.rank == r) ∘ fun v => if v.gath = g ∧ v.rank = r then { v with ep := h v.ep } else v) =
      fun v => v.gath == g && v.rank == r := by
    funext v
    simp only [Function.comp]
    split <;> rfl
  rw [test, saved]
  simp [member]

theorem modEp_saved {g r : Nat} {v : Saved} (saved : savedMember s g r = some v) (h : Endpaper → Endpaper) : ∃ l, modEp s g r h = { s with saved := l } := by
  simp only [modEp, saved]
  exact ⟨_, rfl⟩

/-- The copy that leaves is every copy of that member's folio. -/
theorem held_unhold (k : Core) (x : Held) : (unhold k x).held = k.held.filter fun y => !y.same x := by
  unfold unhold
  simp only []
  split <;> rfl

/-- With no other copy left the folio is not OWED. -/
theorem unhold_last {k : Core} {x : Held} (last : ∀ y ∈ k.held, y.folio = x.folio → y.gath = x.gath ∧ y.rank = x.rank) :
    heldFolio (unhold k x) x.folio = none ∧ ((unhold k x).folio x.folio).pres ≠ .owed := by
  have gone : ∀ k' : Core, k'.held = k.held.filter (fun y => !y.same x) → heldFolio k' x.folio = none := by
    intro k' hk
    simp only [heldFolio, hk, List.find?_eq_none, beq_iff_eq]
    intro y hy folio
    obtain ⟨mem, other⟩ := List.mem_filter.1 hy
    simp [Held.same, folio, last y mem folio] at other
  refine ⟨gone _ (held_unhold k x), ?_⟩
  have none' := gone { k with held := k.held.filter fun y => !y.same x } rfl
  unfold unhold
  simp only [none']
  split
  · rw [Core.folio_setFolio]
    exact fun h => nomatch h
  · next owed => exact fun h => owed ⟨h, trivial⟩

end Push

/-- The state after the push of a saved member's copy to a device location. -/
theorem pushOut_device {s : State} {c : Nat} {x : Held} {v : Saved} (saved : savedMember s x.gath x.rank = some v) (tiles : noTiles x.data = false)
    (kind : (pushLoc v.ep x.folio).kind = 1) (len : (folioBytes x.stamp x.folio x.data).length = 4096)
    (mapped : locMapped 1 (pushLoc v.ep x.folio).addr 4096 = true) :
    ∃ t, pushOut s c x = .ok t ∧ t.core c = unhold (s.core c) x ∧
      (∀ p, t.byteAt p = (s.writeAt { host := false, addr := (pushLoc v.ep x.folio).addr } (folioBytes x.stamp x.folio x.data)).byteAt p) ∧
      savedMember t x.gath x.rank =
        some { v with ep := v.ep.setEntry x.folio { addr := (pushLoc v.ep x.folio).addr, digest := digest32 (folioBytes x.stamp x.folio x.data), kind := 1, node := (pushLoc v.ep x.folio).node, core := 0 } } := by
  have ep : memberEp s x.gath x.rank = some v.ep := by simp only [memberEp, saved]
  have write : writeLoc s (pushLoc v.ep x.folio) (folioBytes x.stamp x.folio x.data) = _ := writeLoc_device kind (by rw [len]; exact mapped)
  generalize hw : s.writeAt { host := false, addr := (pushLoc v.ep x.folio).addr } (folioBytes x.stamp x.folio x.data) = w at write
  have cores : (vaultPut w x).cores = s.cores ∧ (vaultPut w x).saved = s.saved := by
    obtain ⟨m, h, e, eq⟩ := s.writeAt_eq { host := false, addr := (pushLoc v.ep x.folio).addr } (folioBytes x.stamp x.folio x.data)
    rw [← hw, eq]
    exact ⟨rfl, rfl⟩
  have saved' : savedMember (vaultPut w x) x.gath x.rank = some v := by rw [savedMember, cores.2]; exact saved
  generalize hu : modEp (vaultPut w x) x.gath x.rank (fun p => p.setEntry x.folio { addr := (pushLoc v.ep x.folio).addr, digest := digest32 (folioBytes x.stamp x.folio x.data), kind := (pushLoc v.ep x.folio).kind, node := (pushLoc v.ep x.folio).node, core := 0 }) = u
  have push : pushFolio s x = .ok u := by
    simp only [pushFolio, ep, tiles, write, ← hu]
    rfl
  obtain ⟨l, eq⟩ := modEp_saved saved' (fun p => p.setEntry x.folio { addr := (pushLoc v.ep x.folio).addr, digest := digest32 (folioBytes x.stamp x.folio x.data), kind := (pushLoc v.ep x.folio).kind, node := (pushLoc v.ep x.folio).node, core := 0 })
  rw [hu] at eq
  have core : u.core c = s.core c := by rw [eq, State.core, State.core, cores.1]
  refine ⟨u.modCore c fun k => unhold k x, by simp only [pushOut, push], ?_, fun p => ?_, ?_⟩
  · rw [State.core_modCore_same, core]
  · change u.byteAt p = _
    rw [eq]
    rfl
  · change savedMember u x.gath x.rank = _
    rw [← hu, savedMember_modEp saved', kind]

/-- Settles O38: `pullFolio` says what a pull brings, `pullFail_fails` whom its failure faults, `pushOut_device` what a push leaves. -/
theorem foliosMove : Obligations.FoliosMove := by
  unfold Obligations.FoliosMove
  refine ⟨⟨fun s c f on flight free left => ?pull, fun s c f v off free left kind spad => ?leftPull⟩, fun s c f x held => ⟨?background, exec_folioPushComplete_none, ?push⟩⟩
  case pull =>
    refine ⟨fun kind vec => ?zeros, fun kind spad mapped digest => ?bytes, fun kind mapped spad digest => ?wrong, fun kind => ?reserved, fun kind => ?silent, fun kind => ?answers,
      fun sub run freeze wait => ?faults⟩
    case zeros =>
      refine ⟨_, exec_pull_arrives on flight free left (pullFolio_zeros _ _ kind vec), ?_⟩
      rw [State.core_modCore_same, Core.folio_setFolio, owesTags_of_not_tags _ (by omega)]
      have regs : (((s.core c).install f (.vec .empty)).setFolio f { pres := .present, dirty := false }).arch.v = tabReplace (s.core c).arch.v 0 32 .empty := by
        rw [vec]
        rfl
      rw [regs]
      exact ⟨rfl, fun i hi => get_tabReplace_inside _ rfl _ ⟨Nat.zero_le i, hi⟩, fun i hi => get_tabReplace_outside _ rfl _ (.inr hi) fun _ => rfl, fun _ => rfl,
        fun d other => State.core_modCore_other _ _ other⟩
    case bytes =>
      have data := pullFolio_device (s := s) (m := (s.core c).member) (c := c) (s.core c).shape (s.core c).fill kind mapped spad
      rw [if_neg (not_not_intro digest)] at data
      refine ⟨_, exec_pull_arrives on flight free left data, ?_⟩
      rw [State.core_modCore_same, Core.folio_setFolio, owesTags_of_not_tags _ (by omega)]
      refine ⟨rfl, fun i hi => ?_, (arch_setFolio ..).trans (arch_install_scratch ..), fun _ => rfl, fun d other => State.core_modCore_other _ _ other⟩
      have installed := spad_install_scratch (s.core c) (f := f) (length_readAt s { host := false, addr := ((s.core c).ep.entry f).addr } 4096) hi
      rw [spad_setFolio, installed]
      exact getD_readAt s _ hi
    case wrong =>
      have data := pullFolio_device (s := s) (m := (s.core c).member) (c := c) (s.core c).shape (s.core c).fill kind mapped spad
      rw [if_pos digest] at data
      exact exec_pull_fails on flight free left data
    case reserved => exact exec_pull_fails on flight free left (pullFolio_reserved _ _ kind)
    case silent => rw [exec_pullTimeout on flight free, if_pos kind]
    case answers => rw [exec_pullTimeout on flight free, if_neg kind]
    case faults => exact pullFail_fails sub ⟨run, freeze, wait⟩
  case leftPull =>
    intro loc mapped digest
    have data := pullFolio_device (s := s) (m := v.member) (c := c) v.shape (s.core c).fill kind mapped spad
    rw [if_neg (not_not_intro digest)] at data
    exact ⟨_, _, exec_pull_left free left data, heldFolio_holdLeft_off off, rfl, rfl, rfl, rfl, pulls_holdLeft s c f v _, fun _ => rfl⟩
  case background =>
    refine ⟨_, exec_backgroundPush s c f, ?_⟩
    rw [State.core_modCore_same, heldFolio_background held]
    exact ⟨fun dirty => by rw [if_pos dirty], fun clean => by rw [if_neg (by simp [clean])], rfl, fun _ => rfl, fun d other => State.core_modCore_other _ _ other⟩
  case push =>
    intro v pushing saved tiles kind mapped len
    obtain rfl : x.folio = f := heldFolio_folio held
    obtain ⟨t, push, core, bytes, map⟩ := pushOut_device (c := c) saved tiles kind len mapped
    refine ⟨t, ?_, ?_, fun last => ?_, fun i hi => ?_, _, map, ?_⟩
    · rw [exec_folioPushComplete_first held pushing, push]
      rfl
    · rw [core, held_unhold]
      rfl
    · rw [core]
      exact unhold_last last
    · have less : i < (folioBytes x.stamp x.folio x.data).length := by omega
      rw [bytes, byteAt_writeAt_eq, byteAt_writeBytesFrom_same _ _ _ _ _ (List.getElem?_eq_getElem less) (.inr (physMapped_of_locMapped mapped hi)), getD_of_lt _ _ less]
    · exact Tab.get_put_same ..

end Sys2Proof.Machine
end

section
/-!
SUPPORT. O34: the checks of a page walk, the leaf it leaves, and the waits for a page (R33, R47 to R49).
-/

namespace Sys2Proof.Machine

/-! ### A table entry written and read -/

/-- The bytes of an aligned word stand where its first one does. -/
theorem physMapped_word {a i : Nat} (aligned : a % 8 = 0) (mapped : physMapped a = true) (hi : i < 8) : physMapped (a + i) = true := by
  simp [physMapped, kindHolds] at mapped ⊢
  omega

theorem State.read64_write64 (s : State) {a : Nat} (v : Word) (aligned : a % 8 = 0) (mapped : physMapped a = true) :
    (s.write64 { host := false, addr := a } v).read64 { host := false, addr := a } = v := by
  have bytes : (s.writeAt { host := false, addr := a } (leBytes 8 v.toNat)).readAt { host := false, addr := a } 8 = leBytes 8 v.toNat := by
    rw [State.readAt_writeAt_take _ _ _ (Nat.le_of_eq (length_leBytes ..).symm) fun i hi => .inr (physMapped_word aligned mapped hi)]
    exact List.take_of_length_le (Nat.le_of_eq (length_leBytes ..))
  rw [State.read64, State.write64, bytes, ofLeBytes_leBytes]
  exact BitVec.eq_of_toNat_eq (by rw [BitVec.toNat_ofNat, Nat.mod_eq_of_lt (show v.toNat < 256 ^ 8 from v.isLt), Nat.mod_eq_of_lt v.isLt])

theorem State.read64_congr {s t : State} (mem : t.mem = s.mem) (host : t.host = s.host) (p : Place) : t.read64 p = s.read64 p := by
  simp only [State.read64, State.readAt, State.byteAt, mem, host]

/-! ### The fault of a walk -/

section Faults

variable {s : State} {ag : Agent} {pasid va : Nat} {write : Bool}

theorem walk_noncanonical (h : canonical va = false) : walk s ag pasid va write = .error (.fault 0x10 1) := by
  rw [walk, if_pos h]
  rfl

theorem walk_rootless (h : canonical va = true) (none : (s.pasids.get .none pasid).root = none) : walk s ag pasid va write = .error (.fault 0x10 9) := by
  simp only [walk, h, none, Bool.true_eq_false, if_false]
  rfl

theorem walkTables_invalid {root : Nat} (invalid : (s.read64 { host := false, addr := root + 8 * (va / 2 ^ 39 % 2 ^ 18) }).getLsbD 0 = false) :
    walkTables s va 4 root = .error (.fault 0x10 2) := by
  have zero : bit (s.read64 { host := false, addr := root + 8 * levelIndex va (3 + 1) }) 0 = false := invalid
  rw [walkTables, if_pos zero]
  rfl

theorem walk_stopped {root : Nat} {f : XFail} (h : canonical va = true) (rooted : (s.pasids.get .none pasid).root = some root)
    (stops : walkTables s va 4 root = .error f) : walk s ag pasid va write = .error f := by
  simp only [walk, h, rooted, stops, Bool.true_eq_false, if_false]

end Faults

/-! ### The leaf that a walk leaves -/

theorem pageBytes_pos (size : Nat) : 0 < pageBytes size := by
  unfold pageBytes
  split
  · decide
  · split <;> decide

/-- The newest entry of a cache is not the one that makes room for it. -/
theorem cacheInsert_head (l : List CacheEntry) (x : CacheEntry) : ∃ r, cacheInsert l x = x :: r := by
  unfold cacheInsert
  simp only []
  split
  · exact ⟨_, rfl⟩
  case isFalse full =>
    split
    · next old last =>
      have mine : ((x :: cacheDropPage l x.agent x.pasid x.base).filter fun y => y.agent == x.agent) =
          x :: (cacheDropPage l x.agent x.pasid x.base).filter fun y => y.agent == x.agent := by simp
      rw [mine] at full last
      have some' : (cacheDropPage l x.agent x.pasid x.base).filter (fun y => y.agent == x.agent) ≠ [] := by
        intro none
        rw [none] at full
        exact full (show 1 ≤ Config.cacheEntries by decide)
      have mem : old ∈ (cacheDropPage l x.agent x.pasid x.base).filter fun y => y.agent == x.agent := by
        rw [List.getLast?_cons_of_ne_nil some'] at last
        exact List.mem_of_getLast? last
      have other : old ≠ x := by
        rintro rfl
        have dropped := (List.mem_filter.1 (List.mem_filter.1 mem).1).2
        simp [pageBytes_pos] at dropped
      exact ⟨_, List.filter_cons_of_pos (by simpa using Ne.symm other)⟩
    · exact ⟨_, rfl⟩

/-- A page just cached is found. -/
theorem cacheFind_inserted {t : State} {l : List CacheEntry} {agent pasid va : Nat} {e : Word}
    (caches : t.caches = cacheInsert l { agent := agent, pasid := pasid, base := pageBase va (leafSize e), leaf := e }) :
    cacheFind t agent pasid (pageBase va (leafSize e)) ≠ none := by
  obtain ⟨r, head⟩ := cacheInsert_head l { agent := agent, pasid := pasid, base := pageBase va (leafSize e), leaf := e }
  have past : ¬ pageBase va (leafSize e) + pageBytes (leafSize e) ≤ pageBase va (leafSize e) :=
    Nat.not_le_of_lt (Nat.lt_add_of_pos_right (pageBytes_pos _))
  simp [cacheFind, caches, head, past]

/-- The leaf with accessed set, and dirty for a write. -/
def touched (e : Word) (write : Bool) : Word := e ||| 0x20 ||| (if write then 0x40 else 0)

theorem leafCow_touched (e : Word) (write : Bool) : leafCow (touched e write) = leafCow e := by
  cases write <;> simp [leafCow, bit, touched]

/-- The entry holds the touched leaf, where it held the leaf. -/
theorem touchLeaf_read (s : State) {a : Nat} {e : Word} (write : Bool) (aligned : a % 8 = 0) (mapped : physMapped a = true)
    (holds : s.read64 { host := false, addr := a } = e) : (touchLeaf s a e write).1.read64 { host := false, addr := a } = touched e write := by
  change (if touched e write = e then s else s.write64 { host := false, addr := a } (touched e write)).read64 { host := false, addr := a } = touched e write
  split
  case isTrue same => rw [holds, same]
  case isFalse => exact s.read64_write64 _ aligned mapped

theorem touchLeaf_cores (s : State) (a : Nat) (e : Word) (write : Bool) : (touchLeaf s a e write).1.cores = s.cores := by
  change (if touched e write = e then s else s.write64 { host := false, addr := a } (touched e write)).cores = s.cores
  split
  · rfl
  · obtain ⟨m, h, x, eq⟩ := s.writeAt_eq { host := false, addr := a } (leBytes 8 (touched e write).toNat)
    rw [State.write64, eq]

/-- The state after a walk that finds a leaf which passes its checks: the leaf is touched and cached. -/
def walked (s : State) (ag : Agent) (pasid va a : Nat) (e : Word) (write : Bool) : State :=
  let t := (touchLeaf s a e write).1
  { t with caches := cacheInsert t.caches { agent := ag.cache, pasid := pasid, base := pageBase va (leafSize (touched e write)), leaf := touched e write } }

theorem walk_finds {s : State} {ag : Agent} {pasid va root a : Nat} {write : Bool} {e : Word} (h : canonical va = true)
    (rooted : (s.pasids.get .none pasid).root = some root) (found : walkTables s va 4 root = .ok (a, e)) (checked : leafCheck ag e = none)
    (ats : leafAts s ag pasid va write e = none) :
    walk s ag pasid va write =
      if write = true ∧ leafCow e = true then .error (.cow (walked s ag pasid va a e write)) else .ok (walked s ag pasid va a e write, touched e write) := by
  have body : walk s ag pasid va write =
      if write && leafCow (touched e write) then .error (.cow (walked s ag pasid va a e write)) else .ok (walked s ag pasid va a e write, touched e write) := by
    simp only [walk, h, rooted, found, checked, ats, Bool.true_eq_false, if_false]
    rfl
  rw [body, leafCow_touched]
  simp only [Bool.and_eq_true]

/-! ### A leaf on another frame -/

theorem getLsbD_moveLeaf (e : Word) (frame : Nat) {i : Nat} (hi : i < 64) :
    (moveLeaf e frame).getLsbD i =
      ((e.getLsbD i && !(decide (16 ≤ i) && decide (i < 52) || decide (i = 3) || decide (i = 4))) || (decide (16 ≤ i) && frame.testBit (i - 16)) || decide (i = 6)) := by
  have frames : ((2 ^ 36 - 1) * 2 ^ 16).testBit i = (decide (16 ≤ i) && decide (i < 52)) := by
    rw [Nat.testBit_mul_two_pow, Nat.testBit_two_pow_sub_one]
    by_cases h : 16 ≤ i
    · simp [h]; omega
    · simp [h]
  have low : ∀ n, n < 128 → (BitVec.ofNat 64 n).getLsbD i = (decide (i < 7) && n.testBit i) := by
    intro n hn
    rw [BitVec.getLsbD_ofNat]
    by_cases h : i < 7
    · simp [h, hi]
    · have small : n < 2 ^ i := Nat.lt_of_lt_of_le (show n < 2 ^ 7 from hn) (Nat.pow_le_pow_right Nat.two_pos (Nat.le_of_not_lt h))
      rw [Nat.testBit_lt_two_pow small]
      simp
  have clear : (0x18#64).getLsbD i = (decide (i = 3) || decide (i = 4)) := by
    rw [low 0x18 (by omega)]
    by_cases h : i < 7
    · obtain rfl | rfl | rfl | rfl | rfl | rfl | rfl : i = 0 ∨ i = 1 ∨ i = 2 ∨ i = 3 ∨ i = 4 ∨ i = 5 ∨ i = 6 := by omega
      all_goals rfl
    · simp [h]; omega
  have dirty : (0x40#64).getLsbD i = decide (i = 6) := by
    rw [low 0x40 (by omega)]
    by_cases h : i < 7
    · obtain rfl | rfl | rfl | rfl | rfl | rfl | rfl : i = 0 ∨ i = 1 ∨ i = 2 ∨ i = 3 ∨ i = 4 ∨ i = 5 ∨ i = 6 := by omega
      all_goals rfl
    · simp [h]; omega
  have place : (BitVec.ofNat 64 (frame * 2 ^ 16)).getLsbD i = (decide (16 ≤ i) && frame.testBit (i - 16)) := by
    rw [BitVec.getLsbD_ofNat, Nat.testBit_mul_two_pow]
    simp [hi]
  have keep : (BitVec.ofNat 64 ((2 ^ 36 - 1) * 2 ^ 16)).getLsbD i = (decide (16 ≤ i) && decide (i < 52)) := by
    rw [BitVec.getLsbD_ofNat, frames]
    simp [hi]
  simp only [moveLeaf, BitVec.getLsbD_or, BitVec.getLsbD_and, BitVec.getLsbD_not, keep, place]
  rw [show ((0x18 : Word).getLsbD i) = _ from clear, show ((0x40 : Word).getLsbD i) = _ from dirty]
  simp [hi, Bool.or_assoc]

theorem leafCow_moveLeaf (e : Word) (frame : Nat) : leafCow (moveLeaf e frame) = false := by
  rw [leafCow, bit, getLsbD_moveLeaf e frame (by omega)]
  simp

/-- The frame field holds the frame. -/
theorem leafFrame_moveLeaf (e : Word) (frame : Nat) : leafFrame (moveLeaf e frame) = frame % 2 ^ 36 := by
  apply Nat.eq_of_testBit_eq
  intro i
  rw [leafFrame, bits, Nat.testBit_mod_two_pow, Nat.testBit_mod_two_pow, Nat.testBit_shiftRight]
  by_cases h : i < 36
  · have inside := getLsbD_moveLeaf e frame (i := 16 + i) (by omega)
    rw [BitVec.getLsbD] at inside
    rw [inside]
    have off : ¬ 16 + i = 6 := by omega
    have low : 16 + i < 52 := by omega
    simp [h, off, low]
  · simp [h]

/-! ### Waiters -/

section Waiters

variable {s : State} {c va : Nat} (run : (s.core c).run = .running) (wait : (s.core c).waitVa = some va)
include run wait

theorem wanted_stale (freeze : (s.core c).freeze = .stale) :
    wanted s (.core c) = some { agent := c / 96, va := va, pasid := (s.core c).member.pasid, cow := false } := by
  simp [wanted, run, wait, freeze, dieOf]

theorem wanted_cow (freeze : (s.core c).freeze = .cow) :
    wanted s (.core c) = some { agent := c / 96, va := va, pasid := (s.core c).member.pasid, cow := true } := by
  simp [wanted, run, wait, freeze, dieOf]

end Waiters

theorem exec_migratingRewalk {s : State} {w : Waiter} {x : Wanted} (h : wanted s w = some x) :
    exec (.migratingRewalk w) s = .next (if isMigrating s x.pasid x.va then s else wake s w) := by
  change execMigratingRewalk w s = _
  simp only [execMigratingRewalk, h]
  split <;> rfl

theorem exec_migratingTimeout {s : State} {w : Waiter} {x : Wanted} (h : wanted s w = some x) :
    exec (.migratingTimeout w) s = .next (if isMigrating s x.pasid x.va then failWanted s x 10 w else s) := by
  change execMigratingTimeout w s = _
  simp only [execMigratingTimeout, h]
  split <;> rfl

/-- A page under cow is duplicated into the first free frame of its PASID and size, or the write faults. -/
theorem exec_cowDuplicate {s : State} {w : Waiter} {x : Wanted} {a : Nat} {e : Word} (h : wanted s w = some x) (leaf : leafOf s x.pasid x.va = some (a, e))
    (settled : leafMigrating e = false) (cow : x.cow = true ∧ leafCow e = true) :
    (s.pools.get [] (poolKey x.pasid (leafSize e)) = [] → exec (.cowDuplicate w) s = .next (failWanted s x 11 w)) ∧
      ∀ f r, s.pools.get [] (poolKey x.pasid (leafSize e)) = f :: r →
        exec (.cowDuplicate w) s = .next (wake (duplicate { s with pools := s.pools.put [] (poolKey x.pasid (leafSize e)) r } x.pasid x.va a e f) w) := by
  have body : ∀ u, exec (.cowDuplicate w) s = u ↔ execCowDuplicate w s = u := fun _ => Iff.rfl
  constructor
  · intro empty
    rw [body]
    simp [execCowDuplicate, h, leaf, settled, cow, empty]
  · intro f r frames
    rw [body]
    simp [execCowDuplicate, h, leaf, settled, cow, frames]

theorem writePage_eq (s : State) (pasid : Nat) (e : Word) (d : List Byte) : ∃ m h x, s.writePage pasid e d = { s with mem := m, host := h, ecc := x } := by
  unfold State.writePage
  generalize List.range _ = l
  induction l generalizing s with
  | nil => exact ⟨s.mem, s.host, s.ecc, rfl⟩
  | cons i l ih =>
    obtain ⟨m, h, x, first⟩ := s.writeAt_eq (leafPlace s pasid e (0x10000 * i)) ((d.drop (0x10000 * i)).take 0x10000)
    obtain ⟨m', h', x', rest⟩ := ih (s.writeAt (leafPlace s pasid e (0x10000 * i)) ((d.drop (0x10000 * i)).take 0x10000))
    refine ⟨m', h', x', ?_⟩
    rw [List.foldl_cons, rest, first]

/-- The duplication of a page: memory changes, a REFRESH of the page is asked for, and the moved leaf stands in the tables. -/
theorem duplicate_eq (s : State) (pasid va a : Nat) (e : Word) (frame : Nat) :
    ∃ m h x l, duplicate s pasid va a e frame =
      { s with
        mem := m, host := h, ecc := x, snapFrames := l,
        shoots := s.shoots ++ [{ Shoot.own pasid with all := false, lo := pageBase va (leafSize e), hi := pageBase va (leafSize e) + pageBytes (leafSize e), refresh := true }] } := by
  unfold duplicate
  generalize s.readPage pasid e = d
  generalize moveLeaf e frame = f
  obtain ⟨m, h, x, page⟩ := writePage_eq s pasid f d
  generalize s.writePage pasid f d = u at page
  obtain ⟨m', h', x', leaf⟩ := u.writeAt_eq { host := false, addr := a } (leBytes 8 f.toNat)
  simp only [State.write64, leaf]
  exact ⟨m', h', x', _, by rw [page]; rfl⟩

theorem duplicate_read (s : State) (pasid va : Nat) {a : Nat} (e : Word) (frame : Nat) (aligned : a % 8 = 0) (mapped : physMapped a = true) :
    (duplicate s pasid va a e frame).read64 { host := false, addr := a } = moveLeaf e frame := by
  unfold duplicate
  simp only []
  generalize s.readPage pasid e = d
  generalize moveLeaf e frame = f
  generalize s.writePage pasid f d = u
  generalize hw : u.write64 { host := false, addr := a } f = w
  have stands : w.read64 { host := false, addr := a } = f := by rw [← hw]; exact u.read64_write64 f aligned mapped
  exact (State.read64_congr (s := w) rfl rfl _).trans stands

theorem core_wake (s : State) (c : Nat) : (wake s (.core c)).core c = { s.core c with freeze := .none, waitVa := none, waitAt := 15 } := State.core_modCore_same ..

/-- Settles O34: the walk's checks in their order, the leaf touched and cached, and what ends a wait for a page. -/
theorem walksAndPageWaits : Obligations.WalksAndPageWaits := by
  unfold Obligations.WalksAndPageWaits
  refine ⟨fun s ag pasid va write => ⟨walk_noncanonical, walk_rootless, fun root h rooted invalid => walk_stopped h rooted (walkTables_invalid invalid), ?finds⟩,
    fun s c va run wait => ?waits⟩
  case finds =>
    intro root a e h rooted found checked ats aligned mapped
    exact ⟨walked s ag pasid va a e write, walk_finds h rooted found checked ats, touchLeaf_read s write aligned mapped, touchLeaf_cores s a e write, cacheFind_inserted rfl⟩
  case waits =>
    refine ⟨fun freeze migrates => ?migrates, fun freeze still => ?still, fun freeze a e leaf settled cow => ?cow⟩
    case migrates =>
      have want := wanted_stale run wait freeze
      exact ⟨by rw [exec_migratingRewalk want, if_pos migrates], by rw [exec_migratingTimeout want, if_pos migrates]; rfl⟩
    case still =>
      have want := wanted_stale run wait freeze
      have stays : ¬ isMigrating s (s.core c).member.pasid va = true := by simp [still]
      refine ⟨by rw [exec_migratingTimeout want, if_neg stays], wake s (.core c), by rw [exec_migratingRewalk want, if_neg stays], ?_, fun _ => rfl⟩
      simp only [core_wake]
      exact ⟨trivial, trivial, trivial⟩
    case cow =>
      obtain ⟨empty, frames⟩ := exec_cowDuplicate (wanted_cow run wait freeze) leaf settled ⟨rfl, cow⟩
      refine ⟨fun none => (empty none).trans rfl, fun f r pool aligned mapped => ⟨_, frames f r pool, ?_⟩⟩
      generalize hs : ({ s with pools := s.pools.put [] (poolKey (s.core c).member.pasid (leafSize e)) r } : State) = u
      have moved := duplicate_read u (s.core c).member.pasid va e f aligned mapped
      obtain ⟨m, h, x, l, eq⟩ := duplicate_eq u (s.core c).member.pasid va a e f
      have core : (duplicate u (s.core c).member.pasid va a e f).core c = s.core c := by rw [eq, ← hs]; rfl
      refine ⟨?_, ?_, moved, ?_, leafCow_moveLeaf e f, ?_⟩
      · simp only [core_wake, core]
        exact ⟨trivial, trivial, trivial⟩
      · change (duplicate u (s.core c).member.pasid va a e f).pools.get [] (poolKey (s.core c).member.pasid (leafSize e)) = r
        rw [eq, ← hs]
        exact Tab.get_put_same ..
      · rw [leafFrame_moveLeaf, Nat.mod_mod]
      · change (duplicate u (s.core c).member.pasid va a e f).shoots = _
        rw [eq, ← hs]
        rfl

end Sys2Proof.Machine
end

section
/-!
SUPPORT. O35: requests for shoot-downs, and what a unit does for one (R42 to R45, R52).
-/

namespace Sys2Proof.Machine

/-! ### Tables rewritten entry by entry -/

section Tables

variable {α : Type}

/-- The keys of a rising table are different. -/
theorem nodup_keys {l : List (Nat × α)} {lo : Nat} (rising : cellRising l lo = true) : (l.map (·.1)).Nodup := by
  induction l generalizing lo with
  | nil => exact List.nodup_nil
  | cons c l ih =>
    simp only [cellRising, Bool.and_eq_true] at rising
    refine List.nodup_cons.2 ⟨fun mem => ?_, ih rising.2⟩
    have above : ∀ (l : List (Nat × α)) (lo : Nat), cellRising l lo = true → ∀ x ∈ l.map (·.1), lo ≤ x := by
      intro l
      induction l with
      | nil => exact fun _ _ _ h => nomatch h
      | cons c l ih =>
        intro lo rising x hx
        simp only [cellRising, Bool.and_eq_true, decide_eq_true_eq] at rising
        rcases List.mem_cons.1 hx with rfl | hx
        · exact rising.1
        · exact Nat.le_trans rising.1 (Nat.le_of_succ_le (ih _ rising.2 x hx))
    exact absurd (above l _ rising.2 _ mem) (Nat.not_le.2 (Nat.lt_succ_self _))

theorem Tab.get_foldl_put [DecidableEq α] {l : List (Nat × α)} {lo : Nat} (rising : cellRising l lo = true) (f : α → α) (d : α) (t : Tab α) (k : Nat) :
    (l.foldl (fun (u : Tab α) x => u.put d x.1 (f x.2)) t).get d k = cellGet (l.map fun x => (x.1, f x.2)) (t.get d k) k := by
  induction l generalizing t lo with
  | nil => rfl
  | cons c l ih =>
    simp only [cellRising, Bool.and_eq_true, decide_eq_true_eq] at rising
    obtain ⟨-, rest⟩ := rising
    have rest' : cellRising (l.map fun x => (x.1, f x.2)) (c.1 + 1) = true := by
      clear ih
      generalize c.1 + 1 = m at rest
      induction l generalizing m with
      | nil => rfl
      | cons x l ih =>
        simp only [cellRising, List.map_cons, Bool.and_eq_true] at rest ⊢
        exact ⟨rest.1, ih _ rest.2⟩
    rw [List.foldl_cons, ih rest]
    by_cases same : c.1 = k
    · subst same
      rw [Tab.get_put_same, cellGet_below rest' _ (Nat.lt_succ_self _)]
      simp [cellGet]
    · rw [Tab.get_put_other _ _ _ _ (Ne.symm same)]
      simp [cellGet, same]

/-- An entry is there for both tables, or for neither. -/
theorem cellGet_map_cases (l : List (Nat × α)) (f : α → α) (d x : α) (k : Nat) :
    cellGet (l.map fun c => (c.1, f c.2)) x k = f (cellGet l d k) ∨ cellGet (l.map fun c => (c.1, f c.2)) x k = x ∧ cellGet l d k = d := by
  induction l with
  | nil => exact .inr ⟨rfl, rfl⟩
  | cons c l ih =>
    by_cases same : c.1 = k
    · exact .inl (by simp [cellGet, same])
    · simpa [cellGet, same] using ih

end Tables

/-- Every handle of a register file is as the request leaves it. -/
theorem Shoot.get_handles (r : Shoot) {t : Tab Handle} (rising : t.rising = true) (n : Nat) : (r.handles t).get .zero n = r.handle (t.get .zero n) := by
  have invalid : r.handle .zero = .zero := rfl
  rw [Shoot.handles, Tab.get_foldl_put rising]
  rcases cellGet_map_cases t.cells r.handle .zero (t.get .zero n) n with h | ⟨h, none⟩
  · exact h
  · have zero : t.get .zero n = .zero := none
    rw [h, zero, invalid]

/-! ### What late accesses change -/

/-- A core that differs in its folios and what it holds, at most. -/
def Core.FoliosOnly (k k' : Core) : Prop := ∃ f h, k' = { k with folios := f, held := h }

theorem Core.FoliosOnly.refl (k : Core) : k.FoliosOnly k := ⟨k.folios, k.held, rfl⟩

theorem Core.FoliosOnly.trans {a b c : Core} (h : a.FoliosOnly b) (g : b.FoliosOnly c) : a.FoliosOnly c := by
  obtain ⟨f, h, rfl⟩ := h
  obtain ⟨f', h', rfl⟩ := g
  exact ⟨f', h', rfl⟩

theorem Core.FoliosOnly.restore {k k' : Core} (h : k.FoliosOnly k') : { k' with folios := k.folios, held := k.held } = k := by
  obtain ⟨f, h, rfl⟩ := h
  rfl

theorem Core.foliosOnly_touchAll (k : Core) (l : List Nat) : k.FoliosOnly (k.touchAll l) := by
  induction l generalizing k with
  | nil => exact .refl k
  | cons f l ih =>
    have first : k.FoliosOnly (k.touch f) := by
      unfold Core.touch
      split
      · exact ⟨_, _, rfl⟩
      · exact ⟨_, _, rfl⟩
      · exact .refl k
    exact first.trans (ih _)

/-- One thing that an access of core `c` does when it is performed late. -/
inductive LateStep (c : Nat) (s : State) : State → Prop
  | memory (m h : Memory) (x : List Nat) (j : List Job) : LateStep c s { s with mem := m, host := h, ecc := x, jobs := j }
  | fill (tag : Nat) (f : Due → Due) : LateStep c s (fillBoth s c tag f)
  | touch (e : Nat) (l : List Nat) : LateStep c s (s.modCore e fun k => k.touchAll l)
  | pub (p : List Pub) : LateStep c s (s.modCore c fun k => { k with pub := p })

/-- What accesses of core `c` do that are performed late. -/
inductive LateSteps (c : Nat) (s : State) : State → Prop
  | none : LateSteps c s s
  | tail {t u : State} (before : LateSteps c s t) (step : LateStep c t u) : LateSteps c s u

theorem LateSteps.refl (c : Nat) (s : State) : LateSteps c s s := .none

theorem LateSteps.one {c : Nat} {s t : State} (h : LateStep c s t) : LateSteps c s t := .tail .none h

theorem LateSteps.trans {c : Nat} {s t u : State} (h : LateSteps c s t) (g : LateSteps c t u) : LateSteps c s u := by
  induction g with
  | none => exact h
  | tail _ step ih => exact .tail ih step

theorem lateSteps_foldl {α : Type} {c : Nat} {f : State → α → State} (h : ∀ s a, LateSteps c s (f s a)) (l : List α) (s : State) : LateSteps c s (l.foldl f s) := by
  induction l generalizing s with
  | nil => exact .refl c s
  | cons a l ih => exact (h s a).trans (ih _)

theorem performPub_eq (s : State) (e : Pub) : ∃ m h x, performPub s e = { s with mem := m, host := h, ecc := x } := by
  have masked : ∀ (l : List (Nat × Byte)) (u : State), ∃ m h, writeMasked e.place l u = { u with mem := m, host := h } := by
    intro l
    induction l with
    | nil => exact fun u => ⟨u.mem, u.host, rfl⟩
    | cons b l ih =>
      intro u
      obtain ⟨o, b⟩ := b
      obtain ⟨m, h, first⟩ := u.writeByte_eq (e.place.add o) b
      obtain ⟨m', h', rest⟩ := ih (u.writeByte (e.place.add o) b)
      exact ⟨m', h', by rw [writeMasked, rest, first]⟩
  obtain ⟨m, h, eq⟩ := masked e.data.cells s
  simp only [performPub, eq]
  split
  · exact ⟨m, h, s.ecc, rfl⟩
  · exact ⟨m, h, _, rfl⟩

theorem foldl_performPub_eq (l : List Pub) (s : State) : ∃ m h x, l.foldl performPub s = { s with mem := m, host := h, ecc := x } := by
  induction l generalizing s with
  | nil => exact ⟨s.mem, s.host, s.ecc, rfl⟩
  | cons e l ih =>
    obtain ⟨m, h, x, first⟩ := performPub_eq s e
    obtain ⟨m', h', x', rest⟩ := ih (performPub s e)
    exact ⟨m', h', x', by rw [List.foldl_cons, rest, first]⟩

/-- The performance of a granule changes memory and the core's buffer. -/
theorem performGranule_eq (s : State) (c : Nat) (g : Place) :
    ∃ m h x p, performGranule s c g = ({ s with mem := m, host := h, ecc := x } : State).modCore c fun k => { k with pub := p } := by
  obtain ⟨m, h, x, eq⟩ := foldl_performPub_eq ((s.core c).pub.filter fun e => e.place == g) s
  refine ⟨m, h, x, (s.core c).pub.filter fun e => e.place != g, ?_⟩
  rw [performGranule, eq]
  exact State.modCore_congr rfl

theorem lateSteps_performGranule (s : State) (c : Nat) (g : Place) : LateSteps c s (performGranule s c g) := by
  obtain ⟨m, h, x, p, eq⟩ := performGranule_eq s c g
  rw [eq]
  exact (LateSteps.one (.memory m h x s.jobs)).trans (.one (.pub p))

theorem lateSteps_performAll (s : State) (c : Nat) : LateSteps c s (performAll s c) := by
  obtain ⟨m, h, x, eq⟩ := foldl_performPub_eq (s.core c).pub s
  rw [performAll, eq]
  exact (LateSteps.one (.memory m h x s.jobs)).trans (.one (.pub []))

theorem performAtomic_eq (s : State) (c : Nat) (p : Place) (port size : Nat) (b cmp : Word) (old : Nat) :
    ∃ m h x j, performAtomic s c p port size b cmp old = { s with mem := m, host := h, ecc := x, jobs := j } := by
  have plain : ∃ m h x, (if !atomicWrites port size old cmp.toNat then s else s.writeAt p (leBytes size (atomicNew port size old b.toNat cmp.toNat))) =
      { s with mem := m, host := h, ecc := x } := by
    split
    · exact ⟨s.mem, s.host, s.ecc, rfl⟩
    · exact State.writeAt_eq ..
  obtain ⟨m, h, x, eq⟩ := plain
  have raised : ∀ (ok : Bool) (id : Nat), ∃ m' h' x' j,
      (if ok then { s with mem := m, host := h, ecc := x } else flagRaise s id) = { s with mem := m', host := h', ecc := x', jobs := j } := by
    intro ok id
    cases ok
    · exact ⟨s.mem, s.host, s.ecc, _, rfl⟩
    · exact ⟨m, h, x, s.jobs, rfl⟩
  unfold performAtomic
  simp only [eq]
  by_cases add : port = 0x35C
  · rw [if_pos add]
    cases raisedJob s p with
    | none => exact ⟨m, h, x, s.jobs, rfl⟩
    | some jw => exact raised _ _
  · rw [if_neg add]
    exact ⟨m, h, x, s.jobs, rfl⟩

theorem lateSteps_performAtomic (s : State) (c : Nat) (p : Place) (port size : Nat) (b cmp : Word) (old : Nat) :
    LateSteps c s (performAtomic s c p port size b cmp old) := by
  obtain ⟨m, h, x, j, eq⟩ := performAtomic_eq s c p port size b cmp old
  rw [eq]
  exact .one (.memory m h x j)

theorem lateSteps_fillBoth (s : State) (c tag : Nat) (f : Due → Due) : LateSteps c s (fillBoth s c tag f) := .one (.fill tag f)

theorem lateSteps_atomicArrival (s : State) (c : Nat) (d : Due) : LateSteps c s (atomicArrival s c d) := by
  unfold atomicArrival
  split
  · exact ((lateSteps_performGranule ..).trans (lateSteps_performAtomic ..)).trans (lateSteps_fillBoth ..)
  · exact .refl c s

theorem lateSteps_performLoad (s : State) (c : Nat) (d : Due) : LateSteps c s (performLoad s c d) := by
  unfold performLoad
  split
  · exact lateSteps_fillBoth ..
  · split
    · exact lateSteps_fillBoth ..
    · exact .one (.touch _ _)
  · exact .refl c s

theorem lateSteps_performBefore (s : State) (c epoch : Nat) : LateSteps c s (performBefore s c epoch) :=
  lateSteps_foldl (fun t x => lateSteps_performLoad t c x) _ s

theorem lateSteps_lateArrival (s : State) (c tag : Nat) : LateSteps c s (lateArrival s c tag) := by
  unfold lateArrival
  split
  · exact .refl c s
  · split
    · exact lateSteps_foldl (fun t x => lateSteps_atomicArrival t c x) _ s
    · simp only []
      split
      · exact (lateSteps_performBefore ..).trans (lateSteps_performLoad ..)
      · exact lateSteps_performBefore ..

/-- What late accesses of core `c` leave: the caches, the handles, and of other cores all but folios. -/
structure LateAccess (c : Nat) (s t : State) : Prop where
  caches : t.caches = s.caches
  handles : ∀ d, (t.core d).arch.handles = (s.core d).arch.handles ∧ (t.core d).snap.handles = (s.core d).snap.handles
  others : ∀ d, d ≠ c → (s.core d).FoliosOnly (t.core d)

theorem LateAccess.refl (c : Nat) (s : State) : LateAccess c s s := ⟨rfl, fun _ => ⟨rfl, rfl⟩, fun _ _ => .refl _⟩

theorem LateAccess.trans {c : Nat} {s t u : State} (h : LateAccess c s t) (g : LateAccess c t u) : LateAccess c s u where
  caches := g.caches.trans h.caches
  handles d := ⟨(g.handles d).1.trans (h.handles d).1, (g.handles d).2.trans (h.handles d).2⟩
  others d other := (h.others d other).trans (g.others d other)

theorem lateAccess_modCore (s : State) (c : Nat) {f : Core → Core} (h : ∀ k : Core, (f k).arch.handles = k.arch.handles ∧ (f k).snap.handles = k.snap.handles) :
    LateAccess c s (s.modCore c f) where
  caches := rfl
  handles d := by
    by_cases same : d = c
    · subst same
      rw [State.core_modCore_same]
      exact h _
    · rw [State.core_modCore_other _ _ same]
      exact ⟨rfl, rfl⟩
  others d other := by
    rw [State.core_modCore_other _ _ other]
    exact .refl _

/-- A touch of folios at any core. -/
theorem lateAccess_touch (s : State) (c e : Nat) (l : List Nat) : LateAccess c s (s.modCore e fun k => k.touchAll l) where
  caches := rfl
  handles d := by
    by_cases same : d = e
    · subst same
      obtain ⟨f, h, eq⟩ := (s.core d).foliosOnly_touchAll l
      rw [State.core_modCore_same, eq]
      exact ⟨rfl, rfl⟩
    · rw [State.core_modCore_other _ _ same]
      exact ⟨rfl, rfl⟩
  others d _ := by
    by_cases same : d = e
    · subst same
      rw [State.core_modCore_same]
      exact Core.foliosOnly_touchAll ..
    · rw [State.core_modCore_other _ _ same]
      exact .refl _

theorem LateStep.access {c : Nat} {s t : State} (h : LateStep c s t) : LateAccess c s t := by
  cases h with
  | memory => exact ⟨rfl, fun _ => ⟨rfl, rfl⟩, fun _ _ => .refl _⟩
  | fill => exact lateAccess_modCore s c fun _ => ⟨rfl, rfl⟩
  | touch e l => exact lateAccess_touch s c e l
  | pub => exact lateAccess_modCore s c fun _ => ⟨rfl, rfl⟩

theorem LateSteps.access {c : Nat} {s t : State} (h : LateSteps c s t) : LateAccess c s t := by
  induction h with
  | none => exact .refl c s
  | tail _ step ih => exact ih.trans step.access

theorem lateAccess_drainCore (r : Shoot) (s : State) (c : Nat) : LateAccess c s (drainCore r s c) :=
  ((lateSteps_foldl (fun t _ => lateSteps_lateArrival t c _) _ s).trans (lateSteps_foldl (fun t _ => lateSteps_performGranule t c _) _ _)).access

/-! ### A unit that has nothing in flight -/

/-- Only the publish buffer of core `c` changes, beside memory. -/
structure PubOnly (c : Nat) (s t : State) : Prop where
  own : ∃ p, t.core c = { s.core c with pub := p }
  others : ∀ d, d ≠ c → t.core d = s.core d

theorem PubOnly.refl (c : Nat) (s : State) : PubOnly c s s := ⟨⟨(s.core c).pub, rfl⟩, fun _ _ => rfl⟩

theorem PubOnly.trans {c : Nat} {s t u : State} (h : PubOnly c s t) (g : PubOnly c t u) : PubOnly c s u := by
  obtain ⟨p, hp⟩ := h.own
  obtain ⟨q, hq⟩ := g.own
  exact ⟨⟨q, by rw [hq, hp]⟩, fun d other => (g.others d other).trans (h.others d other)⟩

theorem pubOnly_performGranule (s : State) (c : Nat) (g : Place) : PubOnly c s (performGranule s c g) := by
  obtain ⟨m, h, x, p, eq⟩ := performGranule_eq s c g
  rw [eq]
  exact ⟨⟨p, State.core_modCore_same ..⟩, fun d other => State.core_modCore_other _ _ other⟩

theorem pubOnly_drainCore {r : Shoot} {s : State} {c : Nat} (quiet : inFlight r (s.core c) = []) : PubOnly c s (drainCore r s c) := by
  unfold drainCore
  simp only [quiet, List.foldl_nil]
  generalize List.filter _ _ = l
  induction l generalizing s with
  | nil => exact .refl c s
  | cons e l ih =>
    have first := pubOnly_performGranule s c e.place
    refine first.trans (ih ?_)
    obtain ⟨p, hp⟩ := first.own
    rw [hp]
    exact quiet

/-! ### The bank engines of a unit -/

theorem performWrites_eq (s : State) (e : Nat) (p : BankWrite → Bool) : ∃ m h x b, performWrites s e p = { s with mem := m, host := h, ecc := x, banks := b } := by
  have written : ∀ (l : List BankWrite) (u : State), ∃ m h x, l.foldl (fun s w => s.writeAt w.place w.data) u = { u with mem := m, host := h, ecc := x } := by
    intro l
    induction l with
    | nil => exact fun u => ⟨u.mem, u.host, u.ecc, rfl⟩
    | cons w l ih =>
      intro u
      obtain ⟨m, h, x, first⟩ := u.writeAt_eq w.place w.data
      obtain ⟨m', h', x', rest⟩ := ih (u.writeAt w.place w.data)
      exact ⟨m', h', x', by rw [List.foldl_cons, rest, first]⟩
  obtain ⟨m, h, x, eq⟩ := written ((s.bank e).writes.filter p) s
  rw [performWrites, eq]
  exact ⟨m, h, x, _, rfl⟩

theorem foldl_drainBank_eq (r : Shoot) (l : List Nat) (s : State) : ∃ m h x b, l.foldl (drainBank r) s = { s with mem := m, host := h, ecc := x, banks := b } := by
  induction l generalizing s with
  | nil => exact ⟨s.mem, s.host, s.ecc, s.banks, rfl⟩
  | cons e l ih =>
    have first : ∃ m h x b, drainBank r s e = { s with mem := m, host := h, ecc := x, banks := b } := by
      unfold drainBank
      split
      · split
        · exact performWrites_eq ..
        · exact ⟨s.mem, s.host, s.ecc, s.banks, rfl⟩
      · exact ⟨s.mem, s.host, s.ecc, s.banks, rfl⟩
    obtain ⟨m, h, x, b, eq⟩ := first
    obtain ⟨m', h', x', b', rest⟩ := ih (drainBank r s e)
    exact ⟨m', h', x', b', by rw [List.foldl_cons, rest, eq]⟩

/-! ### Step 2 -/

theorem Shoot.core_congr (r : Shoot) {s t : State} (h : t.saved = s.saved) (k : Core) : r.core t k = r.core s k := by
  simp only [Shoot.core, h]

theorem Shoot.core_run (r : Shoot) (s : State) (k : Core) : (r.core s k).run = k.run ∧ (r.core s k).member = k.member := by
  unfold Shoot.core
  simp only []
  split <;> exact ⟨rfl, rfl⟩

/-- The registers of a core that runs the PASID. -/
theorem Shoot.core_arch (r : Shoot) (s : State) {k : Core} (on : k.run ≠ .off) (mine : k.member.pasid = r.pasid) :
    (r.core s k).arch = r.arch k.arch ∧ (r.core s k).snap = r.arch k.snap := by
  have yes : (k.run != .off && k.member.pasid == r.pasid) = true := by simp [on, mine]
  simp only [Shoot.core, yes, if_true]
  exact ⟨trivial, trivial⟩

/-- A load or an atomic whose place lies in the range. -/
def Shoot.catches (r : Shoot) (d : Due) : Bool := (match d.req with | .load .. => true | .atomic .. => true | _ => false) && r.hits d.page 0x10000

theorem inFlight_eq (r : Shoot) (k : Core) :
    inFlight r k = if k.run != .off && k.member.pasid == r.pasid then (k.snap.due ++ k.arch.due).filter r.catches else [] := rfl

theorem Shoot.catches_restartWalk (r : Shoot) {d : Due} (h : r.catches d = false) : r.catches (restartWalk d) = false := by
  unfold restartWalk
  split
  · rfl
  · exact h

/-- Walks that start again are no loads and no atomics, so nothing comes in flight. -/
theorem Shoot.core_quiet (r : Shoot) (s : State) {k : Core} (quiet : inFlight r k = []) : inFlight r (r.core s k) = [] := by
  obtain ⟨run, member⟩ := r.core_run s k
  by_cases mine : (k.run != .off && k.member.pasid == r.pasid) = true
  · have on : k.run ≠ .off ∧ k.member.pasid = r.pasid := by simpa using mine
    obtain ⟨arch, snap⟩ := r.core_arch s on.1 on.2
    simp only [inFlight_eq, mine, if_true, List.filter_eq_nil_iff, List.mem_append, Bool.not_eq_true] at quiet
    simp only [inFlight_eq, run, member, mine, if_true, List.filter_eq_nil_iff, List.mem_append, arch, snap, Shoot.arch, List.mem_map, Bool.not_eq_true]
    rintro d (⟨x, hx, rfl⟩ | ⟨x, hx, rfl⟩)
    · exact r.catches_restartWalk (quiet x (.inl hx))
    · exact r.catches_restartWalk (quiet x (.inr hx))
  · simp only [inFlight_eq, run, member]
    rw [if_neg mine]

/-- Every core of the list is as the request leaves it, and no other changes. -/
theorem core_foldl_shoot (r : Shoot) {l : List Nat} (nodup : l.Nodup) (s : State) (d : Nat) :
    (l.foldl (fun s c => s.setCore c (r.core s (s.core c))) s).core d = if d ∈ l then r.core s (s.core d) else s.core d := by
  induction l generalizing s with
  | nil => rfl
  | cons c l ih =>
    obtain ⟨first, rest⟩ := List.nodup_cons.1 nodup
    rw [List.foldl_cons, ih rest, r.core_congr (s := s) (t := s.setCore c (r.core s (s.core c))) rfl]
    by_cases same : d = c
    · subst same
      simp [first]
    · rw [State.core_setCore_other _ _ same]
      simp [same]

theorem foldl_shoot_caches (r : Shoot) (l : List Nat) (s : State) : (l.foldl (fun s c => s.setCore c (r.core s (s.core c))) s).caches = s.caches := by
  induction l generalizing s with
  | nil => rfl
  | cons c l ih => exact ih _

theorem mem_coresOf {s : State} {d agent : Nat} (die : d / 96 = agent) (on : (s.core d).run ≠ .off) : d ∈ coresOf s agent := by
  refine List.mem_filter.2 ⟨mem_allCores fun idle => on ?_, by simpa [dieOf] using die⟩
  rw [idle]
  rfl

theorem die_of_mem_coresOf {s : State} {d agent : Nat} (h : d ∈ coresOf s agent) : d / 96 = agent := by simpa [dieOf] using (List.mem_filter.1 h).2

theorem nodup_coresOf {s : State} (rising : s.cores.rising = true) (agent : Nat) : (coresOf s agent).Nodup := (nodup_keys rising).filter _

/-! ### What a unit does -/

section Unit

variable {s : State} (r : Shoot) (agent : Nat)

/-- The die's cached leaves of the range are gone. -/
def dropRange (s : State) : State :=
  { s with caches := s.caches.filter fun x => !(x.agent == agent && x.pasid == r.pasid && r.hits x.base (pageBytes (leafSize x.leaf))) }

/-- Step 2 of the unit. -/
def shootCores (s : State) : State := (coresOf s agent).foldl (fun s c => s.setCore c (r.core s (s.core c))) (dropRange r agent s)

theorem shootAgent_eq (s : State) :
    ∃ m h x b, shootAgent s r agent = { (coresOf s agent).foldl (drainCore r) (shootCores r agent s) with mem := m, host := h, ecc := x, banks := b } :=
  foldl_drainBank_eq r _ _

theorem core_shootCores (rising : s.cores.rising = true) (d : Nat) :
    (shootCores r agent s).core d = if d ∈ coresOf s agent then r.core s (s.core d) else s.core d :=
  core_foldl_shoot r (nodup_coresOf rising agent) (dropRange r agent s) d

/-- The unit's cores all drain. -/
theorem foldl_drainCore (l : List Nat) (u : State) :
    (l.foldl (drainCore r) u).caches = u.caches ∧
      (∀ d, ((l.foldl (drainCore r) u).core d).arch.handles = (u.core d).arch.handles ∧ ((l.foldl (drainCore r) u).core d).snap.handles = (u.core d).snap.handles) ∧
      ∀ d, d ∉ l → (u.core d).FoliosOnly ((l.foldl (drainCore r) u).core d) := by
  induction l generalizing u with
  | nil => exact ⟨rfl, fun _ => ⟨rfl, rfl⟩, fun _ _ => .refl _⟩
  | cons c l ih =>
    have first := lateAccess_drainCore r u c
    obtain ⟨caches, handles, others⟩ := ih (drainCore r u c)
    refine ⟨caches.trans first.caches, fun d => ⟨(handles d).1.trans (first.handles d).1, (handles d).2.trans (first.handles d).2⟩, fun d hd => ?_⟩
    obtain ⟨head, tail⟩ := not_or.1 (fun x => hd (List.mem_cons.2 x))
    exact (first.others d head).trans (others d tail)

/-- Where nothing is in flight, the cores publish and no more. -/
theorem foldl_drainCore_quiet (l : List Nat) {u : State} (quiet : ∀ c ∈ l, inFlight r (u.core c) = []) :
    (∀ d, ∃ p, (l.foldl (drainCore r) u).core d = { u.core d with pub := p }) ∧ ∀ d, d ∉ l → (l.foldl (drainCore r) u).core d = u.core d := by
  induction l generalizing u with
  | nil => exact ⟨fun d => ⟨(u.core d).pub, rfl⟩, fun _ _ => rfl⟩
  | cons c l ih =>
    have first := pubOnly_drainCore (quiet c List.mem_cons_self)
    have published : ∀ d, ∃ p, (drainCore r u c).core d = { u.core d with pub := p } := fun d => by
      by_cases same : d = c
      · subst same
        exact first.own
      · exact ⟨(u.core d).pub, first.others d same⟩
    obtain ⟨pubs, others⟩ := ih (u := drainCore r u c) fun e he => by
      obtain ⟨p, hp⟩ := published e
      rw [hp]
      exact quiet e (List.mem_cons_of_mem _ he)
    refine ⟨fun d => ?_, fun d hd => ?_⟩
    · obtain ⟨p, hp⟩ := published d
      obtain ⟨q, hq⟩ := pubs d
      exact ⟨q, by rw [List.foldl_cons, hq, hp]⟩
    · obtain ⟨head, tail⟩ := not_or.1 (fun x => hd (List.mem_cons.2 x))
      rw [List.foldl_cons, others d tail, first.others d head]

theorem caches_shootAgent (s : State) : ∀ x ∈ (shootAgent s r agent).caches, x.agent = agent → x.pasid = r.pasid → r.hits x.base (pageBytes (leafSize x.leaf)) = false := by
  obtain ⟨m, h, e, b, eq⟩ := shootAgent_eq r agent s
  have caches : (shootAgent s r agent).caches = (dropRange r agent s).caches := by
    rw [eq]
    exact (foldl_drainCore r _ _).1.trans (foldl_shoot_caches r _ _)
  intro x hx ag pasid
  rw [caches] at hx
  have kept := (List.mem_filter.1 hx).2
  simpa [ag, pasid] using kept

variable (rising : s.cores.rising = true)
include rising

theorem others_shootAgent {d : Nat} (other : d / 96 ≠ agent) : (s.core d).FoliosOnly ((shootAgent s r agent).core d) := by
  obtain ⟨m, h, e, b, eq⟩ := shootAgent_eq r agent s
  have out : d ∉ coresOf s agent := fun mem => other (die_of_mem_coresOf mem)
  have core := core_shootCores r agent rising d
  rw [if_neg out] at core
  rw [eq, ← core]
  exact (foldl_drainCore r _ _).2.2 d out

theorem handles_shootAgent {d : Nat} (die : d / 96 = agent) (on : (s.core d).run ≠ .off) (mine : (s.core d).member.pasid = r.pasid) :
    ((shootAgent s r agent).core d).arch.handles = r.handles (s.core d).arch.handles ∧
      ((shootAgent s r agent).core d).snap.handles = r.handles (s.core d).snap.handles := by
  obtain ⟨m, h, e, b, eq⟩ := shootAgent_eq r agent s
  have core := core_shootCores r agent rising d
  rw [if_pos (mem_coresOf die on)] at core
  obtain ⟨arch, snap⟩ := r.core_arch s on mine
  obtain ⟨live, saved⟩ := (foldl_drainCore r (coresOf s agent) (shootCores r agent s)).2.1 d
  rw [core, arch] at live
  rw [core, snap] at saved
  rw [eq]
  exact ⟨live, saved⟩

/-- Nothing in flight: the unit is drained, and the cores of other units are as they were. -/
theorem quiet_shootAgent (quiet : ∀ d, d / 96 = agent → inFlight r (s.core d) = []) :
    drained (shootAgent s r agent) r agent = true ∧ ∀ d, d / 96 ≠ agent → (shootAgent s r agent).core d = s.core d := by
  obtain ⟨m, h, e, b, eq⟩ := shootAgent_eq r agent s
  have shot : ∀ d, d / 96 = agent → inFlight r ((shootCores r agent s).core d) = [] := fun d die => by
    rw [core_shootCores r agent rising d]
    split
    · exact r.core_quiet s (quiet d die)
    · exact quiet d die
  obtain ⟨pubs, others⟩ := foldl_drainCore_quiet r (coresOf s agent) (u := shootCores r agent s) fun d mem => shot d (die_of_mem_coresOf mem)
  refine ⟨List.all_eq_true.2 fun d mem => ?_, fun d other => ?_⟩
  · have die := die_of_mem_coresOf mem
    obtain ⟨p, hp⟩ := pubs d
    have core : (shootAgent s r agent).core d = { (shootCores r agent s).core d with pub := p } := by rw [eq]; exact hp
    rw [core]
    exact List.isEmpty_iff.2 (shot d die)
  · have out : d ∉ coresOf s agent := fun mem => other (die_of_mem_coresOf mem)
    have core := core_shootCores r agent rising d
    rw [if_neg out] at core
    rw [eq]
    exact (others d out).trans core

end Unit

/-! ### Its acknowledgement -/

/-- What follows the fifth acknowledgement leaves caches, requests and cores. -/
theorem shootDone_keeps (s : State) (r : Shoot) : (shootDone s r).caches = s.caches ∧ (shootDone s r).shoots = s.shoots ∧ (shootDone s r).cores = s.cores := by
  unfold shootDone
  cases r.block <;> cases r.ats <;> by_cases tear : r.tear = true <;> simp [tear, removeDrained]

theorem shootDone_block (s : State) {r : Shoot} {n : Nat} (block : r.block = some n) :
    ((shootDone s r).blocks.get .zero n).done = true ∧ ((shootDone s r).blocks.get .zero n).busy = false := by
  have blocks : (shootDone s r).blocks = s.blocks.put .zero n { s.blocks.get .zero n with done := true, busy := false } := by
    unfold shootDone
    simp only [block]
    cases r.ats <;> by_cases tear : r.tear = true <;> simp [tear, removeDrained]
  rw [blocks, Tab.get_put_same]
  exact ⟨rfl, rfl⟩

section Ack

variable {s : State} {r : Shoot} {rest : List Shoot} {agent : Nat} (shoots : s.shoots = r :: rest)
include shoots

theorem exec_ack_again (acked : r.acked.contains agent = true) : exec (.shootdownAgentAck agent) s = .next s := by
  change execShootdownAgentAck agent s = _
  simp only [execShootdownAgentAck, shoots]
  rw [if_pos (.inr acked)]

theorem exec_ack (unit : agent ≤ 4) (acked : r.acked.contains agent = false) :
    exec (.shootdownAgentAck agent) s =
      .next (if drained (shootAgent s r agent) r agent = false then shootAgent s r agent
        else if r.acked.length < 4 then { shootAgent s r agent with shoots := { r with acked := agent :: r.acked } :: rest }
        else shootDone { shootAgent s r agent with shoots := rest } r) := by
  change execShootdownAgentAck agent s = _
  have first : ¬(4 < agent ∨ r.acked.contains agent = true) := by
    rw [acked]
    simpa using unit
  simp only [execShootdownAgentAck, shoots, if_neg first]
  split
  · rfl
  · split <;> rfl

end Ack

/-! ### Requests -/

theorem exec_shootdownGo_words (s : State) (policy : Bool) (lo hi ctl : Word) (go : ctl.getLsbD 31 = false) :
    exec (.shootdownGo policy lo hi ctl) s =
      .next { s with blocks := s.blocks.put .zero (if policy then 1 else 0) { s.blocks.get .zero (if policy then 1 else 0) with lo := lo, hi := hi, ctl := ctl &&& 0x3FFFFF } } := by
  change execShootdownGo policy lo hi ctl s = _
  have no : bit ctl 31 = false := go
  simp only [execShootdownGo, no, if_true]

section Go

variable {s : State} {policy : Bool} {lo hi ctl : Word} (go : ctl.getLsbD 31 = true)
include go

/-- The block of a requester with the words written. -/
def writtenBlock (s : State) (n : Nat) (lo hi ctl : Word) : ControlBlock := { s.blocks.get .zero n with lo := lo, hi := hi, ctl := ctl &&& 0x3FFFFF }

theorem exec_shootdownGo_rejected {e : Nat}
    (why : (s.blocks.get .zero (if policy then 1 else 0)).busy = true ∧ e = 1 ∨
      (s.blocks.get .zero (if policy then 1 else 0)).busy = false ∧ boundsFault (ctl.getLsbD 21) lo.toNat hi.toNat = some e) :
    ∃ t, exec (.shootdownGo policy lo hi ctl) s = .next t ∧ (t.blocks.get .zero (if policy then 1 else 0)).err = e ∧
      (t.blocks.get .zero (if policy then 1 else 0)).done = true ∧ t.shoots = s.shoots ∧ t.cores = s.cores := by
  generalize hn : (if policy = true then 1 else 0) = n at why ⊢
  have yes : bit ctl 31 = true := go
  have run : exec (.shootdownGo policy lo hi ctl) s = .next { s with blocks := s.blocks.put .zero n ((writtenBlock s n lo hi ctl).reject e) } := by
    change execShootdownGo policy lo hi ctl s = _
    simp only [execShootdownGo, hn, yes, Bool.true_eq_false, if_false]
    rcases why with ⟨busy, rfl⟩ | ⟨idle, bounds⟩
    · rw [if_pos busy]
      rfl
    · have bounds' : boundsFault (bit ctl 21) lo.toNat hi.toNat = some e := bounds
      rw [if_neg (by simp [idle]), bounds']
      rfl
  refine ⟨_, run, ?_⟩
  simp only [Tab.get_put_same]
  exact ⟨rfl, rfl, trivial, trivial⟩

theorem exec_shootdownGo_queued (idle : (s.blocks.get .zero (if policy then 1 else 0)).busy = false) (bounds : boundsFault (ctl.getLsbD 21) lo.toNat hi.toNat = none) :
    ∃ t, exec (.shootdownGo policy lo hi ctl) s = .next t ∧ (t.blocks.get .zero (if policy then 1 else 0)).busy = true ∧
      (t.blocks.get .zero (if policy then 1 else 0)).done = false ∧ (t.blocks.get .zero (if policy then 1 else 0)).err = 0 ∧ t.cores = s.cores ∧
      t.shoots = s.shoots ++ [{ Shoot.own (bits ctl 19 0) with
        all := ctl.getLsbD 21, lo := lo.toNat, hi := hi.toNat, refresh := ctl.getLsbD 20, block := some (if policy then 1 else 0) }] := by
  generalize hn : (if policy = true then 1 else 0) = n at idle ⊢
  have yes : bit ctl 31 = true := go
  have run : exec (.shootdownGo policy lo hi ctl) s =
      .next (({ s with blocks := s.blocks.put .zero n { writtenBlock s n lo hi ctl with err := 0, done := false, busy := true } } : State).addShoot
        { Shoot.own (bits ctl 19 0) with all := ctl.getLsbD 21, lo := lo.toNat, hi := hi.toNat, refresh := ctl.getLsbD 20, block := some n }) := by
    change execShootdownGo policy lo hi ctl s = _
    have bounds' : boundsFault (bit ctl 21) lo.toNat hi.toNat = none := bounds
    simp only [execShootdownGo, hn, yes, Bool.true_eq_false, if_false]
    rw [if_neg (by simp [idle]), bounds']
    rfl
  refine ⟨_, run, ?_⟩
  simp only [State.addShoot, Tab.get_put_same]
  exact ⟨trivial, trivial, trivial, trivial, trivial⟩

end Go

/-- Settles O35: `exec_shootdownGo_*` for the requests; `shootAgent`'s laws for what a unit does, and `exec_ack` for its answer. -/
theorem shootdowns : Obligations.Shootdowns := by
  unfold Obligations.Shootdowns
  refine ⟨fun s policy lo hi ctl => ⟨exec_shootdownGo_words s policy lo hi ctl, fun go busy => ?busy, fun go idle part order => ?order, fun go idle part order aligned => ?aligned,
    fun go idle part order canon => ?canon, fun go idle bounds => ?queued, fun _ => rfl⟩, fun s agent none => ?none,
    fun s r rest agent shoots unit rising => ⟨exec_ack_again shoots, fun acked => ?ack⟩⟩
  case busy => exact exec_shootdownGo_rejected go (.inl ⟨busy, rfl⟩)
  case order =>
    refine exec_shootdownGo_rejected go (.inr ⟨idle, ?_⟩)
    rw [boundsFault, part, if_neg Bool.false_ne_true, if_pos order]
  case aligned =>
    refine exec_shootdownGo_rejected go (.inr ⟨idle, ?_⟩)
    have rises : ¬ hi.toNat ≤ lo.toNat := by omega
    rw [boundsFault, part, if_neg Bool.false_ne_true, if_neg rises, if_pos (aligned.imp_right .inl)]
  case canon =>
    refine exec_shootdownGo_rejected go (.inr ⟨idle, ?_⟩)
    have rises : ¬ hi.toNat ≤ lo.toNat := by omega
    rw [boundsFault, part, if_neg Bool.false_ne_true, if_neg rises, if_pos (.inr (.inr canon))]
  case queued =>
    have passes : boundsFault (ctl.getLsbD 21) lo.toNat hi.toNat = none := by
      rcases bounds with all | ⟨order, lo', hi', canon, canon'⟩
      · rw [boundsFault, if_pos all]
      · have rises : ¬ hi.toNat ≤ lo.toNat := by omega
        simp [boundsFault, rises, lo', hi', canon, canon']
    have low : bits ctl 19 0 = ctl.toNat % 2 ^ 20 := bits_low ctl 19
    obtain ⟨t, run, busy, done, err, cores, queue⟩ := exec_shootdownGo_queued go idle passes
    rw [low] at queue
    exact ⟨t, run, busy, done, err, cores, queue⟩
  case none =>
    change execShootdownAgentAck agent s = _
    unfold execShootdownAgentAck
    split
    · rfl
    · next r rest shoots =>
      rcases none with empty | beyond
      · exact nomatch shoots.symm.trans empty
      · rw [if_pos (.inl beyond)]
  case ack =>
    refine ⟨_, exec_ack shoots unit acked, ?_⟩
    generalize ht : (if drained (shootAgent s r agent) r agent = false then shootAgent s r agent
        else if r.acked.length < 4 then { shootAgent s r agent with shoots := { r with acked := agent :: r.acked } :: rest }
        else shootDone { shootAgent s r agent with shoots := rest } r) = t
    obtain ⟨caches, -, cores⟩ := shootDone_keeps { shootAgent s r agent with shoots := rest } r
    have keeps : t.caches = (shootAgent s r agent).caches ∧ t.cores = (shootAgent s r agent).cores := by
      rw [← ht]
      split
      · exact ⟨rfl, rfl⟩
      · split
        · exact ⟨rfl, rfl⟩
        · exact ⟨caches, cores⟩
    have core : ∀ d, t.core d = (shootAgent s r agent).core d := fun d => by rw [State.core, State.core, keeps.2]
    refine ⟨by rw [keeps.1]; exact caches_shootAgent r agent s, fun quiet => ?_, fun d other => ?_, fun d n die on mine live snap => ?_⟩
    · obtain ⟨drained', others⟩ := quiet_shootAgent r agent rising quiet
      rw [if_neg (by simp [drained'])] at ht
      refine ⟨fun few => ?_, fun five => ?_, fun five n block => ?_, fun d other => (core d).trans (others d other)⟩
      · rw [← ht, if_pos few]
      · rw [← ht, if_neg (by omega)]
        exact (shootDone_keeps _ r).2.1
      · rw [← ht, if_neg (by omega)]
        exact shootDone_block _ block
    · rw [core d]
      exact (others_shootAgent r agent rising other).restore
    · obtain ⟨arch, saved⟩ := handles_shootAgent r agent rising die on mine
      simp only [core d, Arch.handle, arch, saved, r.get_handles live, r.get_handles snap]
      exact ⟨trivial, trivial⟩

end Sys2Proof.Machine
end

section
/-!
SUPPORT. O39: the pre-emption of a gathering of one member, and its restore (R361 to R363).
-/

namespace Sys2Proof.Machine

/-! ### What a member's drain leaves -/

/-- A core that differs in its due results, its publish buffer and its folios, with every PRESENT folio still PRESENT. -/
def Core.Drained (k k' : Core) : Prop :=
  (∃ a b p f h, k' = { k with arch := { k.arch with due := a }, snap := { k.snap with due := b }, pub := p, folios := f, held := h }) ∧
    ∀ n, (k.folio n).pres = .present → (k'.folio n).pres = .present

theorem Core.Drained.refl (k : Core) : k.Drained k := ⟨⟨_, _, _, _, _, rfl⟩, fun _ h => h⟩

theorem Core.Drained.trans {a b c : Core} (h : a.Drained b) (g : b.Drained c) : a.Drained c := by
  obtain ⟨⟨x, y, p, f, e, rfl⟩, present⟩ := h
  obtain ⟨⟨x', y', p', f', e', rfl⟩, present'⟩ := g
  exact ⟨⟨x', y', p', f', e', rfl⟩, fun n hn => present' n (present n hn)⟩

/-- A touch changes no PRESENT folio. -/
theorem Core.drained_touch (k : Core) (f : Nat) : k.Drained (k.touch f) := by
  have set : ∀ x, (k.folio f).pres ≠ .present → ∀ n, (k.folio n).pres = .present → ((k.setFolio f x).folio n).pres = .present := by
    intro x absent n hn
    rwa [Core.folio_setFolio_other _ _ (by rintro rfl; exact absent hn)]
  unfold Core.touch
  split
  · next h => exact ⟨⟨_, _, _, _, _, rfl⟩, set _ (by rw [h]; exact fun e => nomatch e)⟩
  · next h => exact ⟨⟨_, _, _, _, _, rfl⟩, set _ (by rw [h]; exact fun e => nomatch e)⟩
  · exact .refl k

theorem Core.drained_touchAll (k : Core) (l : List Nat) : k.Drained (k.touchAll l) := by
  induction l generalizing k with
  | nil => exact .refl k
  | cons f l ih => exact (k.drained_touch f).trans (ih _)

/-- Every core has drained at most, and the saved members and the gatherings stand. -/
structure Drained (s t : State) : Prop where
  core : ∀ d, (s.core d).Drained (t.core d)
  saved : t.saved = s.saved
  gaths : t.gaths = s.gaths

theorem Drained.refl (s : State) : Drained s s := ⟨fun _ => .refl _, rfl, rfl⟩

theorem Drained.trans {s t u : State} (h : Drained s t) (g : Drained t u) : Drained s u :=
  ⟨fun d => (h.core d).trans (g.core d), g.saved.trans h.saved, g.gaths.trans h.gaths⟩

theorem drained_modCore (s : State) (c : Nat) {f : Core → Core} (h : (s.core c).Drained (f (s.core c))) : Drained s (s.modCore c f) where
  core d := by
    by_cases same : d = c
    · subst same
      rwa [State.core_modCore_same]
    · rw [State.core_modCore_other _ _ same]
      exact .refl _
  saved := rfl
  gaths := rfl

theorem LateStep.drained {c : Nat} {s t : State} (h : LateStep c s t) : Drained s t := by
  cases h with
  | memory => exact ⟨fun _ => .refl _, rfl, rfl⟩
  | fill => exact drained_modCore s c ⟨⟨_, _, _, _, _, rfl⟩, fun _ h => h⟩
  | touch e l => exact drained_modCore s e ((s.core e).drained_touchAll l)
  | pub => exact drained_modCore s c ⟨⟨_, _, _, _, _, rfl⟩, fun _ h => h⟩

theorem LateSteps.drained {c : Nat} {s t : State} (h : LateSteps c s t) : Drained s t := by
  induction h with
  | none => exact .refl s
  | tail _ step ih => exact ih.trans step.drained

theorem drained_drainMember (s : State) (c : Nat) : Drained s (drainMember s c) := by
  have settled : LateSteps c s (settleDue s c) := lateSteps_foldl (fun t d => by
    split
    · exact .refl c t
    · exact .refl c t
    · exact lateSteps_lateArrival t c _) _ s
  exact (settled.trans (lateSteps_performAll ..)).drained

/-- Where no operation has asked another module, no unit is left to finish. -/
theorem finishUnits_idle {s : State} {c : Nat} (idle : ∀ o ∈ (s.core c).ops, o.runs = []) : finishUnits s c = s := by
  unfold finishUnits
  generalize (s.core c).ops = l at idle
  induction l with
  | nil => rfl
  | cons o l ih =>
    have first : o.runs.isEmpty ∨ isFifoOp o.port = true := .inl (by rw [idle o List.mem_cons_self]; rfl)
    rw [List.foldl_cons, if_pos first]
    exact ih fun x hx => idle x (List.mem_cons_of_mem _ hx)

/-! ### The member's stop and halt -/

/-- A running member that stops is at its mark, with its counters, folios and operations. -/
theorem core_stopMember {s : State} {c : Nat} (run : (s.core c).run = .running) (moving : (s.core c).stopping = false) :
    (stopMember s c).core c = { (s.core c).rollback with stopping := true, stalled := (s.core c).stall c } := by
  have rolls : ¬((s.core c).run = .faulted ∨ (s.core c).run = .halted) := by rw [run]; simp
  obtain ⟨g, fabric⟩ := withdrawFabric_eq s c
  rw [stopMember, if_neg (by simp [moving]), State.core_modCore_same, fabric]
  change { (if (s.core c).run = .faulted ∨ (s.core c).run = .halted then s.core c else (s.core c).rollback) with stopping := true, stalled := (s.core c).stall c } = _
  rw [if_neg rolls]

theorem stopMember_keeps {s : State} {c : Nat} (run : (s.core c).run = .running) :
    ((stopMember s c).core c).run = .running ∧ ((stopMember s c).core c).snap = (s.core c).snap ∧ ((stopMember s c).core c).joins = (s.core c).joins ∧
      ((stopMember s c).core c).wdog = (s.core c).wdog ∧ ((stopMember s c).core c).member = (s.core c).member ∧ ((stopMember s c).core c).folios = (s.core c).folios ∧
      ((stopMember s c).core c).ops = (s.core c).ops := by
  by_cases stopping : (s.core c).stopping = true
  · rw [stopMember, if_pos stopping]
    exact ⟨run, rfl, rfl, rfl, rfl, rfl, rfl⟩
  · rw [core_stopMember run (by simpa using stopping)]
    exact ⟨run, rfl, rfl, rfl, rfl, rfl, rfl⟩

/-- The stop changes one core, and the gatherings' arrivals. -/
theorem stopMember_gaths (s : State) (c id : Nat) : ((stopMember s c).gath? id).map (·.id) = (s.gath? id).map (·.id) ∧ (stopMember s c).saved = s.saved := by
  have mapped : ∀ (f : Gath → Gath), (∀ x, (f x).id = x.id) → ((s.gaths.map f).find? fun x => x.id == id).map (·.id) = (s.gath? id).map (·.id) := by
    intro f keeps
    rw [List.find?_map]
    have test : ((fun x : Gath => x.id == id) ∘ f) = fun x => x.id == id := funext fun x => by simp [keeps]
    rw [test, State.gath?]
    cases s.gaths.find? fun x => x.id == id <;> simp [keeps]
  unfold stopMember
  split
  · exact ⟨rfl, rfl⟩
  · unfold withdrawFabric
    split
    · exact ⟨mapped _ fun x => by split <;> rfl, rfl⟩
    · exact ⟨rfl, rfl⟩

theorem endOnEngine_eq (s : State) (id e : Nat) : ∃ m h x b, endOnEngine s id e = { s with mem := m, host := h, ecc := x, banks := b } := by
  obtain ⟨m, h, x, b, performed⟩ := performWrites_eq s e fun _ => true
  rw [← performBank] at performed
  have either : ∀ here : Bool, ∃ m h x b, (if here then (performBank s e).modBank e fun b => { Bank.idle with queue := b.queue }
      else s.modBank e fun b => { b with queue := b.queue.filter fun q => q.2 != id }) = { s with mem := m, host := h, ecc := x, banks := b } := by
    intro here
    cases here
    · exact ⟨s.mem, s.host, s.ecc, _, rfl⟩
    · rw [performed]
      exact ⟨m, h, x, _, rfl⟩
  exact either _

theorem endOnEngines_eq (s : State) (l : BankList) : ∃ m h x b, endOnEngines s l = { s with mem := m, host := h, ecc := x, banks := b } := by
  unfold endOnEngines
  generalize listEngines l.stack l.mask = es
  induction es generalizing s with
  | nil => exact ⟨s.mem, s.host, s.ecc, s.banks, rfl⟩
  | cons e es ih =>
    obtain ⟨m, h, x, b, first⟩ := endOnEngine_eq s l.id e
    obtain ⟨m', h', x', b', rest⟩ := ih (endOnEngine s l.id e)
    exact ⟨m', h', x', b', by rw [List.foldl_cons, rest, first]⟩

theorem foldl_detachList_eq (l : List BankList) (s : State) : ∃ m h x b, l.foldl detachList s = { s with mem := m, host := h, ecc := x, banks := b } := by
  induction l generalizing s with
  | nil => exact ⟨s.mem, s.host, s.ecc, s.banks, rfl⟩
  | cons b l ih =>
    have first : ∃ m h x e, detachList s b = { s with mem := m, host := h, ecc := x, banks := e } := by
      unfold detachList
      split
      · exact ⟨s.mem, s.host, s.ecc, s.banks, rfl⟩
      · exact endOnEngines_eq s b
    obtain ⟨m, h, x, e, eq⟩ := first
    obtain ⟨m', h', x', e', rest⟩ := ih (detachList s b)
    exact ⟨m', h', x', e', by rw [List.foldl_cons, rest, eq]⟩

/-- The registers that are saved are those of the mark. -/
theorem haltMember_leaves {s : State} {c : Nat} (run : (s.core c).run = .running) :
    (haltMember s c).core c = { s.core c with arch := (s.core c).snap.walksAgain } ∧ (haltMember s c).saved = s.saved ∧ (haltMember s c).gaths = s.gaths := by
  unfold haltMember
  simp only []
  obtain ⟨m, h, x, b, eq⟩ := foldl_detachList_eq ((s.modCore c fun k => if k.run = .halted then k else { k with arch := k.snap.walksAgain }).core c).lists
    (s.modCore c fun k => if k.run = .halted then k else { k with arch := k.snap.walksAgain })
  rw [eq]
  have core : (s.modCore c fun k => if k.run = .halted then k else { k with arch := k.snap.walksAgain }).core c = { s.core c with arch := (s.core c).snap.walksAgain } := by
    rw [State.core_modCore_same, if_neg (by rw [run]; simp)]
  exact ⟨core, rfl, rfl⟩

/-! ### The endpaper of a save -/

theorem foldl_endpaper {α : Type} {f : Endpaper → α → Endpaper} (h : ∀ p a, (f p a).state = p.state ∧ (f p a).coreid = p.coreid) (l : List α) (p : Endpaper) :
    (l.foldl f p).state = p.state ∧ (l.foldl f p).coreid = p.coreid := by
  induction l generalizing p with
  | nil => exact ⟨rfl, rfl⟩
  | cons a l ih => exact ⟨(ih _).1.trans (h p a).1, (ih _).2.trans (h p a).2⟩

/-- The endpaper is in state SAVED and names the core. -/
theorem savedEndpaper (s : State) (c : Nat) (k : Core) (l : List Held) :
    (owedMap s c l (dropMap k (saveEndpaper c k))).state = 1 ∧ (owedMap s c l (dropMap k (saveEndpaper c k))).coreid = c := by
  have owed := foldl_endpaper (f := fun p x => if x.dirty then p.setEntry x.folio { MapEntry.zero with kind := 4, node := s.node (dieOf c), core := c } else p)
    (fun p x => by split <;> exact ⟨rfl, rfl⟩) l (dropMap k (saveEndpaper c k))
  have drop := foldl_endpaper (f := fun p f => if (k.folio f).pres = .present ∧ (k.folio f).dirty = true ∧ noTiles (folioData k f) = true then p.setEntry f { MapEntry.zero with kind := 6 } else p)
    (fun p x => by split <;> exact ⟨rfl, rfl⟩) (upto 36 16) (saveEndpaper c k)
  exact ⟨owed.1.trans drop.1, owed.2.trans drop.2⟩

theorem mem_holdFolios {k : Core} {f : Nat} (stamp : Nat) (hf : f < 141) (present : (k.folio f).pres = .present) (tiles : noTiles (folioData k f) = false) :
    ∃ x ∈ holdFolios stamp k, x.folio = f ∧ x.gath = k.member.gath ∧ x.rank = k.member.rank := by
  refine ⟨{ gath := k.member.gath, rank := k.member.rank, folio := f, data := folioData k f, dirty := (k.folio f).dirty, stamp := stamp + f, pushing := false }, ?_, rfl, rfl, rfl⟩
  exact List.mem_filterMap.2 ⟨f, List.mem_range.2 hf, if_pos ⟨present, tiles⟩⟩

/-! ### The pre-emption of one member -/

theorem find_map_setGath (l : List Gath) (g : Gath) (there : (l.find? fun x => x.id == g.id).isSome) :
    (l.map fun x => if x.id = g.id then g else x).find? (fun x => x.id == g.id) = some g := by
  induction l with
  | nil => exact nomatch there
  | cons x l ih =>
    by_cases same : x.id = g.id
    · simp [same]
    · have tail : (l.find? fun x => x.id == g.id).isSome := by simpa [same] using there
      simpa [same] using ih tail

/-- The gathering set is found under its number. -/
theorem gath_setGath {s : State} {g : Gath} (there : (s.gath? g.id).isSome) : (s.setGath g).gath? g.id = some g := find_map_setGath s.gaths g there

theorem core_setGath (s : State) (g : Gath) (c : Nat) : (s.setGath g).core c = s.core c := rfl

theorem saved_setGath (s : State) (g : Gath) : (s.setGath g).saved = s.saved := rfl

theorem state_setGath {s : State} {g : Gath} (there : (s.gath? g.id).isSome) : ((s.setGath g).gath? g.id).map (·.state) = some g.state := by
  rw [gath_setGath there]
  rfl

/-- A gathering that has been saved. -/
def savedGath (g : Gath) (fabric : List (Nat × Nat)) : Gath := { g with state := .saved, on := [], fabric := fabric }

/-- The state in which the member of a gathering of one is saved. -/
def settledMember (s : State) (c : Nat) : State := haltMember (finishUnits (drainMember (stopMember s c) c) c) c

/-- The save of that member. -/
def savedHere (u : State) (c : Nat) : Saved :=
  savedOf c (u.core c) (owedMap u c (holdFolios u.fresh (u.core c)) (dropMap (u.core c) (saveEndpaper c (u.core c))))

/-- What the save of a member says. -/
theorem savedHere_holds (u : State) (c : Nat) :
    (savedHere u c).ep.state = 1 ∧ (savedHere u c).ep.coreid = c ∧ (savedHere u c).gath = (u.core c).member.gath ∧ (savedHere u c).rank = (u.core c).member.rank ∧
      (savedHere u c).arch = (u.core c).arch.blockPart ∧ (savedHere u c).joins = (u.core c).joins ∧ (savedHere u c).wdog = (u.core c).wdog ∧
      (savedHere u c).faulted = ((u.core c).run == .faulted) ∧ (savedHere u c).halted = ((u.core c).run == .halted) := by
  obtain ⟨state, coreid⟩ := savedEndpaper u c (u.core c) (holdFolios u.fresh (u.core c))
  exact ⟨state, coreid, rfl, rfl, rfl, rfl, rfl, rfl, rfl⟩

theorem saveMember_eq {u w : State} {v : Saved} (hv : savedHere u c = v) (written : writeEager u v = .ok w) :
    ∃ out n, saveMember u c = .ok (({ w with saved := w.saved ++ [v], fresh := n, hostOut := out } : State).modCore c fun k =>
      { k.vacate with held := holdFolios u.fresh (u.core c) ++ k.held }) := by
  subst hv
  rw [savedHere] at written
  simp only [saveMember, written]
  exact ⟨_, _, rfl⟩

theorem saveMember_leaves {u w : State} {v : Saved} (hv : savedHere u c = v) (written : writeEager u v = .ok w) :
    ∃ t, saveMember u c = .ok t ∧ t.core c = { (w.core c).vacate with held := holdFolios u.fresh (u.core c) ++ (w.core c).held } ∧ t.gaths = w.gaths ∧
      t.saved = w.saved ++ [v] := by
  obtain ⟨out, n, save⟩ := saveMember_eq hv written
  have core : (({ w with saved := w.saved ++ [v], fresh := n, hostOut := out } : State).modCore c fun k =>
      { k.vacate with held := holdFolios u.fresh (u.core c) ++ k.held }).core c = { (w.core c).vacate with held := holdFolios u.fresh (u.core c) ++ (w.core c).held } :=
    State.core_modCore_same ..
  exact ⟨_, save, core, rfl, rfl⟩

section Preempt

variable {s : State} {c : Nat} (run : (s.core c).run = .running) (idle : ∀ o ∈ (s.core c).ops, o.runs = [])
include run idle

theorem finishUnits_drained : finishUnits (drainMember (stopMember s c) c) c = drainMember (stopMember s c) c := by
  apply finishUnits_idle
  obtain ⟨-, -, -, -, -, -, ops⟩ := stopMember_keeps run
  obtain ⟨⟨a, b, p, f, h, eq⟩, -⟩ := (drained_drainMember (stopMember s c) c).core c
  rw [eq]
  exact ops ▸ idle

theorem settledMember_eq : settledMember s c = haltMember (drainMember (stopMember s c) c) c := by rw [settledMember, finishUnits_drained run idle]

/-- The settled member: at its mark, running, with its counters, and every PRESENT folio still PRESENT. -/
theorem core_settledMember :
    (∃ due, ((settledMember s c).core c).arch = { (s.core c).snap with due := due }) ∧ ((settledMember s c).core c).run = .running ∧
      ((settledMember s c).core c).joins = (s.core c).joins ∧ ((settledMember s c).core c).wdog = (s.core c).wdog ∧
      ((settledMember s c).core c).member = (s.core c).member ∧ (∀ n, ((s.core c).folio n).pres = .present → (((settledMember s c).core c).folio n).pres = .present) ∧
      (settledMember s c).saved = s.saved ∧ ((settledMember s c).gath? · |>.isSome) = (s.gath? · |>.isSome) := by
  obtain ⟨running, snap, joins, wdog, member, folios, -⟩ := stopMember_keeps run
  have drained := drained_drainMember (stopMember s c) c
  obtain ⟨⟨a, b, p, f, h, eq⟩, present⟩ := drained.core c
  have still : ((drainMember (stopMember s c) c).core c).run = .running := by rw [eq]; exact running
  obtain ⟨core, saved, gaths⟩ := haltMember_leaves still
  rw [settledMember_eq run idle, core]
  refine ⟨⟨b.map restartWalk, ?_⟩, still, ?_, ?_, ?_, fun n hn => ?_, ?_, ?_⟩
  · rw [eq, Arch.walksAgain]
    simp only [snap]
  · rw [eq]; exact joins
  · rw [eq]; exact wdog
  · rw [eq]; exact member
  · exact present n (by rw [Core.folio, folios]; exact hn)
  · rw [saved, drained.saved]
    exact (stopMember_gaths s c 0).2
  · funext id
    rw [State.gath?, gaths, drained.gaths]
    have ids := (stopMember_gaths s c id).1
    rw [← Option.isSome_map (f := fun g : Gath => g.id), ← Option.isSome_map (f := fun g : Gath => g.id)]
    exact congrArg Option.isSome ids

theorem preempt_one {g : Gath} (members : s.membersOf g.id = [c]) {t : State} (save : saveMember (settledMember s c) c = .ok t) :
    preempt s g = .ok (t.setGath (savedGath g (((t.gath? g.id).map (·.fabric)).getD g.fabric))) := by
  have units : unitsSettled ((finishUnits (drainMember (stopMember s c) c) c).core c) = true := by
    rw [finishUnits_drained run idle]
    obtain ⟨-, -, -, -, -, -, ops⟩ := stopMember_keeps run
    obtain ⟨⟨a, b, p, f, h, eq⟩, -⟩ := (drained_drainMember (stopMember s c) c).core c
    have none : ∀ o ∈ ((drainMember (stopMember s c) c).core c).ops, o.runs = [] := by
      rw [eq]
      exact ops ▸ idle
    exact List.all_eq_true.2 fun o ho => by rw [none o ho]; rfl
  rw [settledMember] at save
  simp only [preempt, members, List.foldl_cons, List.foldl_nil, List.all_cons, List.all_nil, units, Bool.and_true, if_true, saveMembers, save]
  rfl

/-- What the pre-emption of a gathering of one leaves. -/
theorem preempt_leaves {g : Gath} (members : s.membersOf g.id = [c]) {u w : State} {v : Saved} (hu : settledMember s c = u) (hv : savedHere u c = v)
    (written : writeEager u v = .ok w) (known : (w.gath? g.id).isSome) :
    ∃ t, preempt s g = .ok t ∧ t.core c = { (w.core c).vacate with held := holdFolios u.fresh (u.core c) ++ (w.core c).held } ∧
      (t.gath? g.id).map (·.state) = some .saved ∧ t.saved = w.saved ++ [v] := by
  obtain ⟨t, save, core, gaths, saved⟩ := saveMember_leaves hv written
  rw [← hu] at save
  refine ⟨_, preempt_one run idle members save, (core_setGath ..).trans core, ?_, (saved_setGath ..).trans saved⟩
  have there : (t.gath? g.id).isSome := by
    rw [State.gath?, gaths]
    exact known
  have found := state_setGath (g := savedGath g (((t.gath? g.id).map (·.fabric)).getD g.fabric)) there
  exact found

end Preempt

theorem exec_preemptRequest {s t : State} {g : Gath} (there : s.gath? g.id = some g) (running : g.state = .running) (done : preempt s g = .ok t) :
    exec (.preemptRequest g.id) s = .next t := by
  change execPreemptRequest g.id s = _
  simp [execPreemptRequest, there, running, done]

/-! ### Restore -/

/-- What an installed folio leaves of the registers of the sequencer block. -/
def Arch.SameBlock (a b : Arch) : Prop := b.pc = a.pc ∧ b.count = a.count ∧ b.loops = a.loops ∧ b.calls = a.calls ∧ b.fstat = a.fstat

theorem Arch.SameBlock.refl (a : Arch) : a.SameBlock a := ⟨rfl, rfl, rfl, rfl, rfl⟩

theorem Arch.SameBlock.trans {a b c : Arch} (h : a.SameBlock b) (g : b.SameBlock c) : a.SameBlock c :=
  ⟨g.1.trans h.1, g.2.1.trans h.2.1, g.2.2.1.trans h.2.2.1, g.2.2.2.1.trans h.2.2.2.1, g.2.2.2.2.trans h.2.2.2.2⟩

theorem Arch.sameBlock_foldl {α : Type} {f : Arch → α → Arch} (h : ∀ (a : Arch) (x : α), a.SameBlock (f a x)) (l : List α) (a : Arch) : a.SameBlock (l.foldl f a) := by
  induction l generalizing a with
  | nil => exact .refl a
  | cons x l ih => exact (h a x).trans (ih _)

theorem Arch.sameBlock_setTag (a : Arch) (n : Nat) (e : Word) : a.SameBlock (a.setTag n e) := ⟨rfl, rfl, rfl, rfl, rfl⟩

theorem Arch.sameBlock_tagInstall (a : Arch) (key z way : Nat) : a.SameBlock (a.tagInstall key z way) := by
  have young : ∀ (b : Arch) (set : Nat), b.SameBlock (b.makeYoungest set way) := fun b set =>
    Arch.sameBlock_foldl (fun x w => by
      simp only []
      split
      · exact x.sameBlock_setTag ..
      · split
        · exact x.sameBlock_setTag ..
        · exact .refl x) _ b
  unfold Arch.tagInstall
  simp only []
  refine .trans ?_ ((Arch.sameBlock_setTag _ _ _).trans (young _ _))
  split
  · split
    · exact .refl a
    · exact a.sameBlock_setTag ..
  · exact .refl a

theorem Arch.sameBlock_apply (a : Arch) (o : TagOp) : a.SameBlock (TagOp.apply a o) := by
  cases o with
  | install key z way => exact a.sameBlock_tagInstall key z way
  | delete key z =>
    change a.SameBlock (a.tagDelete key z)
    unfold Arch.tagDelete
    split
    · exact a.sameBlock_setTag ..
    · exact .refl a
  | clear slot => exact a.sameBlock_setTag ..

theorem Arch.sameBlock_install (a : Arch) (f : Nat) (d : Folio) : a.SameBlock (a.install f d) := by
  cases d with
  | tags t => exact Arch.SameBlock.trans ⟨rfl, rfl, rfl, rfl, rfl⟩ (Arch.sameBlock_foldl Arch.sameBlock_apply _ _)
  | _ => exact ⟨rfl, rfl, rfl, rfl, rfl⟩

/-- What installed folios leave of a core. -/
structure Core.Restored (k k' : Core) : Prop where
  arch : k.arch.SameBlock k'.arch
  run : k'.run = k.run
  marked : k'.marked = k.marked
  joins : k'.joins = k.joins
  wdog : k'.wdog = k.wdog
  member : k'.member = k.member
  folios : k'.folios = k.folios
  held : k'.held = k.held

theorem Core.Restored.refl (k : Core) : k.Restored k := ⟨.refl _, rfl, rfl, rfl, rfl, rfl, rfl, rfl⟩

theorem Core.Restored.trans {a b c : Core} (h : a.Restored b) (g : b.Restored c) : a.Restored c :=
  ⟨h.arch.trans g.arch, g.run.trans h.run, g.marked.trans h.marked, g.joins.trans h.joins, g.wdog.trans h.wdog, g.member.trans h.member, g.folios.trans h.folios,
    g.held.trans h.held⟩

theorem Core.restored_install (k : Core) (f : Nat) (d : Folio) : k.Restored (k.install f d) := by
  have arch := k.arch.sameBlock_install f d
  cases d with
  | latch l =>
    unfold Core.install
    simp only []
    split
    · exact ⟨arch, rfl, rfl, rfl, rfl, rfl, rfl, rfl⟩
    · exact ⟨arch, rfl, rfl, rfl, rfl, rfl, rfl, rfl⟩
  | _ => exact ⟨arch, rfl, rfl, rfl, rfl, rfl, rfl, rfl⟩

theorem Core.restored_installs (l : List Held) (k : Core) : k.Restored (l.foldl (fun k x => k.install x.folio x.data) k) := by
  induction l generalizing k with
  | nil => exact .refl k
  | cons x l ih => exact (k.restored_install x.folio x.data).trans (ih _)

/-- The state of every map entry after the restore. -/
theorem get_restoreFolios (a : Arch) (own others : List Held) (pulls : List Nat) {f : Nat} (hf : f < 141) (d : FolioState) :
    (restoreFolios a own others pulls).get d f = match own.find? fun h => h.folio == f with
      | some h => { pres := .present, dirty := h.dirty || a.tagOps.any fun o => o.folio == f }
      | none => { pres := if pulls.contains f then .inFlight else if others.any fun h => h.folio == f then .owed else .absent, dirty := false } := by
  have sets : ∀ (g : Nat → FolioState) (n : Nat) (t : Tab FolioState), f < n → ((List.range n).foldl (fun (t : Tab FolioState) i => t.set i (g i)) t).get d f = g f := by
    intro g n
    induction n with
    | zero => exact fun _ h => nomatch h
    | succ n ih =>
      intro t h
      rw [List.range_succ, List.foldl_append, List.foldl_cons, List.foldl_nil]
      by_cases last : f = n
      · rw [last, Tab.get_set_same]
      · rw [Tab.get_set_other _ _ _ last]
        exact ih t (by omega)
  exact sets (fun f => match own.find? fun h => h.folio == f with
      | some h => { pres := .present, dirty := h.dirty || a.tagOps.any fun o => o.folio == f }
      | none => { pres := if pulls.contains f then .inFlight else if others.any fun h => h.folio == f then .owed else .absent, dirty := false }) 141 .empty hf

theorem foldl_requeueList_eq (c : Nat) (l : List BankList) (s : State) : ∃ b, l.foldl (requeueList c) s = { s with banks := b } := by
  have queued : ∀ (id : Nat) (es : List Nat) (u : State), ∃ b, enqueueList c id es u = { u with banks := b } := by
    intro id es
    induction es with
    | nil => exact fun u => ⟨u.banks, rfl⟩
    | cons e es ih =>
      intro u
      obtain ⟨b, eq⟩ := ih (u.modBank e fun b => { b with queue := b.queue ++ [(c, id)] })
      exact ⟨b, by rw [enqueueList, eq]; rfl⟩
  induction l generalizing s with
  | nil => exact ⟨s.banks, rfl⟩
  | cons x l ih =>
    have first : ∃ b, requeueList c s x = { s with banks := b } := by
      unfold requeueList
      split
      · exact ⟨s.banks, rfl⟩
      · exact queued ..
    obtain ⟨b, eq⟩ := first
    obtain ⟨b', rest⟩ := ih (requeueList c s x)
    exact ⟨b', by rw [List.foldl_cons, rest, eq]⟩

/-- The base of the restored core, before its own folios are installed. -/
def restoredBase (v : Saved) (k : Core) (c : Nat) : Core :=
  let own := k.held.filter fun x => x.gath == v.gath && x.rank == v.rank
  let others := k.held.filter fun x => !(x.gath == v.gath && x.rank == v.rank)
  { k.vacate with
    held := others, arch := v.arch, snap := v.arch, marked := true, phaseDone := v.phaseDone, shape := v.shape, joins := v.joins, ceStat := v.ceStat, wdog := v.wdog,
    ops := v.ops.map (Op.restored c), lists := (v.lists.filter fun l => !l.counted).map (BankList.restored c), scratch := v.folio0, veDone := v.veDone, veMetric := v.veMetric, exit := v.exit, ep := { v.ep with coreid := c, state := if v.faulted then 2 else 0 },
    member := v.member, run := if v.faulted then .faulted else if v.halted then .halted else .running, folios := restoreFolios v.arch own others (if v.coreid = c then v.pulls else []) }

theorem restoreCore_restored (v : Saved) (k : Core) (c : Nat) : (restoredBase v k c).Restored (restoreCore v k c) := Core.restored_installs _ _

/-- The member on its core. -/
theorem core_restoreMember (fill : BitVec 512) (s : State) (v : Saved) (c : Nat) :
    (restoreMember fill s v c).core c = { restoreCore v (s.core c) c with fill := fill } ∧ (restoreMember fill s v c).saved = s.saved ∧ (restoreMember fill s v c).gaths = s.gaths := by
  unfold restoreMember
  simp only []
  obtain ⟨b, eq⟩ := foldl_requeueList_eq c ((s.modCore c fun k => { restoreCore v k c with fill := fill }).core c).lists (s.modCore c fun k => { restoreCore v k c with fill := fill })
  have core : (s.modCore c fun k => { restoreCore v k c with fill := fill }).core c = { restoreCore v (s.core c) c with fill := fill } :=
    State.core_modCore_same ..
  rw [eq]
  exact ⟨core, rfl, rfl⟩

/-- A core that every update keeps. -/
theorem foldl_modCore_keeps {f : Core → Core} {c : Nat} (l : List Nat) {s : State} (keeps : f (s.core c) = s.core c) :
    (l.foldl (fun s d => s.modCore d f) s).core c = s.core c ∧ (l.foldl (fun s d => s.modCore d f) s).saved = s.saved ∧
      (l.foldl (fun s d => s.modCore d f) s).gaths = s.gaths := by
  induction l generalizing s with
  | nil => exact ⟨rfl, rfl, rfl⟩
  | cons d l ih =>
    have first : (s.modCore d f).core c = s.core c := by
      by_cases same : c = d
      · subst same
        rw [State.core_modCore_same, keeps]
      · exact State.core_modCore_other _ _ same
    obtain ⟨core, saved, gaths⟩ := ih (s := s.modCore d f) (by rw [first, keeps])
    exact ⟨core.trans first, saved, gaths⟩

/-- What a restore does with what the cores hold for the gathering. -/
def droppedPeers (gath : Nat) (old : List (Nat × Nat)) (on : List Nat) (k : Core) : Core :=
  let k := dropClean gath k
  { k with held := k.held.map fun x => if x.gath = gath then { x with data := x.data.movePeers old on } else x }

/-- A core that holds nothing for the gathering keeps what it holds. -/
theorem droppedPeers_none {gath : Nat} {k : Core} (none : ∀ x ∈ k.held, x.gath ≠ gath) (old : List (Nat × Nat)) (on : List Nat) : droppedPeers gath old on k = k := by
  have clean : (k.held.filter fun x => x.gath == gath && !x.dirty) = [] := by
    refine List.filter_eq_nil_iff.2 fun x hx => ?_
    simp [none x hx]
  have dropped : dropClean gath k = k := by rw [dropClean, clean]; rfl
  have same : (k.held.map fun x => if x.gath = gath then { x with data := x.data.movePeers old on } else x) = k.held := by
    refine (List.map_congr_left fun x hx => ?_).trans (List.map_id _)
    rw [if_neg (none x hx)]
    rfl
  simp only [droppedPeers, dropped, same]

/-- The due loads of a restored core name the cores that now hold the peers. -/
def Core.movedPeers (old : List (Nat × Nat)) (on : List Nat) (k : Core) : Core :=
  { k with arch := { k.arch with due := k.arch.due.map (movePeer old on) }, snap := { k.snap with due := k.snap.due.map (movePeer old on) } }

section Restore

variable {s : State} {g : Gath} {v : Saved} {c : Nat} (there : s.gath? g.id = some g) (state : g.state = .saved) (saved : s.saved.filter (fun x => x.gath == g.id) = [v])
  (rank : v.rank = 0) (free : freeCore s c = true)
include there state saved rank free

/-- The restore of a gathering of one member. -/
theorem exec_contextRestore_one :
    exec (.contextRestore g.id [c]) s = .next (
      let old := [(v.coreid, v.rank)]
      let r := restoreMember fillBundle { s with saved := s.saved.filter fun x => x.gath != g.id } v c
      let m := r.modCore c (Core.movedPeers old [c])
      let t := (allCores m).foldl (fun s d => s.modCore d (droppedPeers g.id old [c])) m
      ({ t with vault := t.vault.map fun (x : Kept) => if x.gath = g.id then { x with data := x.data.movePeers old [c] } else x } : State).setGath
        { g with state := .running, on := [c] }) := by
  change execContextRestore g.id [c] s = _
  have goes : ¬(g.state ≠ .saved ∨ [c].length ≠ [v].length ∨ (!decide [c].Nodup) = true ∨ (! [c].all (freeCore s)) = true) := by simp [state, free]
  have on : [c].getD v.rank 0 = c := by rw [rank]; rfl
  simp only [execContextRestore, there, saved]
  rw [if_neg goes]
  simp only [List.foldl_cons, List.foldl_nil, List.map_cons, List.map_nil, on]
  rfl

theorem contextRestore_one (alone : ∀ x ∈ (s.core c).held, x.gath = g.id → x.rank = 0) :
    ∃ t, exec (.contextRestore g.id [c]) s = .next t ∧
      (∃ k, (restoredBase v (s.core c) c).Restored k ∧ t.core c = Core.movedPeers [(v.coreid, v.rank)] [c] k) ∧
      (t.gath? g.id).map (·.state) = some .running ∧ t.saved = s.saved.filter fun x => x.gath != g.id := by
  have gath : v.gath = g.id := eq_of_beq (List.mem_filter (p := fun x : Saved => x.gath == g.id).1 (saved ▸ List.mem_singleton_self v)).2
  obtain ⟨core, savedR, gathsR⟩ := core_restoreMember fillBundle { s with saved := s.saved.filter fun x => x.gath != g.id } v c
  generalize hr : restoreMember fillBundle { s with saved := s.saved.filter fun x => x.gath != g.id } v c = r at core savedR gathsR
  have base : (restoredBase v (s.core c) c).Restored (r.core c) := by
    rw [core]
    exact (restoreCore_restored v (s.core c) c).trans ⟨.refl _, rfl, rfl, rfl, rfl, rfl, rfl, rfl⟩
  have nothing : ∀ x ∈ (r.core c).held, x.gath ≠ g.id := by
    intro x hx same
    rw [base.held] at hx
    obtain ⟨held, other⟩ := List.mem_filter.1 hx
    simp [gath, same, rank, alone x held same] at other
  have moved : (r.modCore c (Core.movedPeers [(v.coreid, v.rank)] [c])).core c = Core.movedPeers [(v.coreid, v.rank)] [c] (r.core c) := State.core_modCore_same ..
  generalize hm : r.modCore c (Core.movedPeers [(v.coreid, v.rank)] [c]) = m at moved
  have keeps : droppedPeers g.id [(v.coreid, v.rank)] [c] (m.core c) = m.core c := droppedPeers_none (by rw [moved]; exact nothing) _ _
  obtain ⟨core', saved', gaths'⟩ := foldl_modCore_keeps (allCores m) keeps
  have run := exec_contextRestore_one there state saved rank free
  simp only [hr, hm] at run
  refine ⟨_, run, ⟨r.core c, base, core'.trans moved⟩, ?_, ?_⟩
  · have found := gath_setGath (g := { g with state := .running, on := [c] })
      (s := { (allCores m).foldl (fun s d => s.modCore d (droppedPeers g.id [(v.coreid, v.rank)] [c])) m with
        vault := ((allCores m).foldl (fun s d => s.modCore d (droppedPeers g.id [(v.coreid, v.rank)] [c])) m).vault.map fun (x : Kept) =>
          if x.gath = g.id then { x with data := x.data.movePeers [(v.coreid, v.rank)] [c] } else x }) (by
        change (List.find? _ (State.gaths _)).isSome
        rw [gaths', ← hm]
        change (List.find? _ r.gaths).isSome
        rw [gathsR]
        change (s.gath? g.id).isSome
        rw [there]
        rfl)
    exact congrArg (Option.map (·.state)) found
  · change (List.foldl _ m (allCores m)).saved = _
    rw [saved', ← hm]
    exact savedR

end Restore

/-- Settles O39: the save is `savedHere` of the settled member; the restored core is `restoredBase` with the member's own folios
installed. -/
theorem preemptAndRestore : Obligations.PreemptAndRestore := by
  unfold Obligations.PreemptAndRestore
  refine ⟨?preempt, fun s g v c there state saved rank free faulted halted alone => ?restore⟩
  case preempt =>
    intro s g c there running members run idle u v w written savedW coreW gathsW
    obtain ⟨⟨due, arch⟩, runU, joins, wdog, member, present, -, gathU⟩ := core_settledMember run idle
    have hu : settledMember s c = u := rfl
    have hv : savedHere u c = v := rfl
    rw [hu] at arch runU joins wdog member present gathU
    have known : (w.gath? g.id).isSome := by
      rw [State.gath?, gathsW]
      exact (congrFun gathU g.id).trans (by rw [there]; rfl)
    obtain ⟨t, done, core, gath, saves⟩ := preempt_leaves run idle members hu hv written known
    obtain ⟨state, coreid, gathV, rank, archV, joinsV, wdogV, faulted, halted⟩ := savedHere_holds u c
    rw [hv] at state coreid gathV rank archV joinsV wdogV faulted halted
    clear_value u v
    refine ⟨t, exec_preemptRequest there running done, ?_⟩
    rw [core, gath, saves, savedW, gathV, rank, archV, joinsV, wdogV, faulted, halted, arch, joins, wdog, member, runU]
    refine ⟨rfl, rfl, rfl, state, coreid, rfl, rfl, rfl, rfl, rfl, rfl, rfl, rfl, rfl, rfl, rfl, rfl, rfl, fun f hf pres tiles => ?_⟩
    obtain ⟨x, mem, folio, gath, rank⟩ := mem_holdFolios u.fresh hf (present f pres) tiles
    exact ⟨x, List.mem_append.2 (.inl mem), folio, by rw [gath, member], by rw [rank, member]⟩
  case restore =>
    obtain ⟨t, run, ⟨k, base, core⟩, gath, saved'⟩ := contextRestore_one there state saved rank free alone
    obtain ⟨pc, count, loops, calls, fstat⟩ := base.arch
    refine ⟨t, run, ?_⟩
    rw [core, gath, saved']
    refine ⟨base.run.trans (by simp [restoredBase, faulted, halted]), base.marked, pc, count, loops, calls, fstat, base.joins, base.wdog, base.member, rfl, ?_, fun f hf => ?_⟩
    · rw [List.filter_filter]
      simp
    · change k.folio f = _
      rw [Core.folio, base.folios]
      rw [restoredBase]
      simp only []
      rw [get_restoreFolios _ _ _ _ hf]
      cases ((s.core c).held.filter fun x => x.gath == v.gath && x.rank == v.rank).find? fun h => h.folio == f with
      | some h => rfl
      | none => by_cases here : v.coreid = c <;> simp [here]

end Sys2Proof.Machine
end

section
/-!
SUPPORT. The ends of gatherings (R146, R330, R353) and of processes (R50).
-/

namespace Sys2Proof.Machine

/-! ### What the end of a member leaves -/

/-- A core whose member has ended, or runs on. -/
def Core.Ended (k k' : Core) : Prop := k'.run = .off ∨ (k'.run = k.run ∧ k'.member = k.member)

theorem Core.Ended.refl (k : Core) : k.Ended k := .inr ⟨rfl, rfl⟩

theorem Core.Ended.trans {a b c : Core} (h : a.Ended b) (g : b.Ended c) : a.Ended c := by
  rcases g with off | ⟨run, member⟩
  · exact .inl off
  · rcases h with off | ⟨run', member'⟩
    · exact .inl (run.trans off)
    · exact .inr ⟨run.trans run', member.trans member'⟩

theorem Core.Ended.off {k k' : Core} (h : k.Ended k') (was : k.run = .off) : k'.run = .off := by
  rcases h with off | ⟨run, -⟩
  · exact off
  · exact run.trans was

/-- What no end of a member changes: the gatherings, the packets, the shoot-downs and the reports. -/
structure Ends (s t : State) : Prop where
  core : ∀ d, (s.core d).Ended (t.core d)
  gaths : t.gaths = s.gaths
  packets : t.packets = s.packets
  shoots : t.shoots = s.shoots
  reports : t.reports = s.reports

theorem Ends.refl (s : State) : Ends s s := ⟨fun _ => .refl _, rfl, rfl, rfl, rfl⟩

theorem Ends.trans {s t u : State} (h : Ends s t) (g : Ends t u) : Ends s u :=
  ⟨fun d => (h.core d).trans (g.core d), g.gaths.trans h.gaths, g.packets.trans h.packets, g.shoots.trans h.shoots, g.reports.trans h.reports⟩

theorem ends_modCore (s : State) (c : Nat) {f : Core → Core} (h : (s.core c).Ended (f (s.core c))) : Ends s (s.modCore c f) where
  core d := by
    by_cases same : d = c
    · subst same
      rw [State.core_modCore_same]
      exact h
    · rw [State.core_modCore_other _ _ same]
      exact .refl _
  gaths := rfl
  packets := rfl
  shoots := rfl
  reports := rfl

theorem ends_foldl {α : Type} {f : State → α → State} (h : ∀ s a, Ends s (f s a)) (l : List α) (s : State) : Ends s (l.foldl f s) := by
  induction l generalizing s with
  | nil => exact .refl s
  | cons a l ih => exact (h s a).trans (ih _)

theorem LateStep.ends {c : Nat} {s t : State} (h : LateStep c s t) : Ends s t := by
  cases h with
  | memory m h x j => exact ⟨fun _ => .refl _, rfl, rfl, rfl, rfl⟩
  | fill tag f => exact ends_modCore s c (.inr ⟨rfl, rfl⟩)
  | touch e l =>
    obtain ⟨f, h, touched⟩ := (s.core e).foliosOnly_touchAll l
    exact ends_modCore s e (.inr (by rw [touched]; exact ⟨rfl, rfl⟩))
  | pub p => exact ends_modCore s c (.inr ⟨rfl, rfl⟩)

theorem LateSteps.ends {c : Nat} {s t : State} (h : LateSteps c s t) : Ends s t := by
  induction h with
  | none => exact .refl s
  | tail _ step ih => exact ih.trans step.ends

theorem ends_settlePub (s : State) (c : Nat) : Ends s (performAll (settleAtomics s c) c) := by
  have settled : LateSteps c s (settleAtomics s c) := lateSteps_foldl (fun t d => by
    split
    · exact lateSteps_lateArrival t c _
    · exact .refl c t) _ s
  exact (settled.trans (lateSteps_performAll ..)).ends

theorem ends_endLists (l : List BankList) (s : State) : Ends s (endLists l s) := ends_foldl (fun s l => by
  obtain ⟨m, h, x, b, eq⟩ := endOnEngines_eq s l
  rw [eq]
  exact ⟨fun _ => .refl _, rfl, rfl, rfl, rfl⟩) l s

theorem ends_dropTimetabled (l : List Op) (s : State) : Ends s (dropTimetabled l s) := ⟨fun _ => .refl _, rfl, rfl, rfl, rfl⟩

/-- The end of a member frees its core. -/
theorem endMember_ends (s : State) (c : Nat) : Ends s (endMember s c) ∧ ((endMember s c).core c).run = .off := by
  have settled := (ends_settlePub s c).trans (ends_endLists (s.core c).lists (performAll (settleAtomics s c) c))
  have vacated := ends_modCore (endLists (s.core c).lists (performAll (settleAtomics s c) c)) c (f := Core.vacate) (.inl rfl)
  refine ⟨(settled.trans vacated).trans (ends_dropTimetabled ..), ?_⟩
  change (State.core (State.modCore _ c Core.vacate) c).run = .off
  rw [State.core_modCore_same]
  rfl

theorem foldl_endMember_off (l : List Nat) (s : State) : Ends s (l.foldl endMember s) ∧ ∀ c ∈ l, ((l.foldl endMember s).core c).run = .off := by
  induction l generalizing s with
  | nil => exact ⟨.refl s, fun c hc => nomatch hc⟩
  | cons a l ih =>
    obtain ⟨first, off⟩ := endMember_ends s a
    obtain ⟨rest, offs⟩ := ih (endMember s a)
    refine ⟨first.trans rest, fun c hc => ?_⟩
    rcases List.mem_cons.1 hc with rfl | mem
    · exact (rest.core c).off off
    · exact offs c mem

theorem core_dropHeld (g : Nat) (k : Core) : k.Ended (dropHeld g k) := by
  have folios : ∀ (l : List Nat) (k : Core), (l.foldl (fun k f => if (k.folio f).pres = .owed then k.setFolio f { pres := .absent, dirty := false } else k) k).run = k.run ∧
      (l.foldl (fun k f => if (k.folio f).pres = .owed then k.setFolio f { pres := .absent, dirty := false } else k) k).member = k.member := by
    intro l
    induction l with
    | nil => exact fun k => ⟨rfl, rfl⟩
    | cons f l ih =>
      intro k
      obtain ⟨run, member⟩ := ih (if (k.folio f).pres = .owed then k.setFolio f { pres := .absent, dirty := false } else k)
      refine ⟨run.trans ?_, member.trans ?_⟩ <;> split <;> rfl
  exact .inr (folios _ k)

/-- The end of a gathering frees its cores and leaves nothing of it among the gatherings. -/
theorem removeGath_leaves (s : State) (g : Nat) :
    (∀ d, (s.core d).Ended ((removeGath s g).core d)) ∧ (∀ c, c < 384 → (s.core c).runs g = true → ((removeGath s g).core c).run = .off) ∧
      (removeGath s g).gaths = s.gaths.filter (fun x => x.id != g) ∧ (removeGath s g).packets = s.packets ∧ (removeGath s g).shoots = s.shoots ∧
      (removeGath s g).reports = s.reports := by
  obtain ⟨members, off⟩ := foldl_endMember_off (s.membersOf g) s
  unfold removeGath
  simp only []
  generalize (s.membersOf g).foldl endMember s = a at members off
  generalize (a.saved.filter fun v => v.gath == g) = gone
  have lists := (ends_endLists (gone.flatMap fun v => v.lists) a).trans (ends_dropTimetabled (gone.flatMap fun v => v.ops) _)
  generalize dropTimetabled (gone.flatMap fun v => v.ops) (endLists (gone.flatMap fun v => v.lists) a) = b at lists
  have held : Ends b ((allCores b).foldl (fun s c => if (s.core c).held.any (fun x => x.gath == g) then s.modCore c (dropHeld g) else s) b) :=
    ends_foldl (fun s c => by
      split
      · exact ends_modCore s c (core_dropHeld g _)
      · exact .refl s) _ b
  have all := (members.trans lists).trans held
  refine ⟨all.core, fun c hc runs => ?_, congrArg (List.filter _) all.gaths, all.packets, all.shoots, all.reports⟩
  have was := off c (List.mem_filter.2 ⟨List.mem_range.2 hc, runs⟩)
  exact ((lists.trans held).core c).off was

/-- Beside the removal, the end of a gathering settles its energy and tells its job. -/
theorem retireGath_eq (s : State) (g : Gath) : ∃ j b f, retireGath s g = { removeGath s g.id with jobs := j, budget := b, fresh := f } := by
  unfold retireGath settleEnergy
  generalize removeGath s g.id = r
  simp only []
  split
  · exact ⟨_, _, _, rfl⟩
  · exact ⟨_, _, _, rfl⟩

theorem retireGath_leaves (s : State) (g : Gath) :
    (∀ d, (s.core d).Ended ((retireGath s g).core d)) ∧ (∀ c, c < 384 → (s.core c).runs g.id = true → ((retireGath s g).core c).run = .off) ∧
      (retireGath s g).gaths = s.gaths.filter (fun x => x.id != g.id) ∧ (retireGath s g).packets = s.packets ∧ (retireGath s g).shoots = s.shoots ∧
      (retireGath s g).reports = s.reports := by
  obtain ⟨j, b, f, eq⟩ := retireGath_eq s g
  have left := removeGath_leaves s g.id
  rw [eq]
  generalize removeGath s g.id = r at left
  exact left

/-- A retired gathering is not found any more, and its cores are free. -/
theorem retired (s : State) (g : Gath) :
    (retireGath s g).gath? g.id = none ∧ (retireGath s g).packets = s.packets ∧ ∀ c, c < 384 → (s.core c).runs g.id = true → ((retireGath s g).core c).run = .off := by
  obtain ⟨-, off, gaths, packets, -⟩ := retireGath_leaves s g
  refine ⟨?_, packets, off⟩
  rw [State.gath?, gaths]
  exact List.find?_eq_none.2 fun x hx same => by
    have differs := (List.mem_filter.1 hx).2
    simp [eq_of_beq same] at differs

/-! ### The end of a launched gathering -/

/-- A packet without a signal leaves the queue. -/
theorem completePacketId_plain {s : State} {p : QPacket} (there : s.packet? p.id = some p) (sig : p.sig = false) :
    completePacketId s p.id = .ok { s with packets := s.packets.filter fun x => x.id != p.id } := by
  simp [completePacketId, there, completePacket, sig]

theorem packet_left (l : List QPacket) (id : Nat) : (l.filter fun x => x.id != id).find? (fun x => x.id == id) = none :=
  List.find?_eq_none.2 fun x hx same => by
    have differs := (List.mem_filter.1 hx).2
    simp [eq_of_beq same] at differs

theorem completes_retired {s : State} {p : QPacket} (there : s.packet? p.id = some p) (sig : p.sig = false) (g : Gath) :
    completePacketId (retireGath s g) p.id = .ok { retireGath s g with packets := s.packets.filter fun x => x.id != p.id } := by
  obtain ⟨-, packets, -⟩ := retired s g
  have known : (retireGath s g).packet? p.id = some p := by rw [State.packet?, packets]; exact there
  rw [completePacketId_plain known sig, packets]

section Launched

variable {s : State} {g : Gath} {p : QPacket} (owner : g.owner.packet = some p.id) (colophon : g.colophon = 0) (there : s.packet? p.id = some p) (sig : p.sig = false)
include owner colophon there sig

theorem failGath_launched (v : Verdict) : failGath s g v = .ok { retireGath s g with packets := s.packets.filter fun x => x.id != p.id } := by
  rw [← completes_retired there sig g]
  simp only [failGath, owner, writeColophon, colophon, if_true]
  rfl

theorem endInstance_launched : endInstance s g = .ok { retireGath s g with packets := s.packets.filter fun x => x.id != p.id } := by
  rw [← completes_retired there sig g]
  simp only [endInstance, owner, writeColophon, colophon, if_true]
  rfl

end Launched

/-- What the end of a launched gathering leaves. -/
theorem retired_launched (s : State) (g : Gath) (id : Nat) :
    let t : State := { retireGath s g with packets := s.packets.filter fun x => x.id != id }
    t.gath? g.id = none ∧ t.packet? id = none ∧ ∀ c, c < 384 → (s.core c).runs g.id = true → (t.core c).run = .off := by
  obtain ⟨none, -, off⟩ := retired s g
  exact ⟨none, packet_left _ _, off⟩

section Instance

variable {s : State} {g : Gath} (there : s.gath? g.id = some g) (running : g.state = .running)
  (done : ∀ c ∈ s.membersOf g.id, (s.core c).run = .halted ∧ (∀ o ∈ (s.core c).ops, isFifoOp o.port = true ∧ o.st = .follow) ∧ (s.core c).lists = [])
include there running done

/-- INSTANCE_COMPLETE of members that have halted with nothing left but FIFO entries. -/
theorem exec_instanceComplete_done :
    exec (.instanceComplete g.id) s = .next (
      let d := (s.membersOf g.id).foldl (fun s c => performAll (settleAtomics s c) c) s
      let x := if g.span then fabricPhase d g.id else (d, true)
      if x.2 then settleWork x.1 (endInstance x.1 g) else x.1) := by
  have members : ((s.membersOf g.id).all fun c => memberDone (s.core c)) = true := by
    refine List.all_eq_true.2 fun c hc => ?_
    obtain ⟨halted, ops, lists⟩ := done c hc
    have follow : ((s.core c).ops.all fun o => isFifoOp o.port && o.st == .follow) = true := List.all_eq_true.2 fun o ho => by
      obtain ⟨fifo, st⟩ := ops o ho
      rw [fifo, st]
      rfl
    simp [memberDone, halted, lists, follow]
  change execInstanceComplete g.id s = _
  simp only [execInstanceComplete, there, running, members]
  rfl

end Instance

/-- A member that has not halted holds up the end of its gathering. -/
theorem exec_instanceComplete_member {s : State} {g : Gath} {c : Nat} (there : s.gath? g.id = some g) (member : c ∈ s.membersOf g.id) (run : (s.core c).run ≠ .halted) :
    exec (.instanceComplete g.id) s = .next s := by
  have open' : ((s.membersOf g.id).all fun c => memberDone (s.core c)) = false := by
    refine List.all_eq_false.2 ⟨c, member, ?_⟩
    simp [memberDone, run]
  change execInstanceComplete g.id s = _
  simp [execInstanceComplete, there, open']

theorem killVerdict_plain {s : State} {g : Nat} (saved : s.saved = []) (slots : ∀ c ∈ s.membersOf g, (s.core c).slot 0 = none) : killVerdict s g = .of stKilled := by
  have none : gathFault s g = none := List.findSome?_eq_none_iff.2 fun x hx => by
    obtain ⟨c, hc, rfl⟩ := List.mem_map.1 hx
    exact slots c hc
  simp [killVerdict, none, saved]

theorem killVerdict_fault {s : State} {g c : Nat} {r : Record} (members : s.membersOf g = [c]) (slot : (s.core c).slot 0 = some r) :
    killVerdict s g = { status := stFault, code := r.code, sub := r.sub, bundle := r.bundle, idx := 0 } := by
  have found : gathFault s g = some r := by simp [gathFault, members, slot]
  simp [killVerdict, found]

/-! ### The end of a process -/

theorem retireGaths_leaves (l : List Nat) (s : State) :
    (∀ d, (s.core d).Ended ((retireGaths l s).core d)) ∧ (∀ g ∈ (retireGaths l s).gaths, g ∈ s.gaths ∧ g.id ∉ l) ∧ (retireGaths l s).shoots = s.shoots ∧
      ∀ g ∈ s.gaths, g.id ∈ l → ∀ c, c < 384 → (s.core c).runs g.id = true → ((retireGaths l s).core c).run = .off := by
  induction l generalizing s with
  | nil => exact ⟨fun _ => .refl _, fun g hg => ⟨hg, List.not_mem_nil⟩, rfl, fun g _ none => nomatch none⟩
  | cons id l ih =>
    cases found : s.gath? id with
    | none =>
      have step : retireGaths (id :: l) s = retireGaths l s := by rw [retireGaths, List.foldl_cons, found]; rfl
      have absent : ∀ g ∈ s.gaths, g.id ≠ id := fun g hg same => by
        have differs := List.find?_eq_none.1 found g hg
        simp [same] at differs
      obtain ⟨core, left, shoots, off⟩ := ih s
      rw [step]
      refine ⟨core, fun g hg => ?_, shoots, fun g hg mem => off g hg ((List.mem_cons.1 mem).resolve_left (absent g hg))⟩
      obtain ⟨mem, out⟩ := left g hg
      exact ⟨mem, fun h => (List.mem_cons.1 h).elim (absent g mem) out⟩
    | some x =>
      have step : retireGaths (id :: l) s = retireGaths l (retireGath s x) := by rw [retireGaths, List.foldl_cons, found]; rfl
      have named : x.id = id := eq_of_beq (List.find?_some (p := fun x : Gath => x.id == id) found)
      obtain ⟨ended, off, gaths, -, shoots, -⟩ := retireGath_leaves s x
      obtain ⟨core', left', shoots', off'⟩ := ih (retireGath s x)
      rw [step]
      refine ⟨fun d => (ended d).trans (core' d), fun g hg => ?_, shoots'.trans shoots, fun g hg mem c hc runs => ?_⟩
      · obtain ⟨mem, out⟩ := left' g hg
        rw [gaths] at mem
        obtain ⟨mem, differs⟩ := List.mem_filter.1 mem
        rw [named] at differs
        exact ⟨mem, fun h => (List.mem_cons.1 h).elim (fun same => by simp [same] at differs) out⟩
      · have first : g.id = id → ((retireGaths l (retireGath s x)).core c).run = .off := fun same =>
          (core' c).off (off c hc (by rw [named, ← same]; exact runs))
        rcases List.mem_cons.1 mem with same | rest
        · exact first same
        · by_cases same : g.id = id
          · exact first same
          · rcases ended c with o | ⟨run, member⟩
            · exact (core' c).off o
            · refine off' g ?_ rest c hc ?_
              · rw [gaths, named]
                exact List.mem_filter.2 ⟨hg, by simpa using same⟩
              · rw [Core.runs, run, member]
                exact runs

/-- PASID_TEARDOWN leaves nothing of the process but its control blocks. -/
theorem exec_pasidTeardown (s : State) (pasid : Nat) :
    ∃ t, exec (.pasidTeardown pasid) s = .next t ∧ (∀ g ∈ t.gaths, g.pasid ≠ pasid) ∧ (∀ j ∈ t.jobs, j.pasid ≠ pasid) ∧ (∀ g ∈ t.graphs, g.pasid ≠ pasid) ∧
      (∀ p ∈ t.packets, p.pasid ≠ pasid) ∧ t.pasids.get .none pasid = { PasidBinding.none with tearing := true } ∧
      t.shoots = s.shoots ++ [{ Shoot.own pasid with tear := true }] ∧ ∀ g ∈ s.gaths, g.pasid = pasid → ∀ c, c < 384 → (s.core c).runs g.id = true → (t.core c).run = .off := by
  obtain ⟨-, left, shoots, off⟩ := retireGaths_leaves ((s.gaths.filter fun g => g.pasid == pasid).map (·.id)) s
  refine ⟨_, rfl, fun g hg same => ?_, fun j hj => ?_, fun g hg => ?_, fun p hp => ?_, Tab.get_set_same .., congrArg (· ++ [_]) shoots, fun g hg same => ?_⟩
  · obtain ⟨mem, out⟩ := left g hg
    exact out (List.mem_map.2 ⟨g, List.mem_filter.2 ⟨mem, by simpa using same⟩, rfl⟩)
  · simpa using (List.mem_filter.1 hj).2
  · simpa using (List.mem_filter.1 hg).2
  · simpa using (List.mem_filter.1 hp).2
  · exact off g hg (List.mem_map.2 ⟨g, List.mem_filter.2 ⟨hg, by simpa using same⟩, rfl⟩)

/-- Settles O40: what ends is `retireGath`, whose cores are vacated and whose gathering is filtered out. -/
theorem gatheringsEnd : Obligations.GatheringsEnd := by
  unfold Obligations.GatheringsEnd
  refine ⟨⟨?ends, fun s g c => exec_instanceComplete_member, ?fabric, ?idle, fun s g saved => ⟨killVerdict_plain saved, fun c r => killVerdict_fault⟩⟩, ?teardown⟩
  case ends =>
    intro s g p there owner colophon packet sig ended
    refine ⟨⟨_, ?_, retired_launched s g p.id⟩, fun running span done => ?done, fun span reached loaded => ⟨_, ?_, retired_launched s g p.id⟩⟩
    · change Host.Outcome.next (killWith s g.id _) = _
      simp only [killWith, endWith, there, failGath_launched owner colophon packet sig]
      rfl
    case done =>
      have settled : Ends s ((s.membersOf g.id).foldl (fun s c => performAll (settleAtomics s c) c) s) := ends_foldl ends_settlePub _ s
      have run := exec_instanceComplete_done there running done
      generalize (s.membersOf g.id).foldl (fun s c => performAll (settleAtomics s c) c) s = d at settled run
      have packet' : d.packet? p.id = some p := by rw [State.packet?, settled.packets]; exact packet
      simp only [span, Bool.false_eq_true, if_false, if_true, endInstance_launched owner colophon packet' sig, settleWork] at run
      obtain ⟨gath, left, off⟩ := retired_launched d g p.id
      refine ⟨_, run, gath, left, fun c hc runs => ?_⟩
      rcases settled.core c with was | ⟨same, member⟩
      · exact ((retireGath_leaves d g).1 c).off was
      · exact off c hc (by rw [Core.runs, same, member]; exact runs)
    · change execTickLaunchTimeout g.id s = _
      simp only [execTickLaunchTimeout, there, span, reached, loaded, failGath_launched owner colophon packet sig]
      rfl
  case fabric =>
    intro s g there running span done d unmet
    rw [exec_instanceComplete_done there running done]
    simp only [span, if_true]
    rw [unmet]
    rfl
  case idle =>
    intro s g there early
    change execTickLaunchTimeout g.id s = _
    simp only [execTickLaunchTimeout, there]
    exact if_pos (by grind)
  case teardown =>
    intro s pasid
    obtain ⟨t, run, gaths, jobs, graphs, packets, bound, shoots, off⟩ := exec_pasidTeardown s pasid
    exact ⟨t, run, gaths, jobs, graphs, packets, by rw [bound]; rfl, shoots, by rw [bound], off⟩

end Sys2Proof.Machine
end

section
/-!
SUPPORT. What accesses of the hub and of targets leave alone (R32, R47 to R49, R383).
-/

namespace Sys2Proof.Machine

/-- What the translations of an agent change: memory, which stays canonical, the leaves cached and waited for, and the pages
duplicated. -/
structure LeafWork (s t : State) : Prop where
  ok : s.MemOk → t.MemOk
  eq : ∃ m h x c sh po sn wt, t = { s with mem := m, host := h, ecc := x, caches := c, shoots := sh, pools := po, snapFrames := sn, timedOut := wt }

theorem LeafWork.refl (s : State) : LeafWork s s := ⟨id, s.mem, s.host, s.ecc, s.caches, s.shoots, s.pools, s.snapFrames, s.timedOut, rfl⟩

theorem LeafWork.trans {s t u : State} (h : LeafWork s t) (g : LeafWork t u) : LeafWork s u := by
  obtain ⟨ok, m, a, x, c, sh, po, sn, wt, rfl⟩ := h
  obtain ⟨ok', m', a', x', c', sh', po', sn', wt', rfl⟩ := g
  exact ⟨fun k => ok' (ok k), m', a', x', c', sh', po', sn', wt', rfl⟩

theorem leafWork_foldl {α : Type} {f : State → α → State} (h : ∀ s a, LeafWork s (f s a)) (l : List α) (s : State) : LeafWork s (l.foldl f s) := by
  induction l generalizing s with
  | nil => exact .refl s
  | cons a l ih => exact (h s a).trans (ih _)

theorem LeafWork.tables (s : State) (c : List CacheEntry) (sh : List Shoot) (po : Tab (List Nat)) (sn : List (Nat × Word)) (wt : List (Nat × Nat × Nat)) :
    LeafWork s { s with caches := c, shoots := sh, pools := po, snapFrames := sn, timedOut := wt } :=
  ⟨id, s.mem, s.host, s.ecc, c, sh, po, sn, wt, rfl⟩

theorem LeafWork.cached (s : State) (c : List CacheEntry) : LeafWork s { s with caches := c } := .tables s c _ _ _ _

theorem LeafWork.frames (s : State) (l : List (Nat × Word)) : LeafWork s { s with snapFrames := l } := .tables s _ _ _ l _

theorem LeafWork.pooled (s : State) (l : Tab (List Nat)) : LeafWork s { s with pools := l } := .tables s _ _ l _ _

theorem leafWork_addShoot (s : State) (r : Shoot) : LeafWork s (s.addShoot r) := .tables s _ _ _ _ _

theorem leafWork_writeAt (s : State) (p : Place) (d : List Byte) : LeafWork s (s.writeAt p d) := by
  refine ⟨fun ok => ok.writeAt p d, ?_⟩
  obtain ⟨m, h, x, eq⟩ := State.writeAt_eq s p d
  exact ⟨m, h, x, s.caches, s.shoots, s.pools, s.snapFrames, s.timedOut, eq⟩

theorem leafWork_write64 (s : State) (p : Place) (v : Word) : LeafWork s (s.write64 p v) := leafWork_writeAt ..

/-! ### Walks and translations -/

theorem leafWork_touchLeaf (s : State) (a : Nat) (e : Word) (write : Bool) : LeafWork s (touchLeaf s a e write).1 := by
  simp only [touchLeaf]
  generalize e ||| 0x20 ||| (if write then 0x40 else 0) = set
  split
  · exact .refl s
  · exact leafWork_write64 ..

/-- What a walk or a translation leaves: its state, or that of a first write under cow. -/
def xState (s : State) : Except XFail (State × Word) → State
  | .ok x => x.1
  | .error (.cow t) => t
  | .error _ => s

theorem leafWork_walk (s : State) (ag : Agent) (pasid va : Nat) (write : Bool) : LeafWork s (xState s (walk s ag pasid va write)) := by
  have tables : ∀ (l t : Nat) (f : XFail), walkTables s va l t = .error f → xState s (.error f) = s := by
    intro l
    induction l with
    | zero =>
      intro t f h
      cases h
      rfl
    | succ l ih =>
      intro t f h
      unfold walkTables at h
      simp only [] at h
      split at h
      · cases h; rfl
      · split at h
        · cases h; rfl
        · split at h
          · split at h
            · cases h; rfl
            · exact ih _ f h
          · split at h <;> cases h
            rfl
  have check : ∀ e f, leafCheck ag e = some f → xState s (.error f) = s := by
    intro e f h
    unfold leafCheck at h
    split at h
    · cases h; rfl
    · split at h
      · cases h; rfl
      · split at h
        · cases h; rfl
        · split at h <;> cases h
          rfl
  have answer : ∀ frame g need f, atsFault s pasid frame g need = some f → xState s (.error f) = s := by
    intro frame g need f h
    unfold atsFault at h
    split at h
    · cases h; rfl
    · split at h
      · cases h
      · split at h <;> cases h
        rfl
      · split at h <;> cases h
        rfl
  have ats : ∀ e f, leafAts s ag pasid va write e = some f → xState s (.error f) = s := by
    intro e f h
    unfold leafAts at h
    split at h
    · exact answer _ _ _ f h
    · cases h
  unfold walk
  split
  · exact .refl s
  · split
    · exact .refl s
    · next root _ =>
      cases found : walkTables s va 4 root with
      | error f =>
        simp only []
        rw [tables _ _ f found]
        exact .refl s
      | ok x =>
        obtain ⟨a, e⟩ := x
        simp only []
        split
        · next f stop =>
          have same : xState s (.error f) = s := by
            cases checked : leafCheck ag e with
            | some g =>
              rw [checked] at stop
              cases stop
              exact check e f checked
            | none =>
              rw [checked] at stop
              exact ats e f stop
          rw [same]
          exact .refl s
        · have touched := (leafWork_touchLeaf s a e write).trans (.cached _ (cacheInsert (touchLeaf s a e write).1.caches
            { agent := ag.cache, pasid := pasid, base := pageBase va (leafSize (touchLeaf s a e write).2), leaf := (touchLeaf s a e write).2 }))
          split
          · exact touched
          · exact touched

theorem leafWork_translate (s : State) (ag : Agent) (pasid va : Nat) (write : Bool) : LeafWork s (xState s (translate s ag pasid va write)) := by
  unfold translate
  split
  · exact .refl s
  · split
    · split
      · exact .refl s
      · exact leafWork_walk ..
    · exact leafWork_walk ..

/-! ### Results of an access -/

/-- What an access leaves, whether it is done, faults or waits. -/
def HRes.Leaves {α : Type} (R : State → State → Prop) (s : State) (st : α → State) : HRes α → Prop
  | .ok a => R s (st a)
  | .error e => R s e.state

section Leaves

variable {α β : Type} {R : State → State → Prop} {s t : State} {st : α → State} {st' : β → State} {r : HRes α} {k : α → HRes β}

theorem HRes.Leaves.ok {a : α} (h : r.Leaves R s st) (done : r = .ok a) : R s (st a) := by
  subst done
  exact h

theorem HRes.Leaves.error {e : HStop} (h : r.Leaves R s st) (stops : r = .error e) : R s e.state := by
  subst stops
  exact h

theorem HRes.Leaves.mono {R' : State → State → Prop} (h : r.Leaves R s st) (weaker : ∀ u, R s u → R' s u) : r.Leaves R' s st := by
  cases r with
  | ok a => exact weaker _ h
  | error e => exact weaker _ h

theorem HRes.Leaves.after (h : r.Leaves R t st) (trans : ∀ {a b c : State}, R a b → R b c → R a c) (first : R s t) : r.Leaves R s st := by
  cases r with
  | ok a => exact trans first h
  | error e => exact trans first h

theorem HRes.Leaves.bind (h : r.Leaves R s st) (trans : ∀ {a b c : State}, R a b → R b c → R a c) (next : ∀ a, (k a).Leaves R (st a) st') : (r >>= k).Leaves R s st' := by
  cases r with
  | ok a => exact (next a).after trans h
  | error e => exact h

end Leaves

theorem leafWork_markFaulted (s : State) (agent pasid va : Nat) : LeafWork s (markFaulted s agent pasid va) := .tables s _ _ _ _ _

theorem leafWork_forgetTimeOut (s : State) (agent pasid va : Nat) : LeafWork s (s.forgetTimeOut agent pasid va) := .tables s _ _ _ _ _

theorem leafWork_hubStop (s : State) (agent pasid va : Nat) (f : XFail) : LeafWork s (hubStop s agent pasid va f).state := by
  have late : ∀ b : Bool, LeafWork s (if b then HStop.fault cTranslate 10 (markFaulted (s.forgetTimeOut agent pasid va) agent pasid va) else .wait s).state := by
    intro b
    cases b
    · exact .refl s
    · exact (leafWork_forgetTimeOut ..).trans (leafWork_markFaulted ..)
  cases f with
  | fault code sub => exact leafWork_markFaulted ..
  | migrating => exact late _
  | cow t => exact late _

theorem leafWork_writePage (s : State) (pasid : Nat) (e : Word) (d : List Byte) : LeafWork s (s.writePage pasid e d) := by
  have parts : ∀ l : List Nat, LeafWork s (l.foldl (fun s i => s.writeAt (leafPlace s pasid e (0x10000 * i)) ((d.drop (0x10000 * i)).take 0x10000)) s) := fun l =>
    leafWork_foldl (fun s i => leafWork_writeAt ..) l s
  unfold State.writePage
  exact parts _

theorem leafWork_duplicate (s : State) (pasid va a : Nat) (e : Word) (frame : Nat) : LeafWork s (duplicate s pasid va a e frame) := by
  have moved := (leafWork_writePage s pasid (moveLeaf e frame) (s.readPage pasid e)).trans (leafWork_write64 _ { host := false, addr := a } (moveLeaf e frame))
  exact (moved.trans (leafWork_addShoot _ _)).trans (LeafWork.frames _ _)

theorem leaves_agentDuplicate (s : State) (agent pasid va : Nat) : (agentDuplicate s agent pasid va).Leaves LeafWork s id := by
  unfold agentDuplicate
  split
  · exact .refl s
  · split
    · exact leafWork_hubStop ..
    · split
      · exact .refl s
      · split
        · exact leafWork_hubStop ..
        · exact (LeafWork.pooled s _).trans (leafWork_duplicate ..)

theorem leaves_walk (s : State) (ag : Agent) (pasid va : Nat) (write : Bool) :
    HRes.Leaves LeafWork s Prod.fst (match walk s ag pasid va write with | .ok x => .ok x | .error f => .error (hubStop s ag.cache pasid va f)) := by
  have walked := leafWork_walk s ag pasid va write
  generalize walk s ag pasid va write = r at walked
  cases r with
  | ok x => exact walked
  | error f => exact leafWork_hubStop ..

theorem leaves_agentLeaf (s : State) (ag : Agent) (pasid va : Nat) (write : Bool) : (agentLeaf s ag pasid va write).Leaves LeafWork s Prod.fst := by
  have translated := leafWork_translate s ag pasid va write
  unfold agentLeaf
  generalize translate s ag pasid va write = r at translated
  cases r with
  | ok x => exact translated
  | error f =>
    cases f with
    | fault code sub => exact leafWork_hubStop ..
    | migrating => exact leafWork_hubStop ..
    | cow t => exact ((leaves_agentDuplicate t ag.cache pasid va).bind .trans fun u => leaves_walk u ag pasid va write).after .trans translated

/-! ### Accesses of the hub -/

/-- What accesses of the hub change: memory, which stays canonical, the translations cached and waited for, the pages duplicated and
the requests sent. -/
structure HubWork (s t : State) : Prop where
  ok : s.MemOk → t.MemOk
  eq : ∃ m h x c sh po sn wt hr fl tx, t = { s with
    mem := m, host := h, ecc := x, caches := c, shoots := sh, pools := po, snapFrames := sn, timedOut := wt, hubRuns := hr, flows := fl, tx := tx }

theorem HubWork.refl (s : State) : HubWork s s :=
  ⟨id, s.mem, s.host, s.ecc, s.caches, s.shoots, s.pools, s.snapFrames, s.timedOut, s.hubRuns, s.flows, s.tx, rfl⟩

theorem HubWork.trans {s t u : State} (h : HubWork s t) (g : HubWork t u) : HubWork s u := by
  obtain ⟨ok, m, a, x, c, sh, po, sn, wt, hr, fl, tx, rfl⟩ := h
  obtain ⟨ok', m', a', x', c', sh', po', sn', wt', hr', fl', tx', rfl⟩ := g
  exact ⟨fun k => ok' (ok k), m', a', x', c', sh', po', sn', wt', hr', fl', tx', rfl⟩

theorem hubWork_foldl {α : Type} {f : State → α → State} (h : ∀ s a, HubWork s (f s a)) (l : List α) (s : State) : HubWork s (l.foldl f s) := by
  induction l generalizing s with
  | nil => exact .refl s
  | cons a l ih => exact (h s a).trans (ih _)

/-- A change of what the hub has cached, waits for and has sent. -/
theorem HubWork.tables (s : State) (c : List CacheEntry) (sh : List Shoot) (po : Tab (List Nat)) (sn : List (Nat × Word)) (wt : List (Nat × Nat × Nat)) (hr : List HubRun)
    (fl : Tab Flow) (tx : List Packet) :
    HubWork s { s with caches := c, shoots := sh, pools := po, snapFrames := sn, timedOut := wt, hubRuns := hr, flows := fl, tx := tx } :=
  ⟨id, s.mem, s.host, s.ecc, c, sh, po, sn, wt, hr, fl, tx, rfl⟩

theorem LeafWork.hub {s t : State} (h : LeafWork s t) : HubWork s t := by
  obtain ⟨ok, m, a, x, c, sh, po, sn, wt, rfl⟩ := h
  exact ⟨ok, m, a, x, c, sh, po, sn, wt, s.hubRuns, s.flows, s.tx, rfl⟩

theorem hubWork_writeAt (s : State) (p : Place) (d : List Byte) : HubWork s (s.writeAt p d) := (leafWork_writeAt s p d).hub

theorem hubWork_write64 (s : State) (p : Place) (v : Word) : HubWork s (s.write64 p v) := hubWork_writeAt ..

/-- What an access of the hub leaves. -/
abbrev HRes.Works {α : Type} (s : State) (st : α → State) (r : HRes α) : Prop := r.Leaves HubWork s st

theorem HRes.Works.ok {α : Type} {s : State} {st : α → State} {r : HRes α} {a : α} (h : r.Works s st) (done : r = .ok a) : HubWork s (st a) := HRes.Leaves.ok h done

theorem HRes.Works.after {α : Type} {s t : State} {st : α → State} {r : HRes α} (h : r.Works t st) (first : HubWork s t) : r.Works s st := HRes.Leaves.after h .trans first

theorem HRes.Works.bind {α β : Type} {s : State} {st : α → State} {st' : β → State} {r : HRes α} {k : α → HRes β} (h : r.Works s st) (next : ∀ a, (k a).Works (st a) st') :
    (r >>= k).Works s st' := HRes.Leaves.bind h .trans next

theorem works_agentLeaf (s : State) (ag : Agent) (pasid va : Nat) (write : Bool) : (agentLeaf s ag pasid va write).Works s Prod.fst :=
  (leaves_agentLeaf s ag pasid va write).mono fun _ => LeafWork.hub

/-! ### Requests to other modules -/

theorem hubWork_sendSprayed (s : State) (die node : Nat) (p : Packet) (core op : Nat) : HubWork s (sendSprayed s die node p core op) := .tables s _ _ _ _ _ _ _ _

theorem hubWork_hubSend (s : State) (pasid : Nat) (q : Request) : HubWork s (hubSend s pasid q) := by
  unfold hubSend
  simp only []
  split
  · exact .refl s
  · exact (hubWork_sendSprayed ..).trans (.tables _ _ _ _ _ _ _ _ _)

theorem works_hubTake (s : State) (pasid : Nat) (q : Request) : (hubTake s pasid q).Works s Prod.fst := by
  unfold hubTake
  split
  · simp only []
    split
    · exact .tables s _ _ _ _ _ _ _ _
    · exact .tables s _ _ _ _ _ _ _ _
    · exact .refl s
  · exact .refl s

theorem works_hubTakes (pasid : Nat) (l : List Request) (s : State) : (hubTakes pasid l s).Works s Prod.fst := by
  induction l generalizing s with
  | nil => exact .refl s
  | cons q l ih =>
    rw [hubTakes]
    exact (works_hubTake s pasid q).bind fun x => (ih x.1).bind fun y => .refl _

theorem works_hubPlace (s : State) (ag : Agent) (pasid va : Nat) (write : Bool) : (hubPlace s ag pasid va write).Works s Prod.fst := by
  unfold hubPlace
  refine (works_agentLeaf s ag pasid va write).bind fun x => ?_
  obtain ⟨t, e⟩ := x
  simp only []
  split
  · split
    · split
      · exact .refl t
      · exact (works_agentLeaf ..).bind fun y => .refl _
    · split
      · exact .refl t
      · exact .refl t
  · exact .refl t

theorem works_hubReadPart (s : State) (ag : Agent) (pasid va n : Nat) : (hubReadPart s ag pasid va n).Works s Prod.fst := by
  unfold hubReadPart
  refine (works_hubPlace s ag pasid va false).bind fun x => ?_
  obtain ⟨t, target⟩ := x
  cases target with
  | here p => exact .refl t
  | there d => exact (works_hubTakes ..).after (hubWork_foldl (fun s q => hubWork_hubSend s pasid q) _ t)

theorem works_hubReads (ag : Agent) (pasid : Nat) (l : List (Nat × Nat)) (s : State) : (hubReads ag pasid l s).Works s Prod.fst := by
  induction l generalizing s with
  | nil => exact .refl s
  | cons x l ih =>
    obtain ⟨va, n⟩ := x
    rw [hubReads]
    exact (works_hubReadPart s ag pasid va n).bind fun x => (ih x.1).bind fun y => .refl _

theorem works_agentRead (s : State) (ag : Agent) (pasid va n : Nat) : (agentRead s ag pasid va n).Works s Prod.fst := works_hubReads ..

theorem works_hubRead (s : State) (pasid va n : Nat) : (hubRead s pasid va n).Works s Prod.fst := works_hubReads ..

theorem works_hubRead64 (s : State) (pasid va : Nat) : (hubRead64 s pasid va).Works s Prod.fst := (works_hubRead s pasid va 8).bind fun _ => .refl _

theorem works_hubWritePart (s : State) (ag : Agent) (pasid va : Nat) (d : List Byte) : (hubWritePart s ag pasid va d).Works s id := by
  unfold hubWritePart
  refine (works_hubPlace s ag pasid va true).bind fun x => ?_
  obtain ⟨t, target⟩ := x
  cases target with
  | here p => exact hubWork_writeAt ..
  | there x =>
    exact HRes.Works.after ((works_hubTakes pasid (hubParts true x.node (d.length / 4096 + 1) x.va d.length d) _).bind fun y => .refl _)
      (hubWork_foldl (fun s q => hubWork_hubSend s pasid q) _ t)

theorem works_hubWrites (ag : Agent) (pasid : Nat) (l : List (Nat × Nat)) (d : List Byte) (s : State) : (hubWrites ag pasid l d s).Works s id := by
  induction l generalizing s d with
  | nil => exact .refl s
  | cons x l ih =>
    obtain ⟨va, n⟩ := x
    rw [hubWrites]
    exact (works_hubWritePart s ag pasid va _).bind fun t => ih _ t

theorem works_agentWrite (s : State) (ag : Agent) (pasid va : Nat) (d : List Byte) : (agentWrite s ag pasid va d).Works s id := works_hubWrites ..

theorem works_hubWrite (s : State) (pasid va : Nat) (d : List Byte) : (hubWrite s pasid va d).Works s id := works_hubWrites ..

/-! ### Work of the hub that does not go through -/

theorem leafWork_touchCached (s : State) (x : CacheEntry) : LeafWork s (touchCached s x) := by
  unfold touchCached
  split
  · exact leafWork_write64 ..
  · exact .refl s

theorem leafWork_keepWalks (s t : State) : LeafWork s (s.keepWalks t) := by
  unfold State.keepWalks
  exact (LeafWork.cached s _).trans (leafWork_foldl leafWork_touchCached _ _)

theorem hubWork_keep (s t : State) : HubWork s (s.keep t) := (leafWork_keepWalks s t).hub.trans (.tables _ _ _ _ _ _ _ _ _)

/-! ### What such work keeps -/

theorem HubWork.packets {s t : State} (h : HubWork s t) : t.packets = s.packets := by
  obtain ⟨-, m, a, x, c, sh, po, sn, wt, hr, fl, tx, rfl⟩ := h
  rfl

theorem HubWork.gaths {s t : State} (h : HubWork s t) : t.gaths = s.gaths := by
  obtain ⟨-, m, a, x, c, sh, po, sn, wt, hr, fl, tx, rfl⟩ := h
  rfl

theorem HubWork.jobs {s t : State} (h : HubWork s t) : t.jobs = s.jobs := by
  obtain ⟨-, m, a, x, c, sh, po, sn, wt, hr, fl, tx, rfl⟩ := h
  rfl

theorem HubWork.graphs {s t : State} (h : HubWork s t) : t.graphs = s.graphs := by
  obtain ⟨-, m, a, x, c, sh, po, sn, wt, hr, fl, tx, rfl⟩ := h
  rfl

theorem HubWork.cores {s t : State} (h : HubWork s t) : t.cores = s.cores := by
  obtain ⟨-, m, a, x, c, sh, po, sn, wt, hr, fl, tx, rfl⟩ := h
  rfl

theorem hubRead_works {s t : State} {pasid va n : Nat} {d : List Byte} (h : hubRead s pasid va n = .ok (t, d)) : HubWork s t := (works_hubRead ..).ok h

theorem hubRead64_works {s t : State} {pasid va : Nat} {x : Word} (h : hubRead64 s pasid va = .ok (t, x)) : HubWork s t := (works_hubRead64 ..).ok h

theorem hubWrite_works {s t : State} {pasid va : Nat} {d : List Byte} (h : hubWrite s pasid va d = .ok t) : HubWork s t := (works_hubWrite ..).ok h

end Sys2Proof.Machine
end

section
/-!
SUPPORT. The queues of the command processor (R331 to R337).
-/

namespace Sys2Proof.Machine

/-! ### Notifications -/

section Notify

variable {s : State} {aperture queue : Nat}

theorem exec_notifyWrite_found {pasid i : Nat} (bound : s.apertures.get none aperture = some pasid) (found : qcbFind s pasid queue = some i) (v : BitVec 32) :
    exec (.notifyWrite aperture queue v) s = .next (if (s.qcb i).state = 1 ∧ notifyOk (s.qcb i) v.toNat = true then s.setQcb i { s.qcb i with wr := v.toNat, stopped := false }
      else s.setQcb i { s.qcb i with rej := ((s.qcb i).rej + 1) % 2 ^ 32 }) := by
  change execNotifyWrite aperture queue v s = _
  simp only [execNotifyWrite, bound, Option.bind_some, found]
  split <;> rfl

theorem exec_notifyWrite_lost (lost : ∀ pasid, s.apertures.get none aperture = some pasid → qcbFind s pasid queue = none) (v : BitVec 32) :
    exec (.notifyWrite aperture queue v) s = .next (s.count cntNotify) := by
  have none : ((s.apertures.get none aperture).bind fun pasid => qcbFind s pasid queue) = none := by
    cases bound : s.apertures.get none aperture with
    | none => rfl
    | some pasid => exact lost pasid bound
  change execNotifyWrite aperture queue v s = _
  simp only [execNotifyWrite, none]

theorem notifyOk_iff (q : Qcb) (v : Nat) : notifyOk q v = true ↔ (v + 2 ^ 32 - q.rd) % 2 ^ 32 ≤ 2 ^ q.m ∧ (v + 2 ^ 32 - q.wr) % 2 ^ 32 < 2 ^ 31 := by
  simp [notifyOk]

end Notify

/-! ### Fetches -/

section Fetch

variable {s t : State} {i : Nat} {b : List Byte}

theorem exec_packetFetch_idle (idle : (s.qcb i).state ≠ 1 ∨ (s.qcb i).stopped = true ∨ (s.qcb i).rd = (s.qcb i).wr) : exec (.packetFetch i) s = .next s := by
  change execPacketFetch i s = _
  rw [execPacketFetch]
  exact if_pos idle

variable (active : (s.qcb i).state = 1) (going : (s.qcb i).stopped = false) (left : (s.qcb i).rd ≠ (s.qcb i).wr)
include active going left

theorem exec_packetFetch_ask (cached : slotCached s (s.qcb i) = false) (outst : (s.qcb i).outst = 0) :
    exec (.packetFetch i) s = .next (s.setQcb i { s.qcb i with outst := 1 }) := by
  change execPacketFetch i s = _
  simp [execPacketFetch, active, going, left, cached, outst]

variable (cached : slotCached s (s.qcb i) = true) (read : hubRead s (s.qcb i).pasid (slotVa (s.qcb i)) 64 = .ok (t, b))
include cached read

theorem exec_packetFetch_stop (valid : ((slotWords b).getD 0 0).getLsbD 8 = false) : exec (.packetFetch i) s = .next (s.setQcb i { s.qcb i with stopped := true }) := by
  have stop : bit ((slotWords b).getD 0 0) 8 = false := valid
  change execPacketFetch i s = _
  simp only [execPacketFetch, active, going, left, cached, read, stop]
  rfl

/-- A fetched packet enters the list, with valid clear in its slot. -/
theorem exec_packetFetch_take {u : State} (valid : ((slotWords b).getD 0 0).getLsbD 8 = true)
    (good : badPacket { id := s.fresh, slot := i, pasid := (s.qcb i).pasid, words := slotWords b, started := false } = false)
    (written : hubWrite t (s.qcb i).pasid (slotVa (s.qcb i)) (leBytes 8 ((slotWords b).getD 0 0 &&& ~~~ 0x100).toNat) = .ok u) :
    exec (.packetFetch i) s = .next { u.setQcb i { s.qcb i with rd := ((s.qcb i).rd + 1) % 2 ^ 32 } with
      fresh := u.fresh + 1, packets := u.packets ++ [{ id := s.fresh, slot := i, pasid := (s.qcb i).pasid, words := slotWords b, started := false }] } := by
  have go : bit ((slotWords b).getD 0 0) 8 = true := valid
  have idle : ¬((s.qcb i).state ≠ 1 ∨ (s.qcb i).stopped = true ∨ (s.qcb i).rd = (s.qcb i).wr) := by simp [active, going, left]
  change execPacketFetch i s = _
  simp only [execPacketFetch, if_neg idle, cached, read, go, Bool.true_eq_false, if_false, written]
  rw [acceptPacket, good]
  rfl

end Fetch

/-! ### Aging and translation returns -/

theorem queueWaits_head {s : State} {i : Nat} (head : (headPacket s i).isSome = true) : queueWaits s i = true := by simp [queueWaits, head]

theorem exec_queueAging (s : State) (i : Nat) :
    exec (.queueAging i) s = .next (if queueWaits s i then s.setQcb i { s.qcb i with cur := min 7 ((s.qcb i).cur + 1) } else s) := by
  change execQueueAging i s = _
  rw [execQueueAging]
  split <;> rfl

section Return

variable {s : State} {i : Nat}

theorem exec_translationReturn_none (none : (s.qcb i).outst = 0 ∨ (s.qcb i).state = 0) : exec (.fetcherTranslationReturn i) s = .next s := by
  change execFetcherTranslationReturn i s = _
  rw [execFetcherTranslationReturn]
  exact if_pos none

theorem exec_translationReturn_draining (outst : (s.qcb i).outst ≠ 0) (state : (s.qcb i).state = 2) :
    exec (.fetcherTranslationReturn i) s = .next (removeDrained (s.setQcb i { s.qcb i with outst := (s.qcb i).outst - 1 })) := by
  change execFetcherTranslationReturn i s = _
  simp [execFetcherTranslationReturn, outst, state]

theorem exec_translationReturn_active {t : State} {e : Word} (outst : (s.qcb i).outst ≠ 0) (state : (s.qcb i).state = 1)
    (leaf : hubLeaf s (s.qcb i).pasid (slotVa (s.qcb i)) true = .ok (t, e)) :
    exec (.fetcherTranslationReturn i) s = .next (t.setQcb i { s.qcb i with outst := (s.qcb i).outst - 1 }) := by
  change execFetcherTranslationReturn i s = _
  simp [execFetcherTranslationReturn, outst, state, leaf]

end Return

/-- Settles O41: each step of a queue by its own equation; a fetched packet joins the packets that the hub's accesses leave alone. -/
theorem queuesRun : Obligations.QueuesRun := by
  unfold Obligations.QueuesRun
  refine ⟨?notify, fun s aperture queue v lost => exec_notifyWrite_lost lost v, ?fetch, ?aging⟩
  case notify =>
    intro s aperture queue pasid i v bound found active q ok
    refine ⟨fun fits => ?_, fun out => ?_⟩
    · rw [exec_notifyWrite_found bound found]
      exact congrArg Host.Outcome.next (if_pos ⟨active, (notifyOk_iff _ _).2 fits⟩)
    · rw [exec_notifyWrite_found bound found]
      exact congrArg Host.Outcome.next (if_neg fun fits => out ((notifyOk_iff _ _).1 fits.2))
  case fetch =>
    intro s i q
    refine ⟨exec_packetFetch_idle, fun active going left cached outst => exec_packetFetch_ask active going left cached outst, ?_⟩
    intro t b active going left cached read p
    refine ⟨fun valid => exec_packetFetch_stop active going left cached read valid, fun u valid good written => ?_⟩
    have kept : u.packets = s.packets := ((hubRead_works read).trans (hubWrite_works written)).packets
    refine ⟨_, exec_packetFetch_take active going left cached read valid good written, ?_, ?_, rfl, rfl⟩
    · change u.packets ++ _ = _
      rw [kept]
    · exact congrArg Qcb.rd (Tab.get_put_same ..)
  case aging =>
    intro s i q
    refine ⟨fun head => ?_, fun none owners => ?_, fun g mem waiting job slot energy => ?_, exec_translationReturn_none, exec_translationReturn_draining,
      fun t e => exec_translationReturn_active⟩
    · rw [exec_queueAging, if_pos (queueWaits_head head)]
    · have idle : queueWaits s i = false := by
        have none' : (s.gaths.any fun g => g.state == .waiting && g.owner.job.isSome && gathSlot s g == i && !energyOk s i g.estimate) = false :=
          List.any_eq_false.2 fun g hg => by simp [owners g hg]
        simp [queueWaits, none, none']
      rw [exec_queueAging, idle]
      rfl
    · have waits : queueWaits s i = true := by
        have some' : (s.gaths.any fun g => g.state == .waiting && g.owner.job.isSome && gathSlot s g == i && !energyOk s i g.estimate) = true :=
          List.any_eq_true.2 ⟨g, mem, by simp [waiting, job, slot, energy]⟩
        simp [queueWaits, some']
      rw [exec_queueAging, if_pos waits]

end Sys2Proof.Machine
end

section
/-!
SUPPORT. Packets, kernels and launches (R328 to R330, R335 to R337).
-/

namespace Sys2Proof.Machine

/-! ### What the completion of a packet leaves alone -/

/-- Work of the hub on packets: its accesses, its packets and its counter of free values. -/
def PaperWork (s t : State) : Prop := ∃ n p, HubWork { s with fresh := n, packets := p } t

theorem HubWork.paper {s t : State} (h : HubWork s t) : PaperWork s t := ⟨s.fresh, s.packets, h⟩

theorem PaperWork.refl (s : State) : PaperWork s s := (HubWork.refl s).paper

theorem HubWork.relabel {s t : State} (h : HubWork s t) (n : Nat) (p : List QPacket) : HubWork { s with fresh := n, packets := p } { t with fresh := n, packets := p } := by
  obtain ⟨ok, m, a, x, c, sh, po, sn, wt, hr, fl, tx, rfl⟩ := h
  exact ⟨ok, m, a, x, c, sh, po, sn, wt, hr, fl, tx, rfl⟩

theorem PaperWork.trans {s t u : State} (h : PaperWork s t) (g : PaperWork t u) : PaperWork s u := by
  obtain ⟨n, p, h⟩ := h
  obtain ⟨n', p', g⟩ := g
  exact ⟨n', p', (h.relabel n' p').trans g⟩

theorem paperWork_packets (s : State) (p : List QPacket) : PaperWork s { s with packets := p } := ⟨s.fresh, p, .refl _⟩

theorem paperWork_fresh (s : State) (n : Nat) : PaperWork s { s with fresh := n } := ⟨n, s.packets, .refl _⟩

theorem PaperWork.cores {s t : State} (h : PaperWork s t) : t.cores = s.cores := by
  obtain ⟨n, p, h⟩ := h
  exact h.cores

theorem PaperWork.gaths {s t : State} (h : PaperWork s t) : t.gaths = s.gaths := by
  obtain ⟨n, p, h⟩ := h
  exact h.gaths

/-- What work leaves, done or waiting. -/
def Work.state : Work → State
  | .ok t => t
  | .error t => t

theorem PaperWork.bind {s : State} {w : Work} {f : State → Work} (h : PaperWork s w.state) (next : ∀ t, PaperWork t (f t).state) : PaperWork s (Work.state (w >>= f)) := by
  cases w with
  | ok t => exact h.trans (next t)
  | error t => exact h

theorem paperWork_settle {s t : State} {w : Work} (first : PaperWork s t) (h : PaperWork t w.state) : PaperWork s (settleWork s w) := by
  cases w with
  | ok t => exact first.trans h
  | error t => exact (hubWork_keep s t).paper

theorem paperWork_noteDone {s : State} {r : HRes State} (h : r.Works s id) : PaperWork s (noteDone s r).state := by
  cases r with
  | ok t => exact HubWork.paper h
  | error e =>
    cases e with
    | fault code sub t => exact (hubWork_keep s t).paper
    | wait t => exact HubWork.paper h

theorem works_hubAdd (s : State) (pasid va : Nat) (v : Word) : HRes.Works s id (do
    let (t, p) ← hubPlace s hubAgent pasid va true
    match p with
    | .here _ => do
      let (t, x) ← hubRead64 t pasid va
      hubWrite t pasid va (leBytes 8 (x + v).toNat)
    | .there d => do
      let q := hubRequest false d.node d.va 8 (leBytes 8 v.toNat)
      let (t, _) ← hubTake (hubSend t pasid q) pasid q
      pure t) := by
  refine (works_hubPlace s hubAgent pasid va true).bind fun x => ?_
  obtain ⟨t, target⟩ := x
  cases target with
  | here p => exact (works_hubRead64 t pasid va).bind fun y => works_hubWrite ..
  | there d => exact HRes.Works.after ((works_hubTake _ pasid _).bind fun y => .refl _) (hubWork_hubSend t pasid _)

theorem paperWork_hubAdd (s : State) (pasid va : Nat) (v : Word) : PaperWork s (hubAdd s pasid va v).state := paperWork_noteDone (works_hubAdd s pasid va v)

theorem paperWork_completePacket (s : State) (p : QPacket) : PaperWork s (completePacket s p).state := by
  unfold completePacket
  simp only []
  split
  · exact (paperWork_packets s _).trans (paperWork_hubAdd ..)
  · exact paperWork_packets s _

theorem paperWork_completePacketId (s : State) (id : Nat) : PaperWork s (completePacketId s id).state := by
  unfold completePacketId
  split
  · exact paperWork_completePacket ..
  · exact .refl s

theorem paperWork_writeColophon (s : State) (pasid va : Nat) (v : Verdict) (flags done exit : Nat) : PaperWork s (writeColophon s pasid va v flags done exit).state := by
  unfold writeColophon
  split
  · exact .refl s
  · exact (paperWork_fresh s _).trans (paperWork_noteDone (works_hubWrite ..))

/-- What the lookup of a packet's colophon leaves. -/
def colophonState : Except State (State × Nat) → State
  | .ok x => x.1
  | .error t => t

theorem paperWork_packetColophon (s : State) (p : QPacket) : PaperWork s (colophonState (packetColophon s p)) := by
  unfold packetColophon
  split
  · exact .refl s
  · split
    · have read := works_hubRead64 s p.pasid ((p.word 0x18).toNat + 0x28)
      generalize hubRead64 s p.pasid ((p.word 0x18).toNat + 0x28) = r at read
      cases r with
      | ok x => exact HubWork.paper read
      | error e =>
        cases e with
        | fault code sub t => exact (hubWork_keep s t).paper
        | wait t => exact HubWork.paper read
    · split
      · exact .refl s
      · split
        · exact .refl s
        · exact .refl s

theorem paperWork_refusePacket (s : State) (p : QPacket) (v : Verdict) : PaperWork s (refusePacket s p v).state := by
  have rest : ∀ (t : State) (c : Nat), PaperWork t (Work.state (do
      let u ← writeColophon t p.pasid c v 0 0 0
      completePacket u p)) := fun t c => (paperWork_writeColophon ..).bind fun u => paperWork_completePacket ..
  have colophon := paperWork_packetColophon s p
  unfold refusePacket
  generalize packetColophon s p = r at colophon
  cases r with
  | ok x => exact PaperWork.trans colophon (rest x.1 x.2)
  | error t => exact colophon

/-! ### Kernels -/

theorem works_readData (pasid n : Nat) (va : Nat) (s : State) : (readData pasid n va s).Works s Prod.fst := by
  induction n generalizing va s with
  | zero => exact .refl s
  | succ n ih =>
    rw [readData]
    exact (works_hubRead64 s pasid va).bind fun x => (works_hubRead ..).bind fun y => (ih _ _).bind fun z => .refl _

theorem works_readKernel (s : State) (pasid va : Nat) : (readKernel s pasid va).Works s Prod.fst := by
  unfold readKernel
  exact (works_hubRead64 s pasid va).bind fun x => (works_hubRead64 ..).bind fun y => (works_hubRead ..).bind fun z => (works_readData ..).bind fun _ => .refl _

/-- The load of a kernel is work of the hub, whether it loads or not. -/
theorem hubWork_loadKernel {s t : State} {pasid va : Nat} {k : Except Verdict Kernel} (h : loadKernel s pasid va = .ok (t, k)) : HubWork s t := by
  have read := works_readKernel s pasid va
  unfold loadKernel at h
  generalize readKernel s pasid va = r at read h
  cases r with
  | ok x =>
    simp only [] at h
    split at h <;> cases h <;> exact read
  | error e =>
    cases e with
    | fault code sub u =>
      cases h
      exact hubWork_keep ..
    | wait u => exact nomatch h

theorem hubWork_readArgs {s t : State} {pasid : Nat} {w : Nat → Word} {d : List Byte} (h : readArgs s pasid w = .ok (t, d)) : HubWork s t := by
  unfold readArgs at h
  split at h
  · cases h
    exact .refl s
  · exact hubRead_works h

/-! ### Launches -/

section Launch

variable {s : State} {p : QPacket} (there : s.packet? p.id = some p) (type : p.type = 1) (head : isHead s p = true)
  (fresh : s.gaths.any (fun g => g.owner.packet == some p.id) = false) (single : (p.word 0x10).getLsbD 31 = false)
include there type head fresh single

theorem exec_launchPacket_unfit (unfit : inService s < (p.word 0x10).toNat % 512) :
    exec (.launchPacket p.id) s = .next (settleWork s (refusePacket s p { status := 1, code := 0, sub := 1, bundle := 0, idx := 0 })) := by
  have span : bit (p.word 0x10) 31 = false := single
  have low : bits (p.word 0x10) 8 0 = (p.word 0x10).toNat % 512 := bits_low _ 8
  have refused : refuseLaunch s p false ((p.word 0x10).toNat % 512) = some { status := stLoadFail, code := 0, sub := 1, bundle := 0, idx := 0 } := by
    simp [refuseLaunch, unfit]
  change execLaunchPacket p.id s = _
  simp only [execLaunchPacket, there, type, head, fresh, span, low, refused]
  rfl

variable (fits : (p.word 0x10).toNat % 512 ≤ inService s)
include fits

theorem exec_launchPacket_unloaded {t : State} {v : Verdict} (kernel : loadKernel s p.pasid (p.word 0x08).toNat = .ok (t, .error v)) :
    exec (.launchPacket p.id) s = .next (settleWork s (refusePacket t p v)) := by
  have span : bit (p.word 0x10) 31 = false := single
  have low : bits (p.word 0x10) 8 0 = (p.word 0x10).toNat % 512 := bits_low _ 8
  have allowed : refuseLaunch s p false ((p.word 0x10).toNat % 512) = none := by simp [refuseLaunch, Nat.not_lt.2 fits]
  change execLaunchPacket p.id s = _
  simp only [execLaunchPacket, there, type, head, fresh, span, low, allowed, kernel]
  rfl

theorem exec_launchPacket_loads {t u : State} {k : Kernel} {args : List Byte} (kernel : loadKernel s p.pasid (p.word 0x08).toNat = .ok (t, .ok k))
    (read : readArgs t p.pasid p.word = .ok (u, args)) :
    exec (.launchPacket p.id) s = .next (addGath u
      { newGath u p.pasid (p.word 0x08).toNat ((p.word 0x10).toNat % 512) 0 0 k.energy args { packet := some p.id, job := none, block := 0 } with
        colophon := (p.word 0x18).toNat, tick := bits (p.word 0x28) 63 8 * 256 }) := by
  have span : bit (p.word 0x10) 31 = false := single
  have low : bits (p.word 0x10) 8 0 = (p.word 0x10).toNat % 512 := bits_low _ 8
  have allowed : refuseLaunch s p false ((p.word 0x10).toNat % 512) = none := by simp [refuseLaunch, Nat.not_lt.2 fits]
  change execLaunchPacket p.id s = _
  simp only [execLaunchPacket, there, type, head, fresh, span, low, allowed, kernel, read]
  rfl

end Launch

/-! ### Placement -/

theorem rising_lt {a : Nat} {l : List Nat} (h : rising (a :: l) = true) : ∀ b ∈ l, a < b := by
  induction l generalizing a with
  | nil => exact fun b hb => nomatch hb
  | cons c l ih =>
    have both : a < c ∧ rising (c :: l) = true := by simpa [rising] using h
    intro b hb
    rcases List.mem_cons.1 hb with same | mem
    · exact same ▸ both.1
    · exact Nat.lt_trans both.1 (ih both.2 b mem)

theorem nodup_of_rising {l : List Nat} (h : rising l = true) : l.Nodup := by
  induction l with
  | nil => exact List.nodup_nil
  | cons a l ih =>
    have tail : rising l = true := by
      cases l with
      | nil => rfl
      | cons b l => exact (by simpa [rising] using h : a < b ∧ rising (b :: l) = true).2
    exact List.nodup_cons.2 ⟨fun mem => Nat.lt_irrefl a (rising_lt h a mem), ih tail⟩

/-- Cores that hold nothing for other contexts have nothing to evict. -/
theorem evictCores_none {l : List Nat} {s : State} (none : ∀ c ∈ l, (s.core c).held = []) : evictCores l s = .ok s := by
  induction l with
  | nil => rfl
  | cons c l ih =>
    have first : evict s c = .ok s := by rw [evict, none c List.mem_cons_self]; rfl
    rw [evictCores, first]
    exact ih fun d hd => none d (List.mem_cons_of_mem c hd)

/-- Updates of distinct cores, each of its own. -/
theorem core_foldl_modCore {α : Type} (f : Nat → α → Core → Core) (l : List (Nat × α)) (distinct : (l.map (·.1)).Nodup) (s : State) :
    (∀ x ∈ l, ((l.foldl (fun s x => s.modCore x.1 (f x.1 x.2)) s).core x.1) = f x.1 x.2 (s.core x.1)) ∧
      ∀ d, d ∉ l.map (·.1) → (l.foldl (fun s x => s.modCore x.1 (f x.1 x.2)) s).core d = s.core d := by
  induction l generalizing s with
  | nil => exact ⟨fun x hx => (nomatch hx), fun _ _ => rfl⟩
  | cons a l ih =>
    obtain ⟨fresh, rest⟩ := List.nodup_cons.1 distinct
    obtain ⟨mem, other⟩ := ih rest (s.modCore a.1 (f a.1 a.2))
    refine ⟨fun x hx => ?_, fun d hd => ?_⟩
    · rw [List.foldl_cons]
      rcases List.mem_cons.1 hx with rfl | inside
      · rw [other _ fresh, State.core_modCore_same]
      · have differs : x.1 ≠ a.1 := fun same => fresh (List.mem_map.2 ⟨x, inside, same⟩)
        rw [mem x inside, State.core_modCore_other _ _ differs]
    · rw [List.map_cons, List.mem_cons, not_or] at hd
      rw [List.foldl_cons, other d hd.2, State.core_modCore_other _ _ hd.1]

/-- Everything but the cores. -/
theorem foldl_modCore_eq {α : Type} (f : α → Nat) (g : α → Core → Core) (l : List α) (s : State) :
    ∃ k, l.foldl (fun s x => s.modCore (f x) (g x)) s = { s with cores := k } := by
  induction l generalizing s with
  | nil => exact ⟨s.cores, rfl⟩
  | cons a l ih =>
    obtain ⟨k, eq⟩ := ih (s.modCore (f a) (g a))
    exact ⟨k, by rw [List.foldl_cons, eq]; rfl⟩

/-- A member's core at kernel entry. -/
def placedCore (s : State) (g : Gath) (k : Kernel) (d r : Nat) (c : Core) : Core :=
  entryCore c g d r (entryScratch s g k c.scratch) (entryCode k) (codeMap g.image (entryCode k) k.bundles.length) k.bundles.length

/-- The argument block names the table of the process, which no load changes. -/
theorem foldl_placedCore (s : State) (g : Gath) (k : Kernel) (l : List (Nat × Nat)) {u : State} (same : u.pasids = s.pasids) :
    l.foldl (fun u x => u.modCore x.1 (placedCore u g k x.1 x.2)) u = l.foldl (fun u x => u.modCore x.1 (placedCore s g k x.1 x.2)) u := by
  induction l generalizing u with
  | nil => rfl
  | cons x l ih =>
    have first : placedCore u g k x.1 x.2 = placedCore s g k x.1 x.2 := by
      funext c
      simp only [placedCore, entryScratch, argumentBlock, same]
    rw [List.foldl_cons, List.foldl_cons, first]
    exact ih same

/-- The members stand at kernel entry, each at its rank. -/
theorem loadMembers_loads {g : Gath} {k : Kernel} {on : List Nat} {s : State} (free : ∀ c ∈ on, (s.core c).held = []) (up : rising on = true) :
    ∃ c, loadMembers g k on s = .ok { s with cores := c } ∧
      (∀ r d, on[r]? = some d → ({ s with cores := c } : State).core d = placedCore s g k d r (s.core d)) ∧
      ∀ d, d ∉ on → ({ s with cores := c } : State).core d = s.core d := by
  have names : (on.zip (List.range on.length)).map (·.1) = on := List.map_fst_zip (by simp)
  obtain ⟨c, eq⟩ := foldl_modCore_eq (fun x : Nat × Nat => x.1) (fun x => placedCore s g k x.1 x.2) (on.zip (List.range on.length)) s
  obtain ⟨members, others⟩ := core_foldl_modCore (placedCore s g k) (on.zip (List.range on.length)) (by rw [names]; exact nodup_of_rising up) s
  rw [names] at others
  refine ⟨c, ?_, fun r d at' => ?_, fun d out => ?_⟩
  · rw [loadMembers, evictCores_none free, ← eq, ← foldl_placedCore s g k _ rfl]
    rfl
  · rw [← eq]
    refine members (d, r) (List.mem_iff_getElem?.2 ⟨r, ?_⟩)
    have inside : r < on.length := (List.getElem?_eq_some_iff.1 at').1
    rw [List.getElem?_zip_eq_some]
    exact ⟨at', by simp [inside]⟩
  · rw [← eq]
    exact others d out

/-- A gathering that is loaded on its cores. -/
def Gath.loaded (g : Gath) (on : List Nat) (time : Nat) : Gath :=
  { g with state := .loaded, on := on, admitted := true, tick := (time + 7000) % 2 ^ 64 }

/-- The gathering is found as it was set, and later ones stand behind it. -/
theorem find_setGath_append {l : List Gath} {g x : Gath} (there : l.find? (fun y => y.id == g.id) = some x) (more : List Gath) :
    ((l.map fun y => if y.id = g.id then g else y) ++ more).find? (fun y => y.id == g.id) = some g := by
  rw [List.find?_append, find_map_setGath l g (by rw [there]; rfl)]
  rfl

/-- What the placement leaves of the gatherings and cores. -/
theorem placed_leaves {s : State} {g x : Gath} (there : s.gath? g.id = some x) (single : g.span = false) (on : List Nat) :
    (placed s g on).gath? g.id = some (g.loaded on s.time) ∧ (placed s g on).cores = s.cores := by
  have set : ∀ l, ((s.setGath (g.loaded on s.time)).gaths ++ l).find? (fun y => y.id == g.id) = some (g.loaded on s.time) :=
    find_setGath_append (g := g.loaded on s.time) there
  have only : (s.setGath (g.loaded on s.time)).gaths.find? (fun y => y.id == g.id) = some (g.loaded on s.time) := by
    have none := set []
    rwa [List.append_nil] at none
  have multiple : ¬g.span = true := by simp [single]
  have instances : ∀ (u : State) (j : Job) (entry : Nat), u.gaths = (s.setGath (g.loaded on s.time)).gaths → u.cores = s.cores →
      (nextInstance u j entry).gath? g.id = some (g.loaded on s.time) ∧ (nextInstance u j entry).cores = s.cores := by
    intro u j entry gaths cores
    unfold nextInstance
    split
    · exact ⟨by rw [State.gath?, gaths]; exact only, cores⟩
    · split
      · exact ⟨by rw [State.gath?, gaths]; exact only, cores⟩
      · refine ⟨?_, cores⟩
        change (u.gaths ++ _).find? _ = _
        rw [gaths]
        exact set _
  have reset : ∀ (u : State) (i : Nat), (resetCur u i).gaths = u.gaths ∧ (resetCur u i).cores = u.cores := by
    intro u i
    unfold resetCur
    split <;> exact ⟨rfl, rfl⟩
  unfold placed
  simp only []
  rw [if_neg multiple, if_neg multiple]
  split
  · exact ⟨only, rfl⟩
  · obtain ⟨gaths, cores⟩ := reset (s.setGath (g.loaded on s.time)) (gathSlot (s.setGath (g.loaded on s.time)) (g.loaded on s.time))
    exact instances _ _ _ gaths cores
  · exact ⟨only, rfl⟩

/-- What a placement that is allowed asks of the cores. -/
theorem placement_of_mayPlace {s : State} {g : Gath} {on : List Nat} (may : mayPlace s g on = true) : on.length = g.n ∧ rising on = true ∧ ∀ c ∈ on, freeCore s c = true := by
  have ok : placementOk s g.n (placeDies s g) on = true := by
    unfold mayPlace at may
    simp only [Bool.and_eq_true] at may
    exact may.1.1.1
  unfold placementOk at ok
  simp only [Bool.and_eq_true, beq_iff_eq, List.all_eq_true] at ok
  obtain ⟨⟨⟨⟨⟨length, up⟩, free⟩, -⟩, -⟩, -⟩ := ok
  exact ⟨length, up, free⟩

/-- GATHERING_PLACE on cores that hold nothing for other contexts. -/
theorem exec_gatheringPlace {s t : State} {g : Gath} {k : Kernel} {on : List Nat} (there : s.gath? g.id = some g) (waiting : g.state = .waiting) (single : g.span = false)
    (may : mayPlace s g on = true) (kernel : loadKernel s g.pasid g.image = .ok (t, .ok k)) (none : ∀ c ∈ on, (s.core c).held = []) :
    ∃ w, exec (.gatheringPlace g.id on) s = .next w ∧ w.gath? g.id = some (g.loaded on s.time) ∧
      (∀ r c, on[r]? = some c → w.core c = placedCore t g k c r (s.core c)) ∧ ∀ d, d ∉ on → w.core d = s.core d := by
  have work := hubWork_loadKernel kernel
  have core : ∀ d, t.core d = s.core d := fun d => congrArg (fun x : Tab Core => x.get .idle d) work.cores
  have time : t.time = s.time := by
    obtain ⟨-, m, a, x, c, sh, po, sn, wt, hr, fl, tx, eq⟩ := work
    rw [eq]
  obtain ⟨-, up, -⟩ := placement_of_mayPlace may
  obtain ⟨c, loads, members, others⟩ := loadMembers_loads (g := g) (k := k) (s := t) (on := on) (fun d hd => by rw [core]; exact none d hd) up
  have found : ({ t with cores := c } : State).gath? g.id = some g := by
    rw [State.gath?]
    change t.gaths.find? _ = _
    rw [work.gaths]
    exact there
  have debited : (debit { t with cores := c } (gathSlot { t with cores := c } g) g.estimate).gath? g.id = some g := found
  obtain ⟨gath, cores⟩ := placed_leaves debited single on
  have at' : ∀ d, (placed (debit { t with cores := c } (gathSlot { t with cores := c } g) g.estimate) g on).core d = ({ t with cores := c } : State).core d :=
    fun d => congrArg (fun x : Tab Core => x.get .idle d) cores
  refine ⟨placed (debit { t with cores := c } (gathSlot { t with cores := c } g) g.estimate) g on, ?_, ?_, fun r d hd => ?_, fun d out => ?_⟩
  · have goes : ¬(g.state ≠ .waiting ∨ mayPlace s g on = false) := by simp [waiting, may]
    change execGatheringPlace g.id on s = _
    simp only [execGatheringPlace, there, if_neg goes, kernel]
    change Host.Outcome.next (settleWork s (do
      let t ← loadMembers g k on t
      pure (placed (debit t (gathSlot t g) g.estimate) g on))) = _
    rw [loads]
    rfl
  · rw [gath]
    change some (g.loaded on t.time) = _
    rw [time]
  · rw [at', members r d hd, core]
  · rw [at', others d out, core]

/-! ### Release -/

section Release

variable {s : State} {g : Gath} (there : s.gath? g.id = some g) (loaded : g.state = .loaded)
include there loaded

theorem exec_gatheringRelease_early (span : g.span = true) (early : holdsReady s g = false) : exec (.gatheringRelease g.id) s = .next s := by
  change execGatheringRelease g.id s = _
  simp [execGatheringRelease, there, loaded, span, early]

/-- The members of a gathering run, at a time. -/
def released (s : State) (g : Gath) (time : Nat) : State :=
  ((s.membersOf g.id).foldl (fun (s : State) c => s.modCore c fun k => { k with run := .running }) { s with time := time }).setGath
    { g with state := .running, modules := if g.span then s.module :: readyFrom s g else g.modules }

omit there loaded in
/-- The time plays no part in who runs and who is ready. -/
theorem released_eq (s : State) (g : Gath) (time : Nat) :
    ((({ s with time := time } : State).membersOf g.id).foldl (fun (s : State) c => s.modCore c fun k => { k with run := .running }) { s with time := time }).setGath
      { g with state := .running, modules := if g.span then s.module :: readyFrom { s with time := time } g else g.modules } = released s g time := rfl

theorem exec_gatheringRelease (ready : g.span = false ∨ (holdsReady s g = true ∧ (reached s.time g.tick = false ∨ s.time = g.tick))) :
    exec (.gatheringRelease g.id) s = .next (released s g (laterTick s.time g.tick)) := by
  have goes : ¬(g.state ≠ .loaded ∨ (g.span = true ∧ (holdsReady s g = false ∨ (reached s.time g.tick = true ∧ s.time ≠ g.tick)))) := by
    rcases ready with single | ⟨holds, early | now⟩
    · simp [loaded, single]
    · simp [loaded, holds, early]
    · simp [loaded, holds, now]
  change execGatheringRelease g.id s = _
  unfold execGatheringRelease
  rw [there, ← released_eq]
  exact if_neg goes

omit loaded in
/-- What the release leaves: the gathering, its time, its members' cores and every other core, and memory. -/
theorem released_leaves (time : Nat) :
    (released s g time).gath? g.id = some { g with state := .running, modules := if g.span then s.module :: readyFrom s g else g.modules } ∧ (released s g time).time = time ∧
      (∀ c ∈ s.membersOf g.id, (released s g time).core c = { (s.core c) with run := .running }) ∧
      (∀ c, c ∉ s.membersOf g.id → (released s g time).core c = s.core c) ∧ SameMemory s (released s g time) := by
  have distinct : (((s.membersOf g.id).map fun c => (c, ())).map (·.1)).Nodup := by
    rw [List.map_map]
    exact (List.map_id _).symm ▸ List.Pairwise.filter _ List.nodup_range
  obtain ⟨members, others⟩ := core_foldl_modCore (fun _ _ k => { k with run := .running }) ((s.membersOf g.id).map fun c => (c, ())) distinct { s with time := time }
  obtain ⟨k, eq⟩ := foldl_modCore_eq (fun c : Nat => c) (fun _ k => { k with run := .running }) (s.membersOf g.id) { s with time := time }
  rw [List.foldl_map] at members others
  have fields : ∀ c, (released s g time).core c =
      ((s.membersOf g.id).foldl (fun (s : State) c => s.modCore c fun k => { k with run := .running }) { s with time := time }).core c := fun c => rfl
  refine ⟨gath_setGath ?_, ?_, fun c hc => ?_, fun c out => ?_, fun p => ?_⟩
  · rw [eq]
    change (s.gath? g.id).isSome
    rw [there]
    rfl
  · rw [released, eq]
    rfl
  · rw [fields]
    exact members (c, ()) (List.mem_map.2 ⟨c, hc, rfl⟩)
  · rw [fields]
    exact others c (by simpa using out)
  · rw [released, eq]
    rfl

end Release

/-- Settles O42: the launch by its three ends, the placement by `placedCore`, the release by its members' cores. -/
theorem launchRuns : Obligations.LaunchRuns := by
  unfold Obligations.LaunchRuns
  refine ⟨?launch, ⟨?place, fun s g there loaded => ⟨fun ready => ?release, exec_gatheringRelease_early there loaded⟩⟩⟩
  case launch =>
    intro s p there type head fresh single n
    refine ⟨exec_launchPacket_unfit there type head fresh single, fun t v fits kernel => ?_, fun t k u args fits kernel read => ?_⟩
    · refine ⟨_, exec_launchPacket_unloaded there type head fresh single fits kernel, ?_⟩
      exact (paperWork_settle (hubWork_loadKernel kernel).paper (paperWork_refusePacket t p v)).cores
    · have work := (hubWork_loadKernel kernel).trans (hubWork_readArgs read)
      exact ⟨_, _, exec_launchPacket_loads there type head fresh single fits kernel read, congrArg (· ++ [_]) work.gaths, work.packets, work.cores, rfl, rfl, rfl, rfl, rfl, rfl,
        rfl, rfl, rfl⟩
  case place =>
    intro s t g k on there waiting single may kernel none
    obtain ⟨length, up, free⟩ := placement_of_mayPlace may
    obtain ⟨w, run, gath, members, others⟩ := exec_gatheringPlace there waiting single may kernel none
    exact ⟨length, up, w, run, gath, fun r c at' => ⟨free c (List.mem_iff_getElem?.2 ⟨r, at'⟩), members r c at'⟩, others⟩
  case release => exact ⟨_, exec_gatheringRelease there loaded ready, released_leaves there _⟩

end Sys2Proof.Machine
end

section
/-!
SUPPORT. The packets without a kernel (R336, R337).
-/

namespace Sys2Proof.Machine

/-- A packet that completes without a signal. -/
def State.without (s : State) (p : QPacket) : State := { s with packets := s.packets.filter fun x => x.id != p.id }

theorem completePacket_plain (s : State) {p : QPacket} (sig : p.sig = false) : completePacket s p = .ok (s.without p) := by
  simp [completePacket, sig, State.without]

/-- A packet that starts in its turn. -/
theorem onLaunch_starts {s : State} {p : QPacket} {type : Nat} {f : QPacket → State → Work} (there : s.packet? p.id = some p) (is : p.type = type) (fresh : p.started = false)
    (may : mayLaunch s p = true) : onLaunch p.id type s f = .next (settleWork s (f p (launchPacket s p))) := by
  simp [onLaunch, there, is, fresh, may]

/-! ### The word of a signal -/

section Add

variable {s t₀ t u : State} {pasid va : Nat} {x v : Word}

theorem hubAdd_here {pl : Place} (place : hubPlace s hubAgent pasid va true = .ok (t₀, .here pl)) (read : hubRead64 t₀ pasid va = .ok (t, x))
    (written : hubWrite t pasid va (leBytes 8 (x + v).toNat) = .ok u) : hubAdd s pasid va v = .ok u := by
  have done : (do
      let (t, x) ← hubRead64 t₀ pasid va
      hubWrite t pasid va (leBytes 8 (x + v).toNat)) = .ok u := by
    rw [read]
    exact written
  unfold hubAdd
  rw [place]
  exact congrArg (noteDone s) done

theorem hubAdd_there {d : Dest} {r : List Byte} (place : hubPlace s hubAgent pasid va true = .ok (t₀, .there d))
    (take : hubTake (hubSend t₀ pasid (hubRequest false d.node d.va 8 (leBytes 8 v.toNat))) pasid (hubRequest false d.node d.va 8 (leBytes 8 v.toNat)) = .ok (t, r)) :
    hubAdd s pasid va v = .ok t := by
  have done : (do
      let (t, _) ← hubTake (hubSend t₀ pasid (hubRequest false d.node d.va 8 (leBytes 8 v.toNat))) pasid (hubRequest false d.node d.va 8 (leBytes 8 v.toNat))
      pure t) = .ok t := by
    rw [take]
    rfl
  unfold hubAdd
  rw [place]
  exact congrArg (noteDone s) done

end Add

/-- A packet with a signal decrements its word. -/
theorem completePacket_signals {s t₀ t u : State} {p : QPacket} {x : Word} {pl : Place} (sig : p.sig = true) (signal : p.signal ≠ 0)
    (place : hubPlace (s.without p) hubAgent p.pasid p.signal true = .ok (t₀, .here pl)) (read : hubRead64 t₀ p.pasid p.signal = .ok (t, x))
    (written : hubWrite t p.pasid p.signal (leBytes 8 (x - 1).toNat) = .ok u) : completePacket s p = .ok u := by
  have minus : x - 1 = x + (-1) := BitVec.sub_eq_add_neg x 1
  rw [minus] at written
  simp only [completePacket, sig, true_and, ne_eq, signal, not_false_eq_true, if_true]
  exact hubAdd_here place read written

/-! ### The packets -/

section Starts

variable {s : State} {p : QPacket} (there : s.packet? p.id = some p) (fresh : p.started = false) (may : mayLaunch s p = true) (sig : p.sig = false)
include there fresh may sig

theorem exec_copyPacket {t u : State} {d : List Byte} (type : p.type = 4) (read : hubRead (launchPacket s p) p.pasid (p.word 0x08).toNat (p.word 0x18).toNat = .ok (t, d))
    (written : hubWrite t p.pasid (p.word 0x10).toNat d = .ok u) : exec (.copyPacket p.id) s = .next (u.without p) := by
  change execCopyPacket p.id s = _
  have note : hubNote t p.pasid (p.word 0x10).toNat d = .ok u := by rw [hubNote, written]; rfl
  rw [execCopyPacket, onLaunch_starts there type fresh may]
  simp only [read, note]
  change Host.Outcome.next (settleWork s (completePacket u p)) = _
  rw [completePacket_plain u sig]
  rfl

theorem exec_signalPacket {u : State} (type : p.type = 5) (added : hubAdd (launchPacket s p) p.pasid (p.word 0x08).toNat (p.word 0x10) = .ok u) :
    exec (.signalPacket p.id) s = .next (u.without p) := by
  change execSignalPacket p.id s = _
  rw [execSignalPacket, onLaunch_starts there type fresh may]
  simp only [added]
  change Host.Outcome.next (settleWork s (completePacket u p)) = _
  rw [completePacket_plain u sig]
  rfl

theorem exec_energyPacket (type : p.type = 7) :
    exec (.energyPacket p.id) s = .next (((launchPacket s p).setQcb p.slot { (launchPacket s p).qcb p.slot with ecap := (p.word 0x08).toNat }).without p) := by
  change execEnergyPacket p.id s = _
  rw [execEnergyPacket, onLaunch_starts there type fresh may, completePacket_plain _ sig]
  rfl

omit sig
theorem exec_waitPacket_starts (type : p.type = 6) : exec (.waitPacket p.id) s = .next (settleWork s (tryWait (launchPacket s p) p)) := by
  change execWaitPacket p.id s = _
  simp only [execWaitPacket, there, type, fresh, ne_eq, not_true_eq_false, Bool.false_eq_true, if_false]
  exact onLaunch_starts there type fresh may

theorem exec_barrierPacket_starts (type : p.type = 9) :
    exec (.barrierPacket p.id) s = .next (settleWork s (if isOldest (launchPacket s p) p then completePacket (launchPacket s p) p else .ok (launchPacket s p))) := by
  change execBarrierPacket p.id s = _
  simp only [execBarrierPacket, there, type, fresh, ne_eq, not_true_eq_false, Bool.false_eq_true, if_false]
  exact onLaunch_starts there type fresh may

end Starts

theorem tryWait_met {s t : State} {p : QPacket} {x : Word} (sig : p.sig = false) (read : hubRead64 s p.pasid (p.word 0x08).toNat = .ok (t, x))
    (met : x.toInt ≤ (p.word 0x10).toInt) : tryWait s p = .ok (t.without p) := by
  simp only [tryWait, read, if_pos met, completePacket_plain t sig]

theorem tryWait_unmet {s t : State} {p : QPacket} {x : Word} (read : hubRead64 s p.pasid (p.word 0x08).toNat = .ok (t, x))
    (unmet : (p.word 0x10).toInt < x.toInt) : tryWait s p = .ok t := by
  simp only [tryWait, read, if_neg (Int.not_le.2 unmet)]

/-- The launch of a packet leaves the order of its queue. -/
theorem isOldest_launchPacket (s : State) (p : QPacket) : isOldest (launchPacket s p) p = isOldest s p := by
  have kept : ∀ x : QPacket, (if x.id = p.id then { x with started := true } else x).slot = x.slot ∧ (if x.id = p.id then { x with started := true } else x).id = x.id := by
    intro x
    split <;> exact ⟨rfl, rfl⟩
  have queue : queuePackets (launchPacket s p) p.slot = (queuePackets s p.slot).map fun x => if x.id = p.id then { x with started := true } else x := by
    refine (List.filter_map ..).trans (congrArg (List.map _) (List.filter_congr fun x _ => ?_))
    rw [Function.comp_apply, (kept x).1]
  unfold isOldest
  rw [queue]
  cases queuePackets s p.slot with
  | nil => rfl
  | cons x l => exact congrArg (· == p.id) (kept x).2

section Started

variable {s : State} {p : QPacket} (there : s.packet? p.id = some p) (started : p.started = true)
include there started

theorem exec_waitPacket_again (type : p.type = 6) : exec (.waitPacket p.id) s = .next (settleWork s (tryWait s p)) := by
  change execWaitPacket p.id s = _
  simp [execWaitPacket, there, type, started]

theorem exec_barrierPacket_again (type : p.type = 9) (oldest : isOldest s p = true) : exec (.barrierPacket p.id) s = .next (settleWork s (completePacket s p)) := by
  change execBarrierPacket p.id s = _
  simp [execBarrierPacket, there, type, started, oldest]

end Started

/-- Settles O43: each packet starts by `onLaunch_starts` and leaves by `completePacket_plain`. -/
theorem plainPacketsComplete : Obligations.PlainPacketsComplete := by
  unfold Obligations.PlainPacketsComplete
  refine ⟨?starts, ?again, fun s t₀ t u p x pl sig signal place read written => completePacket_signals sig signal place read written⟩
  case starts =>
    intro s p there fresh may sig l left
    refine ⟨fun t d u type read written => exec_copyPacket there fresh may sig type read written,
      fun t₀ pl t x u type place read written => exec_signalPacket there fresh may sig type (hubAdd_here place read written),
      fun t₀ d t r type place take => exec_signalPacket there fresh may sig type (hubAdd_there place take),
      fun t x type read => ⟨fun met => ?met, fun unmet => ?unmet⟩, exec_energyPacket there fresh may sig,
      fun type => ⟨fun oldest => ?oldest, fun later => ?later⟩⟩
    case met =>
      rw [exec_waitPacket_starts there fresh may type, tryWait_met sig read met]
      rfl
    case unmet =>
      rw [exec_waitPacket_starts there fresh may type, tryWait_unmet read unmet]
      rfl
    case oldest =>
      rw [exec_barrierPacket_starts there fresh may type, isOldest_launchPacket, oldest, completePacket_plain _ sig]
      rfl
    case later =>
      rw [exec_barrierPacket_starts there fresh may type, isOldest_launchPacket, later]
      rfl
  case again =>
    intro s p there started sig
    refine ⟨fun type oldest => ?_, fun t x type read met => ?_⟩
    · rw [exec_barrierPacket_again there started type oldest, completePacket_plain s sig]
      rfl
    · rw [exec_waitPacket_again there started type, tryWait_met sig read met]
      rfl

end Sys2Proof.Machine
end

section
/-!
SUPPORT. Jobs and their distributors (R338, R339, R345).
-/

namespace Sys2Proof.Machine

/-! ### Starts -/

/-- The job of a body before its kernel is read. -/
def Job.ofBody (s : State) (pasid : Nat) (w : Nat → Word) (packet : Option Nat) (graph : Option (Nat × Nat)) : Job :=
  { id := s.fresh, pasid := pasid, ctx := pasid, jcb := (w 0x18).toNat, image := (w 0x08).toNat, n := bits (w 0x10) 8 0, args := [], estimate := 0, packet := packet, graph := graph,
    entries := 0, blocks := [], redo := [], flags := 0, exits := [] }

/-- The state in which the job has joined. -/
def withJob (s : State) (j : Job) : State := { s with fresh := s.fresh + 1, jobs := s.jobs ++ [j] }

section Start

variable {s : State} {pasid : Nat} {w : Nat → Word} {packet : Option Nat} {graph : Option (Nat × Nat)}

theorem startJob_unfit (unfit : inService s < bits (w 0x10) 8 0) :
    startJob s pasid w packet graph = endJob (withJob s (.ofBody s pasid w packet graph)) (.ofBody s pasid w packet graph) { status := stLoadFail, code := 0, sub := 1, bundle := 0, idx := 0 } :=
  if_pos unfit

theorem startJob_loads {t u v : State} {k : Kernel} {args : List Byte} {x : Word} (fits : bits (w 0x10) 8 0 ≤ inService s)
    (kernel : loadKernel (withJob s (.ofBody s pasid w packet graph)) pasid (w 0x08).toNat = .ok (t, .ok k)) (read : readArgs t pasid w = .ok (u, args))
    (expected : hubRead64 u pasid (w 0x18).toNat = .ok (v, x)) (some : x ≠ 0) :
    startJob s pasid w packet graph = .ok (v.setJob { Job.ofBody s pasid w packet graph with args := args, estimate := k.energy }) := by
  have fits' : ¬inService (withJob s (.ofBody s pasid w packet graph)) < bits (w 0x10) 8 0 := Nat.not_lt.2 fits
  simp only [withJob, Job.ofBody] at fits' kernel
  simp only [startJob, if_neg fits', kernel, read, expected, if_neg some]
  rfl

end Start

/-! ### Handouts -/

theorem find_map_setJob (l : List Job) (j : Job) (there : (l.find? fun x => x.id == j.id).isSome) : (l.map fun x => if x.id = j.id then j else x).find? (fun x => x.id == j.id) = some j := by
  induction l with
  | nil => exact nomatch there
  | cons x l ih =>
    by_cases same : x.id = j.id
    · simp [same]
    · have tail : (l.find? fun x => x.id == j.id).isSome := by simpa [same] using there
      simp [same, ih tail]

theorem job_setJob {s : State} {j : Job} (there : (s.job? j.id).isSome) : (s.setJob j).job? j.id = some j := find_map_setJob s.jobs j there

/-- The first of the instances of a block that has just been handed out. -/
theorem nextInstance_first {s : State} {j : Job} {x : Block} (last : j.blocks.find? (fun b => b.entry == x.entry) = some x) (unstarted : x.started = 0) (some : x.n ≠ 0) :
    nextInstance s j x.entry = addGath (s.setJob { j with blocks := j.blocks.map fun b => if b.entry = x.entry then { b with started := b.started + 1 } else b })
      (newGath (s.setJob { j with blocks := j.blocks.map fun b => if b.entry = x.entry then { b with started := b.started + 1 } else b }) j.pasid j.image j.n x.first j.jcb j.estimate j.args
        { packet := none, job := j.id, block := x.entry }) := by
  have goes : ¬x.n ≤ x.started := by omega
  simp only [nextInstance, last]
  rw [if_neg goes, unstarted, Nat.add_zero]

/-- A new block stands behind the others, which have lower entries. -/
theorem find_new {l : List Block} {x : Block} (lower : ∀ y ∈ l, y.entry < x.entry) : (l ++ [x]).find? (fun b => b.entry == x.entry) = some x := by
  have none : l.find? (fun b => b.entry == x.entry) = none := List.find?_eq_none.2 fun y hy => by simpa using Nat.ne_of_lt (lower y hy)
  simp [List.find?_append, none]

theorem map_new {l : List Block} {x : Block} (lower : ∀ y ∈ l, y.entry < x.entry) :
    (l ++ [x]).map (fun b => if b.entry = x.entry then { b with started := b.started + 1 } else b) = l ++ [{ x with started := x.started + 1 }] := by
  have same : l.map (fun b => if b.entry = x.entry then { b with started := b.started + 1 } else b) = l :=
    (List.map_congr_left fun y hy => if_neg (Nat.ne_of_lt (lower y hy))).trans (List.map_id _)
  simp [same]

/-- A block of a job as it is handed out. -/
def Job.newBlock (j : Job) (die first n : Nat) : Block := { entry := j.entries, die := die, first := first, n := n, started := 0, ended := 0 }

/-- A job with a new block. -/
def Job.grown (j : Job) (die first n : Nat) : Job := { j with entries := j.entries + 1, blocks := j.blocks ++ [j.newBlock die first n] }

section Handout

variable {s t u v : State} {j : Job} {b : Jcb} {die : Nat}

theorem handOut_first (written : hubWrite t j.pasid (b.btab + 8 * j.entries) (leBytes 8 (blockEntry false false die (min 64 (b.expected - b.cursor)) b.cursor)) = .ok u)
    (cursor : hubWrite u j.pasid (j.jcb + 0x10) (leBytes 8 (b.cursor + min 64 (b.expected - b.cursor))) = .ok v) :
    handOut t j b die b.cursor (min 64 (b.expected - b.cursor)) false =
      .ok (nextInstance (v.setJob (j.grown die b.cursor (min 64 (b.expected - b.cursor)))) (j.grown die b.cursor (min 64 (b.expected - b.cursor))) j.entries) := by
  rw [handOut, written]
  change (do
    let s ← hubWrite u j.pasid (j.jcb + 0x10) (leBytes 8 (b.cursor + min 64 (b.expected - b.cursor)))
    _) = _
  rw [cursor]
  rfl

theorem exec_blockHandout (there : s.job? j.id = some j) (low : die < 4) (up : s.status.getLsbD (56 + die) = true) (alive : s.deadDies.contains die = false)
    (fits : dieFits s die j.n = true) (read : readJcb s j = .ok (t, b)) (redo : j.redo = []) (left : b.cursor < b.expected) (room : j.entries < b.bcap)
    (written : hubWrite t j.pasid (b.btab + 8 * j.entries) (leBytes 8 (blockEntry false false die (min 64 (b.expected - b.cursor)) b.cursor)) = .ok u)
    (cursor : hubWrite u j.pasid (j.jcb + 0x10) (leBytes 8 (b.cursor + min 64 (b.expected - b.cursor))) = .ok v) :
    exec (.blockHandout j.id die) s =
      .next (nextInstance (v.setJob (j.grown die b.cursor (min 64 (b.expected - b.cursor)))) (j.grown die b.cursor (min 64 (b.expected - b.cursor))) j.entries) := by
  have bit' : bit s.status (56 + die) = true := up
  have goes : ¬(4 ≤ die ∨ bit s.status (56 + die) = false ∨ s.deadDies.contains die = true ∨ dieFits s die j.n = false) := by rw [alive]; simp [Nat.not_le.2 low, bit', fits]
  have range : nextRange j b = some (b.cursor, min 64 (b.expected - b.cursor), false) := by simp [nextRange, redo, left]
  change execBlockHandout j.id die s = _
  simp only [execBlockHandout, there, if_neg goes, read, range, if_neg (Nat.not_le.2 room), handOut_first written cursor]

end Handout

/-! ### Reports -/

section Report

variable {s t u v : State} {j : Job} {b : Jcb} {x : Block} (there : s.job? j.id = some j) (block : j.blocks.find? (fun y => y.entry == x.entry) = some x)
include there block

theorem exec_blockReport_open (runs : x.ended ≠ x.n) : exec (.blockReport j.id x.entry) s = .next s := by
  change execBlockReport j.id x.entry s = _
  simp only [execBlockReport, there, block, if_pos runs]

theorem exec_blockReport_done (done : x.ended = x.n) (read : readJcb s j = .ok (t, b))
    (written : hubWrite t j.pasid (b.btab + 8 * x.entry) (leBytes 8 (blockEntry true false x.die x.n x.first)) = .ok u)
    (completed : hubWrite u j.pasid (j.jcb + 0x08) (leBytes 8 (b.completed + x.n)) = .ok v) :
    exec (.blockReport j.id x.entry) s = .next (
      let k : Job := { j with blocks := j.blocks.filter fun y => y.entry != x.entry }
      if b.completed + x.n = b.expected then settleWork s (endJob (v.setJob k) k (.of stOk)) else v.setJob k) := by
  have both : (do
      let t ← hubWrite t j.pasid (b.btab + 8 * x.entry) (leBytes 8 (blockEntry true false x.die x.n x.first))
      hubWrite t j.pasid (j.jcb + 0x08) (leBytes 8 (b.completed + x.n))) = .ok v := by
    rw [written]
    exact completed
  change execBlockReport j.id x.entry s = _
  simp only [execBlockReport, there, block, if_neg (not_not_intro done), read, both]
  split <;> rfl

end Report

/-! ### A lost die -/

theorem exec_dieFence {s : State} {die : Nat} (low : die < 4) (alive : s.deadDies.contains die = false) : exec (.dieFence die) s = .next (settleWork s (fenceDie s die)) := by
  change execDieFence die s = _
  have goes : ¬(4 ≤ die ∨ s.deadDies.contains die = true) := by rw [alive]; simp [Nat.not_le.2 low]
  rw [execDieFence, if_neg goes]

theorem fenceDie_ok {s u : State} {die : Nat} (voided : voidJobs die s.jobs { s with deadDies := s.deadDies ++ [die] } = .ok u) :
    fenceDie s die = (endAllWith (.of stKilled) ((u.gaths.filter fun g => g.on.any fun c => dieOf c == die).map (·.id)) u).bind endOversized := by
  rw [fenceDie, voided]
  rfl

theorem fenceDie_error {s u : State} {die : Nat} (voided : voidJobs die s.jobs { s with deadDies := s.deadDies ++ [die] } = .error u) : fenceDie s die = .error u := by
  rw [fenceDie, voided]
  rfl

theorem paperWork_markVoid (j : Job) (btab : Nat) (l : List Block) (s : State) : PaperWork s (Work.state (markVoid j btab l s)) := by
  induction l generalizing s with
  | nil => exact .refl s
  | cons b l ih =>
    rw [markVoid]
    exact (paperWork_noteDone (works_hubWrite ..)).bind fun t => ih t

theorem works_readJcb (s : State) (j : Job) : (readJcb s j).Works s Prod.fst := (works_hubRead s j.pasid j.jcb 0x30).bind fun _ => .refl _

theorem HubWork.deadDies {s t : State} (h : HubWork s t) : t.deadDies = s.deadDies := by
  obtain ⟨-, m, a, x, c, sh, po, sn, wt, hr, fl, tx, rfl⟩ := h
  rfl

theorem HubWork.status {s t : State} (h : HubWork s t) : t.status = s.status := by
  obtain ⟨-, m, a, x, c, sh, po, sn, wt, hr, fl, tx, rfl⟩ := h
  rfl

theorem PaperWork.jobs {s t : State} (h : PaperWork s t) : t.jobs = s.jobs := by
  obtain ⟨n, p, h⟩ := h
  exact h.jobs

theorem PaperWork.deadDies {s t : State} (h : PaperWork s t) : t.deadDies = s.deadDies := by
  obtain ⟨n, p, h⟩ := h
  exact h.deadDies

theorem PaperWork.status {s t : State} (h : PaperWork s t) : t.status = s.status := by
  obtain ⟨n, p, h⟩ := h
  exact h.status

/-- A job after the loss of a die, where none of its instances stands anywhere. -/
def Job.voided (j : Job) (die flags : Nat) : Job :=
  { j with blocks := j.blocks.filter (fun x => x.die != die), redo := j.redo ++ (j.blocks.filter fun x => x.die == die).map (fun x => (x.first, x.n)), flags := flags }

/-- The blocks of the only job on a lost die are void. -/
theorem voidBlocks_one {s u : State} {die : Nat} {j : Job} (jobs : s.jobs = [j]) (gaths : s.gaths = []) (voided : voidBlocks s die j = .ok u) :
    ∃ t flags, PaperWork s t ∧ u = { t with jobs := [j.voided die flags] } := by
  have found : s.job? j.id = some j := by simp [State.job?, jobs]
  have hit : ∀ l : List Block, l.filter (fun b => b.die == die || s.gaths.any fun g => ofBlock j b g && g.on.any fun c => dieOf c == die) = l.filter fun b => b.die == die := fun l =>
    List.filter_congr fun b _ => by simp [gaths]
  have miss : ∀ l : List Block, l.filter (fun b => !(b.die == die || s.gaths.any fun g => ofBlock j b g && g.on.any fun c => dieOf c == die)) = l.filter fun b => b.die != die := fun l =>
    List.filter_congr fun b _ => by simp [gaths, bne]
  unfold voidBlocks at voided
  simp only [hit, miss] at voided
  cases lost : (j.blocks.filter fun b => b.die == die).isEmpty with
  | true =>
    rw [lost] at voided
    cases voided
    have none : (j.blocks.filter fun b => b.die == die) = [] := List.isEmpty_iff.1 lost
    have all : (j.blocks.filter fun b => b.die != die) = j.blocks := List.filter_eq_self.2 fun b hb => by
      have differs := List.filter_eq_nil_iff.1 none b hb
      simpa using differs
    refine ⟨s, j.flags, .refl s, ?_⟩
    rw [Job.voided, none, all, List.map_nil, List.append_nil, ← jobs]
  | false =>
    rw [lost] at voided
    simp only [gaths, List.filter_nil, List.map_nil, retireGaths, List.foldl_nil, found, Option.getD_some, Bool.false_eq_true, if_false] at voided
    have marks : ∀ w : Work, PaperWork s w.state → (do
        let s ← w
        pure (s.setJob { j with blocks := j.blocks.filter (fun b => b.die != die), redo := j.redo ++ (j.blocks.filter fun b => b.die == die).map (fun b => (b.first, b.n)), flags := j.flags ||| 2 })) = Except.ok u →
        ∃ t flags, PaperWork s t ∧ u = { t with jobs := [j.voided die flags] } := by
      intro w work done
      cases w with
      | error t => exact nomatch done
      | ok t =>
        cases done
        have one : t.jobs = [j] := PaperWork.jobs (t := t) work |>.trans jobs
        refine ⟨t, j.flags ||| 2, work, ?_⟩
        simp only [State.setJob, one, List.map_cons, List.map_nil, if_true]
        rfl
    have read := works_readJcb s j
    generalize readJcb s j = r at read voided
    cases r with
    | ok x => exact marks (markVoid j x.2.btab (j.blocks.filter fun b => b.die == die) x.1) ((HubWork.paper read).trans (paperWork_markVoid ..)) voided
    | error e =>
      cases e with
      | fault code sub t => exact marks (.ok (s.keep t)) (hubWork_keep s t).paper voided
      | wait t => exact nomatch voided

theorem voidJobs_one {s u : State} {die : Nat} {j : Job} (voided : voidJobs die [j] s = .ok u) : voidBlocks s die j = .ok u := by
  rw [voidJobs] at voided
  cases done : voidBlocks s die j with
  | error e =>
    rw [done] at voided
    exact nomatch voided
  | ok w =>
    rw [done] at voided
    exact voided

/-- Where the only job fits, and no gathering stands, nothing is too large. -/
theorem endOversized_none {s : State} {j : Job} (gaths : s.gaths = []) (jobs : s.jobs = [j]) (fits : j.n ≤ inService s) : endOversized s = .ok s := by
  have none : (s.jobs.filter fun x => decide (inService s < x.n)) = [] := by
    rw [jobs]
    exact List.filter_cons_of_neg (by simpa using fits)
  have first : endAllWith noRoom ((s.gaths.filter fun g => g.state == .waiting && decide (inService s < g.n)).map (·.id)) s = .ok s := by rw [gaths]; rfl
  rw [endOversized, first]
  change endJobs ((s.jobs.filter fun x => decide (inService s < x.n)).map (·.id)) s = _
  rw [none]
  rfl

/-- The fence of a die under the only job, which still fits. -/
theorem exec_dieFence_one {s u : State} {die : Nat} {j : Job} (low : die < 4) (alive : s.deadDies.contains die = false) (jobs : s.jobs = [j]) (gaths : s.gaths = [])
    (voided : voidJobs die s.jobs { s with deadDies := s.deadDies ++ [die] } = .ok u) (fits : j.n ≤ inService { s with deadDies := s.deadDies ++ [die] }) :
    ∃ t flags, exec (.dieFence die) s = .next t ∧ t.deadDies = s.deadDies ++ [die] ∧ t.jobs = [j.voided die flags] := by
  have first : voidBlocks { s with deadDies := s.deadDies ++ [die] } die j = .ok u := by
    have listed : ∀ l, l = [j] → voidJobs die l { s with deadDies := s.deadDies ++ [die] } = .ok u → voidBlocks { s with deadDies := s.deadDies ++ [die] } die j = .ok u := by
      intro l hl all
      subst hl
      exact voidJobs_one all
    exact listed _ jobs voided
  obtain ⟨t, flags, work, rfl⟩ := voidBlocks_one (s := { s with deadDies := s.deadDies ++ [die] }) jobs gaths first
  have left : t.gaths = [] := work.gaths.trans gaths
  have room : inService { t with jobs := [j.voided die flags] } = inService { s with deadDies := s.deadDies ++ [die] } := by
    simp only [inService, work.status, work.deadDies]
  have still : endOversized { t with jobs := [j.voided die flags] } = .ok { t with jobs := [j.voided die flags] } :=
    endOversized_none left rfl (by rw [room]; exact fits)
  refine ⟨{ t with jobs := [j.voided die flags] }, flags, ?_, work.deadDies, rfl⟩
  rw [exec_dieFence low alive, fenceDie_ok voided]
  have none : (t.gaths.filter fun g => g.on.any fun c => dieOf c == die) = [] := by rw [left]; rfl
  simp only [none, List.map_nil, endAllWith, Except.bind, still]
  rfl

/-- Settles O44: each step of a job by its own equation; the fence of a die under one job by `Job.voided`. -/
theorem jobsRun : Obligations.JobsRun := by
  unfold Obligations.JobsRun
  refine ⟨?start, ?handout, ?report, ?fence, ?waits, ?one⟩
  case start =>
    intro s p there type fresh may l j l'
    have low : bits (p.word 0x10) 8 0 = (p.word 0x10).toNat % 512 := bits_low _ 8
    have run : exec (.jobPacket p.id) s = .next (settleWork s (startJob l p.pasid p.word (some p.id) none)) :=
      onLaunch_starts (f := fun q t => startJob t q.pasid q.word (some p.id) none) there type fresh may
    have same : Job.ofBody l p.pasid p.word (some p.id) none = j := by simp only [Job.ofBody, low]; rfl
    refine ⟨fun unfit => ?_, fun t k u args v x fits kernel read expected some => ?_⟩
    · rw [run, startJob_unfit (by rw [low]; exact unfit), same]
      rfl
    · rw [run, startJob_loads (by rw [low]; exact fits) (by rw [same]; exact kernel) read expected some, same]
      rfl
  case handout =>
    intro s t u v j b die there low up alive fits read redo left room lower n written cursor
    have entry : blockEntry false false die n b.cursor = die * 2 ^ 56 + (n - 1) * 2 ^ 48 + b.cursor % 2 ^ 48 := by
      simp [blockEntry, fld, bnat, Nat.shiftLeft_eq]
    have work : HubWork s v := (((works_readJcb s j).ok read).trans (hubWrite_works written)).trans (hubWrite_works cursor)
    have run := exec_blockHandout there low up alive fits read redo left room (by rw [← entry] at written; exact written) cursor
    have joined : (v.job? j.id).isSome := by
      rw [State.job?, work.jobs]
      change (s.job? j.id).isSome
      rw [there]
      rfl
    have some : n ≠ 0 := by omega
    have first := nextInstance_first (s := v.setJob (j.grown die b.cursor n)) (j := j.grown die b.cursor n) (x := j.newBlock die b.cursor n) (find_new lower) rfl some
    have blocks : (j.grown die b.cursor n).blocks.map (fun b' => if b'.entry = (j.newBlock die b.cursor n).entry then { b' with started := b'.started + 1 } else b') =
        j.blocks ++ [{ entry := j.entries, die := die, first := b.cursor, n := n, started := 1, ended := 0 }] := map_new lower
    rw [blocks] at first
    refine ⟨_, _, run.trans (congrArg Host.Outcome.next first), rfl, rfl, congrArg (· ++ [_]) work.gaths, rfl, rfl, rfl, rfl, ?_⟩
    have set := job_setJob (s := v) (j := j.grown die b.cursor n) joined
    exact job_setJob (s := v.setJob (j.grown die b.cursor n))
      (j := { j.grown die b.cursor n with blocks := j.blocks ++ [{ entry := j.entries, die := die, first := b.cursor, n := n, started := 1, ended := 0 }] }) (by rw [set]; rfl)
  case report =>
    intro s t u v j b x there block
    refine ⟨exec_blockReport_open there block, fun done read written completed => ?_⟩
    intro k
    rw [exec_blockReport_done there block done read written completed]
    exact ⟨fun more => congrArg Host.Outcome.next (if_neg more), fun all => congrArg Host.Outcome.next (if_pos all)⟩
  case fence =>
    intro s u die low alive voided
    rw [exec_dieFence low alive, fenceDie_ok voided]
    rfl
  case waits =>
    intro s u die low alive voided
    rw [exec_dieFence low alive, fenceDie_error voided]
    rfl
  case one =>
    intro s u die j low alive jobs gaths voided fits
    obtain ⟨t, flags, run, dead, left⟩ := exec_dieFence_one low alive jobs gaths voided fits
    exact ⟨t, _, run, dead, left, rfl, rfl, rfl⟩

end Sys2Proof.Machine
end

section
/-!
SUPPORT. The graph walker (R342, R343).
-/

namespace Sys2Proof.Machine

/-! ### A branch at a node -/

section Node

variable {s t : State} {g : Graph} {br va kind : Nat} {b : List Byte} (there : s.graph? g.id = some g) (branch : g.branches.find? (fun x => x.1 == br) = some (br, va))
  (idle : s.jobs.any (fun j => j.graph == some (g.id, br)) = false) (aligned : va % 64 = 0) (read : hubRead s g.pasid va 64 = .ok (t, b)) (good : badNode b = false)
include there branch idle aligned read good

theorem onNode_takes (is : leField b 0 1 = kind) (f : Graph → Nat → List Byte → State → Work) : onNode g.id br kind s f = .next (settleWork s (f g va b t)) := by
  simp [onNode, there, branch, idle, aligned, read, good, is]

end Node

theorem find_map_setGraph (l : List Graph) (g : Graph) (there : (l.find? fun x => x.id == g.id).isSome) :
    (l.map fun x => if x.id = g.id then g else x).find? (fun x => x.id == g.id) = some g := by
  induction l with
  | nil => exact nomatch there
  | cons x l ih =>
    by_cases same : x.id = g.id
    · simp [same]
    · have tail : (l.find? fun x => x.id == g.id).isSome := by simpa [same] using there
      simp [same, ih tail]

theorem graph_setGraph {s : State} {g : Graph} (there : (s.graph? g.id).isSome) : (s.setGraph g).graph? g.id = some g := find_map_setGraph s.graphs g there

/-- A graph whose branch has gone on. -/
def Graph.goes (g : Graph) (br : Nat) (l : List Nat) : Graph := { g with branches := (g.branches.filter fun x => x.1 != br) ++ l.map fun a => (br, a) }

/-- A branch that goes to one node goes there. -/
theorem branchTo_one {s : State} {g : Graph} (there : (s.graph? g.id).isSome) (br a : Nat) :
    ∃ w, branchTo s g br [a] = .ok w ∧ w.graph? g.id = some (g.goes br [a]) ∧ w.mem = s.mem ∧ w.host = s.host := by
  have some : (g.goes br [a]).branches.isEmpty = false := by simp [Graph.goes]
  refine ⟨({ s with fresh := s.fresh + 1 } : State).setGraph (g.goes br [a]), ?_, graph_setGraph (g := g.goes br [a]) there, rfl, rfl⟩
  unfold branchTo
  exact if_neg (by rw [Bool.not_eq_true]; exact some)

/-- A branch that ends leaves the others. -/
theorem branchTo_none {s : State} {g : Graph} (there : (s.graph? g.id).isSome) {br : Nat} (others : (g.branches.filter fun x => x.1 != br) ≠ []) :
    ∃ w, branchTo s g br [] = .ok w ∧ w.graph? g.id = some (g.goes br []) ∧ w.mem = s.mem ∧ w.host = s.host := by
  have some : (g.goes br []).branches.isEmpty = false := by
    rw [Graph.goes, List.map_nil, List.append_nil]
    exact List.isEmpty_eq_false_iff.2 others
  refine ⟨({ s with fresh := s.fresh + 0 } : State).setGraph (g.goes br []), ?_, graph_setGraph (g := g.goes br []) there, rfl, rfl⟩
  unfold branchTo
  exact if_neg (by rw [Bool.not_eq_true]; exact some)

/-- The state without a graph. -/
def withoutGraph (s : State) (g : Graph) : State := { s with graphs := s.graphs.filter fun x => x.id != g.id }

/-- A job of a graph's branch. -/
def Job.inGraph (id : Nat) (j : Job) : Bool := match j.graph with | some x => x.1 == id | none => false

theorem endGraph_eq (s : State) (g : Graph) (v : Verdict) :
    endGraph s g v = (cancelJobs ((s.jobs.filter (Job.inGraph g.id)).map (·.id)) s g >>= fun x =>
      writeColophon (withoutGraph x.1 x.2) x.2.pasid x.2.colophon v x.2.flags x.2.done (firstExit x.2.exits) >>= fun u => completePacketId u x.2.packet) := rfl

/-- A graph without jobs, colophon and signal leaves with its packet. -/
theorem endGraph_plain {s : State} {g : Graph} {p : QPacket} (jobs : ∀ j ∈ s.jobs, j.graph.map (·.1) ≠ some g.id) (colophon : g.colophon = 0)
    (packet : s.packet? g.packet = some p) (sig : p.sig = false) (v : Verdict) : endGraph s g v = .ok ((withoutGraph s g).without p) := by
  have named : p.id = g.packet := eq_of_beq (List.find?_some (p := fun x : QPacket => x.id == g.packet) packet)
  have empty : s.jobs.filter (Job.inGraph g.id) = [] := List.filter_eq_nil_iff.2 fun j hj => by
    have other := jobs j hj
    unfold Job.inGraph
    cases graph : j.graph with
    | none => simp
    | some x =>
      rw [graph] at other
      simpa using other
  have silent : writeColophon (withoutGraph s g) g.pasid g.colophon v g.flags g.done (firstExit g.exits) = .ok (withoutGraph s g) := if_pos colophon
  have completes : completePacketId (withoutGraph s g) g.packet = .ok ((withoutGraph s g).without p) := by
    rw [← named]
    exact completePacketId_plain (by rw [named]; exact packet) sig
  rw [endGraph_eq, empty]
  change (writeColophon (withoutGraph s g) g.pasid g.colophon v g.flags g.done (firstExit g.exits) >>= fun u => completePacketId u g.packet) = _
  rw [silent]
  exact completes

/-- The last branch ends its graph; without jobs, colophon and signal that is all. -/
theorem branchTo_last {s : State} {g : Graph} {br : Nat} {p : QPacket} (others : (g.branches.filter fun x => x.1 != br) = []) (jobs : ∀ j ∈ s.jobs, j.graph.map (·.1) ≠ some g.id)
    (colophon : g.colophon = 0) (packet : s.packet? g.packet = some p) (sig : p.sig = false) :
    ∃ w, branchTo s g br [] = .ok w ∧ w.graph? g.id = none ∧ w.packet? g.packet = none := by
  have named : p.id = g.packet := eq_of_beq (List.find?_some (p := fun x : QPacket => x.id == g.packet) packet)
  have empty : (g.goes br []).branches.isEmpty = true := by
    rw [Graph.goes, others]
    rfl
  have ended := endGraph_plain (s := ({ s with fresh := s.fresh + 0 } : State).setGraph (g.goes br [])) (g := g.goes br []) jobs colophon packet sig (.of stOk)
  refine ⟨(withoutGraph (({ s with fresh := s.fresh + 0 } : State).setGraph (g.goes br [])) (g.goes br [])).without p, ?_, ?_, ?_⟩
  · unfold branchTo
    exact (if_pos empty).trans ended
  · exact List.find?_eq_none.2 fun x hx same => by
      have differs := (List.mem_filter.1 hx).2
      rw [eq_of_beq same] at differs
      simp [Graph.goes] at differs
  · rw [← named]
    exact packet_left _ _

/-! ### The steps of the nodes -/

section Steps

variable {s t : State} {g : Graph} {br va : Nat} {b : List Byte} (there : s.graph? g.id = some g) (branch : g.branches.find? (fun x => x.1 == br) = some (br, va))
  (idle : s.jobs.any (fun j => j.graph == some (g.id, br)) = false) (aligned : va % 64 = 0) (read : hubRead s g.pasid va 64 = .ok (t, b)) (good : badNode b = false)
include there branch idle aligned read good

/-- What a node's work does with the graph is what it does with the branch. -/
theorem exec_condNode {u : State} {x : Word} (kind : leField b 0 1 = 2) (word : hubRead64 t g.pasid (leField b 0x18 8) = .ok (u, x)) :
    exec (.condNode g.id br) s = .next (settleWork s (branchTo u g br [if x ≠ 0 then leField b 8 8 else leField b 0x10 8])) := by
  change execCondNode g.id br s = _
  rw [execCondNode, onNode_takes there branch idle aligned read good kind]
  simp only [word]

theorem exec_whileNode {u : State} {x : Word} (kind : leField b 0 1 = 3) (word : hubRead64 t g.pasid (leField b 0x18 8) = .ok (u, x)) :
    (∀ v, x = 0 → hubWrite u g.pasid (va + 0x24) (leBytes 4 0) = .ok v → exec (.whileNode g.id br) s = .next (settleWork s (branchTo v g br [leField b 0x10 8]))) ∧
      (∀ v, x ≠ 0 → leField b 0x24 4 < leField b 4 4 → hubWrite u g.pasid (va + 0x24) (leBytes 4 (leField b 0x24 4 + 1)) = .ok v →
        exec (.whileNode g.id br) s = .next (settleWork s (branchTo v g br [leField b 8 8]))) ∧
      (x ≠ 0 → leField b 4 4 ≤ leField b 0x24 4 → exec (.whileNode g.id br) s = .next (settleWork s (endGraph u g (.of stWhileLimit)))) := by
  have run : exec (.whileNode g.id br) s = execWhileNode g.id br s := rfl
  rw [run, execWhileNode, onNode_takes there branch idle aligned read good kind]
  refine ⟨fun v zero written => ?_, fun v more below written => ?_, fun more limit => ?_⟩
  · simp only [word, zero, if_true, written]
  · simp only [word, if_neg more, if_pos below, written]
  · simp only [word, if_neg more, if_neg (Nat.not_lt.2 limit)]

theorem exec_joinNode {v : State} (kind : leField b 0 1 = 4) :
    (leField b 0x20 4 + 1 = leField b 2 2 → hubWrite t g.pasid (va + 0x20) (leBytes 4 0) = .ok v → exec (.joinNode g.id br) s = .next (settleWork s (branchTo v g br [leField b 8 8]))) ∧
      (leField b 0x20 4 + 1 ≠ leField b 2 2 → hubWrite t g.pasid (va + 0x20) (leBytes 4 (leField b 0x20 4 + 1)) = .ok v →
        exec (.joinNode g.id br) s = .next (settleWork s (branchTo v g br []))) := by
  have run : exec (.joinNode g.id br) s = execJoinNode g.id br s := rfl
  rw [run, execJoinNode, onNode_takes there branch idle aligned read good kind]
  refine ⟨fun last written => ?_, fun more written => ?_⟩
  · have eq : (leField b 0x20 4 + 1 == leField b 2 2) = true := beq_iff_eq.2 last
    simp only [eq, if_true, written]
  · have ne : (leField b 0x20 4 + 1 == leField b 2 2) = false := beq_eq_false_iff_ne.2 more
    simp only [ne, Bool.false_eq_true, if_false, written]

theorem exec_endNode (kind : leField b 0 1 = 5) : exec (.endNode g.id br) s = .next (settleWork s (branchTo t g br [])) := by
  change execEndNode g.id br s = _
  rw [execEndNode, onNode_takes there branch idle aligned read good kind]

theorem exec_kernelNode {u v w : State} {r : List Byte} (kind : leField b 0 1 = 1) (body : hubRead t g.pasid (leField b 0x18 8) 64 = .ok (u, r)) {p : QPacket}
    (hp : p = { id := 0, slot := 0, pasid := g.pasid, words := slotWords r, started := false }) (type : p.type = 2) (sound : badPacket p = false)
    (prepared : prepareJcb u g.pasid (p.word 0x18).toNat ((p.word 0x10).toNat / 2 ^ 32) = .ok v) (started : startJob v g.pasid p.word none (some (g.id, br)) = .ok w) :
    exec (.kernelNode g.id br) s = .next w := by
  have high : bits (p.word 0x10) 63 32 = (p.word 0x10).toNat / 2 ^ 32 := by
    rw [bits_eq_div]
    exact Nat.mod_eq_of_lt (by have := (p.word 0x10).isLt; omega)
  have fits : ¬(p.type ≠ 2 ∨ badPacket p = true) := by simp [type, sound]
  subst hp
  change execKernelNode g.id br s = _
  rw [execKernelNode, onNode_takes there branch idle aligned read good kind]
  simp only [body, if_neg fits, high, prepared, started]
  rfl

end Steps

/-- Settles O45: each node by its step, and the branch by `branchTo_one`, `branchTo_none` and `branchTo_last`. -/
theorem graphsRun : Obligations.GraphsRun := by
  unfold Obligations.GraphsRun
  refine ⟨?packet, ?nodes⟩
  case packet =>
    intro s p there type fresh may l
    exact onLaunch_starts (f := fun q t => .ok { t with
      fresh := t.fresh + 2,
      graphs := t.graphs ++ [{ id := t.fresh, pasid := q.pasid, packet := p.id, colophon := (q.word 0x10).toNat, branches := [(t.fresh + 1, (q.word 0x08).toNat)], done := 0, flags := 0, exits := [] }] })
      there type fresh may
  case nodes =>
    intro s t g br va b there branch idle aligned read good others at' a b' count
    have kept : ∀ {w : State}, HubWork t w → (w.graph? g.id).isSome := fun {w} work => by
      have same : w.graph? g.id = s.graph? g.id := by rw [State.graph?, ((hubRead_works read).trans work).graphs]; rfl
      rw [same, there]
      rfl
    refine ⟨fun u x kind word => ?_, fun u x v kind word => ⟨fun zero written => ?_, fun more below written => ?_, fun more limit => ?_⟩,
      fun v kind => ⟨fun last written => ?_, fun more left written => ?_⟩, fun kind left => ?_, fun p kind none jobs colophon packet sig => ?_,
      fun u r v w kind body => ?_⟩
    · obtain ⟨w, goes, rest⟩ := branchTo_one (kept (hubRead64_works word)) br (if x ≠ 0 then a else b')
      exact ⟨w, by rw [exec_condNode there branch idle aligned read good kind word, goes]; rfl, rest⟩
    · obtain ⟨w, goes, rest⟩ := branchTo_one (kept ((hubRead64_works word).trans (hubWrite_works written))) br b'
      exact ⟨w, by rw [(exec_whileNode there branch idle aligned read good kind word).1 v zero written, goes]; rfl, rest⟩
    · obtain ⟨w, goes, rest⟩ := branchTo_one (kept ((hubRead64_works word).trans (hubWrite_works written))) br a
      exact ⟨w, by rw [(exec_whileNode there branch idle aligned read good kind word).2.1 v more below written, goes]; rfl, rest⟩
    · exact (exec_whileNode there branch idle aligned read good kind word).2.2 more limit
    · obtain ⟨w, goes, rest⟩ := branchTo_one (kept (hubWrite_works written)) br a
      exact ⟨w, by rw [(exec_joinNode there branch idle aligned read good kind).1 last written, goes]; rfl, rest⟩
    · obtain ⟨w, goes, rest⟩ := branchTo_none (kept (hubWrite_works written)) left
      exact ⟨w, by rw [(exec_joinNode there branch idle aligned read good kind).2 more written, goes]; rfl, rest⟩
    · obtain ⟨w, goes, rest, -⟩ := branchTo_none (kept (.refl t)) left
      exact ⟨w, by rw [exec_endNode there branch idle aligned read good kind, goes]; rfl, rest⟩
    · have work := hubRead_works read
      obtain ⟨w, goes, rest⟩ := branchTo_last (s := t) none (by rw [work.jobs]; exact jobs) colophon (by rw [State.packet?, work.packets]; exact packet) sig
      exact ⟨w, by rw [exec_endNode there branch idle aligned read good kind, goes]; rfl, rest⟩
    · intro p type sound prepared started
      exact exec_kernelNode there branch idle aligned read good kind body rfl type sound prepared started

end Sys2Proof.Machine
end

section
/-!
SUPPORT. Requests of the fabric at their home (R380 to R383).
-/

namespace Sys2Proof.Machine

/-! ### The window of a flow (R381) -/

/-- A number that the window, slid by up to n more, still takes as received. -/
def Flow.Received (f : Flow) (fseq n : Nat) : Prop := (f.ahead fseq < 64 ∧ f.bitmap.getLsbD (f.ahead fseq) = true) ∨ 2 ^ 31 + n ≤ f.ahead fseq

theorem Flow.Received.duplicate {f : Flow} {fseq n : Nat} (h : f.Received fseq n) : f.window fseq = .duplicate := by
  unfold Flow.window
  rcases h with ⟨near, set⟩ | behind
  · simp only [near, set, if_true]
  · have far : ¬f.ahead fseq < 64 := by omega
    have old : ¬f.ahead fseq < 2 ^ 31 := by omega
    simp only [if_neg far, if_neg old]

theorem Flow.Received.slide {f : Flow} {fseq n : Nat} (h : f.Received fseq (n + 1)) (few : n < 64) (low : f.base < 2 ^ 32) (number : fseq < 2 ^ 32) :
    ({ f with base := (f.base + 1) % 2 ^ 32, bitmap := f.bitmap >>> 1 } : Flow).Received fseq n := by
  unfold Flow.Received Flow.ahead at *
  simp only [BitVec.getLsbD_ushiftRight]
  rcases h with ⟨near, set⟩ | behind
  · by_cases first : (fseq + 2 ^ 32 - f.base) % 2 ^ 32 = 0
    · exact .inr (by omega)
    · refine .inl ⟨by omega, ?_⟩
      have same : 1 + (fseq + 2 ^ 32 - (f.base + 1) % 2 ^ 32) % 2 ^ 32 = (fseq + 2 ^ 32 - f.base) % 2 ^ 32 := by omega
      rw [same]
      exact set
  · exact .inr (by omega)

theorem slideWindow_received {n : Nat} {f : Flow} {fseq : Nat} (h : f.Received fseq n) (few : n ≤ 64) (low : f.base < 2 ^ 32) (number : fseq < 2 ^ 32) :
    (slideWindow n f).window fseq = .duplicate ∧ (slideWindow n f).base < 2 ^ 32 := by
  induction n generalizing f with
  | zero => exact ⟨h.duplicate, low⟩
  | succ n ih =>
    unfold slideWindow
    split
    · exact ih (h.slide (by omega) low number) (by omega) (Nat.mod_lt _ (by decide))
    · exact ⟨h.duplicate, low⟩

theorem slideWindow_rest (n : Nat) (f : Flow) : (slideWindow n f).seq = f.seq ∧ (slideWindow n f).unacked = f.unacked := by
  induction n generalizing f with
  | zero => exact ⟨rfl, rfl⟩
  | succ n ih =>
    unfold slideWindow
    split
    · exact ih _
    · exact ⟨rfl, rfl⟩

/-- A new number, once marked, is received. -/
theorem Flow.mark_received {f : Flow} {fseq : Nat} (fresh : f.window fseq = .fresh) (low : f.base < 2 ^ 32) (number : fseq < 2 ^ 32) :
    (f.mark fseq).window fseq = .duplicate ∧ (f.mark fseq).base < 2 ^ 32 := by
  have near : f.ahead fseq < 64 := by
    refine Decidable.byContradiction fun far => ?_
    unfold Flow.window at fresh
    simp only [if_neg far] at fresh
    split at fresh <;> exact nomatch fresh
  have set : (f.bitmap ||| (1#64 <<< f.ahead fseq)).getLsbD (f.ahead fseq) = true := by simp [near]
  rw [Flow.mark, if_pos near]
  exact slideWindow_received (.inl ⟨near, set⟩) (Nat.le_refl 64) low number

/-! ### Answers -/

theorem flow_setFlow (s : State) (key : Nat) (f : Flow) : (s.setFlow key f).flow key = f := Tab.get_put_same ..

theorem ofNat15_toNat (x : BitVec 15) : BitVec.ofNat 15 x.toNat = x := BitVec.eq_of_toNat_eq (by rw [BitVec.toNat_ofNat, Nat.mod_eq_of_lt x.isLt])

theorem sackPacket_fields (s : State) (key : Nat) :
    (sackPacket s key).op = 6 ∧ (sackPacket s key).dst = BitVec.ofNat 15 (key % 32768) ∧ (sackPacket s key).fseq = BitVec.ofNat 32 (s.flow key).base := ⟨rfl, rfl, rfl⟩

theorem sendSack_fields (s : State) (key k : Nat) :
    (sendSack s key).flow k = s.flow k ∧ (sendSack s key).tx = s.tx ++ [sackPacket s key] ∧ (sendSack s key).cores = s.cores ∧ (sendSack s key).mem = s.mem ∧
      (sendSack s key).host = s.host := ⟨rfl, rfl, rfl, rfl, rfl⟩

theorem setFlow_fields (s : State) (key : Nat) (f : Flow) :
    (s.setFlow key f).tx = s.tx ∧ (s.setFlow key f).cores = s.cores ∧ (s.setFlow key f).mem = s.mem ∧ (s.setFlow key f).host = s.host := ⟨rfl, rfl, rfl, rfl⟩

theorem acceptSeq_eq (s : State) (key n : Nat) : acceptSeq s key n = sendSack (s.setFlow key ((s.flow key).mark n)) key := by
  unfold acceptSeq
  simp only []

/-- An accepted number is marked, and the SACK sent. -/
theorem acceptSeq_fields (s : State) (key n : Nat) :
    (acceptSeq s key n).flow key = (s.flow key).mark n ∧ (acceptSeq s key n).tx = s.tx ++ [sackPacket (s.setFlow key ((s.flow key).mark n)) key] ∧
      (acceptSeq s key n).cores = s.cores ∧ (acceptSeq s key n).mem = s.mem ∧ (acceptSeq s key n).host = s.host := by
  obtain ⟨flow, tx, cores, mem, host⟩ := sendSack_fields (s.setFlow key ((s.flow key).mark n)) key key
  obtain ⟨tx', cores', mem', host'⟩ := setFlow_fields s key ((s.flow key).mark n)
  rw [acceptSeq_eq, flow, tx, cores, mem, host, flow_setFlow]
  exact ⟨rfl, congrArg (· ++ [_]) tx', cores', mem', host'⟩

/-- A sprayed packet leaves the window of its flow. -/
theorem flow_sendSprayed (s : State) (die node : Nat) (p : Packet) (core op : Nat) :
    ((sendSprayed s die node p core op).flow (flowKey die node)).base = (s.flow (flowKey die node)).base ∧
      ((sendSprayed s die node p core op).flow (flowKey die node)).bitmap = (s.flow (flowKey die node)).bitmap := by
  have set : (sendSprayed s die node p core op).flow (flowKey die node) = _ := flow_setFlow ..
  rw [set]
  exact ⟨rfl, rfl⟩

theorem Flow.window_congr {f g : Flow} (base : g.base = f.base) (bitmap : g.bitmap = f.bitmap) (fseq : Nat) : g.window fseq = f.window fseq := by
  obtain ⟨seq, unacked, b, m⟩ := f
  obtain ⟨seq', unacked', b', m'⟩ := g
  cases base
  cases bitmap
  rfl

/-- What an answer leaves: its packet sent, in the reverse flow, whose window is as before. -/
theorem answer_leaves (s : State) (p a : Packet) :
    (answer s p a).cores = s.cores ∧ (answer s p a).mem = s.mem ∧ (answer s p a).host = s.host ∧ (∀ n, ((answer s p a).flow (pKey p)).window n = (s.flow (pKey p)).window n) ∧
      ((answer s p a).flow (pKey p)).base = (s.flow (pKey p)).base ∧
      ∃ b, (answer s p a).tx = s.tx ++ [b] ∧ b.dst = p.src ∧ b.pasid = p.pasid ∧ b.cmp.toNat = p.fseq.toNat ∧ b.op = a.op ∧ b.data = a.data ∧ b.operand = a.operand ∧ b.va = a.va := by
  obtain ⟨base, bitmap⟩ := flow_sendSprayed s (pDie p) p.src.toNat { a with pasid := p.pasid, tid := p.tid, cmp := BitVec.ofNat 64 p.fseq.toNat } 384 0
  refine ⟨rfl, rfl, rfl, Flow.window_congr base bitmap, base, _, rfl, ofNat15_toNat _, rfl, ?_, rfl, rfl, rfl, rfl⟩
  have small : p.fseq.toNat < 2 ^ 64 := Nat.lt_trans p.fseq.isLt (by decide)
  exact (BitVec.toNat_ofNat ..).trans (Nat.mod_eq_of_lt small)

/-- The key of a packet's flow gives back its source. -/
theorem pKey_node (p : Packet) : pKey p % 32768 = p.src.toNat := by
  have low : p.src.toNat < 32768 := p.src.isLt
  rw [pKey, flowKey]
  omega

/-- A new request that has been accepted: its number is received, and its SACK sent. -/
theorem acceptSeq_leaves {s : State} {p : Packet} (fresh : (s.flow (pKey p)).window p.fseq.toNat = .fresh) (low : (s.flow (pKey p)).base < 2 ^ 32) :
    ((acceptSeq s (pKey p) p.fseq.toNat).flow (pKey p)).window p.fseq.toNat = .duplicate ∧
      ∃ k, (acceptSeq s (pKey p) p.fseq.toNat).tx = s.tx ++ [k] ∧ k.op = 6 ∧ k.dst = p.src ∧ k.fseq.toNat = ((acceptSeq s (pKey p) p.fseq.toNat).flow (pKey p)).base := by
  obtain ⟨received, base⟩ := Flow.mark_received fresh low p.fseq.isLt
  obtain ⟨flow, sent, -⟩ := acceptSeq_fields s (pKey p) p.fseq.toNat
  obtain ⟨op, dst, number⟩ := sackPacket_fields (s.setFlow (pKey p) ((s.flow (pKey p)).mark p.fseq.toNat)) (pKey p)
  rw [flow]
  refine ⟨received, _, sent, op, ?_, ?_⟩
  · rw [dst, pKey_node, ofNat15_toNat]
  · rw [number, flow_setFlow, BitVec.toNat_ofNat, Nat.mod_eq_of_lt base]

/-! ### Places of a target -/

theorem LeafWork.flows {s t : State} (h : LeafWork s t) : t.flows = s.flows := by
  obtain ⟨-, m, a, x, c, sh, po, sn, wt, rfl⟩ := h
  rfl

theorem LeafWork.tx {s t : State} (h : LeafWork s t) : t.tx = s.tx := by
  obtain ⟨-, m, a, x, c, sh, po, sn, wt, rfl⟩ := h
  rfl

theorem LeafWork.cores {s t : State} (h : LeafWork s t) : t.cores = s.cores := h.hub.cores

theorem LeafWork.flow {s t : State} (h : LeafWork s t) (key : Nat) : t.flow key = s.flow key := congrArg (fun f : Tab Flow => f.get .zero key) h.flows

theorem leaves_agentPlaces (ag : Agent) (pasid : Nat) (write bankLocal : Bool) (l : List (Nat × Nat)) (s : State) :
    (agentPlaces ag pasid write bankLocal l s).Leaves LeafWork s Prod.fst := by
  induction l generalizing s with
  | nil => exact LeafWork.refl s
  | cons x l ih =>
    obtain ⟨va, n⟩ := x
    rw [agentPlaces]
    refine (leaves_agentLeaf s ag pasid va write).bind .trans fun x => ?_
    obtain ⟨t, e⟩ := x
    simp only []
    split
    · exact LeafWork.refl t
    · exact (ih t).bind .trans fun _ => LeafWork.refl _

theorem leafWork_writePlaces (l : List (Place × Nat)) (d : List Byte) (s : State) : LeafWork s (writePlaces l d s) := by
  induction l generalizing d s with
  | nil => exact .refl s
  | cons x l ih => exact (leafWork_writeAt ..).trans (ih ..)

theorem leaves_serve (s : State) (p : Packet) (run bankLocal : Bool) : (serve s p run bankLocal).Leaves LeafWork s Prod.fst := by
  have found : (requestVa s p run).Leaves LeafWork s fun _ => s := by
    unfold requestVa
    split
    · exact LeafWork.refl s
    · split
      · exact LeafWork.refl s
      · exact LeafWork.refl s
  unfold serve
  refine found.bind .trans fun va => ?_
  split
  · simp only []
    generalize (if p.w32 = true then 4 else 8) = size
    split
    · exact LeafWork.refl s
    · refine (leaves_agentLeaf ..).bind .trans fun x => ?_
      obtain ⟨t, e⟩ := x
      simp only []
      split
      · exact LeafWork.refl t
      · exact leafWork_writeAt ..
  · refine (leaves_agentPlaces ..).bind .trans fun x => ?_
    obtain ⟨t, l⟩ := x
    simp only []
    split
    · exact leafWork_writePlaces ..
    · exact LeafWork.refl t

/-! ### A new request -/

/-- A number that the flow has not received and for whose answer it has room. -/
structure NewRequest (s : State) (p : Packet) : Prop where
  mine : p.dst.toNat / 4 = s.module
  kept : keptAnswer s p = none
  fresh : (s.flow (pKey p)).window p.fseq.toNat = .fresh
  low : (s.flow (pKey p)).base < 2 ^ 32
  room : (s.flow (pKey p)).unacked.length < 64

theorem pMine_of {s : State} {p : Packet} (mine : p.dst.toNat / 4 = s.module) : pMine p s = true := beq_iff_eq.2 mine

theorem NewRequest.arrives {s : State} {p : Packet} (new : NewRequest s p) (f : State) : onArrival s p f = .next f := by
  have room : s.flowRoom (pKey p) = true := decide_eq_true new.room
  simp [onArrival, pMine_of new.mine, new.kept, new.fresh, room]

/-- What a request that has been performed leaves. -/
def Performed (s : State) (p : Packet) (w : State) (more : List Packet) : Prop :=
  w.cores = s.cores ∧ (w.flow (pKey p)).window p.fseq.toNat = .duplicate ∧ ∃ k, w.tx = s.tx ++ k :: more ∧ k.op = 6 ∧ k.dst = p.src ∧ k.fseq.toNat = (w.flow (pKey p)).base

section New

variable {s t : State} {p : Packet} (new : NewRequest s p) (work : LeafWork s t)
include new work

theorem NewRequest.accepted : Performed s p (acceptSeq t (pKey p) p.fseq.toNat) [] ∧ (acceptSeq t (pKey p) p.fseq.toNat).mem = t.mem ∧ (acceptSeq t (pKey p) p.fseq.toNat).host = t.host := by
  obtain ⟨received, k, sent, op, dst, number⟩ := acceptSeq_leaves (s := t) (p := p) (by rw [work.flow]; exact new.fresh) (by rw [work.flow]; exact new.low)
  obtain ⟨-, -, cores, mem, host⟩ := acceptSeq_fields t (pKey p) p.fseq.toNat
  exact ⟨⟨cores.trans work.cores, received, k, by rw [sent, work.tx], op, dst, number⟩, mem, host⟩

/-- A request that is answered: the answer is sent behind the SACK. -/
theorem NewRequest.answered (a : Packet) :
    ∃ b, Performed s p (answer (acceptSeq t (pKey p) p.fseq.toNat) p a) [b] ∧ (answer (acceptSeq t (pKey p) p.fseq.toNat) p a).mem = t.mem ∧
      (answer (acceptSeq t (pKey p) p.fseq.toNat) p a).host = t.host ∧ b.dst = p.src ∧ b.pasid = p.pasid ∧ b.cmp.toNat = p.fseq.toNat ∧ b.op = a.op ∧ b.data = a.data ∧ b.operand = a.operand := by
  obtain ⟨⟨cores, received, k, sent, op, dst, number⟩, mem, host⟩ := new.accepted work
  obtain ⟨cores', mem', host', window, base, b, sent', dst', pasid, cmp, opb, data, operand, -⟩ := answer_leaves (acceptSeq t (pKey p) p.fseq.toNat) p a
  refine ⟨b, ⟨cores'.trans cores, (window _).trans received, k, ?_, op, dst, number.trans base.symm⟩, mem'.trans mem, host'.trans host, dst', pasid, cmp, opb, data, operand⟩
  rw [sent', sent, List.append_assoc]
  rfl

end New

/-! ### The three requests -/

/-- A request that its home performs. -/
inductive IsRequest (p : Packet) : Instr → Prop
  | write (op : p.op = 1) (sprayed : p.timetabled = false) (length : p.data.length = p.len1.toNat + 1) : IsRequest p (.fabricWrite p)
  | read (op : p.op = 2) : IsRequest p (.fabricRead p)
  | atomic (op : p.op = 4) (aop : p.aop.toNat ≤ 7 ∨ p.aop.toNat = 10) : IsRequest p (.atomic p)

theorem IsRequest.exec {p : Packet} {i : Instr} (h : IsRequest p i) (s : State) : Machine.exec i s = onArrival s p (serveRequest s p false false) := by
  cases h with
  | write op sprayed length =>
    have is : ¬(p.op ≠ pWrite ∨ p.data.length ≠ Packet.len p) := by
      rw [op, length]
      simp [pWrite, Packet.len]
    change execFabricWrite p s = _
    rw [execFabricWrite, if_neg is]
    exact if_neg (by rw [sprayed]; decide)
  | read op =>
    have is : ¬p.op ≠ pRead := by simp [op, pRead]
    change execFabricRead p s = _
    rw [execFabricRead, if_neg is]
  | atomic op aop =>
    have is : ¬(p.op ≠ pAtomic ∨ 10 < p.aop.toNat ∨ (8 ≤ p.aop.toNat ∧ p.aop.toNat < 10)) := by
      rintro (other | high | ⟨low, below⟩)
      · exact other op
      · omega
      · omega
    change execAtomic p s = _
    rw [execAtomic, if_neg is]

section Serve

variable {s t : State} {p : Packet} {base : Nat} (window : s.windows.get none p.pasid.toNat = some base)
include window

theorem serve_write {l : List (Place × Nat)} (op : p.op = 1) (places : agentPlaces (fabricAgent (p.dst.toNat % 4) 54) p.pasid.toNat true false
      (ranges (base + p.va.toNat) (p.len1.toNat + 1)) s = .ok (t, l)) : serve s p false false = .ok (writePlaces l p.data t, []) := by
  have va : requestVa s p false = .ok (base + p.va.toNat) := by simp [requestVa, window]
  have notAtomic : ¬p.op = pAtomic := by rw [op]; decide
  have writes : (p.op == pWrite) = true := by rw [op]; rfl
  rw [serve, va]
  change (if p.op = pAtomic then _ else _) = _
  rw [if_neg notAtomic]
  simp only [writes, if_true]
  change (do
    let (s, l) ← agentPlaces (fabricAgent (p.dst.toNat % 4) 54) p.pasid.toNat true false (ranges (base + p.va.toNat) (p.len1.toNat + 1)) s
    _) = _
  rw [places]
  rfl

theorem serve_read {l : List (Place × Nat)} (op : p.op = 2) (places : agentPlaces (fabricAgent (p.dst.toNat % 4) 55) p.pasid.toNat false false
      (ranges (base + p.va.toNat) (p.len1.toNat + 1)) s = .ok (t, l)) : serve s p false false = .ok (t, l.flatMap fun x => t.readAt x.1 x.2) := by
  have va : requestVa s p false = .ok (base + p.va.toNat) := by simp [requestVa, window]
  have notAtomic : ¬p.op = pAtomic := by rw [op]; decide
  have reads : (p.op == pWrite) = false := by rw [op]; rfl
  rw [serve, va]
  change (if p.op = pAtomic then _ else _) = _
  rw [if_neg notAtomic]
  simp only [reads, Bool.false_eq_true, if_false]
  change (do
    let (s, l) ← agentPlaces (fabricAgent (p.dst.toNat % 4) 55) p.pasid.toNat false false (ranges (base + p.va.toNat) (p.len1.toNat + 1)) s
    _) = _
  rw [places]
  rfl

theorem serve_atomic {e : Word} (op : p.op = 4) (aligned : (base + p.va.toNat) % (if p.w32 then 4 else 8) = 0)
    (leaf : agentLeaf s (fabricAgent (p.dst.toNat % 4) 53) p.pasid.toNat (base + p.va.toNat) (p.aop != 10) = .ok (t, e)) :
    serve s p false false = .ok (
      let size := if p.w32 then 4 else 8
      let q := leafPlace t p.pasid.toNat e (base + p.va.toNat)
      let was := ofLeBytes (t.readAt q size)
      (if p.aop = 10 ∨ (p.aop = 5 ∧ was ≠ p.cmp.toNat % 2 ^ (8 * size)) then t else t.writeAt q (leBytes size (atomicNew (0x35C + p.aop.toNat) size was p.operand.toNat p.cmp.toNat)), leBytes 8 was)) := by
  have va : requestVa s p false = .ok (base + p.va.toNat) := by simp [requestVa, window]
  have isAtomic : p.op = pAtomic := op
  rw [serve, va]
  change (if p.op = pAtomic then _ else _) = _
  rw [if_pos isAtomic]
  rw [if_neg (not_not_intro aligned)]
  change (do
    let (s, e) ← agentLeaf s (fabricAgent (p.dst.toNat % 4) 53) p.pasid.toNat (base + p.va.toNat) (p.aop != 10)
    _) = _
  rw [leaf]
  rfl

end Serve

/-! ### What the answers leave -/

/-- A word of at most eight bytes as its eight bytes give it back. -/
theorem ofLeBytes_word (s : State) (q : Place) {size : Nat} (small : size ≤ 8) : (BitVec.ofNat 64 (ofLeBytes (leBytes 8 (ofLeBytes (s.readAt q size))))).toNat = ofLeBytes (s.readAt q size) := by
  have low : ofLeBytes (s.readAt q size) < 2 ^ 64 := by
    have bound := ofLeBytes_lt (s.readAt q size)
    rw [length_readAt] at bound
    exact Nat.lt_of_lt_of_le bound (Nat.pow_le_pow_right (by decide) small)
  rw [ofLeBytes_leBytes, BitVec.toNat_ofNat, Nat.mod_eq_of_lt (show _ < 256 ^ 8 from low), Nat.mod_eq_of_lt low]

/-- A touched leaf lies in device memory. -/
theorem host_writeDevice (s : State) (a : Nat) (v : Word) : (s.write64 { host := false, addr := a } v).host = s.host := by
  have bytes : ∀ (d : List Byte) (a : Nat) (u : State), (writeBytesFrom { host := false, addr := a } d u).host = u.host := by
    intro d
    induction d with
    | nil => exact fun _ _ => rfl
    | cons b d ih =>
      intro a u
      have first : (u.writeByte { host := false, addr := a } b).host = u.host := by
        simp only [State.writeByte, Bool.false_eq_true, if_false]
        split <;> rfl
      exact (ih (a + 1) _).trans first
  exact bytes _ a s

theorem host_keep (s t : State) : (s.keep t).host = s.host := by
  have each : ∀ (l : List CacheEntry) (u : State), (l.foldl touchCached u).host = u.host := by
    intro l
    induction l with
    | nil => exact fun _ => rfl
    | cons x l ih =>
      intro u
      have first : (touchCached u x).host = u.host := by
        unfold touchCached
        split
        · exact host_writeDevice ..
        · rfl
      exact (ih _).trans first
  exact each _ _

/-- What is kept of a try: its flows and its packets sent. -/
theorem keep_sent (s t : State) : (s.keep t).tx = t.tx ∧ (s.keep t).flows = t.flows ∧ (s.keep t).cores = s.cores :=
  ⟨rfl, rfl, (leafWork_keepWalks s t).cores⟩

theorem nakWord {code sub : Nat} (low : code < 256) : (BitVec.ofNat 64 (fld code 56 + fld (sub % 2 ^ 16) 40)).toNat = code * 2 ^ 56 + sub % 2 ^ 16 * 2 ^ 40 := by
  rw [BitVec.toNat_ofNat, fld, fld, Nat.shiftLeft_eq, Nat.shiftLeft_eq]
  omega

/-- A duplicate, or a request whose answer is kept, is answered again and nothing else. -/
theorem onArrival_old {s : State} {p : Packet} (mine : p.dst.toNat / 4 = s.module)
    (old : (keptAnswer s p).isSome = true ∨ (s.flow (pKey p)).window p.fseq.toNat = .duplicate) (f : State) : onArrival s p f = .next (resendAnswer s p) := by
  unfold onArrival
  rw [pMine_of mine]
  cases kept : (keptAnswer s p).isSome with
  | true => rfl
  | false =>
    have received := old.resolve_left (by rw [kept]; decide)
    simp only [received]
    rfl

theorem resendAnswer_eq (s : State) (p : Packet) : resendAnswer s p = { s with tx := s.tx ++ sackPacket s (pKey p) :: (keptAnswer s p).toList } := by
  have same : keptAnswer (sendSack s (pKey p)) p = keptAnswer s p := rfl
  unfold resendAnswer
  simp only [same]
  cases keptAnswer s p with
  | none => rfl
  | some a =>
    have joined : s.tx ++ [sackPacket s (pKey p)] ++ [a] = s.tx ++ sackPacket s (pKey p) :: [a] := by simp
    simp only [sendSack, joined]
    rfl

/-- Settles O47: a new request by `NewRequest.accepted` and `NewRequest.answered`, a failed one by its NAK, a duplicate by
`resendAnswer_eq`. -/
theorem requestsServed : Obligations.RequestsServed := by
  unfold Obligations.RequestsServed
  intro s p mine die pasid new old performed answers is
  have request : ∀ i, is i → IsRequest p i := by
    rintro i (⟨rfl, op, sprayed, length⟩ | ⟨rfl, op⟩ | ⟨rfl, op, aop⟩)
    · exact .write op sprayed length
    · exact .read op
    · exact .atomic op (.inl aop)
  have fresh : new → NewRequest s p := fun ⟨kept, window, low, room⟩ => ⟨mine, kept, window, low, room⟩
  refine ⟨fun base t l isNew window op sprayed length places => ?write, fun base t l isNew window op places => ?read, ?atomic, fun i code sub t isReq isNew fault low => ?nak,
    fun i t isReq isNew wait => ?wait, fun i isReq isOld => ?old⟩
  case write =>
    have work : LeafWork s (writePlaces l p.data t) := ((leaves_agentPlaces ..).ok places).trans (leafWork_writePlaces ..)
    obtain ⟨done, mem, host⟩ := (fresh isNew).accepted work
    have notRead : ¬p.op = pRead := by rw [op]; decide
    have notAtomic : ¬p.op = pAtomic := by rw [op]; decide
    refine ⟨_, ?_, done, mem, host⟩
    rw [(IsRequest.write op sprayed length).exec, (fresh isNew).arrives, serveRequest, serve_write window op places]
    simp only [acceptServed, if_neg notRead, if_neg notAtomic]
  case read =>
    have work : LeafWork s t := (leaves_agentPlaces ..).ok places
    obtain ⟨a, done, mem, host, dst, pas, cmp, opA, data, -⟩ := (fresh isNew).answered work
      { Packet.zero with op := pRdata, va := p.va, len1 := p.len1, data := l.flatMap fun x => t.readAt x.1 x.2 }
    have isRead : p.op = pRead := op
    refine ⟨_, a, ?_, done, mem, host, opA, ⟨dst, pas, cmp⟩, data⟩
    rw [(IsRequest.read op).exec, (fresh isNew).arrives, serveRequest, serve_read window op places]
    simp only [acceptServed, if_pos isRead]
  case atomic =>
    intro base t e isNew window op aop size aligned leaf q was u
    have work : LeafWork s u := by
      have first : LeafWork s t := (leaves_agentLeaf ..).ok leaf
      have both : ∀ c : Prop, [Decidable c] → LeafWork s (if c then t else t.writeAt q (leBytes size (atomicNew (0x35C + p.aop.toNat) size was p.operand.toNat p.cmp.toNat))) := by
        intro c _
        split
        · exact first
        · exact first.trans (leafWork_writeAt ..)
      exact both _
    obtain ⟨a, done, mem, host, dst, pas, cmp, opA, -, operand⟩ := (fresh isNew).answered work
      { Packet.zero with op := pAresp, va := p.va, operand := BitVec.ofNat 64 (ofLeBytes (leBytes 8 was)) }
    have notRead : ¬p.op = pRead := by rw [op]; decide
    have isAtomic : p.op = pAtomic := op
    have small : size ≤ 8 := by
      change (if p.w32 then 4 else 8) ≤ 8
      split <;> decide
    refine ⟨_, a, ?_, done, mem, host, opA, ⟨dst, pas, cmp⟩, ?_⟩
    · rw [(IsRequest.atomic op aop).exec, (fresh isNew).arrives, serveRequest, serve_atomic window op aligned leaf]
      simp only [acceptServed, if_neg notRead, if_pos isAtomic]
      rfl
    · rw [operand]
      exact ofLeBytes_word t q small
  case nak =>
    have work : LeafWork s t := (leaves_serve s p false false).error fault
    obtain ⟨sent, flows, cores⟩ := keep_sent s t
    obtain ⟨cores', mem, host, window, -, a, sent', dst, pas, cmp, opA, -, operand, va⟩ := answer_leaves (s.keep t) p
      { Packet.zero with op := pNak, va := p.va, operand := BitVec.ofNat 64 (fld code 56 + fld (sub % 2 ^ 16) 40) }
    have flow : (s.keep t).flow (pKey p) = s.flow (pKey p) := by rw [State.flow, flows, work.flows]; rfl
    refine ⟨_, a, ?_, by rw [sent', sent], mem, host.trans (host_keep s t), cores'.trans cores, ?_, opA, ⟨dst, pas, cmp⟩, va, by rw [operand]; exact nakWord low⟩
    · rw [(request i isReq).exec, (fresh isNew).arrives, serveRequest, fault]
      rfl
    · rw [window, flow]
      exact isNew.2.1
  case wait =>
    rw [(request i isReq).exec, (fresh isNew).arrives, serveRequest, wait]
  case old =>
    refine ⟨_, by rw [(request i isReq).exec, onArrival_old mine isOld], ?_, ?_⟩
    · rw [resendAnswer_eq]
    · rw [resendAnswer_eq]

end Sys2Proof.Machine
end

section
/-!
SUPPORT. Shard runs at their target (R65, R66).
-/

namespace Sys2Proof.Machine

/-! ### The target's entry and the decision -/

theorem LeafWork.landing {s t : State} (h : LeafWork s t) : t.landing = s.landing := by
  obtain ⟨-, m, a, x, c, sh, po, sn, wt, rfl⟩ := h
  rfl

/-- What a read of a table at its target leaves. -/
def missedState {α : Type} : Except Missed (State × α) → State
  | .ok x => x.1
  | .error m => m.state

theorem leafWork_tableParts (die pasid : Nat) (l : List (Nat × Nat)) (s : State) : LeafWork s (missedState (tableParts die pasid l s)) := by
  induction l generalizing s with
  | nil => exact .refl s
  | cons x l ih =>
    obtain ⟨va, n⟩ := x
    unfold tableParts
    have walked := leafWork_translate s (ownerReader die) pasid va false
    generalize translate s (ownerReader die) pasid va false = r at walked
    cases r with
    | error f =>
      cases f with
      | fault code sub => exact leafWork_markFaulted ..
      | migrating => exact .refl s
      | cow t => exact .refl s
    | ok y =>
      obtain ⟨t, e⟩ := y
      simp only []
      split
      · exact walked
      · have rest := ih t
        generalize tableParts die pasid l t = r at rest
        cases r with
        | error m => exact walked.trans rest
        | ok z => exact walked.trans rest

/-- The packets that wait to land stay. -/
theorem landing_targetEntry {s t : State} {die pasid tid mapver : Nat} {again : Bool} {e : Tid} (h : targetEntry s die pasid tid mapver again = .ok (t, e)) :
    t.landing = s.landing := by
  unfold targetEntry at h
  simp only [] at h
  split at h
  · cases h
    rfl
  · have read : LeafWork s (missedState (tableBytes s die pasid ((s.pasids.get .none pasid).table + 128 * tid) 128)) := leafWork_tableParts ..
    generalize tableBytes s die pasid ((s.pasids.get .none pasid).table + 128 * tid) 128 = r at h read
    cases r with
    | error m => exact nomatch h
    | ok x =>
      cases h
      exact read.landing

/-- A run of a tensor without shards is decided by its entry. -/
theorem decideRun_entry {s t : State} {q : Asked} {again : Bool} {e : Tid} (entry : targetEntry s (q.node % 4) q.pasid q.tid q.mapver again = .ok (t, e)) (good : tidFault e [] = none)
    (whole : e.nshard = 0) :
    decideRun s q again = .ok (t, if ownsRun q e [] then .serve (e.layout == 2) else if olderVersion e.mapver q.mapver then .hold else .moved e.mapver) := by
  unfold decideRun
  simp only [entry]
  change (match tidFault e [] with | some sub => _ | none => _) = _
  simp only [good, whole, if_true]
  change (if ownsRun q e [] then _ else _) = _
  split
  · rfl
  · split <;> rfl

section Owns

variable {q : Asked} {g : RunGeom} (e : Tid) (m : List Shard) (geom : q.geom = some g)
include geom

theorem ownsRun_whole (whole : e.nshard = 0) : ownsRun q e m = true ↔ e.base = g.tbase ∧ e.strides.take e.rank = g.tst.take e.rank := by
  simp [ownsRun, geom, whole]

theorem ownsRun_outside (sharded : e.nshard ≠ 0) (outside : boxOf e m g.first = none) : ownsRun q e m = false := by
  simp [ownsRun, geom, sharded, outside]

theorem ownsRun_box {k : Nat} {x : Shard} (sharded : e.nshard ≠ 0) (inside : boxOf e m g.first = some k) (box : m[k]? = some x) :
    ownsRun q e m = true ↔ x.node = q.node ∧ x.tbase = g.tbase ∧ x.tst.take e.rank = g.tst.take e.rank := by
  have named : m.getD k (shardOfBytes []) = x := by rw [List.getD_eq_getElem?_getD, box]; rfl
  simp only [ownsRun, geom, if_neg sharded, inside, named, Bool.and_eq_true, beq_iff_eq]

end Owns

/-! ### Runs that arrive -/

section Receive

variable {s t : State} {p : Packet} (mine : p.dst.toNat / 4 = s.module) (kept : keptAnswer s p = none) (fresh : (s.flow (pKey p)).window p.fseq.toNat = .fresh)
  (room : (s.flow (pKey p)).unacked.length < 64) (new : (s.runs.any fun x => x.p == p) = false) (op : p.op = 2 ∨ (p.op = 1 ∧ p.data.length = p.len1.toNat + 1))
  (sprayed : p.timetabled = false)
include mine kept fresh room new op sprayed

theorem exec_runReceive : exec (.runReceive p) s = .next (runOnce s p false) := by
  have is : ¬((p.op ≠ pRead ∧ p.op ≠ pWrite) ∨ p.timetabled = true ∨ (p.op = pWrite ∧ p.data.length ≠ Packet.len p)) := by
    rintro (⟨read, write⟩ | timed | ⟨write, length⟩)
    · exact op.elim read fun h => write h.1
    · rw [sprayed] at timed
      exact nomatch timed
    · rcases op with read | ⟨-, right⟩
      · rw [read] at write
        exact absurd write (by decide)
      · exact length right
  have flowRoom : s.flowRoom (pKey p) = true := decide_eq_true room
  have arrives : ∀ f, onArrival s p f = .next f := by
    intro f
    simp [onArrival, pMine_of mine, kept, fresh, flowRoom]
  have unheld : ¬(s.runs.any fun x => x.p == p) = true := by rw [new]; decide
  change execRunReceive p s = _
  rw [execRunReceive, if_neg is, if_neg unheld, arrives]

end Receive

/-! ### What a decision does -/

theorem runOnce_hold {s t : State} {p : Packet} {again : Bool} (hold : decide' s p again = .ok (t, .hold)) : runOnce s p again = holdRun t p := by rw [runOnce, hold]

theorem runOnce_serve {s t u : State} {p : Packet} {again b : Bool} {d : List Byte} (owns : decide' s p again = .ok (t, .serve b)) (served : serve (dropRun t p) p true b = .ok (u, d)) :
    runOnce s p again = acceptServed u p d := by
  rw [runOnce, owns]
  change serveRequest (dropRun t p) p true b = _
  rw [serveRequest, served]

/-- The answer of a run that is moved. -/
theorem answerMoved_leaves (t : State) (p : Packet) (v : Nat) :
    (answerMoved t p v).mem = t.mem ∧ ∃ a, (answerMoved t p v).tx = t.tx ++ [a] ∧ a.op = 7 ∧ a.mapver.toNat = v % 2 ^ 32 ∧ a.dst = p.src ∧ a.cmp.toNat = p.fseq.toNat := by
  refine ⟨rfl, _, rfl, rfl, BitVec.toNat_ofNat .., ofNat15_toNat _, ?_⟩
  have small : p.fseq.toNat < 2 ^ 64 := Nat.lt_trans p.fseq.isLt (by decide)
  exact (BitVec.toNat_ofNat ..).trans (Nat.mod_eq_of_lt small)

/-! ### Held runs -/

section Held

variable {s t : State} {k : Nat} {p : Packet} (held : s.runs[k]? = some { p := p, own := none }) (sprayed : p.timetabled = false) (room : (s.flow (pKey p)).unacked.length < 64)
include held sprayed room

theorem exec_shardHoldReread : exec (.shardHoldReread k) s = .next (runOnce s p true) := by
  have loud : HeldRun.quiet { p := p, own := none } = false := sprayed
  have flowRoom : s.flowRoom (pKey p) = true := decide_eq_true room
  change execShardHoldReread k s = _
  simp only [execShardHoldReread, held, loud, flowRoom]
  rfl

theorem exec_shardHoldTimeout {e : Tid} (entry : targetEntry s (p.dst.toNat % 4) p.pasid.toNat p.tid.toNat p.mapver.toNat false = .ok (t, e)) :
    exec (.shardHoldTimeout k) s = .next (retryLanding (answerMoved (dropRun (markMoved t p e.mapver) p) p e.mapver)) := by
  have loud : HeldRun.quiet { p := p, own := none } = false := sprayed
  have flowRoom : s.flowRoom (pKey p) = true := decide_eq_true room
  change execShardHoldTimeout k s = _
  simp only [execShardHoldTimeout, held, loud, flowRoom]
  change (match targetEntry s (p.dst.toNat % 4) p.pasid.toNat p.tid.toNat p.mapver.toNat false with | .ok (t, e) => _ | .error m => _) = _
  rw [entry]
  simp only [closeHeld, loud]
  rfl

end Held

/-- With nothing that waits to land, a retry changes nothing. -/
theorem retryLanding_none {s : State} (none : s.landing = []) : retryLanding s = s := by
  rw [retryLanding, none]
  change { s with landing := [] } = s
  rw [← none]

theorem markMoved_fields (t : State) (p : Packet) (v : Nat) :
    (markMoved t p v).runs = t.runs ∧ (markMoved t p v).tx = t.tx ∧ (t.landing = [] → (markMoved t p v).landing = []) := by
  unfold markMoved
  cases p.run with
  | none => exact ⟨rfl, rfl, fun none => by simp only [none, List.map_nil]⟩
  | some g => exact ⟨rfl, rfl, fun none => by simp only [none, List.map_nil]⟩

/-- Settles O48: the decision by `decideRun_entry` and `ownsRun_box`, what it does by `runOnce`, for a run that arrives and for one
that is held. -/
theorem shardRunsDecided : Obligations.ShardRunsDecided := by
  unfold Obligations.ShardRunsDecided
  refine ⟨fun s t q again e entry good whole => decideRun_entry entry good whole,
    fun q g e m geom => ⟨ownsRun_whole e m geom, ownsRun_outside e m geom, fun k x sharded inside box => ownsRun_box e m geom sharded inside box⟩, ?receive, ?held⟩
  case receive =>
    intro s t p mine kept fresh room new op sprayed
    have run := exec_runReceive mine kept fresh room new op sprayed
    refine ⟨fun hold unheld => ?_, fun v moved => ?_, fun u d b owns served => ?_⟩
    · have out : ¬(t.runs.any fun x => x.p == p) = true := by rw [unheld]; decide
      rw [run, runOnce_hold hold, holdRun, if_neg out]
    · obtain ⟨mem, a, sent, opA, mapver, dst, cmp⟩ := answerMoved_leaves (dropRun t p) p v
      refine ⟨_, a, ?_, sent, opA, mapver, dst, cmp, mem⟩
      rw [run, runOnce, moved]
    · rw [run, runOnce_serve owns served]
  case held =>
    intro s t k p held sprayed still room
    refine ⟨fun hold inside => ?_, fun u d b owns served => ?_, fun e entry => ?_⟩
    · rw [exec_shardHoldReread held sprayed room, runOnce_hold hold, holdRun, if_pos inside]
    · rw [exec_shardHoldReread held sprayed room, runOnce_serve owns served]
    · obtain ⟨runs, tx, landing⟩ := markMoved_fields t p e.mapver
      have none : (answerMoved (dropRun (markMoved t p e.mapver) p) p e.mapver).landing = [] := landing ((landing_targetEntry entry).trans still)
      obtain ⟨-, a, sent, opA, mapver, -⟩ := answerMoved_leaves (dropRun (markMoved t p e.mapver) p) p e.mapver
      refine ⟨answerMoved (dropRun (markMoved t p e.mapver) p) p e.mapver, a, ?_, ?_, ?_, opA, mapver⟩
      · rw [exec_shardHoldTimeout held sprayed room entry, retryLanding_none none]
      · exact congrArg (List.filter _) runs
      · rw [sent]
        exact congrArg (· ++ [a]) tx

end Sys2Proof.Machine
end

section
/-!
SUPPORT. Why O49 does not hold of every state: `requester` looks the cores of a die through in the order of their table, and to
close a request's number on one core rewrites that table. The statement does not ask that the table's keys rise, and of one whose
keys do not the rewritten core comes to stand first: an answer whose number requests of two cores name then goes to the other one.
-/

namespace Sys2Proof.Machine

namespace SwappedCores

/-- A read of 8 bytes at node 4, request 0 of its flow, without an answer yet. -/
def request : Run :=
  { dest := { node := 4, va := 0, tid := 0, mapver := 0, geom := none, retried := false }, nth := 0, fseq := 0, len := 8, write := false, data := [], answer := none }

/-- A copy that has sent the request. -/
def copy (id : Nat) : Op := { newOp Core.idle 0x3A0 0 3 6 with id := id, runs := [request] }

/-- Cores 1 and 0, in this order, with a copy each; core 0 has noted request 0 of the flow to node 4. -/
def state : State :=
  { State.reset with cores := { cells := [(1, { Core.idle with ops := [copy 8] }), (0, { Core.idle with ops := [copy 9], asked := [(4, 0, 0)] })] } }

/-- The answer of node 4 to request 0. -/
def packet : Packet := { Packet.zero with op := 3, src := 4, data := [1] }

theorem asks : requester state packet = some (.op 1 8) := by decide +kernel

/-- The copy of core 1 is as before. -/
theorem unanswered : (match exec (.rdata packet) state with | .next t => t.op 1 8 | _ => none) = some (copy 8) := by decide +kernel

end SwappedCores

section Refutation

open SwappedCores

/-- Refutes O49: of `SwappedCores.state` the requester is core 1, and its copy gets no answer. -/
theorem not_answersAndFlows : ¬ Obligations.AnswersAndFlows := by
  unfold Obligations.AnswersAndFlows
  rintro ⟨⟨answers, -⟩, -⟩
  obtain ⟨rdata, -⟩ := answers state packet 1 8 (copy 8) (by decide +kernel) (by decide +kernel) asks (by decide +kernel)
  obtain ⟨w, k, u, run, -, -, op, filled⟩ := rdata rfl
  have same := unanswered
  rw [run] at same
  have given : u = copy 8 := Option.some.inj (op.symm.trans same)
  rw [filled] at given
  exact absurd (congrArg Op.runs given) (by decide +kernel)

end Refutation

end Sys2Proof.Machine
end

section
/-!
SUPPORT. Why O50 does not hold of every state: the clause of a damaged flit asks that the link holds no other damaged flit, but not
that the reorder buffer of the flit's stream is empty. Where that buffer is full behind a flit of the number that comes next, the new
flit takes this number, is the 17th behind it, and is given up at once (R379).
-/

namespace Sys2Proof.Machine

namespace FullLane

/-- The reorder buffer of stream 1: sixteen places behind flit 0. -/
def lane : Lane := { Lane.empty with items := .waits 0 :: List.replicate 16 (.waits 1) }

/-- Port 0 waits for flit 0 and holds no damaged one. -/
def state : State := { State.reset with links := { cells := [(0, { Link.zero with lanes := { cells := [(1, lane)] } })] } }

/-- A flit of stream 1 whose CRC does not agree. -/
def flit : InFlit := { stream := 1, bits := 0, run := none, gath := 0 }

theorem flit_bad : crcOk flit.bits = false := by decide +kernel

/-- The port holds no damaged flit. -/
theorem given_up : (match exec (.flitReceive 0 flit) state with | .next t => (t.link 0).damaged | _ => []) = [] := by decide +kernel

end FullLane

section Refutation

open FullLane

/-- Refutes O50: of `FullLane.state` a damaged flit is not kept for its repair. -/
theorem not_linksRun : ¬ Obligations.LinksRun := by
  unfold Obligations.LinksRun
  rintro ⟨-, receives, -⟩
  obtain ⟨-, -, -, bad, -⟩ := receives state 0 flit (by decide +kernel) (by decide +kernel) (by decide +kernel) (by decide +kernel) (by decide +kernel)
  obtain ⟨w, run, -, -, kept⟩ := bad flit_bad
  have gone := given_up
  rw [run] at gone
  exact absurd (gone.symm.trans kept) (by simp)

end Refutation

end Sys2Proof.Machine
end

section
/-!
SUPPORT. The firmware's commands (O51): how the mailbox takes a command and shows how it ended, and what each command binds.
-/

namespace Sys2Proof.Machine

/-! ### The mailbox -/

theorem setMail_eq (s : State) (l : List Word) (i : Nat) : ∃ m, setMail s l i = { s with mailbox := m } := by
  induction l generalizing s i with
  | nil => exact ⟨s.mailbox, rfl⟩
  | cons w r ih =>
    obtain ⟨m, eq⟩ := ih { s with mailbox := s.mailbox.put 0 i w } (i + 1)
    exact ⟨m, eq⟩

/-- What the mailbox's status word reads. -/
def State.mail (s : State) : Nat := (s.mailbox.get 0 8).toNat

theorem mail_mailStatus (s : State) (w : Word) : (mailStatus s w).mail = w.toNat := congrArg BitVec.toNat (Tab.get_put_same s.mailbox 0 w 8)

/-- What an idle mailbox makes of a command. -/
theorem firmware_idle {s : State} (idle : (s.mailbox.get 0 8).getLsbD 0 = false) (op : Nat) (args : List Word) (f : State → Command) :
    ∃ m, setMail s (mailArgs op args) 0 = { s with mailbox := m } ∧
      firmware op args s f = .next (commandEnd op args { s with mailbox := m } (f { s with mailbox := m })) := by
  obtain ⟨m, eq⟩ := setMail_eq s (mailArgs op args) 0
  refine ⟨m, eq, ?_⟩
  rw [← eq]
  exact if_neg fun busy => Bool.false_ne_true (idle.symm.trans busy)

theorem firmware_busy {s : State} (busy : (s.mailbox.get 0 8).getLsbD 0 = true) (op : Nat) (args : List Word) (f : State → Command) :
    ∃ m, firmware op args s f = .next (mailStatus { s with mailbox := m } 0x101) := by
  obtain ⟨m, eq⟩ := setMail_eq s (mailArgs op args) 0
  exact ⟨m, eq ▸ if_pos busy⟩

/-- What the firmware binds is the same in two states. -/
structure SameBindings (s t : State) : Prop where
  pasids : t.pasids = s.pasids
  qcbs : t.qcbs = s.qcbs
  apertures : t.apertures = s.apertures
  slices : t.slices = s.slices
  windows : t.windows = s.windows
  members : t.members = s.members
  domain : t.domain = s.domain
  regions : t.regions = s.regions
  newRegions : t.newRegions = s.newRegions
  slotTabs : t.slotTabs = s.slotTabs
  slotNext : t.slotNext = s.slotNext
  circuits : t.circuits = s.circuits

theorem HubWork.bindings {s t : State} (h : HubWork s t) : SameBindings s t := by
  obtain ⟨-, m, a, x, c, sh, po, sn, wt, hr, fl, tx, rfl⟩ := h
  exact ⟨rfl, rfl, rfl, rfl, rfl, rfl, rfl, rfl, rfl, rfl, rfl, rfl⟩

/-- A command that ends with an error binds nothing. -/
theorem commandEnd_err (op : Nat) (args : List Word) (s t : State) (m : Tab Word) (n : Nat) :
    SameBindings s (commandEnd op args { s with mailbox := m } (.err n t)) ∧
      (commandEnd op args { s with mailbox := m } (.err n t)).mail = (BitVec.ofNat 64 (fld n 8 + 2)).toNat := by
  have same := (hubWork_keep { s with mailbox := m } t).bindings
  exact ⟨⟨same.1, same.2, same.3, same.4, same.5, same.6, same.7, same.8, same.9, same.10, same.11, same.12⟩, mail_mailStatus _ _⟩

/-- Nor does one that waits. -/
theorem commandEnd_wait (op : Nat) (args : List Word) (s t : State) (m : Tab Word) :
    SameBindings s (commandEnd op args { s with mailbox := m } (.wait t)) ∧ (commandEnd op args { s with mailbox := m } (.wait t)).mail = 1 := by
  have same := (hubWork_keep { s with mailbox := m } t).bindings
  exact ⟨⟨same.1, same.2, same.3, same.4, same.5, same.6, same.7, same.8, same.9, same.10, same.11, same.12⟩, mail_mailStatus _ _⟩

theorem commandEnd_done (op : Nat) (args : List Word) (s t : State) : (commandEnd op args s (.done t)).mail = 2 := mail_mailStatus _ _

/-- Two states' bindings, where the second one's mailbox is left out of account. -/
theorem SameBindings.of_mailbox (s : State) (m : Tab Word) : SameBindings s { s with mailbox := m } := ⟨rfl, rfl, rfl, rfl, rfl, rfl, rfl, rfl, rfl, rfl, rfl, rfl⟩

/-! ### PASID_BIND -/

section Pasid

variable (pasid root table : Word)

/-- Arguments that PASID_BIND takes. -/
def PasidArgs : Prop := pasid.toNat < 2 ^ 20 ∧ root.toNat % 0x200000 = 0 ∧ root.toNat < 2 ^ 52 ∧ table.toNat % 4096 = 0 ∧ canonical table.toNat = true

/-- A PASID that is still tearing down, its REVOKE or its control blocks. -/
def State.tearingDown (s : State) (pasid : Nat) : Bool := (s.pasids.get .none pasid).tearing || s.qcbs.cells.any fun x => x.2.state == 2 && x.2.pasid == pasid

theorem pasidArgs_iff : ¬ PasidArgs pasid root table ↔ 2 ^ 20 ≤ pasid.toNat ∨ root.toNat % 0x200000 ≠ 0 ∨ 2 ^ 52 ≤ root.toNat ∨ table.toNat % 4096 ≠ 0 ∨ canonical table.toNat = false := by
  unfold PasidArgs
  cases canonical table.toNat with
  | false => exact iff_of_true (fun args => Bool.false_ne_true args.2.2.2.2) (.inr (.inr (.inr (.inr rfl))))
  | true =>
    simp only [and_true, Bool.true_eq_false, or_false]
    omega

theorem pasidBindCommand_binds {s : State} (args : PasidArgs pasid root table) (clear : s.tearingDown pasid.toNat = false) :
    pasidBindCommand pasid root table s = .done { s with pasids := s.pasids.set pasid.toNat { root := some root.toNat, table := table.toNat, tearing := false } } :=
  (if_neg ((not_congr (pasidArgs_iff pasid root table)).1 (not_not_intro args))).trans (if_neg fun h => Bool.false_ne_true (clear.symm.trans h))

theorem pasidBindCommand_waits {s : State} (args : PasidArgs pasid root table) (tearing : s.tearingDown pasid.toNat = true) :
    pasidBindCommand pasid root table s = .wait s := (if_neg ((not_congr (pasidArgs_iff pasid root table)).1 (not_not_intro args))).trans (if_pos tearing)

theorem pasidBindCommand_err {s : State} (args : ¬ PasidArgs pasid root table) : pasidBindCommand pasid root table s = .err 2 s :=
  if_pos ((pasidArgs_iff pasid root table).1 args)

theorem exec_pasidBind_idle {s : State} (idle : (s.mailbox.get 0 8).getLsbD 0 = false) : ∃ w, exec (.pasidBind pasid root table) s = .next w ∧
    (PasidArgs pasid root table → s.tearingDown pasid.toNat = false → w.mail = 2 ∧
      w.pasids.get .none pasid.toNat = { root := some root.toNat, table := table.toNat, tearing := false } ∧ ∀ n, n ≠ pasid.toNat → w.pasids.get .none n = s.pasids.get .none n) ∧
    (PasidArgs pasid root table → s.tearingDown pasid.toNat = true → w.mail = 1 ∧ w.pasids = s.pasids) ∧
    (¬ PasidArgs pasid root table → w.mail = 0x202 ∧ w.pasids = s.pasids) := by
  obtain ⟨m, -, run⟩ := firmware_idle idle 1 [pasid, root, table] (pasidBindCommand pasid root table)
  refine ⟨_, run, ?_, ?_, ?_⟩
  · intro args clear
    rw [pasidBindCommand_binds pasid root table (s := { s with mailbox := m }) args clear]
    exact ⟨commandEnd_done .., Tab.get_set_same .., fun n other => Tab.get_set_other _ _ _ other⟩
  · intro args tearing
    rw [pasidBindCommand_waits pasid root table (s := { s with mailbox := m }) args tearing]
    obtain ⟨same, shown⟩ := commandEnd_wait 1 [pasid, root, table] s { s with mailbox := m } m
    exact ⟨shown, same.pasids⟩
  · intro args
    rw [pasidBindCommand_err pasid root table args]
    obtain ⟨same, shown⟩ := commandEnd_err 1 [pasid, root, table] s { s with mailbox := m } m 2
    exact ⟨shown, same.pasids⟩

theorem exec_pasidBind_busy {s : State} (busy : (s.mailbox.get 0 8).getLsbD 0 = true) : ∃ w, exec (.pasidBind pasid root table) s = .next w ∧
    w.mail = 0x101 ∧ w.pasids = s.pasids ∧ w.command = s.command := by
  obtain ⟨m, run⟩ := firmware_busy busy 1 [pasid, root, table] (pasidBindCommand pasid root table)
  exact ⟨_, run, mail_mailStatus _ _, rfl, rfl⟩

end Pasid

/-! ### Queue control blocks -/

section Qcb

variable (pasid queue : Word)

/-- Arguments that QCB_CREATE takes. -/
def QcbArgs (m ring prio : Word) : Prop :=
  pasid.toNat < 2 ^ 20 ∧ queue.toNat < 65536 ∧ 4 ≤ m.toNat ∧ m.toNat ≤ 20 ∧ ring.toNat % 0x10000 = 0 ∧ canonical ring.toNat = true ∧ prio.toNat < 8

theorem QcbArgs.passes {m ring prio : Word} (args : QcbArgs pasid queue m ring prio) :
    ¬ (2 ^ 20 ≤ pasid.toNat ∨ 65536 ≤ queue.toNat ∨ m.toNat < 4 ∨ 20 < m.toNat ∨ ring.toNat % 0x10000 ≠ 0 ∨ canonical ring.toNat = false ∨ 8 ≤ prio.toNat) := by
  obtain ⟨pasid_ok, queue_ok, m_low, m_high, aligned, canon, prio_ok⟩ := args
  rw [canon]
  simp only [Bool.true_eq_false, false_or]
  omega

/-- A slot of the key that holds no control block. -/
def freeSlotOf (s : State) (pasid queue : Nat) : Option Nat := (qcbSlots pasid queue).find? fun i => (s.qcb i).state == 0

/-- The control block that QCB_CREATE makes. -/
def newQcb (m ring prio ecap : Word) : Qcb :=
  { Qcb.free with state := 1, prio := prio.toNat, cur := prio.toNat, pasid := pasid.toNat, queue := queue.toNat, m := m.toNat, ring := ring.toNat, ecap := ecap.toNat }

theorem qcbCreateCommand_creates {m ring prio : Word} (args : QcbArgs pasid queue m ring prio) (ecap : Word) {s : State} {i : Nat}
    (new : qcbFind s pasid.toNat queue.toNat = none) (free : freeSlotOf s pasid.toNat queue.toNat = some i) :
    qcbCreateCommand pasid queue m ring prio ecap s = .done (s.setQcb i (newQcb pasid queue m ring prio ecap)) := by
  refine (if_neg (args.passes pasid queue)).trans ?_
  unfold freeSlotOf at free
  simp only [new, free]
  rfl

theorem qcbCreateCommand_err {m ring prio : Word} (args : QcbArgs pasid queue m ring prio) (ecap : Word) {s : State}
    (no : (qcbFind s pasid.toNat queue.toNat).isSome = true ∨ freeSlotOf s pasid.toNat queue.toNat = none) :
    qcbCreateCommand pasid queue m ring prio ecap s = .err 3 s := by
  refine (if_neg (args.passes pasid queue)).trans ?_
  unfold freeSlotOf at no
  rcases found : qcbFind s pasid.toNat queue.toNat with _ | j
  · rw [found] at no
    simp only [no.resolve_left (by simp)]
  · rfl

theorem exec_qcbCreate {m ring prio : Word} (args : QcbArgs pasid queue m ring prio) (ecap : Word) {s : State} (idle : (s.mailbox.get 0 8).getLsbD 0 = false) :
    ∃ w, exec (.qcbCreate pasid queue m ring prio ecap) s = .next w ∧
      (∀ i, qcbFind s pasid.toNat queue.toNat = none → freeSlotOf s pasid.toNat queue.toNat = some i → w.mail = 2 ∧ w.qcb i = newQcb pasid queue m ring prio ecap) ∧
      ((qcbFind s pasid.toNat queue.toNat).isSome = true ∨ freeSlotOf s pasid.toNat queue.toNat = none → w.mail = 0x302 ∧ w.qcbs = s.qcbs) := by
  obtain ⟨b, -, run⟩ := firmware_idle idle 2 [pasid, queue, m, ring, prio, ecap] (qcbCreateCommand pasid queue m ring prio ecap)
  refine ⟨_, run, ?_, ?_⟩
  · intro i new free
    rw [qcbCreateCommand_creates pasid queue (s := { s with mailbox := b }) args ecap new free]
    exact ⟨commandEnd_done .., Tab.get_put_same ..⟩
  · intro no
    rw [qcbCreateCommand_err pasid queue (s := { s with mailbox := b }) args ecap no]
    obtain ⟨same, shown⟩ := commandEnd_err 2 [pasid, queue, m, ring, prio, ecap] s { s with mailbox := b } b 3
    exact ⟨shown, same.qcbs⟩

/-- What a read gives of the entries that pass. -/
theorem cellGet_filter_rising {α : Type} {l : List (Nat × α)} {lo : Nat} (rising : cellRising l lo = true) (p : Nat × α → Bool) (d : α) (k : Nat) :
    cellGet (l.filter p) d k = if p (k, cellGet l d k) = true then cellGet l d k else d := by
  induction l generalizing lo with
  | nil => exact (ite_self d).symm
  | cons c r ih =>
    obtain ⟨j, v⟩ := c
    simp only [cellRising, Bool.and_eq_true, decide_eq_true_eq] at rising
    have rest := ih rising.2
    by_cases here : j = k
    · subst here
      have none_behind : cellGet r d j = d := cellGet_below rising.2 d (Nat.lt_succ_self j)
      cases pass : p (j, v) <;> simp [cellGet, pass, rest, none_behind]
    · cases pass : p (j, v) <;> simp [cellGet, pass, here, rest]

/-- A control block that a destruction, or the end of its last access, takes away. -/
def State.drainedQcb (s : State) (q : Qcb) : Bool := q.state == 2 && q.outst == 0 && !(s.pasids.get .none q.pasid).tearing

theorem qcb_removeDrained {s : State} (rising : s.qcbs.rising = true) (i : Nat) : (removeDrained s).qcb i = if s.drainedQcb (s.qcb i) = true then .free else s.qcb i := by
  refine (cellGet_filter_rising rising _ Qcb.free i).trans ?_
  show (if (!s.drainedQcb (s.qcb i)) = true then s.qcb i else .free) = _
  cases s.drainedQcb (s.qcb i) <;> rfl

theorem qcbFind_pasid {s : State} {p q i : Nat} (found : qcbFind s p q = some i) : (s.qcb i).pasid = p := by
  have holds := List.find?_some (p := fun i => (s.qcb i).state != 0 && (s.qcb i).pasid == p && (s.qcb i).queue == q) found
  simp only [Bool.and_eq_true, beq_iff_eq] at holds
  exact holds.1.2

theorem qcbDestroyCommand_removes {s : State} {i : Nat} (found : qcbFind s pasid.toNat queue.toNat = some i) :
    qcbDestroyCommand pasid queue s = .done (removeDrained (s.setQcb i { s.qcb i with state := 2 })) := by
  unfold qcbDestroyCommand
  rw [found]

theorem qcbDestroyCommand_err {s : State} (missing : qcbFind s pasid.toNat queue.toNat = none) : qcbDestroyCommand pasid queue s = .err 2 s := by
  unfold qcbDestroyCommand
  rw [missing]

theorem qcb_destroyed {s : State} (rising : s.qcbs.rising = true) (i : Nat) (u : State) (hu : u = s.setQcb i { s.qcb i with state := 2 }) :
    ((s.qcb i).outst = 0 → (s.pasids.get .none (s.qcb i).pasid).tearing = false → ((removeDrained u).qcb i).state = 0) ∧
      ((s.qcb i).outst ≠ 0 → (removeDrained u).qcb i = { s.qcb i with state := 2 }) := by
  have marked : u.qcb i = { s.qcb i with state := 2 } := hu ▸ Tab.get_put_same ..
  have same : u.pasids = s.pasids := hu ▸ rfl
  rw [qcb_removeDrained (hu ▸ Tab.rising_put rising ..) i, marked]
  refine ⟨fun none_out clear => ?_, fun out => if_neg ?_⟩
  · rw [if_pos (by simp [State.drainedQcb, same, none_out, clear])]
    rfl
  · simp [State.drainedQcb, out]

theorem exec_qcbDestroy {s : State} (idle : (s.mailbox.get 0 8).getLsbD 0 = false) (rising : s.qcbs.rising = true) : ∃ w, exec (.qcbDestroy pasid queue) s = .next w ∧
    (qcbFind s pasid.toNat queue.toNat = none → w.mail = 0x202 ∧ w.qcbs = s.qcbs) ∧
    ∀ i, qcbFind s pasid.toNat queue.toNat = some i → w.mail = 2 ∧ ((s.qcb i).outst = 0 → (s.pasids.get .none pasid.toNat).tearing = false → (w.qcb i).state = 0) ∧
      ((s.qcb i).outst ≠ 0 → w.qcb i = { s.qcb i with state := 2 }) := by
  obtain ⟨b, -, run⟩ := firmware_idle idle 3 [pasid, queue] (qcbDestroyCommand pasid queue)
  refine ⟨_, run, ?_, ?_⟩
  · intro missing
    rw [qcbDestroyCommand_err pasid queue (s := { s with mailbox := b }) missing]
    obtain ⟨same, shown⟩ := commandEnd_err 3 [pasid, queue] s { s with mailbox := b } b 2
    exact ⟨shown, same.qcbs⟩
  · intro i found
    rw [qcbDestroyCommand_removes pasid queue (s := { s with mailbox := b }) found, ← qcbFind_pasid found]
    exact ⟨commandEnd_done .., qcb_destroyed (s := { s with mailbox := b }) rising i _ rfl⟩

end Qcb

/-! ### Apertures, slices and windows -/

theorem exec_notifyBind (aperture pasid : Word) {s : State} (idle : (s.mailbox.get 0 8).getLsbD 0 = false) : ∃ w, exec (.notifyBind aperture pasid) s = .next w ∧
    (aperture.toNat < 4096 → pasid.toNat < 2 ^ 20 → w.mail = 2 ∧ w.apertures.get none aperture.toNat = some pasid.toNat) ∧
    (4096 ≤ aperture.toNat ∨ 2 ^ 20 ≤ pasid.toNat → w.mail = 0x202 ∧ w.apertures = s.apertures) := by
  obtain ⟨b, -, run⟩ := firmware_idle idle 7 [aperture, pasid] (notifyBindCommand aperture pasid)
  refine ⟨_, run, ?_, ?_⟩
  · intro low small
    rw [show notifyBindCommand aperture pasid { s with mailbox := b } = .done _ from if_neg (by omega)]
    exact ⟨commandEnd_done .., Tab.get_set_same ..⟩
  · intro high
    rw [show notifyBindCommand aperture pasid { s with mailbox := b } = .err 2 _ from if_pos high]
    obtain ⟨same, shown⟩ := commandEnd_err 7 [aperture, pasid] s { s with mailbox := b } b 2
    exact ⟨shown, same.apertures⟩

theorem exec_sliceBind (slice pasid base : Word) {s : State} (idle : (s.mailbox.get 0 8).getLsbD 0 = false) : ∃ w, exec (.sliceBind slice pasid base) s = .next w ∧
    (slice.toNat < 64 → pasid.toNat < 2 ^ 20 → w.mail = 2 ∧ w.slices.get none slice.toNat = some (pasid.toNat, base.toNat)) ∧
    (64 ≤ slice.toNat ∨ 2 ^ 20 ≤ pasid.toNat → w.mail = 0x202 ∧ w.slices = s.slices) := by
  obtain ⟨b, -, run⟩ := firmware_idle idle 8 [slice, pasid, base] (sliceBindCommand slice pasid base)
  refine ⟨_, run, ?_, ?_⟩
  · intro low small
    rw [show sliceBindCommand slice pasid base { s with mailbox := b } = .done _ from if_neg (by omega)]
    exact ⟨commandEnd_done .., Tab.get_set_same ..⟩
  · intro high
    rw [show sliceBindCommand slice pasid base { s with mailbox := b } = .err 2 _ from if_pos high]
    obtain ⟨same, shown⟩ := commandEnd_err 8 [slice, pasid, base] s { s with mailbox := b } b 2
    exact ⟨shown, same.slices⟩

theorem exec_window (pasid base : Word) {s : State} (idle : (s.mailbox.get 0 8).getLsbD 0 = false) : ∃ w, exec (.window pasid base) s = .next w ∧
    (pasid.toNat < 2 ^ 20 → base.toNat % 2 ^ 37 = 0 → canonical base.toNat = true → w.mail = 2 ∧ w.windows.get none pasid.toNat = some base.toNat) ∧
    (base.toNat % 2 ^ 37 ≠ 0 → w.mail = 0x202 ∧ w.windows = s.windows) := by
  obtain ⟨b, -, run⟩ := firmware_idle idle 9 [pasid, base] (windowCommand pasid base)
  refine ⟨_, run, ?_, ?_⟩
  · intro small aligned canon
    have passes : ¬ (2 ^ 20 ≤ pasid.toNat ∨ base.toNat % 2 ^ 37 ≠ 0 ∨ canonical base.toNat = false) := by
      rintro (h | h | h)
      · omega
      · exact h aligned
      · exact Bool.false_ne_true (h.symm.trans canon)
    rw [show windowCommand pasid base { s with mailbox := b } = .done _ from if_neg passes]
    exact ⟨commandEnd_done .., Tab.get_set_same ..⟩
  · intro skew
    rw [show windowCommand pasid base { s with mailbox := b } = .err 2 _ from if_pos (.inr (.inl skew))]
    obtain ⟨same, shown⟩ := commandEnd_err 9 [pasid, base] s { s with mailbox := b } b 2
    exact ⟨shown, same.windows⟩

/-! ### Commands that read firmware's data -/

theorem firmwareRead_ok {s t : State} {va n : Nat} {d : List Byte} (read : hubRead s s.savePasid va n = .ok (t, d)) (f : State → List Byte → Command) :
    firmwareRead s va n f = f t d := by
  unfold firmwareRead
  rw [read]

theorem exec_identity {va : Word} {s t u : State} {nonce : List Byte} (idle : (s.mailbox.get 0 8).getLsbD 0 = false)
    (read : hubRead (setMail s (mailArgs 0x0A [va]) 0) s.savePasid va.toNat 32 = .ok (t, nonce))
    (write : hubWrite t t.savePasid (va.toNat + 32) (withSignature (shake256 (Config.measurement t.policyLoaded ++ nonce) 32)) = .ok u) :
    ∃ w, exec (.identity va) s = .next w ∧ w.mail = 2 ∧ w.mem = u.mem ∧ w.host = u.host := by
  obtain ⟨b, eq, run⟩ := firmware_idle idle 0x0A [va] (identityCommand va)
  rw [eq] at read
  have done : identityCommand va { s with mailbox := b } = .done u := by
    refine (firmwareRead_ok read _).trans ?_
    simp only [write]
  rw [done] at run
  exact ⟨_, run, commandEnd_done .., rfl, rfl⟩

/-- A set of modules and this module's domain of it. -/
def domainOk (u : State) (a b : List Byte) : Prop := (∀ x ∈ bitmapList b, x ∈ bitmapList a) ∧ (bitmapList b).length ≤ 256 ∧ u.module ∈ bitmapList b

theorem domainOk_iff (u : State) (a b : List Byte) :
    ((bitmapList b).all ((bitmapList a).contains ·) && decide ((bitmapList b).length ≤ 256) && (bitmapList b).contains u.module) = true ↔ domainOk u a b := by
  simp [domainOk, and_assoc]

/-- What FABRIC_MEMBERS does with the second bitmap. -/
def takeMembers (a : List Byte) (s : State) (b : List Byte) : Command :=
  if (bitmapList b).all ((bitmapList a).contains ·) && decide ((bitmapList b).length ≤ 256) && (bitmapList b).contains s.module then
    .done { s with members := bitmapList a, domain := bitmapList b }
  else .err 2 s

theorem exec_fabricMembers {members domain : Word} {s t u : State} {a b : List Byte} (idle : (s.mailbox.get 0 8).getLsbD 0 = false)
    (one : hubRead (setMail s (mailArgs 0x0B [members, domain]) 0) s.savePasid members.toNat 1024 = .ok (t, a)) (two : hubRead t t.savePasid domain.toNat 1024 = .ok (u, b)) :
    ∃ w, exec (.fabricMembers members domain) s = .next w ∧ (domainOk u a b → w.mail = 2 ∧ w.members = bitmapList a ∧ w.domain = bitmapList b) ∧
      (¬ domainOk u a b → w.mail = 0x202 ∧ w.members = s.members ∧ w.domain = s.domain) := by
  obtain ⟨m, eq, run⟩ := firmware_idle idle 0x0B [members, domain] (fabricMembersCommand members domain)
  rw [eq] at one
  have reads := (firmwareRead_ok one (fun s a => firmwareRead s domain.toNat 1024 (takeMembers a))).trans (firmwareRead_ok two (takeMembers a))
  refine ⟨_, run, ?_, ?_⟩
  · intro good
    rw [show fabricMembersCommand members domain { s with mailbox := m } = .done _ from reads.trans (if_pos ((domainOk_iff u a b).2 good))]
    exact ⟨commandEnd_done .., rfl, rfl⟩
  · intro bad
    rw [show fabricMembersCommand members domain { s with mailbox := m } = .err 2 _ from reads.trans (if_neg (mt (domainOk_iff u a b).1 bad))]
    obtain ⟨same, shown⟩ := commandEnd_err 0x0B [members, domain] s u m 2
    exact ⟨shown, same.members, same.domain⟩

/-- Settles O51: each command's outcome is that of its body, and the mailbox shows it. -/
theorem firmwareBinds : Obligations.FirmwareBinds := by
  unfold Obligations.FirmwareBinds
  intro s idle mail
  refine ⟨?_, ?_, ?_, fun aperture pasid idle => exec_notifyBind aperture pasid idle, fun slice pasid base idle => exec_sliceBind slice pasid base idle,
    fun pasid base idle => exec_window pasid base idle, ?_, ?_⟩
  · intro pasid root table ok tearing
    rcases Bool.eq_false_or_eq_true ((s.mailbox.get 0 8).getLsbD 0) with busy | free
    · obtain ⟨w, run, rejects⟩ := exec_pasidBind_busy pasid root table busy
      have not_idle : ¬ idle := fun h => Bool.false_ne_true (h.symm.trans busy)
      exact ⟨w, run, fun h => absurd h not_idle, fun h => absurd h not_idle, fun h => absurd h not_idle, fun _ => rejects⟩
    · obtain ⟨w, run, binds, waits, err⟩ := exec_pasidBind_idle pasid root table free
      exact ⟨w, run, fun _ => binds, fun _ => waits, fun _ => err, fun busy => absurd (free.symm.trans busy) Bool.false_ne_true⟩
  · intro pasid queue m ring prio ecap idle h1 h2 h3 h4 h5 h6 h7
    obtain ⟨w, run, creates, err⟩ := exec_qcbCreate pasid queue ⟨h1, h2, h3, h4, h5, h6, h7⟩ ecap idle
    refine ⟨w, run, creates, fun no => err (no.imp_right fun taken => List.find?_eq_none.2 fun i hi => ?_)⟩
    simpa using taken i hi
  · exact fun pasid queue idle rising => exec_qcbDestroy pasid queue idle rising
  · intro va t nonce u idle read m write
    exact exec_identity idle read write
  · intro members domain t a u b idle one two ok
    exact exec_fabricMembers idle one two

end Sys2Proof.Machine
end

section
/-!
SUPPORT. HBM maps, slot tables and circuits (O52): what their commands take up, and what a change of tables leaves.
-/

namespace Sys2Proof.Machine

/-! ### HBM maps -/

/-- What an HBM map's words are. -/
def mapWords (d : List Byte) : List Word := (List.range 16).map fun i => BitVec.ofNat 64 (leField d (8 * i) 8)

theorem exec_hbmMap {s t : State} {stack va : Word} {d : List Byte} (idle : (s.mailbox.get 0 8).getLsbD 0 = false) (low : stack.toNat < 8)
    (read : hubRead (setMail s (mailArgs 4 [stack, va]) 0) s.savePasid va.toNat 128 = .ok (t, d)) :
    ∃ w, exec (.hbmMap stack va) s = .next w ∧ w.regions = s.regions ∧ (mapOk (mapWords d) = true → w.mail = 2 ∧ w.newRegions.find? stack.toNat = some (mapWords d)) ∧
      (mapOk (mapWords d) = false → w.mail = 0x302 ∧ w.newRegions = s.newRegions) := by
  obtain ⟨m, eq, run⟩ := firmware_idle idle 4 [stack, va] (hbmMapCommand stack va)
  rw [eq] at read
  have same := (hubRead_works read).bindings
  have checks : hbmMapCommand stack va { s with mailbox := m } = if mapOk (mapWords d) then .done { t with newRegions := t.newRegions.set stack.toNat (mapWords d) } else .err 3 t :=
    (if_neg (Nat.not_le_of_lt low)).trans (firmwareRead_ok read _)
  rw [checks] at run
  cases good : mapOk (mapWords d) with
  | true =>
    rw [good, if_pos rfl] at run
    exact ⟨_, run, same.regions, fun _ => ⟨commandEnd_done .., Tab.find_set_same ..⟩, nofun⟩
  | false =>
    rw [good, if_neg Bool.false_ne_true] at run
    obtain ⟨kept, shown⟩ := commandEnd_err 4 [stack, va] s t m 3
    exact ⟨_, run, kept.regions, nofun, fun _ => ⟨shown, kept.newRegions⟩⟩

section MapEffect

variable (stack : Nat) (l : List Word)

/-- Region `k` of a stack as the state has it. -/
def State.regionWord (s : State) (k : Nat) : Word := s.regions.get (regionReset (16 * stack + k)) (16 * stack + k)

/-- A map's word `k` takes effect. -/
def mapRegion (s : State) (k : Nat) : State :=
  { (if regionChanged (s.regionWord stack k) (l.getD k 0) then scrambleRegion stack (l.getD k 0) (scrambleRegion stack (s.regionWord stack k) s) else s) with
    regions := s.regions.put (regionReset (16 * stack + k)) (16 * stack + k) (l.getD k 0) }

theorem scrambleRegion_tables (r : Word) (s : State) : (scrambleRegion stack r s).regions = s.regions ∧ (scrambleRegion stack r s).newRegions = s.newRegions := by
  unfold scrambleRegion
  split
  · exact ⟨rfl, rfl⟩
  · exact ⟨rfl, rfl⟩

theorem mapRegion_newRegions (s : State) (k : Nat) : (mapRegion stack l s k).newRegions = s.newRegions := by
  unfold mapRegion
  split
  · exact (scrambleRegion_tables ..).2.trans (scrambleRegion_tables ..).2
  · rfl

theorem mapRegion_mem {s : State} {k : Nat} (same : regionChanged (s.regionWord stack k) (l.getD k 0) = false) : (mapRegion stack l s k).mem = s.mem := by
  unfold mapRegion
  rw [same]
  rfl

theorem regionWord_mapRegion_same (s : State) (k : Nat) : (mapRegion stack l s k).regionWord stack k = l.getD k 0 := Tab.get_put_same ..

theorem regionWord_mapRegion_other (s : State) {j k : Nat} (other : j ≠ k) : (mapRegion stack l s k).regionWord stack j = s.regionWord stack j :=
  Tab.get_put_other _ _ _ _ (by omega)

/-- The words of a map that have taken effect, and those that have not. -/
theorem mapRegions (s : State) (n : Nat) :
    ((List.range n).foldl (mapRegion stack l) s).newRegions = s.newRegions ∧
    (∀ k, ((List.range n).foldl (mapRegion stack l) s).regionWord stack k = if k < n then l.getD k 0 else s.regionWord stack k) ∧
    ((∀ k, k < n → regionChanged (s.regionWord stack k) (l.getD k 0) = false) → ((List.range n).foldl (mapRegion stack l) s).mem = s.mem) := by
  induction n with
  | zero => exact ⟨rfl, fun _ => rfl, fun _ => rfl⟩
  | succ n ih =>
    obtain ⟨maps, words, mem⟩ := ih
    rw [List.range_succ, List.foldl_append]
    refine ⟨(mapRegion_newRegions ..).trans maps, fun k => ?_, fun same => (mapRegion_mem stack l ?_).trans (mem fun k hk => same k (Nat.lt_succ_of_lt hk))⟩
    · show (mapRegion stack l _ n).regionWord stack k = _
      rcases Nat.lt_trichotomy k n with less | rfl | more
      · rw [regionWord_mapRegion_other _ _ _ (Nat.ne_of_lt less), words, if_pos less, if_pos (Nat.lt_succ_of_lt less)]
      · rw [regionWord_mapRegion_same, if_pos (Nat.lt_succ_self k)]
      · rw [regionWord_mapRegion_other _ _ _ (Nat.ne_of_gt more), words, if_neg (Nat.not_lt_of_gt more), if_neg (by omega)]
    · rw [words, if_neg (Nat.lt_irrefl n)]
      exact same n (Nat.lt_succ_self n)

theorem exec_hbmMapEffect_takes {s : State} {stack : Nat} {l : List Word} (new : s.newRegions.find? stack = some l) (free : stackBusy s stack = false) :
    exec (.hbmMapEffect stack) s = .next ((List.range 16).foldl (mapRegion stack l) { s with newRegions := s.newRegions.drop stack }) := by
  change execHbmMapEffect stack s = _
  unfold execHbmMapEffect
  rw [new]
  refine (if_neg (fun h => Bool.false_ne_true (free.symm.trans h))).trans (congrArg Host.Outcome.next ?_)
  congr 1
  funext s k
  unfold mapRegion State.regionWord
  simp only []
  split
  · rw [(scrambleRegion_tables ..).1, (scrambleRegion_tables ..).1]
  · rfl

theorem exec_hbmMapEffect_waits {s : State} {stack : Nat} {l : List Word} (new : s.newRegions.find? stack = some l) (busy : stackBusy s stack = true) :
    exec (.hbmMapEffect stack) s = .next s := by
  change execHbmMapEffect stack s = _
  unfold execHbmMapEffect
  rw [new]
  exact if_pos busy

theorem Tab.find_drop_same {α : Type} (t : Tab α) (k : Nat) : (t.drop k).find? k = none := by
  simp [Tab.find?, Tab.drop, cellDrop]

end MapEffect

/-! ### Slot tables -/

def tableWords (d : List Byte) : List (BitVec 128) := (List.range 256).map fun i => BitVec.ofNat 128 (leField d (16 * i) 16)

def tableBad (router : Nat) (l : List (BitVec 128)) : Bool := ((List.range 256).zip l).any fun x => entryBad (router == 0) (x.1 % 32 == 31) x.2

/-- What SLOT_TABLE does with the table it has read. -/
def takeTable (router time : Nat) (s : State) (d : List Byte) : Command :=
  if tableBad router (tableWords d) || s.circuits.cells.any (fun x => guardedCircuit x.2) then .err 3 s
  else .done { s with slotNext := s.slotNext.set router (tableWords d), slotTime := time }

theorem slotTableCommand_reads {router time : Word} (low : router.toNat < 5) (aligned : time.toNat % 256 = 0) (va : Word) (s : State) :
    slotTableCommand router va time s = firmwareRead s va.toNat 4096 (takeTable router.toNat time.toNat) := by
  unfold slotTableCommand
  rw [if_neg (by omega)]
  congr 1

theorem exec_slotTable {s t : State} {router va time : Word} {d : List Byte} (idle : (s.mailbox.get 0 8).getLsbD 0 = false) (low : router.toNat < 5) (aligned : time.toNat % 256 = 0)
    (read : hubRead (setMail s (mailArgs 5 [router, va, time]) 0) s.savePasid va.toNat 4096 = .ok (t, d)) :
    ∃ w, exec (.slotTable router va time) s = .next w ∧ w.slotTabs = s.slotTabs ∧ (tableBad router.toNat (tableWords d) = true → w.mail = 0x302 ∧ w.slotNext = s.slotNext) ∧
      (tableBad router.toNat (tableWords d) = false → (∀ x ∈ s.circuits.cells, guardedCircuit x.2 = false) →
        w.mail = 2 ∧ w.slotNext.find? router.toNat = some (tableWords d) ∧ w.slotTime = time.toNat) := by
  obtain ⟨m, eq, run⟩ := firmware_idle idle 5 [router, va, time] (slotTableCommand router va time)
  rw [eq] at read
  have same := (hubRead_works read).bindings
  have checks : slotTableCommand router va time { s with mailbox := m } = takeTable router.toNat time.toNat t d :=
    (slotTableCommand_reads low aligned ..).trans (firmwareRead_ok read _)
  rw [checks] at run
  obtain ⟨kept, shown⟩ := commandEnd_err 5 [router, va, time] s t m 3
  unfold takeTable at run
  refine ⟨_, run, ?_, ?_, ?_⟩
  · split
    · exact kept.slotTabs
    · exact same.slotTabs
  · intro bad
    rw [if_pos (by rw [bad]; rfl)]
    exact ⟨shown, kept.slotNext⟩
  · intro good circuits
    rw [if_neg]
    · exact ⟨commandEnd_done .., Tab.find_set_same .., rfl⟩
    · rw [good, same.circuits]
      simpa using circuits

theorem exec_slotTableActivate_waits {s : State} (busy : circuitsBusy s = true) : exec .slotTableActivate s = .next s := if_pos (.inr busy)

/-- What keeps the circuits' tables as they are. -/
theorem circuitsBusy_of {s : State} (h : s.timetabled ≠ [] ∨ s.landing ≠ [] ∨
    ∃ p k, (p, k) ∈ s.links.cells ∧ (k.transit ≠ [] ∨ ∃ y ∈ k.lanes.cells, y.2.items ≠ [] ∨ 0 < y.2.passing ∨ ∃ a, y.2.part = some a ∧ a.head.timetabled = true)) :
    circuitsBusy s = true := by
  simp only [circuitsBusy, Bool.or_eq_true, Bool.not_eq_true', List.isEmpty_eq_false_iff, List.any_eq_true]
  rcases h with sent | landing | ⟨p, k, mem, transit | ⟨y, lane, held⟩⟩
  · exact .inl (.inl sent)
  · exact .inl (.inr landing)
  · exact .inr ⟨(p, k), mem, .inl transit⟩
  · refine .inr ⟨(p, k), mem, .inr ⟨y, lane, ?_⟩⟩
    simp only [Lane.busy, Bool.or_eq_true, Bool.not_eq_true', List.isEmpty_eq_false_iff, decide_eq_true_eq]
    rcases held with items | passing | ⟨a, part, timetabled⟩
    · exact .inl (.inr items)
    · exact .inr passing
    · rw [part]
      exact .inl (.inl timetabled)

theorem exec_slotTableActivate_one {s : State} {r : Nat} {l : List (BitVec 128)} (free : circuitsBusy s = false) (one : s.slotNext.cells = [(r, l)]) :
    ∃ w, exec .slotTableActivate s = .next w ∧ w.slotTabs = s.slotTabs.set r l ∧ w.slotNext = .empty ∧ w.time = activation s.time s.slotTime := by
  refine ⟨_, if_neg ?_, ?_, rfl, rfl⟩
  · rw [one, free]
    simp
  · show s.slotNext.cells.foldl _ s.slotTabs = _
    rw [one]
    rfl

/-! ### Circuits -/

def circuitOf (d : List Byte) : Circuit := { slots := BitVec.ofNat 256 (leField d 0 32), target := leField d 32 2 % 2 ^ 15, valid := leField d 34 1 % 2 == 1 }

theorem exec_circuit {s t : State} {circ va : Word} {d : List Byte} (idle : (s.mailbox.get 0 8).getLsbD 0 = false) (some_circ : circ.toNat ≠ 0) (low : circ.toNat < 256)
    (read : hubRead (setMail s (mailArgs 6 [circ, va]) 0) s.savePasid va.toNat 64 = .ok (t, d)) :
    ∃ w, exec (.circuit circ va) s = .next w ∧ (guardedCircuit (circuitOf d) = false → w.mail = 2 ∧ w.circuits.get .none circ.toNat = circuitOf d) ∧
      (guardedCircuit (circuitOf d) = true → w.mail = 0x302 ∧ w.circuits = s.circuits) := by
  obtain ⟨m, eq, run⟩ := firmware_idle idle 6 [circ, va] (circuitCommand circ va)
  rw [eq] at read
  have checks : circuitCommand circ va { s with mailbox := m } =
      if guardedCircuit (circuitOf d) then .err 3 t else .done { t with circuits := t.circuits.put .none circ.toNat (circuitOf d) } :=
    (if_neg (by omega)).trans (firmwareRead_ok read _)
  rw [checks] at run
  cases guarded : guardedCircuit (circuitOf d) with
  | false =>
    rw [guarded, if_neg Bool.false_ne_true] at run
    exact ⟨_, run, fun _ => ⟨commandEnd_done .., Tab.get_put_same ..⟩, nofun⟩
  | true =>
    rw [guarded, if_pos rfl] at run
    obtain ⟨kept, shown⟩ := commandEnd_err 6 [circ, va] s t m 3
    exact ⟨_, run, nofun, fun _ => ⟨shown, kept.circuits⟩⟩

/-- Settles O52: a table is checked and kept, and takes effect once nothing that it governs is under way. -/
theorem tablesTakeEffect : Obligations.TablesTakeEffect := by
  unfold Obligations.TablesTakeEffect
  intro s idle mail
  refine ⟨fun stack va t d idle low read => exec_hbmMap idle low read, ?_, fun router va time t d idle low aligned read => exec_slotTable idle low aligned read,
    fun busy => exec_slotTableActivate_waits (circuitsBusy_of busy), ?_, fun circ va t d idle some_circ low read => exec_circuit idle some_circ low read⟩
  · intro stack l new
    refine ⟨exec_hbmMapEffect_waits new, fun free => ⟨_, exec_hbmMapEffect_takes new free, ?_⟩⟩
    obtain ⟨maps, words, mem⟩ := mapRegions stack l { s with newRegions := s.newRegions.drop stack } 16
    exact ⟨(congrArg (Tab.find? · stack) maps).trans (Tab.find_drop_same ..), fun k hk => (words k).trans (if_pos hk), mem⟩
  · intro r l free one
    obtain ⟨w, run, tabs, next, time⟩ := exec_slotTableActivate_one free one
    refine ⟨w, run, ?_, next, time, fun q other => ?_⟩
    · rw [tabs, Tab.get_set_same]
    · rw [tabs, Tab.get_set_other _ _ _ other]

end Sys2Proof.Machine
end

section
/-!
SUPPORT. Checkpoints (O53): what a plan starts, what the copy of a page does with its leaf and its bytes, and what the commit of a
manifest leaves.
-/

namespace Sys2Proof.Machine

/-! ### A checkpoint's packet -/

section Packet

variable {s : State} {p : QPacket} (there : s.packet? p.id = some p) (type : p.type = 8) (fresh : p.started = false) (may : mayLaunch s p = true)

/-- A checkpoint's packet without colophon and signal completes. -/
theorem refusePacket_plain (s : State) {p : QPacket} (type : p.type = 8) (sig : p.sig = false) (colophon : p.word 0x28 = 0) (v : Verdict) : refusePacket s p v = .ok (s.without p) := by
  have none : packetColophon s p = .ok (s, 0) := by simp [packetColophon, type, colophon]
  unfold refusePacket
  rw [none]
  exact completePacket_plain s sig

include there in
theorem exec_checkpointPacket_second (busy : s.checkpoint.isSome = true) : exec (.checkpointPacket p.id) s = .next s := by
  change execCheckpointPacket p.id s = _
  unfold execCheckpointPacket
  rw [there]
  exact if_pos (.inr (.inr (.inl busy)))

include there type fresh may in
/-- A packet in its turn does what its plan says. -/
theorem exec_checkpointPacket_plan (free : s.checkpoint = none) {t : State} {r : Except Verdict (List (Nat × Nat) × List (Nat × Nat))} (plan : checkpointPlan s p = .ok (t, r)) :
    exec (.checkpointPacket p.id) s = match r with
      | .error v => .next (settleWork s (refusePacket (launchPacket t p) p v))
      | .ok (shards, pages) =>
        if (p.word 0x10).getLsbD 1 && s.gaths.any (fun g => g.state == .running) then .next (preemptAll s)
        else if (p.word 0x10).getLsbD 1 && !cutReady s then .next s
        else .next (settleWork s (startCheckpoint (launchPacket t p) p shards pages)) := by
  change execCheckpointPacket p.id s = _
  unfold execCheckpointPacket
  rw [there]
  refine (if_neg ?_).trans ?_
  · simp [type, fresh, may, free]
  · simp only [plan]
    cases r with
    | error v => rfl
    | ok x => rfl

theorem shard_count (w : Word) : bits w 63 32 = w.toNat / 2 ^ 32 := by
  have low : w.toNat / 2 ^ 32 < 2 ^ 32 := Nat.div_lt_of_lt_mul (by have := w.isLt; omega)
  rw [bits_eq_div]
  exact Nat.mod_eq_of_lt low

theorem checkpointPlan_bad (bad : (p.word 0x10).toNat / 2 ^ 32 = 0 ∨ 65536 < (p.word 0x10).toNat / 2 ^ 32 ∨ newGen s (p.word 0x18).toNat = false) :
    checkpointPlan s p = .ok (s, .error (.of stBadPacket)) := by
  unfold checkpointPlan
  rw [shard_count]
  simp only [bad, if_true]

theorem checkpointPlan_reads {n : Nat} (count : (p.word 0x10).toNat / 2 ^ 32 = n) (some_shard : 1 ≤ n) (low : n ≤ 65536) (new : newGen s (p.word 0x18).toNat = true)
    {t u : State} {b : List Byte} {pages : List (Nat × Nat)} (read : hubRead s p.pasid (p.word 0x08).toNat (16 * n) = .ok (t, b)) (good : planBad (planShards b n) = false)
    (walks : allPages p.pasid (planShards b n) t = .ok (u, pages)) : checkpointPlan s p = .ok (u, .ok (planShards b n, pages.eraseDups)) := by
  unfold checkpointPlan
  rw [shard_count, count]
  refine (if_neg (by rw [new]; simp only [Bool.true_eq_false, or_false]; omega)).trans ?_
  simp only [read, good, Bool.false_eq_true, if_false, walks]

end Packet

/-! ### The snapshot -/

theorem leafWork_setLeaf (s : State) (pasid va : Nat) (f : Word → Word) : LeafWork s (setLeaf s pasid va f) := by
  unfold setLeaf
  split
  · exact leafWork_write64 ..
  · exact .refl s

theorem setLeaf_shoots (s : State) (pasid va : Nat) (f : Word → Word) : (setLeaf s pasid va f).shoots = s.shoots := by
  unfold setLeaf
  split
  · obtain ⟨m, h, x, eq⟩ := State.writeAt_eq s { host := false, addr := _ } (leBytes 8 (f _).toNat)
    rw [State.write64, eq]
  · rfl

/-- The REFRESH of each shard. -/
def shardShoots (pasid : Nat) (shards : List (Nat × Nat)) : List Shoot :=
  shards.map fun x => { Shoot.own pasid with all := false, lo := x.1, hi := x.1 + x.2, refresh := true }

theorem foldl_addShoot (pasid : Nat) (shards : List (Nat × Nat)) (s : State) :
    shards.foldl (fun s x => s.addShoot { Shoot.own pasid with all := false, lo := x.1, hi := x.1 + x.2, refresh := true }) s =
      { s with shoots := s.shoots ++ shardShoots pasid shards } := by
  induction shards generalizing s with
  | nil => simp [shardShoots]
  | cons x r ih => rw [List.foldl_cons, ih]; simp [State.addShoot, shardShoots]

theorem foldl_setLeaf_shoots (pasid : Nat) (f : Word → Word) (pages : List (Nat × Nat)) (s : State) :
    (pages.foldl (fun s p => setLeaf s pasid p.1 f) s).shoots = s.shoots := by
  induction pages generalizing s with
  | nil => rfl
  | cons x r ih => exact (ih _).trans (setLeaf_shoots ..)

/-- The leaves of a snapshot's pages, marked. -/
def markPages (s : State) (pasid : Nat) (pages : List (Nat × Nat)) : State := pages.foldl (fun s p => setLeaf s pasid p.1 fun e => e ||| 0x10) (releaseFrames s pasid)

theorem takeSnapshot_eq (s : State) (pasid : Nat) (shards pages : List (Nat × Nat)) :
    takeSnapshot s pasid shards pages = { markPages s pasid pages with shoots := s.shoots ++ shardShoots pasid shards } := by
  have shoots : (markPages s pasid pages).shoots = s.shoots := foldl_setLeaf_shoots ..
  rw [← shoots]
  exact foldl_addShoot pasid shards (markPages s pasid pages)

theorem releaseFrames_mem (s : State) (pasid : Nat) : (releaseFrames s pasid).mem = s.mem := rfl

theorem releaseFrames_host (s : State) (pasid : Nat) : (releaseFrames s pasid).host = s.host := rfl

theorem releaseFrames_pasids (s : State) (pasid : Nat) : (releaseFrames s pasid).pasids = s.pasids := rfl

theorem releaseFrames_manifests (s : State) (pasid : Nat) : (releaseFrames s pasid).manifests = s.manifests := rfl

theorem sameMemory_releaseFrames (s : State) (pasid : Nat) : SameMemory s (releaseFrames s pasid) := fun q => by
  rw [State.byteAt, State.byteAt, releaseFrames_mem, releaseFrames_host]

theorem markPages_one {s u : State} (mem : SameMemory u s) (pasids : s.pasids = u.pasids) {pasid va size a : Nat} {e : Word} (leaf : leafOf u pasid va = some (a, e))
    (aligned : a % 8 = 0) (mapped : physMapped a = true) : (markPages s pasid [(va, size)]).read64 { host := false, addr := a } = e ||| 0x10 := by
  have found : leafOf (releaseFrames s pasid) pasid va = some (a, e) := 
    ((sameMemory_releaseFrames s pasid).leafOf (releaseFrames_pasids s pasid) pasid va).trans ((mem.leafOf pasids pasid va).trans leaf)
  show (setLeaf (releaseFrames s pasid) pasid va fun e => e ||| 0x10).read64 _ = _
  unfold setLeaf
  rw [found]
  exact State.read64_write64 _ _ aligned mapped

theorem startCheckpoint_starts (s : State) {p : QPacket} (type : p.type = 8) (sig : p.sig = false) (colophon : p.word 0x28 = 0) (whole : (p.word 0x10).getLsbD 1 = false)
    (shards pages : List (Nat × Nat)) :
    startCheckpoint s p shards pages = .ok ({ takeSnapshot s p.pasid shards pages with checkpoint := some {
      gen := (p.word 0x18).toNat, area := freeArea s, pasid := p.pasid, shards := placeShards shards (nvBase (freeArea s)), extra := 0, control := none, pages := pages,
      dsig := (p.word 0x20).toNat, colophon := 0, stage := if pages.isEmpty then 1 else 0 } }.without p) := by
  have no_cut : bit (p.word 0x10) 1 = false := whole
  have no_colophon : (p.word 0x28).toNat = 0 := by rw [colophon]; rfl
  unfold startCheckpoint
  have no_extra : (([] : List Byte).length + 0xFFFF) / 0x10000 * 0x10000 = 0 := by rw [List.length_nil]
  simp only [no_cut, Bool.false_eq_true, if_false, no_colophon]
  rw [no_extra, Nat.add_zero]
  exact refusePacket_plain _ type sig colophon _

/-! ### The copy of a page -/

theorem isMigrating_of {s : State} {pasid va a : Nat} {e : Word} (leaf : leafOf s pasid va = some (a, e)) : isMigrating s pasid va = leafMigrating e := by
  unfold isMigrating
  rw [leaf]

theorem readLeaf_local (s : State) (pasid va : Nat) {e : Word} (kind : leafKind e ≠ 4) : readLeaf s pasid va e = .ok (s, s.readPage pasid e) := if_pos kind

theorem holdPage_shared {s : State} {pasid va a : Nat} {e : Word} (leaf : leafOf s pasid va = some (a, e)) (own : leafCow e = false) : holdPage s pasid va = s := by
  unfold holdPage
  rw [leaf]
  simp [own]

theorem copySource_cow {s : State} {pasid va : Nat} {x : Nat × Word} (leaf : leafOf s pasid va = some x) (cow : leafCow x.2 = true) :
    copySource s pasid va = (readLeaf s pasid va x.2).map fun y => (setLeaf y.1 pasid va fun e => e &&& ~~~ 0x18, y.2) := by
  unfold copySource
  rw [leaf]
  exact if_pos cow

/-- A page whose cow a duplication took away. -/
theorem copySource_duplicated {s : State} {pasid va a : Nat} {e : Word} {x : Nat × Word} (leaf : leafOf s pasid va = some (a, e)) (own : leafCow e = false)
    (kept : s.snapFrames.find? (fun x => x.1 == pageKey pasid va) = some x) (kind : leafKind x.2 ≠ 4) :
    ∃ pools, copySource s pasid va = .ok ({ s with snapFrames := s.snapFrames.erase x, pools := pools }, s.readPage pasid x.2) := by
  refine ⟨s.pools.put [] (poolKey pasid (leafSize x.2)) (s.pools.get [] (poolKey pasid (leafSize x.2)) ++ [leafFrame x.2]), ?_⟩
  unfold copySource
  rw [leaf]
  refine (if_neg (by simp [own])).trans ?_
  rw [kept]
  simp only [readLeaf_local s pasid va kind]
  rfl

section PageCopy

variable {s : State} {c : Checkpoint} {va n : Nat} {r : List (Nat × Nat)} (here : s.checkpoint = some c) (page : c.pages = (va, n) :: r)

include here page

theorem exec_pageCopy_migrating (busy : isMigrating s c.pasid va = true) (first : c.copying = false) : exec .checkpointPageCopy s = .next s := by
  change execCheckpointPageCopy s = _
  unfold execCheckpointPageCopy
  rw [here]
  simp only [page, busy, first, Bool.not_false, Bool.and_self, if_true]

theorem exec_pageCopy_large (clear : isMigrating s c.pasid va = false) (large : areaBytes < c.bytes) : exec .checkpointPageCopy s = .next (discard s c) := by
  change execCheckpointPageCopy s = _
  unfold execCheckpointPageCopy
  rw [here]
  simp only [page, clear, Bool.false_and, Bool.false_eq_true, if_false, large, if_true]

variable (goes : isMigrating s c.pasid va = false ∨ c.copying = true) (fits : c.bytes ≤ areaBytes)

include goes fits

theorem exec_pageCopy_waits {t : State} (source : copySource (holdPage s c.pasid va) c.pasid va = .error (.wait t)) :
    exec .checkpointPageCopy s = .next { (holdPage s c.pasid va).keep t with checkpoint := some { c with copying := isMigrating (holdPage s c.pasid va) c.pasid va } } := by
  have may : (isMigrating s c.pasid va && !c.copying) = false := by rcases goes with h | h <;> simp [h]
  change execCheckpointPageCopy s = _
  unfold execCheckpointPageCopy
  rw [here]
  simp only [page, may, Bool.false_eq_true, if_false, Nat.not_lt.2 fits, source]

theorem exec_pageCopy_copies {t : State} {d : List Byte} (source : copySource (holdPage s c.pasid va) c.pasid va = .ok (t, d)) :
    exec .checkpointPageCopy s = .next { writeShards va (d.take n) t c.shards with checkpoint := some { c with pages := r, stage := if r.isEmpty then 1 else 0, copying := false } } := by
  have may : (isMigrating s c.pasid va && !c.copying) = false := by rcases goes with h | h <;> simp [h]
  change execCheckpointPageCopy s = _
  unfold execCheckpointPageCopy
  rw [here]
  simp only [page, may, Bool.false_eq_true, if_false, Nat.not_lt.2 fits, source]

end PageCopy

/-! ### Bytes in the shards -/

theorem writeByte_frames (s : State) (p : Place) (b : Byte) (f : List (Nat × Word)) (q : Tab (List Nat)) :
    { s with snapFrames := f, pools := q }.writeByte p b = { s.writeByte p b with snapFrames := f, pools := q } := by
  unfold State.writeByte
  split
  · rfl
  · split <;> rfl

theorem writeBytesFrom_frames (d : List Byte) (s : State) (p : Place) (f : List (Nat × Word)) (q : Tab (List Nat)) :
    writeBytesFrom p d { s with snapFrames := f, pools := q } = { writeBytesFrom p d s with snapFrames := f, pools := q } := by
  induction d generalizing s p with
  | nil => rfl
  | cons b r ih => rw [writeBytesFrom, writeByte_frames, ih]; rfl

theorem writeAt_frames (s : State) (p : Place) (d : List Byte) (f : List (Nat × Word)) (q : Tab (List Nat)) :
    { s with snapFrames := f, pools := q }.writeAt p d = { s.writeAt p d with snapFrames := f, pools := q } := by
  unfold State.writeAt
  rw [writeBytesFrom_frames]
  split <;> rfl

theorem writeShards_frames (va : Nat) (d : List Byte) (l : List (Nat × Nat × Nat)) (s : State) (f : List (Nat × Word)) (q : Tab (List Nat)) :
    writeShards va d { s with snapFrames := f, pools := q } l = { writeShards va d s l with snapFrames := f, pools := q } := by
  induction l generalizing s with
  | nil => rfl
  | cons x r ih =>
    obtain ⟨a, len, off⟩ := x
    simp only [writeShards]
    split
    · rw [writeAt_frames, ih]
    · exact ih s

theorem writeShards_one (va off : Nat) {d : List Byte} (some_byte : 0 < d.length) (s : State) :
    writeShards va d s [(va, d.length, off)] = s.writeAt { host := false, addr := nvAddr + off } d := by
  simp only [writeShards, Nat.max_self, Nat.min_self, Nat.sub_self, Nat.add_zero, List.drop_zero, Nat.add_sub_cancel_left, List.take_length]
  exact if_pos (Nat.lt_add_of_pos_right some_byte)

theorem pageBytes_blocks (size : Nat) : 0 < pageBytes size ∧ pageBytes size / 0x10000 * 0x10000 = pageBytes size := by
  unfold pageBytes
  split
  · decide
  · split <;> decide

theorem length_readPage (s : State) (pasid : Nat) (e : Word) : (s.readPage pasid e).length = pageBytes (leafSize e) := by
  refine Eq.trans ?_ (pageBytes_blocks (leafSize e)).2
  simp only [State.readPage, List.length_flatMap, length_readAt, List.map_const', List.length_range, List.sum_replicate_nat]

theorem physMapped_nv {off i n : Nat} (fits : off + n ≤ 0x8000000000) (hi : i < n) : physMapped (nvAddr + off + i) = true := by
  have nv : kindHolds 5 (nvAddr + off + i) = true := by
    simp only [kindHolds, nvAddr]
    simp only [Nat.reduceEqDiff, or_self, if_false, if_true, Bool.and_eq_true]
    exact ⟨decide_eq_true (by omega), decide_eq_true (by omega)⟩
  rw [physMapped, nv, Bool.or_true]

/-- Of two writes the first, to the table's word, stands below the second, to the NV module. -/
theorem read64_below (s : State) {a off : Nat} {d : List Byte} (v : Word) (aligned : a % 8 = 0) (mapped : physMapped a = true) (below : a < nvAddr) :
    ((s.write64 { host := false, addr := a } v).writeAt { host := false, addr := nvAddr + off } d).read64 { host := false, addr := a } = v := by
  refine Eq.trans ?_ (s.read64_write64 v aligned mapped)
  have bytes : ((s.write64 { host := false, addr := a } v).writeAt { host := false, addr := nvAddr + off } d).readAt { host := false, addr := a } 8 =
      (s.write64 { host := false, addr := a } v).readAt { host := false, addr := a } 8 := by
    refine List.map_congr_left fun i hi => State.byteAt_writeAt _ _ _ _ (.inr (.inl ?_))
    have bound : i < 8 := List.mem_range.1 hi
    show a + i < nvAddr + off
    unfold nvAddr at below ⊢
    omega
  rw [State.read64, bytes]
  rfl

/-! ### A leaf that is held -/

theorem bits_held (e : Word) {hi lo : Nat} (high : 4 ≤ lo) : bits (e ||| 0x8) hi lo = bits e hi lo := by
  rw [bits, bits, BitVec.toNat_or, Nat.shiftRight_or_distrib]
  have gone : BitVec.toNat (0x8 : Word) >>> lo = 0 := by
    rw [Nat.shiftRight_eq_div_pow]
    exact Nat.div_eq_of_lt (Nat.lt_of_lt_of_le (by decide) (Nat.pow_le_pow_right (by decide) high))
  rw [gone, Nat.or_zero]

theorem leafCow_held (e : Word) : leafCow (e ||| 0x8) = leafCow e := by simp [leafCow, bit]

theorem released_held (e : Word) : (e ||| 0x8) &&& ~~~ (0x18 : Word) = e &&& ~~~ 0x18 := by
  rw [BitVec.and_or_distrib_right]
  simp

/-! ### Manifests -/

theorem manifests_writeAt (s : State) (p : Place) (d : List Byte) : (s.writeAt p d).manifests = s.manifests := by
  obtain ⟨m, h, x, eq⟩ := State.writeAt_eq s p d
  rw [eq]

/-- What writes the manifest leaves. -/
def manifestWritten (s : State) (c : Checkpoint) : State := discard (s.writeAt (slotAddr (c.gen % 2)) (manifestBytes s c.gen (shardRecords s c))) c

theorem manifestWritten_manifests (s : State) (c : Checkpoint) : (manifestWritten s c).manifests = s.manifests := by
  unfold manifestWritten discard
  generalize manifestBytes s c.gen (shardRecords s c) = d
  exact (releaseFrames_manifests _ _).trans (manifests_writeAt s _ d)

theorem exec_manifestCommit_valid {s t₀ u v : State} {c : Checkpoint} {pl : Place} {x : Word} (here : s.checkpoint = some c) (stage : c.stage = 1)
    (place : hubPlace ((manifestWritten s c).commitSlot (c.gen % 2) (c.manifest s 1)) hubAgent c.pasid c.dsig true = .ok (t₀, .here pl))
    (read : hubRead64 t₀ c.pasid c.dsig = .ok (u, x)) (written : hubWrite u c.pasid c.dsig (leBytes 8 (x - 1).toNat) = .ok v) :
    exec (.manifestCommit true) s = .next v := by
  have minus : x - 1 = x + (-1) := BitVec.sub_eq_add_neg x 1
  rw [minus] at written
  have added := hubAdd_here place read written
  change execManifestCommit true s = _
  unfold execManifestCommit
  rw [here]
  refine (if_neg (not_not_intro stage)).trans ?_
  show Host.Outcome.next (settleWork s (hubAdd ((manifestWritten s c).commitSlot (c.gen % 2) (c.manifest s 1)) c.pasid c.dsig (-1))) = _
  rw [added]
  rfl

theorem exec_manifestCommit_invalid {s : State} {c : Checkpoint} (here : s.checkpoint = some c) (stage : c.stage = 1) (colophon : c.colophon = 0) :
    exec (.manifestCommit false) s = .next { manifestWritten s c with manifests := (manifestWritten s c).manifests.set (c.gen % 2) (c.manifest s 3) } := by
  change execManifestCommit false s = _
  unfold execManifestCommit
  rw [here]
  refine (if_neg (not_not_intro stage)).trans ?_
  show Host.Outcome.next (settleWork s (writeColophon _ c.pasid c.colophon (planFault cPushFail 2) 0 0 0)) = _
  rw [writeColophon, if_pos colophon]
  rfl

/-! ### The obligation -/

/-- What the start of a checkpoint leaves, with no cut. -/
theorem exec_checkpointPacket_starts {s : State} {p : QPacket} (there : s.packet? p.id = some p) (type : p.type = 8) (fresh : p.started = false) (may : mayLaunch s p = true)
    (sig : p.sig = false) (colophon : p.word 0x28 = 0) (free : s.checkpoint = none) (whole : (p.word 0x10).getLsbD 1 = false) {u : State} {shards pages : List (Nat × Nat)}
    (plan : checkpointPlan s p = .ok (u, .ok (shards, pages.eraseDups))) : ∃ w, exec (.checkpointPacket p.id) s = .next w ∧ w.packet? p.id = none ∧
      w.checkpoint = some {
        gen := (p.word 0x18).toNat, area := freeArea u, pasid := p.pasid, shards := placeShards shards (nvBase (freeArea u)), extra := 0, control := none,
        pages := pages.eraseDups, dsig := (p.word 0x20).toNat, colophon := 0, stage := if pages.eraseDups.isEmpty then 1 else 0 } ∧
      w.shoots = u.shoots ++ shardShoots p.pasid shards ∧
      ∀ va size a e, pages = [(va, size)] → leafOf u p.pasid va = some (a, e) → a % 8 = 0 → physMapped a = true → w.read64 { host := false, addr := a } = e ||| 0x10 := by
  have run := exec_checkpointPacket_plan there type fresh may free plan
  simp only [whole, Bool.false_and, Bool.false_eq_true, if_false] at run
  rw [startCheckpoint_starts _ type sig colophon whole] at run
  refine ⟨_, run, packet_left _ _, rfl, ?_, ?_⟩
  · rw [takeSnapshot_eq]
    rfl
  · intro va size a e one leaf aligned mapped
    have marked := markPages_one (s := launchPacket u p) (u := u) (size := size) (fun _ => rfl) rfl leaf aligned mapped
    have same : pages.eraseDups = [(va, size)] := by rw [one]; rfl
    rw [takeSnapshot_eq, same]
    exact (State.read64_congr rfl rfl _).trans marked

/-- What the copy of one page of one shard leaves: its bytes in the module's second memory, its leaf without cow and migrating. -/
theorem exec_pageCopy_one {s : State} {c : Checkpoint} {va n a off : Nat} {e : Word} {r : List (Nat × Nat)} (here : s.checkpoint = some c) (page : c.pages = (va, n) :: r)
    (goes : isMigrating s c.pasid va = false) (fits : c.bytes ≤ areaBytes) (cow : leafCow e = true) (held : leafOf (holdPage s c.pasid va) c.pasid va = some (a, e ||| 0x8))
    (kind : leafKind e ≠ 4) (aligned : a % 8 = 0) (mapped : physMapped a = true) (below : a < nvAddr) (size : n = pageBytes (leafSize e)) (one : c.shards = [(va, n, off)])
    (room : off + n ≤ 0x8000000000) : ∃ w, exec .checkpointPageCopy s = .next w ∧
      w.readAt { host := false, addr := nvAddr + off } n = (holdPage s c.pasid va).readPage c.pasid (e ||| 0x8) ∧ w.read64 { host := false, addr := a } = e &&& ~~~ 0x18 ∧
      w.checkpoint = some { c with pages := r, stage := if r.isEmpty then 1 else 0, copying := false } := by
  have kind_held : leafKind (e ||| 0x8) = leafKind e := bits_held e (by decide)
  have size_held : leafSize (e ||| 0x8) = leafSize e := bits_held e (by decide)
  have length : ((holdPage s c.pasid va).readPage c.pasid (e ||| 0x8)).length = n := by rw [length_readPage, size_held, size]
  have some_byte : 0 < n := size ▸ (pageBytes_blocks _).1
  have source : copySource (holdPage s c.pasid va) c.pasid va =
      .ok ((holdPage s c.pasid va).write64 { host := false, addr := a } (e &&& ~~~ 0x18), (holdPage s c.pasid va).readPage c.pasid (e ||| 0x8)) := by
    rw [copySource_cow held ((leafCow_held e).trans cow), readLeaf_local _ _ _ (kind_held ▸ kind)]
    simp only [Except.map, setLeaf, held, released_held]
  have run := exec_pageCopy_copies here page (.inl goes) fits source
  generalize (holdPage s c.pasid va).readPage c.pasid (e ||| 0x8) = d at run length
  subst length
  have written : ∀ t, writeShards va (d.take d.length) t c.shards = t.writeAt { host := false, addr := nvAddr + off } d := fun t => by
    rw [one, List.take_length, writeShards_one va off some_byte]
  rw [written] at run
  refine ⟨_, run, ?_, ?_, rfl⟩
  · have taken := State.readAt_writeAt_take d ((holdPage s c.pasid va).write64 { host := false, addr := a } (e &&& ~~~ 0x18)) { host := false, addr := nvAddr + off }
      (Nat.le_refl _) fun i hi => .inr (physMapped_nv room hi)
    exact (List.map_congr_left fun _ _ => rfl).trans (taken.trans List.take_length)
  · exact (State.read64_congr rfl rfl _).trans (read64_below _ _ aligned mapped below)

/-- Settles O53: the plan and its packet, the page copies, the manifest. -/
theorem checkpointsRun : Obligations.CheckpointsRun := by
  unfold Obligations.CheckpointsRun
  refine ⟨?_, ?_, ?_⟩
  · intro s p there type fresh may sig colophon n
    refine ⟨exec_checkpointPacket_second there, ?_, ?_⟩
    · intro free bad
      rw [exec_checkpointPacket_plan there type fresh may free (checkpointPlan_bad bad)]
      simp only [refusePacket_plain _ type sig colophon]
      rfl
    · intro t b u pages free some_shard low new read good walks
      have plan := checkpointPlan_reads rfl some_shard low new read good walks
      refine ⟨?_, ?_, fun whole => exec_checkpointPacket_starts there type fresh may sig colophon free whole plan⟩
      · intro cut running
        rw [exec_checkpointPacket_plan there type fresh may free plan]
        simp only [cut, running, Bool.and_self, if_true]
      · intro cut quiet undrained
        rw [exec_checkpointPacket_plan there type fresh may free plan]
        simp only [cut, quiet, undrained, Bool.and_false, Bool.false_eq_true, Bool.not_false, Bool.and_self, if_true, if_false]
  · intro s c va n a e r here page leaf rest u
    have migrating := isMigrating_of leaf
    have goes : leafMigrating e = false ∨ c.copying = true → isMigrating s c.pasid va = false ∨ c.copying = true := fun h => migrating.symm ▸ h
    refine ⟨fun busy first => exec_pageCopy_migrating here page (migrating.trans busy) first, fun clear large => exec_pageCopy_large here page (migrating.trans clear) large,
      fun kind => readLeaf_local s c.pasid va kind, ?_, ?_, ?_, ?_, ?_⟩
    · intro x may fits cow held held_cow busy t read
      have source : copySource u c.pasid va = .error (.wait t) := by rw [copySource_cow held held_cow, read]; rfl
      rw [exec_pageCopy_waits here page (goes may) fits source, isMigrating_of (e := x.2) held, busy]
    · intro t d x may fits cow held held_cow read
      exact exec_pageCopy_copies here page (goes may) fits (by rw [copySource_cow held held_cow, read]; rfl)
    · intro x clear fits cow held held_cow kind
      exact exec_pageCopy_copies here page (goes (.inl clear)) fits (by rw [copySource_cow held held_cow, readLeaf_local _ _ _ kind]; rfl)
    · intro x clear fits own kind kept
      have same : holdPage s c.pasid va = s := holdPage_shared leaf own
      obtain ⟨pools, source⟩ := copySource_duplicated leaf own kept kind
      have run := exec_pageCopy_copies here page (goes (.inl clear)) fits ((congrArg (copySource · c.pasid va) same).trans source)
      rw [writeShards_frames] at run
      exact ⟨_, run, rfl, rfl, rfl⟩
    · intro off clear fits cow held kind aligned mapped below size one room
      exact exec_pageCopy_one here page (migrating.trans clear) fits cow held kind aligned mapped below size one room
  · intro s c here stage i other t
    have written : manifestWritten s c = t := by unfold manifestWritten slotAddr; rfl
    have kept : t.manifests = s.manifests := written ▸ manifestWritten_manifests s c
    clear_value t
    refine ⟨?_, ?_⟩
    · intro t₀ pl u x v place read add
      refine exec_manifestCommit_valid (pl := pl) here stage ?_ read add
      rw [written, State.commitSlot, kept]
      rw [kept] at place
      exact place
    · intro colophon
      rw [exec_manifestCommit_invalid here stage colophon, written]
      rfl

end Sys2Proof.Machine
end

section
/-!
SUPPORT. Power, bring-up, errors and host access (O54).
-/

namespace Sys2Proof.Machine

/-! ### Power loss -/

theorem Memory.blank_unscrambled {m : Memory} (plain : m.scram = []) (a : Nat) : m.blank a = 0 := by
  unfold Memory.blank Memory.stampAt
  rw [plain]
  rfl

/-- Of a memory's cells in canonical form those of the NV module remain. -/
theorem read_kept {m : Memory} (ok : m.wf) (plain : m.scram = []) (a : Nat) :
    Memory.read { cells := m.cells.filter fun c => kindHolds 5 c.1 && c.2 != 0, scram := [] } a = if kindHolds 5 a = true then m.read a else 0 := by
  have rising : cellRising m.cells 0 = true := ((Memory.wf_iff m).1 ok).1
  have before : m.read a = cellGet m.cells 0 a := by rw [Memory.read, Memory.blank_unscrambled plain]
  refine (cellGet_filter_rising rising _ 0 a).trans ?_
  rw [← before]
  cases kindHolds 5 a with
  | false => rfl
  | true =>
    by_cases zero : m.read a = 0
    · rw [zero]; rfl
    · exact if_pos (by simpa using zero)

theorem kindHolds_nv {a : Nat} (low : 0x20000000000 ≤ a) (high : a < 0x28000000000) : kindHolds 5 a = true := by
  rw [kindHolds, if_neg (by decide), if_neg (by decide), if_pos rfl, decide_eq_true low, decide_eq_true high]
  rfl

theorem not_kindHolds_nv {a : Nat} (below : a < 0x20000000000) : kindHolds 5 a = false := by
  rw [kindHolds, if_neg (by decide), if_neg (by decide), if_pos rfl, decide_eq_false (Nat.not_le_of_lt below)]
  rfl

theorem byteAt_device (s : State) {a : Nat} (mapped : physMapped a = true) : s.byteAt { host := false, addr := a } = s.mem.read a := if_pos mapped

/-- What is left of a state whose memory is in canonical form and whose bytes are all defined. -/
theorem exec_powerLoss {s : State} (ok : s.MemOk) (plain : s.mem.scram = []) : ∃ t, exec .powerLoss s = .next t ∧ t.manifests = s.manifests ∧ t.checkpoint = none ∧
    t.gaths = [] ∧ t.packets = [] ∧ t.status = 0 ∧ (∀ c, t.core c = Core.idle) ∧ t.host = s.host ∧
    (∀ a, 0x20000000000 ≤ a → a < 0x28000000000 → t.byteAt { host := false, addr := a } = s.byteAt { host := false, addr := a }) ∧
    ∀ a, a < 0x20000000000 → physMapped a = true → t.byteAt { host := false, addr := a } = 0 := by
  refine ⟨_, rfl, rfl, rfl, rfl, rfl, rfl, fun _ => rfl, rfl, ?_, ?_⟩
  · intro a low high
    have nv : kindHolds 5 a = true := kindHolds_nv low high
    have mapped : physMapped a = true := by rw [physMapped, nv, Bool.or_true]
    rw [byteAt_device _ mapped, byteAt_device _ mapped]
    exact (read_kept ok.1 plain a).trans (if_pos nv)
  · intro a below mapped
    rw [byteAt_device _ mapped]
    exact (read_kept ok.1 plain a).trans (if_neg (by rw [not_kindHolds_nv below]; exact Bool.false_ne_true))

/-! ### Bring-up -/

section BringUp

variable {s : State} (w : Word) (off : s.status = 0)

/-- A self-test that has passed. -/
def broughtUp (s : State) : State := { s with status := w &&& 0x0FFFFFFFF0000000, policyLoaded := Config.extensionOk }

include off

theorem exec_bringUp_plain (none_there : w.getLsbD 28 = false ∨ restoreSlot s = none) : exec (.bringUp w) s = .next (broughtUp w s) := by
  change execBringUp w s = _
  refine (if_neg (not_not_intro off)).trans ?_
  have control : (if bit w 28 then (restoreSlot s).bind fun i => (s.manifests.get .empty i).control else none) = none := by
    rcases none_there with unset | none
    · exact if_neg (by rw [bit, unset]; exact Bool.false_ne_true)
    · rw [none]; split <;> rfl
  simp only [control]
  rfl

theorem exec_bringUp_restores {i : Nat} {k : Control} (set : w.getLsbD 28 = true) (slot : restoreSlot s = some i) (control : (s.manifests.get .empty i).control = some k) :
    exec (.bringUp w) s = .next (restoreControl k (broughtUp w s)) := by
  change execBringUp w s = _
  refine (if_neg (not_not_intro off)).trans ?_
  have found : (if bit w 28 then (restoreSlot s).bind fun i => (s.manifests.get .empty i).control else none) = some k := by
    have bit_set : bit w 28 = true := set
    rw [if_pos bit_set, slot]
    exact control
  simp only [found]
  rfl

end BringUp

theorem exec_fullService {s : State} (up : s.status ≠ 0) : ∃ t, exec .fullService s = .next t ∧ fullService t = true ∧ ∀ i, i < 63 → t.status.getLsbD i = s.status.getLsbD i := by
  refine ⟨_, if_neg up, ?_, ?_⟩
  · simp [fullService, bit]
  · intro i hi
    have top : (0x8000000000000000 : Word).getLsbD i = false := by
      have word : (0x8000000000000000 : Word) = BitVec.twoPow 64 63 := rfl
      rw [word, BitVec.getLsbD_twoPow]
      simp only [Bool.and_eq_false_iff, decide_eq_false_iff_not]
      exact .inr (by omega)
    rw [BitVec.getLsbD_or, top, Bool.or_false]

/-! ### Power gating -/

theorem issue_gated {s : State} {c : Nat} (gated : (s.core c).powerGated = true) : issue s c = s := by
  have stays : mayIssue (s.core c) = false := by simp [mayIssue, gated]
  unfold issue
  exact if_pos stays

/-- A core whose power is off: its handles are cleared. -/
def Core.powerOff (k : Core) : Core := { k with powerGated := true, arch := { k.arch with handles := .empty }, snap := { k.snap with handles := .empty } }

theorem exec_powerGating_on (s : State) (c : Nat) : ∃ t, exec (.powerGating c true) s = .next t ∧ (∀ n, ((t.core c).arch.handle n).valid = false) ∧
    ∀ b, exec .bundleIssue { t with cur := c, agenda := b } = .next { t with cur := c, agenda := b } := by
  have off : (s.modCore c Core.powerOff).core c = (s.core c).powerOff := State.core_modCore_same ..
  refine ⟨s.modCore c Core.powerOff, rfl, fun n => ?_, fun b => congrArg Host.Outcome.next (issue_gated ?_)⟩
  · rw [off]
    rfl
  · exact congrArg Core.powerGated off

/-! ### Errors -/

theorem exec_eccUncorrectable {s : State} {g : Gath} {p : QPacket} (granule : Nat) (there : s.gath? g.id = some g) (owner : g.owner.packet = some p.id) (colophon : g.colophon = 0)
    (packet : s.packet? p.id = some p) (sig : p.sig = false) : ∃ t, exec (.eccUncorrectable granule g.id) s = .next t ∧
      t.reports = s.reports ++ [.ecc granule (granuleHome s granule)] ∧ t.gath? g.id = none ∧ t.packet? p.id = none := by
  change ∃ t, execEccUncorrectable granule g.id s = .next t ∧ _
  unfold execEccUncorrectable
  generalize granuleHome s granule = home
  generalize (if s.ecc.contains granule then s.ecc else granule :: s.ecc) = x
  have found : State.gath? { report (.ecc granule home) s with ecc := x } g.id = some g := there
  have ends : endWith { report (.ecc granule home) s with ecc := x } g.id (eccVerdict granule) =
      .ok { retireGath { report (.ecc granule home) s with ecc := x } g with packets := s.packets.filter fun x => x.id != p.id } := by
    unfold endWith
    rw [found]
    exact failGath_launched owner colophon (s := { report (.ecc granule home) s with ecc := x }) packet sig (eccVerdict granule)
  obtain ⟨-, -, -, -, -, reports⟩ := retireGath_leaves { report (.ecc granule home) s with ecc := x } g
  obtain ⟨gone, -, -⟩ := retired { report (.ecc granule home) s with ecc := x } g
  simp only [ends]
  exact ⟨_, rfl, reports, gone, packet_left _ _⟩

/-! ### Host access -/

section HostAccess

variable {s : State} {off len : Nat} (some_byte : 0 < len) (inside : off % 2 ^ 30 + len ≤ 2 ^ 30)
include some_byte inside

theorem sliceParts_one : sliceParts (len / 2 ^ 30 + 2) off len = [(off / 2 ^ 30, off % 2 ^ 30, len)] := by
  have whole : min len (2 ^ 30 - off % 2 ^ 30) = len := Nat.min_eq_left (by omega)
  rw [sliceParts, if_neg (Nat.ne_of_gt some_byte), whole]
  simp only [Nat.sub_self]
  rfl

theorem exec_hostWrite {d : List Byte} (length : d.length = len) :
    exec (.hostBar4Access off len (some d)) s = .next (settleWork s (hostWrites [(off / 2 ^ 30, off % 2 ^ 30, len)] d s)) := by
  subst length
  change execHostBar4Access off d.length (some d) s = _
  simp only [execHostBar4Access, sliceParts_one some_byte inside]

theorem exec_hostRead_ok {t : State} {b : List Byte} (reads : hostReads [(off / 2 ^ 30, off % 2 ^ 30, len)] s = .ok (t, b)) :
    exec (.hostBar4Access off len none) s = .next { t with hostOut := t.hostOut ++ [.data b] } := by
  change execHostBar4Access off len none s = _
  simp only [execHostBar4Access, sliceParts_one some_byte inside, reads]

theorem exec_hostRead_error {e : HStop} (reads : hostReads [(off / 2 ^ 30, off % 2 ^ 30, len)] s = .error e) :
    exec (.hostBar4Access off len none) s = .next (s.keep e.state) := by
  change execHostBar4Access off len none s = _
  simp only [execHostBar4Access, sliceParts_one some_byte inside, reads]

theorem exec_hostAccess_unbound (unbound : s.slices.get none (off / 2 ^ 30) = none) :
    ∀ d : List Byte, d.length = len → exec (.hostBar4Access off len none) s = .next (s.keep s) ∧ exec (.hostBar4Access off len (some d)) s = .next s := by
  intro d length
  refine ⟨exec_hostRead_error some_byte inside (e := .fault cTranslate 9 s) ?_, ?_⟩
  · simp only [hostReads, unbound]
  · rw [exec_hostWrite some_byte inside length]
    simp only [hostWrites, unbound]
    rfl

variable {pasid base : Nat} (bound : s.slices.get none (off / 2 ^ 30) = some (pasid, base))
include bound

theorem exec_hostWrite_bound {d : List Byte} (length : d.length = len) {t : State} (written : noteDone s (agentWrite s hostAgent pasid (base + off % 2 ^ 30) d) = .ok t) :
    exec (.hostBar4Access off len (some d)) s = .next t := by
  rw [exec_hostWrite some_byte inside length]
  simp only [hostWrites, bound, List.take_of_length_le (Nat.le_of_eq length), written]
  rfl

theorem exec_hostRead_bound {t : State} {b : List Byte} (read : agentRead s hostAgent pasid (base + off % 2 ^ 30) len = .ok (t, b)) :
    exec (.hostBar4Access off len none) s = .next { t with hostOut := t.hostOut ++ [.data b] } := by
  refine exec_hostRead_ok some_byte inside ?_
  simp only [hostReads, bound, read]
  exact congrArg (fun d => Except.ok (t, d)) (List.append_nil b)

end HostAccess

/-- Settles O54, event by event. -/
theorem powerAndErrors : Obligations.PowerAndErrors := by
  unfold Obligations.PowerAndErrors
  refine ⟨fun s ok plain => exec_powerLoss ok plain, ?_, ?_, ?_, fun s code => rfl, ?_⟩
  · intro s w
    exact ⟨fun up => if_pos up, fun off => if_pos off, fun off none_there => exec_bringUp_plain w off none_there,
      fun i k off set slot control => exec_bringUp_restores w off set slot control, exec_fullService⟩
  · exact fun s c => ⟨exec_powerGating_on s c, _, rfl, State.core_modCore_same ..⟩
  · exact fun s granule g p there owner colophon packet sig => exec_eccUncorrectable granule there owner colophon packet sig
  · intro s off len some_byte inside
    refine ⟨exec_hostAccess_unbound some_byte inside, fun pasid base bound => ⟨?_, ?_, ?_⟩⟩
    · intro d t length written
      exact exec_hostWrite_bound some_byte inside bound length (by rw [written]; rfl)
    · intro t b read
      exact exec_hostRead_bound some_byte inside bound read
    · intro d code sub u length failed
      exact exec_hostWrite_bound some_byte inside bound length (by rw [failed]; rfl)

end Sys2Proof.Machine
end

section
/-!
SUPPORT. Commands of a bank engine (O32): how a command that runs goes on, and what each one does to the engine and the machine.
-/

namespace Sys2Proof.Machine

/-! ### The run of a command -/

/-- An engine behind a command. -/
def Bank.onward (b : Bank) : Bank := { b with idx := b.idx + 1, wait := .none }

/-- A step of engine `e` from `s` to `t`, where what the command gave is `u`: the engine goes on, the others stay. -/
structure BankStep (s : State) (e : Nat) (u t : State) : Prop where
  idx : (t.bank e).idx = (s.bank e).idx + 1
  wait : (t.bank e).wait = .none
  list : (t.bank e).list = (s.bank e).list
  other : ∀ d, d ≠ e → t.bank d = s.bank d
  here : t.bank e = (u.bank e).onward
  memory : SameMemory u t
  cores : t.cores = u.cores
  saved : t.saved = u.saved

/-- What a command leaves of the engines until it is counted. -/
structure BankOnly (s : State) (e : Nat) (u : State) : Prop where
  idx : (u.bank e).idx = (s.bank e).idx
  list : (u.bank e).list = (s.bank e).list
  other : ∀ d, d ≠ e → u.bank d = s.bank d

theorem bankOnly_modBank {s u : State} {e : Nat} {f : Bank → Bank} (banks : u.banks = s.banks) (idx : (f (s.bank e)).idx = (s.bank e).idx) (list : (f (s.bank e)).list = (s.bank e).list) :
    BankOnly s e (u.modBank e f) := by
  have same : ∀ d, u.bank d = s.bank d := fun d => congrArg (fun t : Tab Bank => t.get .idle d) banks
  refine ⟨?_, ?_, fun d other => (State.bank_modBank_other _ _ other).trans (same d)⟩
  · rw [State.bank_modBank_same, same]; exact idx
  · rw [State.bank_modBank_same, same]; exact list

section Run

variable {s : State} {c id : Nat} {l : BankList} (runs : (s.bank s.eng).list = some (c, id)) (found : findList s id = some l)
include runs found

theorem bankRun_ok {f : State → Nat → BankList → BRes State} {u : State} (step : f s s.eng l = .ok u) : bankRun f s = .next (u.modBank s.eng Bank.onward) := by
  unfold bankRun
  simp only [runs, found, step]
  rfl

theorem bankRun_error {f : State → Nat → BankList → BRes State} {x : BStop} (step : f s s.eng l = .error x) : bankRun f s = .next (takeBStop s s.eng x) := by
  unfold bankRun
  simp only [runs, found, step]

theorem bankRun_steps {f : State → Nat → BankList → BRes State} {u : State} (step : f s s.eng l = .ok u) (only : BankOnly s s.eng u) :
    ∃ t, bankRun f s = .next t ∧ BankStep s s.eng u t := by
  refine ⟨_, bankRun_ok runs found step, ?_, ?_, ?_, ?_, State.bank_modBank_same .., fun _ => rfl, rfl, rfl⟩
  · rw [State.bank_modBank_same]; exact congrArg (· + 1) only.idx
  · rw [State.bank_modBank_same]; rfl
  · rw [State.bank_modBank_same]; exact only.list
  · exact fun d other => (State.bank_modBank_other _ _ other).trans (only.other d other)

omit runs in
theorem findList_id : l.id = id := eq_of_beq (List.find?_some (p := fun x : BankList => x.id == id) found)

end Run

/-! ### Buffers and lanes -/

theorem get_setXb (b : Bank) (n : Nat) (d : List Byte) (x : Nat) :
    (b.setXb n d).xb.get 0 x = if 256 * n ≤ x ∧ x < 256 * n + d.length then d.getD (x - 256 * n) 0 else b.xb.get 0 x := by
  split
  · rename_i inside
    obtain ⟨i, rfl⟩ := Nat.exists_eq_add_of_le inside.1
    have hi : i < d.length := by omega
    rw [Nat.add_sub_cancel_left, getD_of_lt _ _ hi]
    exact get_tabWrite_same d b.xb hi
  · exact get_tabWrite_other d b.xb (by omega)

theorem setXb_keeps (b : Bank) (n : Nat) (d : List Byte) : (b.setXb n d).acc = b.acc ∧ (b.setXb n d).idx = b.idx ∧ (b.setXb n d).list = b.list := ⟨rfl, rfl, rfl⟩

theorem onward_keeps (b : Bank) : b.onward.acc = b.acc ∧ b.onward.xb = b.xb ∧ b.onward.writes = b.writes ∧ ∀ i, b.onward.lane i = b.lane i := ⟨rfl, rfl, rfl, fun _ => rfl⟩

theorem lane_setLane_same (b : Bank) (i v : Nat) : (b.setLane i v).lane i = BitVec.ofNat 32 v := Tab.get_put_same ..

theorem lane_setLane_other (b : Bank) {i j : Nat} (v : Nat) (other : i ≠ j) : (b.setLane j v).lane i = b.lane i := Tab.get_put_other _ _ _ _ other

/-- Lanes set one after another, each from what stood in it and in the engine before. -/
theorem foldl_setLane (f : Nat → BitVec 32 → Nat) (b : Bank) (n : Nat) :
    ((List.range n).foldl (fun a i => a.setLane i (f i (a.lane i))) b).xb = b.xb ∧ ((List.range n).foldl (fun a i => a.setLane i (f i (a.lane i))) b).writes = b.writes ∧
      ((List.range n).foldl (fun a i => a.setLane i (f i (a.lane i))) b).idx = b.idx ∧ ((List.range n).foldl (fun a i => a.setLane i (f i (a.lane i))) b).list = b.list ∧
      ∀ i, ((List.range n).foldl (fun a i => a.setLane i (f i (a.lane i))) b).lane i = if i < n then BitVec.ofNat 32 (f i (b.lane i)) else b.lane i := by
  induction n with
  | zero => exact ⟨rfl, rfl, rfl, rfl, fun _ => rfl⟩
  | succ n ih =>
    obtain ⟨xb, writes, idx, list, lanes⟩ := ih
    rw [List.range_succ, List.foldl_append]
    refine ⟨xb, writes, idx, list, fun i => ?_⟩
    rw [List.foldl_cons, List.foldl_nil]
    rcases Nat.lt_trichotomy i n with less | rfl | more
    · rw [lane_setLane_other _ _ (Nat.ne_of_lt less), lanes, if_pos less, if_pos (Nat.lt_succ_of_lt less)]
    · rw [lane_setLane_same, lanes, if_neg (Nat.lt_irrefl i), if_pos (Nat.lt_succ_self i)]
    · rw [lane_setLane_other _ _ (Nat.ne_of_gt more), lanes, if_neg (Nat.not_lt_of_gt more), if_neg (by omega)]

/-! ### BZERO -/

/-- The first `n` buffers cleared, where the mask selects them. -/
def Bank.zeroXb (mask : BitVec 4) (b : Bank) (n : Nat) : Bank := (List.range n).foldl (fun b i => if bit mask i then b.setXb i (List.replicate 256 0) else b) b

theorem zeroXb_succ (mask : BitVec 4) (b : Bank) (n : Nat) :
    b.zeroXb mask (n + 1) = if bit mask n then (b.zeroXb mask n).setXb n (List.replicate 256 0) else b.zeroXb mask n := by
  rw [Bank.zeroXb, List.range_succ, List.foldl_append]
  rfl

/-- The engine after BZERO. -/
def Bank.zeroed (acc : Bool) (mask : BitVec 4) (b : Bank) : Bank := if acc then { b.zeroXb mask 4 with acc := .empty } else b.zeroXb mask 4

theorem zeroXb_leaves (mask : BitVec 4) (b : Bank) (n : Nat) : (b.zeroXb mask n).acc = b.acc ∧ (b.zeroXb mask n).idx = b.idx ∧ (b.zeroXb mask n).list = b.list ∧
    ∀ i k, k < 256 → (b.zeroXb mask n).xb.get 0 (256 * i + k) = if i < n ∧ mask.getLsbD i = true then 0 else b.xb.get 0 (256 * i + k) := by
  induction n with
  | zero => exact ⟨rfl, rfl, rfl, fun i k hk => (if_neg (fun h => Nat.not_lt_zero i h.1)).symm⟩
  | succ n ih =>
    obtain ⟨acc, idx, list, xb⟩ := ih
    rw [zeroXb_succ]
    by_cases set : bit mask n = true
    · rw [if_pos set]
      obtain ⟨acc', idx', list'⟩ := setXb_keeps (b.zeroXb mask n) n (List.replicate 256 0)
      refine ⟨acc'.trans acc, idx'.trans idx, list'.trans list, fun i k hk => ?_⟩
      rw [get_setXb, List.length_replicate, xb i k hk]
      by_cases same : i = n
      · subst same
        rw [if_pos ⟨by omega, by omega⟩, if_pos ⟨Nat.lt_succ_self i, set⟩, Nat.add_sub_cancel_left, getD_of_lt _ _ (by rw [List.length_replicate]; exact hk), List.getElem_replicate]
      · rw [if_neg (by omega)]
        exact if_iff_congr (by constructor <;> rintro ⟨h, m⟩ <;> exact ⟨by omega, m⟩) rfl rfl
    · rw [if_neg set]
      refine ⟨acc, idx, list, fun i k hk => ?_⟩
      rw [xb i k hk]
      refine if_iff_congr ⟨fun h => ⟨Nat.lt_succ_of_lt h.1, h.2⟩, fun h => ⟨?_, h.2⟩⟩ rfl rfl
      rcases Nat.lt_succ_iff_lt_or_eq.1 h.1 with less | rfl
      · exact less
      · exact absurd h.2 set

theorem zeroed_keeps (acc : Bool) (mask : BitVec 4) (b : Bank) : (b.zeroed acc mask).idx = b.idx ∧ (b.zeroed acc mask).list = b.list := by
  obtain ⟨-, idx, list, -⟩ := zeroXb_leaves mask b 4
  unfold Bank.zeroed
  cases acc
  · exact ⟨idx, list⟩
  · exact ⟨idx, list⟩

theorem zeroed_xb (acc : Bool) (mask : BitVec 4) (b : Bank) {i k : Nat} (hi : i < 4) (hk : k < 256) :
    (b.zeroed acc mask).xb.get 0 (256 * i + k) = if mask.getLsbD i then 0 else b.xb.get 0 (256 * i + k) := by
  obtain ⟨-, -, -, xb⟩ := zeroXb_leaves mask b 4
  have same := (xb i k hk).trans (if_iff_congr (and_iff_right hi) rfl rfl)
  unfold Bank.zeroed
  cases acc
  · exact same
  · exact same

theorem zeroed_lane (acc : Bool) (mask : BitVec 4) (b : Bank) (i : Nat) : (b.zeroed acc mask).lane i = if acc then 0 else b.lane i := by
  obtain ⟨kept, -⟩ := zeroXb_leaves mask b 4
  unfold Bank.zeroed
  cases acc
  · exact congrArg (fun t : Tab (BitVec 32) => t.get 0 i) kept
  · rfl

theorem bzeroStep_eq (acc : Bool) (mask : BitVec 4) (s : State) (e : Nat) (l : BankList) : bzeroStep acc mask s e l = .ok (s.modBank e (Bank.zeroed acc mask)) := by
  unfold bzeroStep Bank.zeroed Bank.zeroXb
  rfl

/-! ### BSCALE -/

/-- The factor of a lane. -/
def Bank.factor (b : Bank) (perlane : Bool) (xb : Nat) (factor : BitVec 32) (i : Nat) : Nat :=
  if perlane then ofLeBytes ((List.range 4).map fun k => b.xb.get 0 (256 * xb + (4 * i + k))) else factor.toNat

/-- A lane times a factor, rounded once. -/
def scaledLane (x : BitVec 32) (g : Nat) : Nat := (fp32.out ((fp32.decode x.toNat).mul (fp32.decode g)).val 0 false).val

theorem leField_xbRead (b : Bank) (xb : Nat) {i : Nat} (hi : i < 64) :
    leField (b.xbRead xb 256) (4 * i) 4 = ofLeBytes ((List.range 4).map fun k => b.xb.get 0 (256 * xb + (4 * i + k))) := by
  unfold leField Bank.xbRead
  congr 1
  apply List.ext_getElem
  · simp only [List.length_take, List.length_drop, List.length_map, List.length_range]
    omega
  · intro k h1 h2
    simp

/-- The engine after BSCALE. -/
def Bank.scaled (b : Bank) (perlane : Bool) (xb : Nat) (factor : BitVec 32) : Bank :=
  (List.range 64).foldl (fun a i => a.setLane i (scaledLane (b.lane i) (if perlane then leField (b.xbRead xb 256) (4 * i) 4 else factor.toNat))) b

theorem scaled_leaves (b : Bank) (perlane : Bool) (xb : Nat) (factor : BitVec 32) :
    (b.scaled perlane xb factor).xb = b.xb ∧ (b.scaled perlane xb factor).idx = b.idx ∧ (b.scaled perlane xb factor).list = b.list ∧
      ∀ i, i < 64 → (b.scaled perlane xb factor).lane i = BitVec.ofNat 32 (scaledLane (b.lane i) (b.factor perlane xb factor i)) := by
  obtain ⟨same, -, idx, list, lanes⟩ := foldl_setLane (fun i _ => scaledLane (b.lane i) (if perlane then leField (b.xbRead xb 256) (4 * i) 4 else factor.toNat)) b 64
  refine ⟨same, idx, list, fun i hi => (lanes i).trans ?_⟩
  rw [if_pos hi, leField_xbRead b xb hi]
  rfl

theorem bscaleStep_eq (perlane : Bool) (xb : Nat) (factor : BitVec 32) (s : State) (e : Nat) (l : BankList) :
    bscaleStep perlane xb factor s e l = .ok (s.modBank e fun b => b.scaled perlane xb factor) := by
  unfold bscaleStep Bank.scaled scaledLane
  rfl

/-! ### Pending writes -/

theorem foldl_writeAt_eq (l : List BankWrite) (u : State) : ∃ m h x, l.foldl (fun s w => s.writeAt w.place w.data) u = { u with mem := m, host := h, ecc := x } := by
  induction l generalizing u with
  | nil => exact ⟨u.mem, u.host, u.ecc, rfl⟩
  | cons w l ih =>
    obtain ⟨m, h, x, first⟩ := u.writeAt_eq w.place w.data
    obtain ⟨m', h', x', rest⟩ := ih (u.writeAt w.place w.data)
    exact ⟨m', h', x', by rw [List.foldl_cons, rest, first]⟩

/-- What the performance of an engine's writes leaves. -/
theorem performBank_leaves (s : State) (e : Nat) :
    (performBank s e).bank e = { s.bank e with writes := [] } ∧ (∀ d, d ≠ e → (performBank s e).bank d = s.bank d) ∧ (performBank s e).cores = s.cores ∧ (performBank s e).saved = s.saved ∧
      ((s.bank e).writes = [] → SameMemory s (performBank s e)) ∧
      ∀ w, (s.bank e).writes = [w] → ∀ p, (performBank s e).byteAt p = (s.writeAt w.place w.data).byteAt p := by
  have all : ∀ l : List BankWrite, l.filter (fun _ => true) = l := fun l => List.filter_eq_self.2 fun _ _ => rfl
  obtain ⟨m, h, x, eq⟩ := foldl_writeAt_eq ((s.bank e).writes.filter fun _ => true) s
  have banks : ((((s.bank e).writes.filter fun _ => true).foldl (fun s w => s.writeAt w.place w.data) s)).banks = s.banks := by rw [eq]
  have same : ∀ d, ((((s.bank e).writes.filter fun _ => true).foldl (fun s w => s.writeAt w.place w.data) s)).bank d = s.bank d := fun d =>
    congrArg (fun t : Tab Bank => t.get .idle d) banks
  unfold performBank performWrites
  refine ⟨?_, fun d other => (State.bank_modBank_other _ _ other).trans (same d), ?_, ?_, ?_, ?_⟩
  · rw [State.bank_modBank_same, same]
    simp
  · rw [eq]; rfl
  · rw [eq]; rfl
  · intro none p
    rw [none]
    rfl
  · intro w one p
    rw [one]
    rfl

/-- The counter of a list's issuer, on its core. -/
theorem countFor_core {s : State} {id c : Nat} (core : listCore s id = some c) (j : Nat) :
    (countFor s id j).banks = s.banks ∧ ((countFor s id j).core c).joins = (s.core c).joins.put 0 j ((s.core c).join j + 1) ∧ SameMemory s (countFor s id j) ∧
      (countFor s id j).saved = s.saved := by
  unfold countFor modDesk
  rw [core]
  refine ⟨rfl, ?_, fun _ => rfl, rfl⟩
  simp only [State.core_modCore_same]
  rfl

theorem listCore_congr {s t : State} (cores : t.cores = s.cores) (id : Nat) : listCore t id = listCore s id := by
  rw [listCore, listCore, cores]

/-! ### Scratchpad bytes of a member -/

theorem memberSpad_ok {s : State} {gath rank off n d : Nat} (core : memberCore s gath rank = some d) (here : ∀ f ∈ spadFolios off n, ((s.core d).folio f).pres = .present) :
    memberSpad s gath rank off n = .ok d := by
  have none : ((spadFolios off n).find? fun f => ((s.core d).folio f).pres != .present) = none := List.find?_eq_none.2 fun f hf => by simp [here f hf]
  unfold memberSpad
  rw [core]
  simp only [none]

theorem getD_spadRead (k : Core) {off n i : Nat} (hi : i < n) : (k.spadRead off n).getD i 0 = k.spad (off + i) := by
  simp [Core.spadRead, hi]

theorem length_spadRead (k : Core) (off n : Nat) : (k.spadRead off n).length = n := by simp [Core.spadRead]

theorem reached_iff (w : SyncWord) (gen : BitVec 16) : w.reached gen.toNat = true ↔ (BitVec.ofNat 16 w.gen - gen).toNat < 2 ^ 15 := by
  have low := gen.isLt
  rw [SyncWord.reached, decide_eq_true_eq, BitVec.toNat_sub, BitVec.toNat_ofNat]
  omega

/-! ### Multiplies -/

theorem foldl_zip_range {α : Type} (g : Bank → Nat → α → Bank) (d : α) (l : List α) (b : Bank) :
    ((List.range l.length).zip l).foldl (fun b x => g b x.1 x.2) b = (List.range l.length).foldl (fun b i => g b i (l.getD i d)) b := by
  have zip : (List.range l.length).zip l = (List.range l.length).map fun i => (i, l.getD i d) := by
    apply List.ext_getElem
    · simp
    · intro i h1 h2
      have hi : i < l.length := by simpa using h2
      simp [hi]
  rw [zip, List.foldl_map]

/-- The scale of a lane. -/
def Bank.macScale (b : Bank) (p : Mac) (i : Nat) : Nat := if p.sc then (b.xb.get 0 (256 * p.sxb.toNat + i)).toNat else p.e8.toNat

/-- The engine after a multiply over rows. -/
def Bank.multiplied (b : Bank) (m : MacKind) (p : Mac) (rows : List (List Byte)) : Bank :=
  ((List.range rows.length).zip rows).foldl (fun a x =>
    a.setLane x.1 (macLane m p (b.xbRead p.xb.toNat (256 * actBuffers (p.k1.toNat + 1) p.afmt.toNat)) x.2 (b.macScale p x.1) (a.lane x.1))) b

theorem multiplied_leaves (b : Bank) (m : MacKind) (p : Mac) (rows : List (List Byte)) :
    (b.multiplied m p rows).xb = b.xb ∧ (b.multiplied m p rows).writes = b.writes ∧ (b.multiplied m p rows).idx = b.idx ∧ (b.multiplied m p rows).list = b.list ∧
      ∀ i, (b.multiplied m p rows).lane i = if i < rows.length then BitVec.ofNat 32 (macLane m p (b.xbRead p.xb.toNat (256 * actBuffers (p.k1.toNat + 1) p.afmt.toNat))
        (rows.getD i []) (b.macScale p i) (b.lane i)) else b.lane i := by
  have fold : b.multiplied m p rows = _ := foldl_zip_range (fun a i row => a.setLane i (macLane m p (b.xbRead p.xb.toNat (256 * actBuffers (p.k1.toNat + 1) p.afmt.toNat)) row
    (b.macScale p i) (a.lane i))) [] rows b
  rw [fold]
  exact foldl_setLane (fun i x => macLane m p (b.xbRead p.xb.toNat (256 * actBuffers (p.k1.toNat + 1) p.afmt.toNat)) (rows.getD i []) (b.macScale p i) x) b rows.length

theorem macStep_field {m : MacKind} {p : Mac} (bad : macField m p = true) (s : State) (e : Nat) (l : BankList) : macStep m p s e l = .error (bFault 4) := if_pos bad

theorem macStep_stops {m : MacKind} {p : Mac} (good : macField m p = false) {s : State} {e : Nat} {l : BankList} {x : BStop}
    (rows : macRows m p e l (List.range (p.nr1.toNat + 1)) s = .error x) : macStep m p s e l = .error x := by
  unfold macStep
  rw [good, if_neg Bool.false_ne_true, rows]
  rfl

theorem macStep_multiplies {m : MacKind} {p : Mac} (good : macField m p = false) {s t : State} {e : Nat} {l : BankList} {rows : List (List Byte)}
    (read : macRows m p e l (List.range (p.nr1.toNat + 1)) s = .ok (t, rows)) : macStep m p s e l = .ok (t.setBank e ((t.bank e).multiplied m p rows)) := by
  unfold macStep
  rw [good, if_neg Bool.false_ne_true, read]
  rfl

/-! ### Each command -/

section Commands

variable {s : State} {c id : Nat} {l : BankList} (runs : (s.bank s.eng).list = some (c, id)) (found : findList s id = some l)
include runs found

/-- A command that changes its engine only. -/
theorem bankRun_modBank {f : State → Nat → BankList → BRes State} {g : Bank → Bank} (step : f s s.eng l = .ok (s.modBank s.eng g)) (idx : (g (s.bank s.eng)).idx = (s.bank s.eng).idx)
    (list : (g (s.bank s.eng)).list = (s.bank s.eng).list) :
    ∃ t, bankRun f s = .next t ∧ BankStep s s.eng (s.modBank s.eng g) t ∧ t.bank s.eng = (g (s.bank s.eng)).onward ∧ SameMemory s t ∧ t.cores = s.cores := by
  obtain ⟨t, run, st⟩ := bankRun_steps runs found step (bankOnly_modBank rfl idx list)
  exact ⟨t, run, st, st.here.trans (congrArg Bank.onward (State.bank_modBank_same ..)), st.memory, st.cores⟩

theorem exec_bmac_kind {m : MacKind} {p : Mac} (good : macField m p = false) {t : State} {rows : List (List Byte)}
    (read : macRows m p s.eng l (List.range (p.nr1.toNat + 1)) s = .ok (t, rows)) (banks : t.banks = s.banks) (length : rows.length = p.nr1.toNat + 1) :
    ∃ u, bankRun (macStep m p) s = .next u ∧ (u.bank s.eng).idx = (s.bank s.eng).idx + 1 ∧ (u.bank s.eng).xb = (s.bank s.eng).xb ∧ (u.bank s.eng).writes = (s.bank s.eng).writes ∧
      SameMemory t u ∧ u.cores = t.cores ∧ (∀ e, e ≠ s.eng → u.bank e = s.bank e) ∧
      ∀ i, i < 64 → (u.bank s.eng).lane i = if i ≤ p.nr1.toNat then BitVec.ofNat 32 (macLane m p
        ((s.bank s.eng).xbRead p.xb.toNat (256 * actBuffers (p.k1.toNat + 1) p.afmt.toNat)) (rows.getD i []) ((s.bank s.eng).macScale p i) ((s.bank s.eng).lane i)) else (s.bank s.eng).lane i := by
  have here : t.bank s.eng = s.bank s.eng := congrArg (fun b : Tab Bank => b.get .idle s.eng) banks
  obtain ⟨xb, writes, idx, list, lanes⟩ := multiplied_leaves (s.bank s.eng) m p rows
  have step : macStep m p s s.eng l = .ok (t.modBank s.eng fun b => b.multiplied m p rows) := macStep_multiplies good read
  obtain ⟨u, run, st⟩ := bankRun_steps runs found step (bankOnly_modBank banks idx list)
  have bank : u.bank s.eng = ((s.bank s.eng).multiplied m p rows).onward := by rw [st.here, State.bank_modBank_same, here]
  refine ⟨u, run, st.idx, by rw [bank]; exact xb, by rw [bank]; exact writes, st.memory, st.cores, st.other, fun i _ => ?_⟩
  rw [bank]
  exact (lanes i).trans (if_iff_congr (by omega) rfl rfl)

/-- The three outcomes of a multiply. -/
theorem exec_multiply {m : MacKind} {p : Mac} {i : Instr} (is : ∀ s, exec i s = bankRun (macStep m p) s) {t w : State} {rows : List (List Byte)} :
    (macField m p = true → exec i s = .next (parkBank s s.eng 0x60 4)) ∧
    (macField m p = false → macRows m p s.eng l (List.range (p.nr1.toNat + 1)) s = .error (.behind w (.fault 0x60 5 0)) → exec i s = .next (parkBank (s.keepWalks w) s.eng 0x60 5)) ∧
    (macField m p = false → macRows m p s.eng l (List.range (p.nr1.toNat + 1)) s = .ok (t, rows) → t.banks = s.banks → rows.length = p.nr1.toNat + 1 →
      ∃ u, exec i s = .next u ∧ (u.bank s.eng).idx = (s.bank s.eng).idx + 1 ∧ (u.bank s.eng).xb = (s.bank s.eng).xb ∧ (u.bank s.eng).writes = (s.bank s.eng).writes ∧
        SameMemory t u ∧ u.cores = t.cores ∧ (∀ e, e ≠ s.eng → u.bank e = s.bank e) ∧
        ∀ i, i < 64 → (u.bank s.eng).lane i = if i ≤ p.nr1.toNat then BitVec.ofNat 32 (macLane m p
          ((s.bank s.eng).xbRead p.xb.toNat (256 * actBuffers (p.k1.toNat + 1) p.afmt.toNat)) (rows.getD i []) ((s.bank s.eng).macScale p i) ((s.bank s.eng).lane i)) else (s.bank s.eng).lane i) := by
  rw [is]
  exact ⟨fun bad => bankRun_error runs found (macStep_field bad ..), fun good rows => bankRun_error runs found (macStep_stops good rows),
    fun good read banks length => exec_bmac_kind runs found good read banks length⟩

omit runs found in
theorem writeJoins_resident {s : State} {id : Nat} (away : ∀ v ∈ s.saved, hasList v.lists id = false) : writeJoins s id = .ok s := by
  have none : (s.saved.find? fun v => hasList v.lists id) = none := List.find?_eq_none.2 fun v hv => by simp [away v hv]
  unfold writeJoins
  rw [none]

theorem exec_bjoin {j : BitVec 4} (core : listCore s id = some c) (away : ∀ v ∈ s.saved, hasList v.lists id = false) : ∃ t, exec (.bjoin j) s = .next t ∧ BankStep s s.eng (countFor (performBank s s.eng) id j.toNat) t ∧
    (t.bank s.eng).writes = [] ∧ (t.core c).joins = (s.core c).joins.put 0 j.toNat ((s.core c).join j.toNat + 1) ∧ ((s.bank s.eng).writes = [] → SameMemory s t) := by
  obtain ⟨here, other, cores, saved, quiet, -⟩ := performBank_leaves s s.eng
  obtain ⟨banks, joins, memory, saved'⟩ := countFor_core (s := performBank s s.eng) ((listCore_congr cores id).trans core) j.toNat
  have bank : ∀ d, (countFor (performBank s s.eng) id j.toNat).bank d = (performBank s s.eng).bank d := fun d => congrArg (fun t : Tab Bank => t.get .idle d) banks
  have only : BankOnly s s.eng (countFor (performBank s s.eng) id j.toNat) :=
    ⟨by rw [bank, here], by rw [bank, here], fun d differs => (bank d).trans (other d differs)⟩
  have step : bjoinStep j.toNat s s.eng l = .ok (countFor (performBank s s.eng) id j.toNat) := by rw [bjoinStep, findList_id found]
  have same : ∀ d, (performBank s s.eng).core d = s.core d := fun d => congrArg (fun t : Tab Core => t.get .idle d) cores
  obtain ⟨t, ran, st⟩ := bankRun_steps runs found step only
  have run : exec (.bjoin j) s = .next t := by
    change execBjoin j s = _
    unfold execBjoin
    have resident : ∀ v ∈ t.saved, hasList v.lists id = false := by
      rw [st.saved, saved', saved]
      exact away
    rw [runs, ran]
    simp only [writeJoins_resident resident]
  refine ⟨t, run, st, ?_, ?_, fun none => fun p => (st.memory p).trans ((memory p).trans (quiet none p))⟩
  · rw [st.here, bank, here]
    rfl
  · have core_t : t.core c = _ := congrArg (fun t : Tab Core => t.get .idle c) st.cores
    rw [core_t]
    refine joins.trans ?_
    rw [same]

/-- BLOAD from the member's scratchpad. -/
theorem exec_bload_spad {xb : BitVec 2} {off : BitVec 40} {d : Nat} (aligned : off.toNat % 32 = 0) (fits : off.toNat + 256 ≤ Config.scratchBytes) (core : memberCore s l.gath l.rank = some d)
    (here : ∀ f ∈ spadFolios off.toNat 256, ((s.core d).folio f).pres = .present) : ∃ t u, exec (.bload xb false off) s = .next t ∧ BankStep s s.eng u t ∧ SameMemory s t ∧
      (t.bank s.eng).acc = (s.bank s.eng).acc ∧ ∀ k, (t.bank s.eng).xb.get 0 k =
        if 256 * xb.toNat ≤ k ∧ k < 256 * xb.toNat + 256 then (s.core d).spad (off.toNat + (k - 256 * xb.toNat)) else (s.bank s.eng).xb.get 0 k := by
  have step : bloadStep xb.toNat false off.toNat s s.eng l = .ok (s.modBank s.eng fun b => b.setXb xb.toNat ((s.core d).spadRead off.toNat 256)) := by
    unfold bloadStep
    rw [if_neg (not_not_intro aligned), if_neg Bool.false_ne_true, if_neg (Nat.not_lt_of_le fits), memberSpad_ok core here]
    rfl
  have length := length_spadRead (s.core d) off.toNat 256
  have bytes : ∀ i, i < 256 → ((s.core d).spadRead off.toNat 256).getD i 0 = (s.core d).spad (off.toNat + i) := fun i => getD_spadRead _
  generalize (s.core d).spadRead off.toNat 256 = bs at step length bytes
  obtain ⟨acc, idx, list⟩ := setXb_keeps (s.bank s.eng) xb.toNat bs
  obtain ⟨t, run, st, bank, memory, -⟩ := bankRun_modBank runs found step idx list
  refine ⟨t, _, run, st, memory, by rw [bank]; exact acc, fun k => ?_⟩
  rw [bank]
  refine (get_setXb ..).trans ?_
  rw [length]
  refine ite_congr rfl (fun inside => bytes _ (by omega)) fun _ => rfl

/-- BLOAD from memory. -/
theorem exec_bload_memory {xb : BitVec 2} {off : BitVec 40} {t : State} {d : List Byte} (aligned : off.toNat % 32 = 0)
    (read : bankRead s.eng l (ranges (((s.bank s.eng).abase + off.toNat) % 2 ^ 64) 256) s = .ok (t, d)) (banks : t.banks = s.banks) :
    ∃ v u, exec (.bload xb true off) s = .next v ∧ BankStep s s.eng u v ∧ (v.bank s.eng).acc = (s.bank s.eng).acc ∧
      ∀ k, k < d.length → (v.bank s.eng).xb.get 0 (256 * xb.toNat + k) = d.getD k 0 := by
  have step : bloadStep xb.toNat true off.toNat s s.eng l = .ok (t.modBank s.eng fun b => b.setXb xb.toNat d) := by
    unfold bloadStep
    rw [if_neg (not_not_intro aligned), if_pos rfl, read]
    rfl
  obtain ⟨acc, idx, list⟩ := setXb_keeps (s.bank s.eng) xb.toNat d
  obtain ⟨v, run, st⟩ := bankRun_steps runs found step (bankOnly_modBank banks idx list)
  have here : t.bank s.eng = s.bank s.eng := congrArg (fun b : Tab Bank => b.get .idle s.eng) banks
  have bank : v.bank s.eng = ((s.bank s.eng).setXb xb.toNat d).onward := by rw [st.here, State.bank_modBank_same, here]
  refine ⟨v, _, run, st, by rw [bank]; exact acc, fun k hk => ?_⟩
  rw [bank]
  refine (get_setXb ..).trans ?_
  rw [if_pos ⟨by omega, by omega⟩, Nat.add_sub_cancel_left]

/-- BSYNC at a word of its member. -/
theorem exec_bsync {sw : BitVec 19} {gen : BitVec 16} {d : Nat} (aligned : sw.toNat % 16 = 0) (fits : sw.toNat + 16 ≤ Config.scratchBytes) (core : memberCore s l.gath l.rank = some d)
    (here : ∀ f ∈ spadFolios sw.toNat 16, ((s.core d).folio f).pres = .present) :
    ((BitVec.ofNat 16 ((s.core d).syncWord sw.toNat).gen - gen).toNat < 2 ^ 15 → ∃ t, exec (.bsync sw gen) s = .next t ∧ BankStep s s.eng s t) ∧
      (2 ^ 15 ≤ (BitVec.ofNat 16 ((s.core d).syncWord sw.toNat).gen - gen).toNat → exec (.bsync sw gen) s = .next (s.modBank s.eng fun b => { b with wait := .bsync })) := by
  have passes : ¬ (sw.toNat % 16 ≠ 0 ∨ Config.scratchBytes < sw.toNat + 16) := by
    rintro (skew | beyond)
    · exact skew aligned
    · exact Nat.not_lt_of_le fits beyond
  have checked : bsyncStep sw.toNat gen.toNat s s.eng l = if ((s.core d).syncWord sw.toNat).reached gen.toNat then .ok s else .error (.wait .bsync) := by
    unfold bsyncStep
    rw [if_neg passes, memberSpad_ok core here]
    rfl
  exact ⟨fun reached => bankRun_steps runs found (checked.trans (if_pos ((reached_iff ..).2 reached))) ⟨rfl, rfl, fun _ _ => rfl⟩,
    fun short => bankRun_error runs found (checked.trans (if_neg fun h => Nat.not_lt_of_le short ((reached_iff ..).1 h)))⟩

/-- BZERO. -/
theorem exec_bzero (acc : Bool) (mask : BitVec 4) : ∃ t u, exec (.bzero acc mask) s = .next t ∧ BankStep s s.eng u t ∧ SameMemory s t ∧ t.cores = s.cores ∧
    t.bank s.eng = ((s.bank s.eng).zeroed acc mask).onward := by
  obtain ⟨idx, list⟩ := zeroed_keeps acc mask (s.bank s.eng)
  obtain ⟨t, run, st, bank, memory, cores⟩ := bankRun_modBank runs found (bzeroStep_eq ..) idx list
  exact ⟨t, _, run, st, memory, cores, bank⟩

/-- BSCALE. -/
theorem exec_bscale (perlane : Bool) (xb : BitVec 2) (factor : BitVec 32) : ∃ t u, exec (.bscale perlane xb factor) s = .next t ∧ BankStep s s.eng u t ∧ SameMemory s t ∧
    t.cores = s.cores ∧ t.bank s.eng = ((s.bank s.eng).scaled perlane xb.toNat factor).onward := by
  obtain ⟨-, idx, list, -⟩ := scaled_leaves (s.bank s.eng) perlane xb.toNat factor
  obtain ⟨t, run, st, bank, memory, cores⟩ := bankRun_modBank runs found (bscaleStep_eq perlane xb.toNat factor ..) idx list
  exact ⟨t, _, run, st, memory, cores, bank⟩

/-- BFENCE. -/
theorem exec_bfence : ∃ t, exec .bfence s = .next t ∧ BankStep s s.eng (performBank s s.eng) t ∧ t.bank s.eng = { s.bank s.eng with writes := [] }.onward ∧ t.cores = s.cores ∧
    ((s.bank s.eng).writes = [] → SameMemory s t) ∧ ∀ w, (s.bank s.eng).writes = [w] → ∀ p, t.byteAt p = (s.writeAt w.place w.data).byteAt p := by
  obtain ⟨here, other, cores, -, quiet, one⟩ := performBank_leaves s s.eng
  obtain ⟨t, run, st⟩ := bankRun_steps runs found (f := bfenceStep) rfl ⟨by rw [here], by rw [here], other⟩
  exact ⟨t, run, st, st.here.trans (congrArg Bank.onward here), st.cores.trans cores, fun none p => (st.memory p).trans (quiet none p), fun w h p => (st.memory p).trans (one w h p)⟩

end Commands

/-- Settles O32, command by command. -/
theorem bankCommands : Obligations.BankCommands := by
  unfold Obligations.BankCommands
  refine ⟨?_, ?_⟩
  · intro s c id l runs found b goes
    refine ⟨?_, ?_, ?_, ?_, ?_, ?_, ?_⟩
    · intro acc mask
      obtain ⟨t, u, run, st, memory, cores, bank⟩ := exec_bzero runs found acc mask
      obtain ⟨-, xb_onward, -, lane_onward⟩ := onward_keeps ((s.bank s.eng).zeroed acc mask)
      refine ⟨t, run, st.idx, st.wait, st.list, st.other, memory, cores, fun i k hi hk => ?_, fun i => ?_⟩
      · rw [bank, xb_onward]; exact zeroed_xb acc mask _ hi hk
      · rw [bank, lane_onward]; exact zeroed_lane acc mask _ i
    · intro perlane xb factor
      obtain ⟨t, u, run, st, memory, cores, bank⟩ := exec_bscale runs found perlane xb factor
      obtain ⟨xbs, -, -, lanes⟩ := scaled_leaves (s.bank s.eng) perlane xb.toNat factor
      obtain ⟨-, xb_onward, -, lane_onward⟩ := onward_keeps ((s.bank s.eng).scaled perlane xb.toNat factor)
      exact ⟨t, run, st.idx, st.wait, st.list, st.other, memory, cores, by rw [bank, xb_onward, xbs], fun i hi => by rw [bank, lane_onward]; exact lanes i hi⟩
    · obtain ⟨t, run, st, bank, cores, quiet, one⟩ := exec_bfence runs found
      exact ⟨t, run, st.idx, st.wait, st.list, st.other, by rw [bank]; rfl, cores, by rw [bank]; rfl, quiet, one⟩
    · intro j core away
      obtain ⟨t, run, st, writes, joins, memory⟩ := exec_bjoin runs found (j := j) core away
      exact ⟨t, run, st.idx, st.wait, st.list, st.other, writes, joins, memory⟩
    · intro xb off d aligned fits core here
      obtain ⟨t, u, run, st, memory, acc, bytes⟩ := exec_bload_spad runs found aligned fits core here
      exact ⟨t, run, st.idx, st.wait, st.list, st.other, memory, acc, fun k _ => bytes k⟩
    · intro xb off t d aligned read banks
      obtain ⟨v, u, run, st, acc, bytes⟩ := exec_bload_memory runs found aligned read banks
      exact ⟨v, run, st.idx, st.wait, st.list, st.other, acc, fun k _ => bytes k⟩
    · intro sw gen d aligned fits core here
      obtain ⟨passes, waits⟩ := exec_bsync runs found (gen := gen) aligned fits core here
      refine ⟨fun reached => ?_, waits⟩
      obtain ⟨t, run, st⟩ := passes reached
      exact ⟨t, run, st.idx, st.wait, st.list, st.other, st.memory, by rw [st.here]; rfl, st.cores⟩
  · intro q hq s t w c id l p rows runs found m b act
    have kind : ∀ s, exec (q.1 p) s = bankRun (macStep q.2 p) s := by
      simp only [List.mem_cons, List.not_mem_nil, or_false] at hq
      rcases hq with rfl | rfl | rfl | rfl | rfl | rfl | rfl | rfl | rfl | rfl <;> exact fun _ => rfl
    exact exec_multiply runs found kind

end Sys2Proof.Machine
end

section
/-!
SUPPORT. Bank stores, sends and reductions, and the life of a list (O33).
-/

namespace Sys2Proof.Machine

/-! ### BSTORE -/

theorem LeafWork.bank {s t : State} (h : LeafWork s t) (d : Nat) : t.bank d = s.bank d := by
  obtain ⟨-, m, a, x, c, sh, po, sn, wt, rfl⟩ := h
  rfl

theorem bankPlace_leaves {s t : State} {e va : Nat} {l : BankList} {write : Bool} {x : Word} {p : Place} (h : bankPlace s e l write va = .ok (t, x, p)) : LeafWork s t := by
  have work := leafWork_translate s (if write then bankWriter (bankDie e) else bankReader (bankDie e)) l.pasid va write
  unfold bankPlace at h
  generalize translate s (if write then bankWriter (bankDie e) else bankReader (bankDie e)) l.pasid va write = r at h work
  cases r with
  | error f => exact nomatch h
  | ok y =>
    have same : y.1 = t := congrArg Prod.fst (Except.ok.inj h)
    exact same ▸ work

/-- The lanes of a BSTORE append one write each. -/
theorem bstoreLanes_appends {bf : Bool} {off e : Nat} {l : BankList} (is : List Nat) {s t : State} (h : bstoreLanes bf off e l is s = .ok t) :
    ∃ ws, ws.length = is.length ∧ t.bank e = { s.bank e with writes := (s.bank e).writes ++ ws } ∧ ∀ d, d ≠ e → t.bank d = s.bank d := by
  induction is generalizing s with
  | nil =>
    obtain rfl := Except.ok.inj h
    exact ⟨[], rfl, by rw [List.append_nil], fun _ _ => rfl⟩
  | cons i is ih =>
    simp only [bstoreLanes] at h
    cases place : bankPlace s e l true (((s.bank e).obase + off + outIndex (s.bank e) e i * outSize bf) % 2 ^ 64) with
    | error f => rw [place] at h; exact nomatch h
    | ok y =>
      obtain ⟨u, x, p⟩ := y
      rw [place] at h
      obtain ⟨ws, length, here, other⟩ := ih h
      have same := (bankPlace_leaves place).bank
      rw [State.bank_modBank_same, same] at here
      refine ⟨{ place := p, page := ((s.bank e).obase + off + outIndex (s.bank e) e i * outSize bf) % 2 ^ 64 / 0x10000 * 0x10000, data := outBytes bf ((s.bank e).lane i) } :: ws,
        congrArg (· + 1) length, ?_, fun d differs => ?_⟩
      · rw [here]
        exact congrArg (fun w => ({ s.bank e with writes := w } : Bank)) (List.append_assoc ..)
      · rw [other d differs, State.bank_modBank_other _ _ differs, same]

section Commands

variable {s : State} {c id : Nat} {l : BankList} (runs : (s.bank s.eng).list = some (c, id)) (found : findList s id = some l)
include runs found

theorem exec_bstore {bf : Bool} {n1 : BitVec 6} {off : BitVec 40} {t : State} (aligned : ((s.bank s.eng).obase + off.toNat) % outSize bf = 0)
    (lanes : bstoreLanes bf off.toNat s.eng l (List.range (n1.toNat + 1)) s = .ok t) : ∃ u, exec (.bstore bf n1 off) s = .next u ∧ SameMemory t u ∧
      (u.bank s.eng).writes = (t.bank s.eng).writes ∧ (t.bank s.eng).writes.length = (s.bank s.eng).writes.length + n1.toNat + 1 ∧
      (∀ w ∈ (s.bank s.eng).writes, w ∈ (u.bank s.eng).writes) ∧ (u.bank s.eng).idx = (s.bank s.eng).idx + 1 := by
  obtain ⟨ws, length, here, other⟩ := bstoreLanes_appends _ lanes
  have step : bstoreStep bf (n1.toNat + 1) off.toNat s s.eng l = .ok t := (if_neg (not_not_intro aligned)).trans lanes
  obtain ⟨u, run, st⟩ := bankRun_steps runs found step ⟨by rw [here], by rw [here], other⟩
  have writes : (u.bank s.eng).writes = (t.bank s.eng).writes := by rw [st.here]; rfl
  refine ⟨u, run, st.memory, writes, ?_, fun w hw => ?_, st.idx⟩
  · rw [here]
    show ((s.bank s.eng).writes ++ ws).length = _
    rw [List.length_append, length, List.length_range, Nat.add_assoc]
  · rw [writes, here]
    exact List.mem_append_left ws hw

/-! ### BSEND -/

omit runs found in
theorem bsendStep_one {bf : Bool} {coreid off sw e rank d : Nat} (row : (s.bank e).cstride = 0) (word : 16 * sw < Config.scratchBytes) (fits : off + outSize bf ≤ Config.scratchBytes)
    (aligned : off % outSize bf = 0) (target : l.targets.find? (fun t => t.2 == coreid) = some (rank, coreid)) (core : memberCore s l.gath rank = some d)
    (here : ∀ f, ((s.core d).folio f).pres = .present) :
    bsendStep bf 1 coreid off sw false s e l = .ok (s.modCore d fun k => k.spadWrite off (outBytes bf ((s.bank e).lane 0))) := by
  have first : off + outIndex (s.bank e) e 0 * outSize bf = off := by simp [outIndex, row]
  have spad : memberSpad s l.gath rank off (outSize bf) = .ok d := memberSpad_ok core fun f _ => here f
  have checks : ¬ (decide (Config.scratchBytes ≤ 16 * sw) || (List.range 1).any (fun i => decide (Config.scratchBytes < off + outIndex (s.bank e) e i * outSize bf + outSize bf) ||
      (off + outIndex (s.bank e) e i * outSize bf) % outSize bf != 0)) = true := by
    rw [List.range_one, List.any_cons, List.any_nil, first, aligned, decide_eq_false (Nat.not_le_of_lt word), decide_eq_false (Nat.not_lt_of_le fits)]
    exact Bool.false_ne_true
  unfold bsendStep
  refine (if_neg checks).trans ?_
  rw [target]
  simp only [List.range_one, List.foldlM_cons, List.foldlM_nil, List.foldl_cons, List.foldl_nil, first, spad, Bool.false_eq_true, if_false]
  rw [show d = max 0 d from (Nat.zero_max d).symm]
  rfl

theorem exec_bsend_one {bf : Bool} {coreid : BitVec 9} {off : BitVec 19} {sw : BitVec 15} {rank d : Nat} (row : (s.bank s.eng).cstride = 0) (word : 16 * sw.toNat < Config.scratchBytes)
    (fits : off.toNat + outSize bf ≤ Config.scratchBytes) (aligned : off.toNat % outSize bf = 0) (target : l.targets.find? (fun t => t.2 == coreid.toNat) = some (rank, coreid.toNat))
    (core : memberCore s l.gath rank = some d) (here : ∀ f, ((s.core d).folio f).pres = .present) :
    ∃ u, exec (.bsend bf 0 coreid off sw false) s = .next u ∧ SameMemory s u ∧ (u.bank s.eng).idx = (s.bank s.eng).idx + 1 ∧
      u.core d = (s.core d).spadWrite off.toNat (outBytes bf ((s.bank s.eng).lane 0)) ∧ ∀ e, e ≠ d → u.core e = s.core e := by
  obtain ⟨u, run, st⟩ := bankRun_steps runs found (bsendStep_one (bf := bf) (coreid := coreid.toNat) (off := off.toNat) (sw := sw.toNat) row word fits aligned target core here)
    ⟨rfl, rfl, fun _ _ => rfl⟩
  have cores : ∀ e, u.core e = (s.modCore d fun k => k.spadWrite off.toNat (outBytes bf ((s.bank s.eng).lane 0))).core e := fun e => congrArg (fun t : Tab Core => t.get .idle e) st.cores
  exact ⟨u, run, st.memory, st.idx, (cores d).trans (State.core_modCore_same ..), fun e other => (cores e).trans (State.core_modCore_other _ _ other)⟩

theorem exec_bsend_stranger {bf swv : Bool} {n1 : BitVec 6} {coreid : BitVec 9} {off : BitVec 19} {sw : BitVec 15} (none : l.targets.find? (fun t => t.2 == coreid.toNat) = none) :
    exec (.bsend bf n1 coreid off sw swv) s = .next (parkBank s s.eng 0x60 7) := by
  refine bankRun_error runs found (x := bFault 7) ?_
  unfold bsendStep
  simp only []
  split
  · rfl
  · rw [none]

/-! ### BRED -/

theorem exec_bred_zero : exec (.bred 0) s = .next (arriveBred (parkBank s s.eng 0x60 4) s.eng) := by
  have stops : bankRun (bredStep (0 : BitVec 6).toNat) s = .next (parkBank s s.eng 0x60 4) := bankRun_error runs found (x := bFault 4) rfl
  change execBred 0 s = _
  unfold execBred
  rw [stops]

omit runs found in
theorem exec_bred_of {d : BitVec 6} {t : State} (run : bankRun (bredStep d.toNat) s = .next t) : exec (.bred d) s = .next (arriveBred t s.eng) := by
  change execBred d s = _
  unfold execBred
  rw [run]

/-- The partner of an engine in an exchange. -/
def bredPartner (e d : Nat) : Nat := 64 * (e / 64) + Nat.xor (e % 64) d

omit runs found in
theorem bredPartner_ne {e : Nat} {d : BitVec 6} (some_bit : d ≠ 0) : bredPartner e d.toNat ≠ e := by
  intro same
  have word : e % 64 ^^^ d.toNat = e % 64 := by
    have split := Nat.div_add_mod e 64
    unfold bredPartner at same
    change 64 * (e / 64) + (e % 64 ^^^ d.toNat) = e at same
    omega
  have zero : d.toNat = 0 := by
    have cancel : e % 64 ^^^ (e % 64 ^^^ d.toNat) = d.toNat := by rw [← Nat.xor_assoc, Nat.xor_self, Nat.zero_xor]
    rw [← cancel, word, Nat.xor_self]
  exact some_bit (BitVec.eq_of_toNat_eq zero)

omit runs in
theorem bredStep_waits {d : BitVec 6} (some_bit : d ≠ 0) (selected : l.mask.getLsbD (bredPartner s.eng d.toNat % 64) = true)
    (alone : partnerHere s id (bredPartner s.eng d.toNat) (s.bank s.eng).idx = false) : bredStep d.toNat s s.eng l = .error (.wait .bred) := by
  have nonzero : d.toNat ≠ 0 := fun h => some_bit (BitVec.eq_of_toNat_eq h)
  unfold bredStep
  refine (if_neg nonzero).trans ((if_neg (fun h => Bool.false_ne_true (h.symm.trans selected))).trans ?_)
  refine if_neg fun h => Bool.false_ne_true (alone.symm.trans ?_)
  rw [findList_id found] at h
  exact h

/-- Both engines hold the sum. -/
def exchanged (s : State) (p : Nat) : State :=
  (s.modBank p fun q => { q with acc := sumLanes (s.bank s.eng).acc (s.bank p).offer, idx := q.idx + 1, arrived := none, offer := .empty, wait := .none }).modBank s.eng
    fun b => { b with acc := sumLanes (s.bank s.eng).acc (s.bank p).offer, arrived := none, offer := .empty }

omit runs in
theorem bredStep_exchanges {d : BitVec 6} (some_bit : d ≠ 0) (selected : l.mask.getLsbD (bredPartner s.eng d.toNat % 64) = true)
    (there : partnerHere s id (bredPartner s.eng d.toNat) (s.bank s.eng).idx = true) : bredStep d.toNat s s.eng l = .ok (exchanged s (bredPartner s.eng d.toNat)) := by
  have nonzero : d.toNat ≠ 0 := fun h => some_bit (BitVec.eq_of_toNat_eq h)
  unfold bredStep
  refine (if_neg nonzero).trans ((if_neg (fun h => Bool.false_ne_true (h.symm.trans selected))).trans ?_)
  refine if_pos ?_
  rw [findList_id found]
  exact there

theorem exec_bred_waits {d : BitVec 6} (some_bit : d ≠ 0) (selected : l.mask.getLsbD (bredPartner s.eng d.toNat % 64) = true)
    (alone : partnerHere s id (bredPartner s.eng d.toNat) (s.bank s.eng).idx = false) :
    ∃ u, exec (.bred d) s = .next u ∧ (u.bank s.eng).wait = .bred ∧ (u.bank s.eng).idx = (s.bank s.eng).idx ∧ (u.bank s.eng).acc = (s.bank s.eng).acc ∧
      ((s.bank s.eng).arrived = none → (u.bank s.eng).offer = (s.bank s.eng).acc ∧ (u.bank s.eng).arrived = some (s.bank s.eng).idx) ∧ SameMemory s u := by
  have run := exec_bred_of (d := d) (bankRun_error runs found (bredStep_waits found some_bit selected alone))
  have waiting : (takeBStop s s.eng (.wait .bred)).bank s.eng = { s.bank s.eng with wait := .bred } := State.bank_modBank_same ..
  generalize ht : takeBStop s s.eng (.wait .bred) = t at run waiting
  have memory : SameMemory s t := ht ▸ fun _ => rfl
  refine ⟨_, run, ?_⟩
  by_cases first : (t.bank s.eng).wait = .bred ∧ (t.bank s.eng).arrived = none
  · have arrives : arriveBred t s.eng = t.setBank s.eng { t.bank s.eng with offer := (t.bank s.eng).acc, arrived := some (t.bank s.eng).idx } := if_pos first
    rw [arrives, State.bank_setBank_same, waiting]
    exact ⟨rfl, rfl, rfl, fun _ => ⟨rfl, rfl⟩, memory⟩
  · have stays : arriveBred t s.eng = t := if_neg first
    rw [waiting] at first
    rw [stays, waiting]
    exact ⟨rfl, rfl, rfl, fun none => absurd ⟨rfl, none⟩ first, memory⟩

omit runs found in
theorem arriveBred_goes {t : State} {e : Nat} (goes : (t.bank e).wait = .none) : arriveBred t e = t := by
  unfold arriveBred
  exact if_neg fun h => by rw [goes] at h; exact nomatch h.1

theorem exec_bred_exchanges {d : BitVec 6} (some_bit : d ≠ 0) (selected : l.mask.getLsbD (bredPartner s.eng d.toNat % 64) = true)
    (there : partnerHere s id (bredPartner s.eng d.toNat) (s.bank s.eng).idx = true) :
    ∃ u, exec (.bred d) s = .next u ∧ (u.bank s.eng).acc = sumLanes (s.bank s.eng).acc (s.bank (bredPartner s.eng d.toNat)).offer ∧
      (u.bank (bredPartner s.eng d.toNat)).acc = (u.bank s.eng).acc ∧ (u.bank s.eng).idx = (s.bank s.eng).idx + 1 ∧
      (u.bank (bredPartner s.eng d.toNat)).idx = (s.bank (bredPartner s.eng d.toNat)).idx + 1 ∧ (u.bank (bredPartner s.eng d.toNat)).wait = .none ∧ SameMemory s u := by
  have run := exec_bred_of (d := d) (bankRun_ok runs found (bredStep_exchanges found some_bit selected there))
  have differs := bredPartner_ne (e := s.eng) some_bit
  generalize bredPartner s.eng d.toNat = p at *
  have here : ((exchanged s p).modBank s.eng Bank.onward).bank s.eng = _ := State.bank_modBank_same ..
  have mine : (exchanged s p).bank s.eng =
      { s.bank s.eng with acc := sumLanes (s.bank s.eng).acc (s.bank p).offer, arrived := none, offer := .empty } := by
    rw [exchanged, State.bank_modBank_same, State.bank_modBank_other _ _ (Ne.symm differs)]
  have partner : ((exchanged s p).modBank s.eng Bank.onward).bank p =
      { s.bank p with acc := sumLanes (s.bank s.eng).acc (s.bank p).offer, idx := (s.bank p).idx + 1, arrived := none, offer := .empty, wait := .none } := by
    rw [State.bank_modBank_other _ _ differs, exchanged, State.bank_modBank_other _ _ differs, State.bank_modBank_same]
  rw [mine] at here
  rw [arriveBred_goes (by rw [here]; rfl)] at run
  generalize sumLanes (s.bank s.eng).acc (s.bank p).offer = sum at *
  exact ⟨_, run, by rw [here]; rfl, by rw [here, partner]; rfl, by rw [here]; rfl, by rw [partner], by rw [partner], fun _ => rfl⟩

/-! ### BEND -/

omit runs found in
theorem modDesk_leaves (s : State) (id : Nat) (f : Desk → Desk) : (modDesk s id f).banks = s.banks ∧ SameMemory s (modDesk s id f) := by
  unfold modDesk
  split
  · exact ⟨rfl, fun _ => rfl⟩
  · exact ⟨rfl, fun _ => rfl⟩

omit runs found in
theorem clearBit_clear (m : Word) {i : Nat} (low : i < 64) : (clearBit m i).getLsbD i = false := by
  simp [clearBit, low]

omit found in
theorem exec_bend : ∃ u, exec .bend s = .next u ∧ (u.bank s.eng).list = none ∧ (u.bank s.eng).queue = (s.bank s.eng).queue ∧ (u.bank s.eng).acc = .empty ∧
    (u.bank s.eng).writes = [] ∧ (listCore s id = some c → ∀ k ∈ (u.core c).lists, k.id = id → k.left.getLsbD (s.eng % 64) = false) := by
  obtain ⟨here, -, cores, -⟩ := performBank_leaves s s.eng
  have ended : endOnEngine s id s.eng = (performBank s s.eng).modBank s.eng fun b => { Bank.idle with queue := b.queue } := by
    unfold endOnEngine
    rw [runs]
    exact if_pos (beq_self_eq_true id)
  have run : exec .bend s = .next (modList (endOnEngine s id s.eng) id fun l => { l with left := clearBit l.left (channel s.eng) }) := by
    change bendStep s = _
    unfold bendStep
    simp only [runs]
  have bank : (modList (endOnEngine s id s.eng) id fun l => { l with left := clearBit l.left (channel s.eng) }).bank s.eng = { Bank.idle with queue := (s.bank s.eng).queue } := by
    have same : (modList (endOnEngine s id s.eng) id fun l => { l with left := clearBit l.left (channel s.eng) }).bank s.eng = (endOnEngine s id s.eng).bank s.eng :=
      congrArg (fun t : Tab Bank => t.get .idle s.eng) (modDesk_leaves ..).1
    rw [same, ended, State.bank_modBank_same, here]
  refine ⟨_, run, by rw [bank]; rfl, by rw [bank], by rw [bank]; rfl, by rw [bank]; rfl, fun core k hk named => ?_⟩
  have same : listCore (endOnEngine s id s.eng) id = some c := by
    rw [ended]
    exact (listCore_congr (t := (performBank s s.eng).modBank s.eng fun b => { Bank.idle with queue := b.queue }) cores id).trans core
  unfold modList modDesk at hk
  rw [same] at hk
  simp only [State.core_modCore_same] at hk
  obtain ⟨x, -, rfl⟩ := List.mem_map.1 hk
  by_cases is : x.id = id
  · rw [if_pos is]
    exact clearBit_clear x.left (Nat.mod_lt _ (by decide))
  · rw [if_neg is] at named
    exact absurd named is

end Commands

/-! ### The start of a list -/

theorem headerWords (image : List Byte) (i : Nat) (low : i < 4) :
    (((List.range 128).map fun i => BitVec.ofNat 64 (leField image (8 * i) 8)).take 4).getD i 0 = BitVec.ofNat 64 (leField image (8 * i) 8) := by
  simp [low]

/-- A free engine that has taken its oldest list. -/
def startedBank (l : BankList) (c id : Nat) (r : List (Nat × Nat)) : Bank :=
  { Bank.idle with
    list := some (c, id), hdr := ((List.range 128).map fun i => BitVec.ofNat 64 (leField l.image (8 * i) 8)).take 4,
    cmds := (((List.range 128).map fun i => BitVec.ofNat 64 (leField l.image (8 * i) 8)).take (l.image.length / 8)).drop 4, queue := r }

/-- What the start of a list makes of the state. -/
def bankStarted (s : State) (e : Nat) (l : BankList) (c id : Nat) (r : List (Nat × Nat)) : State :=
  modList (s.setBank e (startedBank l c id r)) id fun l => { l with started := true }

theorem bankStarted_leaves (s : State) (e : Nat) (l : BankList) (c id : Nat) (r : List (Nat × Nat)) :
    (bankStarted s e l c id r).bank e = startedBank l c id r ∧ SameMemory s (bankStarted s e l c id r) := by
  obtain ⟨banks, memory⟩ := modDesk_leaves (s.setBank e (startedBank l c id r)) id fun d => { d with lists := d.lists.map fun x => if x.id = id then { x with started := true } else x }
  exact ⟨(congrArg (fun t : Tab Bank => t.get .idle e) banks).trans (State.bank_setBank_same ..), memory⟩

/-- A command fault parks the list on its engine. -/
theorem parkBank_leaves {s : State} {e c id : Nat} (runs : (s.bank e).list = some (c, id)) (code sub : Nat) :
    (parkBank s e code sub).bank e = { s.bank e with wait := .parked } ∧ SameMemory s (parkBank s e code sub) := by
  have waits : (s.modBank e fun b => { b with wait := .parked }).bank e = { s.bank e with wait := .parked } := State.bank_modBank_same ..
  unfold parkBank
  rw [runs]
  simp only []
  split
  · exact ⟨waits, fun _ => rfl⟩
  · obtain ⟨banks, memory⟩ := modDesk_leaves (s.modBank e fun b => { b with wait := .parked }) id _
    exact ⟨(congrArg (fun t : Tab Bank => t.get .idle e) banks).trans waits, memory⟩

section Start

variable {s : State} {e c id : Nat} {l : BankList} {r : List (Nat × Nat)} (free : (s.bank e).list = none) (queue : (s.bank e).queue = (c, id) :: r) (found : findList s id = some l)

section

include free queue found

theorem exec_bankListStart_bad {sub : Nat} (bad : headerFault l (startedBank l c id r) = some sub) :
    exec (.bankListStart e) s = .next (parkBank (bankStarted s e l c id r) e 0x60 sub) := by
  rw [← (bankStarted_leaves s e l c id r).1] at bad
  unfold bankStarted startedBank at bad ⊢
  change execBankListStart e s = _
  unfold execBankListStart
  simp only [free, queue, found, bad]
  rfl

theorem exec_bankListStart_good (good : headerFault l (startedBank l c id r) = none) : exec (.bankListStart e) s = .next (bankStarted s e l c id r) := by
  rw [← (bankStarted_leaves s e l c id r).1] at good
  unfold bankStarted startedBank at good ⊢
  change execBankListStart e s = _
  unfold execBankListStart
  simp only [free, queue, found, good]

end

/-- The header's words as the image has them. -/
theorem header_hdr (l : BankList) (c id : Nat) (r : List (Nat × Nat)) :
    (startedBank l c id r).hdr.getD 0 0 = BitVec.ofNat 64 (leField l.image 0 8) ∧ (startedBank l c id r).wbase = (BitVec.ofNat 64 (leField l.image 8 8)).toNat :=
  ⟨headerWords l.image 0 (by decide), congrArg BitVec.toNat (headerWords l.image 1 (by decide))⟩

theorem headerFault_good (aligned : l.off % 32 = 0) (fits : l.off + 32 ≤ Config.scratchBytes) (version : leField l.image 0 8 % 256 = 1)
    (reserved : leField l.image 0 8 / 2 ^ 12 % 2 ^ 20 = 0) (base : leField l.image 8 8 % 0x10000 = 0) : headerFault l (startedBank l c id r) = none := by
  obtain ⟨first, second⟩ := header_hdr l c id r
  have low : ¬ (l.off % 32 ≠ 0 ∨ Config.scratchBytes < l.off + 32) := by
    rintro (skew | beyond)
    · exact skew aligned
    · exact Nat.not_lt_of_le fits beyond
  unfold headerFault
  rw [first, second]
  refine (if_neg low).trans (if_neg ?_)
  rw [bits_low, bits_eq_div, BitVec.toNat_ofNat, BitVec.toNat_ofNat]
  omega

theorem headerFault_version (aligned : l.off % 32 = 0) (fits : l.off + 32 ≤ Config.scratchBytes) (version : leField l.image 0 8 % 256 ≠ 1) :
    headerFault l (startedBank l c id r) = some 8 := by
  obtain ⟨first, -⟩ := header_hdr l c id r
  have low : ¬ (l.off % 32 ≠ 0 ∨ Config.scratchBytes < l.off + 32) := by
    rintro (skew | beyond)
    · exact skew aligned
    · exact Nat.not_lt_of_le fits beyond
  unfold headerFault
  rw [first]
  refine (if_neg low).trans (if_pos (.inl ?_))
  rw [bits_low, BitVec.toNat_ofNat]
  omega

end Start

/-! ### The end of a list, and its release -/

/-- A list that every engine has ended, and one that some has not. -/
theorem exec_bankListComplete_counted {s : State} {id : Nat} {l : BankList} (found : findList s id = some l) (goes_on : l.left ≠ 0 ∨ l.counted = true) (d : Nat) :
    exec (.bankListComplete d id) s = .next s := by
  change execBankListComplete d id s = _
  unfold execBankListComplete
  rw [found]
  exact if_pos goes_on

theorem exec_bankListComplete_ends {s : State} {c id : Nat} {l : BankList} (found : findList s id = some l) (core : listCore s id = some c) (ended : l.left = 0) (fresh : l.counted = false)
    (d : Nat) : exec (.bankListComplete d id) s = .next (if c = d then s.modCore c fun k => { k with
      lists := k.lists.filter fun x => x.id != id, joins := k.joins.put 0 l.j (k.joins.get 0 l.j + 1) } else s) := by
  change execBankListComplete d id s = _
  unfold execBankListComplete
  rw [found]
  refine (if_neg ?_).trans ?_
  · rintro (left | counted)
    · exact left ended
    · exact Bool.false_ne_true (fresh.symm.trans counted)
  · rw [core]
    unfold modDesk
    rw [core]
    rfl

theorem release_list {s : State} {c : Nat} {o : Op} (port : o.port = 0x3C0) : release s c o = releaseList s c o := by
  unfold release
  rw [port]
  rfl

theorem bank_enqueueList (c id : Nat) (es : List Nat) (nodup : es.Nodup) (s : State) (d : Nat) :
    (enqueueList c id es s).bank d = if d ∈ es then { s.bank d with queue := (s.bank d).queue ++ [(c, id)] } else s.bank d := by
  induction es generalizing s with
  | nil => exact (if_neg (List.not_mem_nil)).symm
  | cons e es ih =>
    obtain ⟨fresh, rest⟩ := List.nodup_cons.1 nodup
    rw [enqueueList, ih rest]
    by_cases same : d = e
    · subst same
      rw [if_neg fresh, if_pos List.mem_cons_self, State.bank_modBank_same]
    · rw [State.bank_modBank_other _ _ same]
      exact if_iff_congr (by rw [List.mem_cons, or_iff_right same]) rfl rfl

theorem mem_listEngines (stack : Nat) (mask : Word) (i : Nat) (low : i < 64) : 64 * stack + i ∈ listEngines stack mask ↔ mask.getLsbD i = true := by
  simp [listEngines, bit, low]

theorem nodup_listEngines (stack : Nat) (mask : Word) : (listEngines stack mask).Nodup :=
  List.Pairwise.map _ (fun _ _ other same => other (Nat.add_left_cancel same)) (List.Pairwise.filter _ List.nodup_range)

/-- The issuer of a list that ends at its release, before full service. -/
def earlyEnd (s : State) (c : Nat) (o : Op) (k : Core) : Core :=
  (k.setSlot k.freeSlot (some (earlyRecord s c o (o.b.toNat % 2 ^ 19) (headerJoin (s.core c) (o.b.toNat % 2 ^ 19))))).countJoin (headerJoin (s.core c) (o.b.toNat % 2 ^ 19))

section Release

variable {s : State} {c : Nat} {o : Op} (port : o.port = 0x3C0)
include port

theorem release_early (early : fullService s = false) : release s c o = s.modCore c (earlyEnd s c o) := by
  unfold earlyEnd
  rw [release_list port, ← bits_low o.b 18]
  exact if_pos early

theorem release_nothing (full : fullService s = true) (none : o.port' 0x131 = 0) :
    release s c o = s.modCore c fun k => k.countJoin (headerJoin (s.core c) (o.b.toNat % 2 ^ 19)) := by
  rw [release_list port, ← bits_low o.b 18]
  exact (if_neg (by rw [full]; exact fun h => Bool.false_ne_true h.symm)).trans (if_pos none)

theorem release_queues (full : fullService s = true) (some_engine : o.port' 0x131 ≠ 0) (d : Nat) :
    (release s c o).bank d = if d ∈ listEngines (2 * (c / 96) + o.b.toNat / 2 ^ 19 % 2) (o.port' 0x131) then
      { s.bank d with queue := (s.bank d).queue ++ [(c, s.fresh)] } else s.bank d := by
  have stack : bits o.b 19 19 = o.b.toNat / 2 ^ 19 % 2 := bits_eq_div o.b 19 19
  rw [release_list port, ← stack]
  have queues : ∃ k, releaseList s c o = enqueueList c s.fresh (listEngines (2 * dieOf c + bits o.b 19 19) (o.port' 0x131)) ({ s with fresh := s.fresh + 1 }.modCore c k) :=
    ⟨_, (if_neg (by rw [full]; exact fun h => Bool.false_ne_true h.symm)).trans (if_neg some_engine)⟩
  obtain ⟨k, eq⟩ := queues
  rw [eq]
  exact bank_enqueueList c s.fresh _ (nodup_listEngines ..) _ d

end Release

/-- Settles O33: the transfers, the life of a list, its release. -/
theorem bankTransfersAndLists : Obligations.BankTransfersAndLists := by
  unfold Obligations.BankTransfersAndLists
  refine ⟨?_, ⟨?_, ?_, ?_, ?_⟩, ?_⟩
  · intro s c id l runs found b
    refine ⟨?_, ?_, ?_, ?_, exec_bred_zero runs found, ?_, exec_bend runs⟩
    · intro bf n1 off t aligned lanes
      exact exec_bstore runs found aligned lanes
    · intro bf n1 off skew
      exact bankRun_error runs found (x := bFault 4) (if_pos skew)
    · intro n1 coreid off sw rank d bf swv first row word fits aligned target core here dark
      subst first dark
      obtain ⟨u, run, memory, idx, spad, other⟩ := exec_bsend_one runs found (bf := bf) row word fits aligned target core here
      have length : (outBytes bf ((s.bank s.eng).lane 0)).length = if bf then 2 else 4 := by cases bf <;> exact length_leBytes ..
      refine ⟨u, run, memory, idx, ?_, fun x outside => ?_, other⟩
      · rw [spad, ← length]
        exact Core.spadRead_spadWrite ..
      · rw [spad]
        exact Core.spad_spadWrite_other _ _ (length ▸ outside)
    · intro n1 coreid off sw bf swv none
      exact exec_bsend_stranger runs found none
    · intro d some_bit selected p
      exact ⟨exec_bred_waits runs found some_bit selected, exec_bred_exchanges runs found some_bit selected⟩
  · intro s e c id l r free queue found aligned fits _
    obtain ⟨bank, memory⟩ := bankStarted_leaves s e l c id r
    refine ⟨fun version reserved base => ?_, fun version => ?_⟩
    · refine ⟨_, exec_bankListStart_good free queue found (headerFault_good aligned fits version reserved base), ?_⟩
      rw [bank]
      exact ⟨rfl, rfl, rfl, rfl, rfl, rfl, rfl, memory⟩
    · obtain ⟨parked, kept⟩ := parkBank_leaves (s := bankStarted s e l c id r) (e := e) (c := c) (id := id) (by rw [bank]; rfl) 0x60 8
      exact ⟨_, exec_bankListStart_bad free queue found (headerFault_version aligned fits version), by rw [parked], fun p => (kept p).trans (memory p)⟩
  · exact fun s e => ⟨fun goes => if_pos goes, fun stays => if_neg fun h => Bool.false_ne_true (stays.symm.trans h)⟩
  · intro s c id l found core
    refine ⟨fun d other ended fresh => ?_, fun ended fresh => ?_, fun goes_on => exec_bankListComplete_counted found goes_on c⟩
    · rw [exec_bankListComplete_ends found core ended fresh, if_neg (Ne.symm other)]
    · rw [exec_bankListComplete_ends found core ended fresh, if_pos rfl]
      refine ⟨_, rfl, ?_, ?_, ?_, fun _ => rfl, fun d other => State.core_modCore_other _ _ other⟩
      · rw [State.core_modCore_same]
        exact Tab.get_put_same ..
      · rw [State.core_modCore_same]
        intro x hx
        simpa using (List.mem_filter.1 hx).2
      · rw [State.core_modCore_same]
  · intro s e c f id l waits runs found
    have may : bankMayGo s e = folioOver s l.gath c f := by
      unfold bankMayGo
      simp only [waits, runs, Option.bind_some, found]
    rw [may, folioOver]
    simp
  · intro s c o port
    refine ⟨fun none full => (release_nothing port full none).trans (State.modCore_congr rfl), fun early => ?_, fun some_engine full i low => ?_⟩
    · have eq := release_early (c := c) port (show fullService s = false from early)
      have core : (release s c o).core c = earlyEnd s c o (s.core c) := by rw [eq]; exact State.core_modCore_same ..
      refine ⟨by rw [eq]; rfl, by rw [core]; rfl, ?_, ⟨earlyRecord s c o (o.b.toNat % 2 ^ 19) (headerJoin (s.core c) (o.b.toNat % 2 ^ 19)), ?_, rfl, rfl, rfl⟩, by rw [core]; rfl, by rw [eq]; exact fun _ => rfl,
        fun d other => by rw [eq]; exact State.core_modCore_other _ _ other⟩
      · rw [core]
        exact Tab.get_put_same ..
      · rw [core]
        exact Tab.get_set_same ..
    · refine ⟨fun set => ?_, fun clear => ?_⟩
      · rw [release_queues port full some_engine, if_pos ((mem_listEngines _ _ i low).2 set)]
      · rw [release_queues port full some_engine, if_neg fun h => Bool.false_ne_true (clear.symm.trans ((mem_listEngines _ _ i low).1 h))]

end Sys2Proof.Machine
end

section
/-!
SUPPORT. The vector units (O11): packed lanes, integer lanes and their arithmetic modulo the width.
-/

namespace Sys2Proof.Machine

/-! ### Packed lanes -/

theorem packLanes_lt (w : Nat) (l : List Nat) : packLanes w l < 2 ^ (w * l.length) := by
  induction l with
  | nil => simp [packLanes]
  | cons x r ih =>
    have low : x % 2 ^ w < 2 ^ w := Nat.mod_lt _ (Nat.two_pow_pos w)
    rw [packLanes, Nat.shiftLeft_eq, List.length_cons, Nat.mul_succ, Nat.pow_add]
    calc x % 2 ^ w + packLanes w r * 2 ^ w
        < (packLanes w r + 1) * 2 ^ w := by rw [Nat.add_mul]; omega
      _ ≤ 2 ^ (w * r.length) * 2 ^ w := Nat.mul_le_mul_right _ ih

/-- A lane is read back from where it was packed. -/
theorem packLanes_lane (w : Nat) (l : List Nat) {i : Nat} (h : i < l.length) : packLanes w l / 2 ^ (w * i) % 2 ^ w = l[i] % 2 ^ w := by
  induction l generalizing i with
  | nil => cases h
  | cons x r ih =>
    have low : x % 2 ^ w < 2 ^ w := Nat.mod_lt _ (Nat.two_pow_pos w)
    rw [packLanes, Nat.shiftLeft_eq]
    cases i with
    | zero => simp
    | succ i =>
      rw [Nat.mul_succ, Nat.add_comm (w * i), Nat.pow_add, ← Nat.div_div_eq_div_mul, Nat.add_mul_div_right _ _ (Nat.two_pow_pos w), Nat.div_eq_of_lt low, Nat.zero_add]
      exact ih (Nat.lt_of_succ_lt_succ h)

/-- Lane `i` of a value. -/
def laneOf (v : Val) (w i : Nat) : Nat := v.bits.toNat / 2 ^ (w * i) % 2 ^ w

theorem laneOf_lt (v : Val) (w i : Nat) : laneOf v w i < 2 ^ w := Nat.mod_lt _ (Nat.two_pow_pos w)

theorem elem_vector {v : Val} (h : v.vector = true) (w i : Nat) : v.elem w i = laneOf v w i := by
  rw [Val.elem, if_pos h, Nat.shiftRight_eq_div_pow, laneOf]

/-- What a vector operation delivers: `n` lanes of `w` bits that hold `g`, within `W` bits. -/
def Lanes (W w n : Nat) (r : Nat) (g : Nat → Nat) : Prop := r < 2 ^ W ∧ ∀ i, i < n → r / 2 ^ (w * i) % 2 ^ w = g i

theorem lanes_packed {W w : Nat} (g : Nat → Nat) (hg : ∀ i, g i < 2 ^ w) : Lanes W w (W / w) (packLanes w ((List.range (W / w)).map g)) g := by
  refine ⟨Nat.lt_of_lt_of_le (packLanes_lt w _) (Nat.pow_le_pow_right (by decide) ?_), fun i hi => ?_⟩
  · rw [List.length_map, List.length_range]
    exact Nat.mul_div_le W w
  · rw [packLanes_lane w _ (by simpa using hi), List.getElem_map, List.getElem_range, Nat.mod_eq_of_lt (hg i)]

theorem foldl_flags_zero {α : Type} (l : List (Flagged α)) (h : ∀ x ∈ l, x.flags = 0) : l.foldl (fun (a : Word) x => a ||| x.flags) 0 = 0 := by
  induction l with
  | nil => rfl
  | cons x r ih =>
    rw [List.foldl_cons, h x List.mem_cons_self, BitVec.or_self]
    exact ih fun y hy => h y (List.mem_cons_of_mem _ hy)

theorem mapLanes_values (n w : Nat) (f : Nat → Flagged Nat) : (mapLanes n w f).1 = packLanes w ((List.range n).map fun i => (f i).val) := by
  rw [mapLanes]
  simp only [List.map_map]
  rfl

/-- Lanes without flags. -/
theorem mapLanes_eq (n w : Nat) (g : Nat → Nat) : mapLanes n w (fun i => ⟨g i, 0⟩) = (packLanes w ((List.range n).map g), 0) := by
  refine Prod.ext (mapLanes_values n w _) ?_
  exact foldl_flags_zero _ fun x hx => by
    obtain ⟨i, -, rfl⟩ := List.mem_map.1 hx
    rfl

/-! ### Integer lanes -/

/-- Two integers are the same modulo `2 ^ w`. -/
def Agree (w : Nat) (x y : Int) : Prop := x % ((2 ^ w : Nat) : Int) = y % ((2 ^ w : Nat) : Int)

section Agree

variable {w : Nat} {x y z u v : Int}

theorem Agree.symm (h : Agree w x y) : Agree w y x := Eq.symm h

theorem Agree.trans (h : Agree w x y) (g : Agree w y z) : Agree w x z := Eq.trans h g

theorem agree_of_eq (k : Int) (h : x = y + k * ((2 ^ w : Nat) : Int)) : Agree w x y := by
  rw [Agree, h, Int.add_mul_emod_self_right]

theorem Agree.add (h : Agree w x y) (g : Agree w u v) : Agree w (x + u) (y + v) := by
  rw [Agree, Int.add_emod, h, g, ← Int.add_emod]

theorem Agree.sub (h : Agree w x y) (g : Agree w u v) : Agree w (x - u) (y - v) := by
  rw [Agree, Int.sub_emod, h, g, ← Int.sub_emod]

theorem Agree.mul (h : Agree w x y) (g : Agree w u v) : Agree w (x * u) (y * v) := by
  rw [Agree, Int.mul_emod, h, g, ← Int.mul_emod]

theorem Agree.neg (h : Agree w x y) : Agree w (-x) (-y) := by
  rw [← Int.zero_sub, ← Int.zero_sub]
  exact Agree.sub rfl h

end Agree

/-- The integer that a lane of `w` bits holds. -/
def laneInt (sg : Bool) (w x : Nat) : Int := if sg ∧ 2 ^ (w - 1) ≤ x then (x : Int) - 2 ^ w else (x : Int)

theorem lt_six {t : Nat} (h : t < 6) : t = 0 ∨ t = 1 ∨ t = 2 ∨ t = 3 ∨ t = 4 ∨ t = 5 := by omega

theorem fmtBits_integer {t : Nat} (h : t < 6) : fmtBits t = 8 * 2 ^ (t / 2) := by
  rcases lt_six h with rfl | rfl | rfl | rfl | rfl | rfl <;> decide

theorem isInt_integer {t : Nat} (h : t < 6) : isInt t = true := by
  rcases lt_six h with rfl | rfl | rfl | rfl | rfl | rfl <;> rfl

theorem isSignedInt_integer {t : Nat} (h : t < 6) : isSignedInt t = decide (t % 2 = 0) := by
  rcases lt_six h with rfl | rfl | rfl | rfl | rfl | rfl <;> rfl

theorem floatFmt_integer {t : Nat} (h : t < 6) : floatFmt t = none := by
  rcases lt_six h with rfl | rfl | rfl | rfl | rfl | rfl <;> rfl

theorem fmtBits_pos {t : Nat} (h : t < 6) : 0 < fmtBits t := by
  rw [fmtBits_integer h]
  exact Nat.mul_pos (by decide) (Nat.two_pow_pos _)

theorem intValue_lane {t : Nat} (h : t < 6) {x : Nat} (hx : x < 2 ^ fmtBits t) : intValue t x = laneInt (decide (t % 2 = 0)) (fmtBits t) x := by
  have half : 2 ^ fmtBits t = 2 * 2 ^ (fmtBits t - 1) := by
    rw [← Nat.pow_succ', Nat.succ_eq_add_one, Nat.sub_add_cancel (fmtBits_pos h)]
  have cast : ((2 ^ fmtBits t : Nat) : Int) = 2 ^ fmtBits t := by push_cast; rfl
  rw [intValue, isSignedInt_integer h, laneInt]
  cases decide (t % 2 = 0)
  · rw [if_neg Bool.false_ne_true, if_neg (fun c => Bool.false_ne_true c.1), Nat.mod_eq_of_lt hx]
  · rw [if_pos rfl, signed, Nat.mod_eq_of_lt hx, cast]
    by_cases small : x < 2 ^ (fmtBits t - 1)
    · rw [if_pos small, if_neg (fun c => absurd c.2 (Nat.not_le.2 small))]
    · rw [if_neg small, if_pos ⟨rfl, Nat.not_lt.1 small⟩]

theorem two_pow_cast (w : Nat) : ((2 ^ w : Nat) : Int) = 2 ^ w := by push_cast; rfl

theorem laneInt_agree (sg : Bool) (w x : Nat) : Agree w (laneInt sg w x) x := by
  rw [laneInt]
  split
  · exact agree_of_eq (-1) (by rw [two_pow_cast]; omega)
  · rfl

theorem wrap_congr {w : Nat} {x y : Int} (h : Agree w x y) : wrap w x = wrap w y := congrArg Int.toNat h

theorem wrap_natCast (w x : Nat) : wrap w (x : Int) = x % 2 ^ w := by
  rw [wrap, ← Int.natCast_emod, Int.toNat_natCast]

/-- Signed or not, different lanes hold different integers. -/
theorem laneInt_inj {sg : Bool} {w x y : Nat} (hx : x < 2 ^ w) (hy : y < 2 ^ w) (h : laneInt sg w x = laneInt sg w y) : x = y := by
  have equal : Agree w x y := (laneInt_agree sg w x).symm.trans (h ▸ laneInt_agree sg w y)
  have wrapped := wrap_congr equal
  rwa [wrap_natCast, wrap_natCast, Nat.mod_eq_of_lt hx, Nat.mod_eq_of_lt hy] at wrapped

theorem wrap_lt (w : Nat) (x : Int) : wrap w x < 2 ^ w := by
  have pos : (0 : Int) < ((2 ^ w : Nat) : Int) := Int.natCast_pos.2 (Nat.two_pow_pos w)
  have below := Int.emod_lt_of_pos x pos
  have above := Int.emod_nonneg x (Int.ne_of_gt pos)
  rw [wrap]
  omega

theorem fitInt_wraps (t : Nat) (x : Int) : fitInt t x false = ⟨wrap (fmtBits t) x, 0⟩ := rfl

/-! ### Integer operations -/

/-- The lanes of an operation on the integer types, unsaturated and with vector operands: `g` by width, sign and lane count. -/
def IntLanes (op : VectorOp) (g : Nat → Bool → Nat → (Nat → Nat) → (Nat → Nat) → (Nat → Nat) → Nat → Nat) : Prop :=
  ∀ x : VArgs, x.mode.type < 6 → fmtBits x.mode.type ≤ x.w → x.mode.sat = false → x.a.vector = true → x.b.vector = true → x.c.vector = true →
    let w := fmtBits x.mode.type
    (op.f x).2 = 0 ∧ Lanes x.w w (x.w / w) (op.f x).1 (g w (decide (x.mode.type % 2 = 0)) (x.w / w) (laneOf x.a w) (laneOf x.b w) (laneOf x.c w))

/-- An operation that maps lanes without a flag. -/
theorem lanes_mapLanes {x : VArgs} {f : Nat → Flagged Nat} {g : Nat → Nat} (hf : ∀ i, f i = ⟨g i, 0⟩) (hg : ∀ i, g i < 2 ^ fmtBits x.mode.type) :
    (mapLanes x.n (fmtBits x.T) f).2 = 0 ∧ Lanes x.w (fmtBits x.mode.type) (x.w / fmtBits x.mode.type) (mapLanes x.n (fmtBits x.T) f).1 g := by
  obtain rfl : f = fun i => ⟨g i, 0⟩ := funext hf
  rw [mapLanes_eq]
  exact ⟨rfl, lanes_packed g hg⟩

theorem intLanes_arith {accept : Nat → Bool} {oaccept : Option (Nat → Nat → Bool)} {lat : Nat → Nat} {fi : Int → Int → Int → Int}
    {ff : Nat → Num → Num → Num → Flagged Num} {g : Nat → Bool → Nat → (Nat → Nat) → (Nat → Nat) → (Nat → Nat) → Nat → Nat}
    (h : ∀ (w : Nat) (sg : Bool) (n : Nat) (a b c : Nat → Nat) (i : Nat), c i < 2 ^ w → b i < 2 ^ w →
      wrap w (fi (laneInt sg w (a i)) (laneInt sg w (b i)) (laneInt sg w (c i))) = g w sg n a b c i) :
    IntLanes { accept := accept, oaccept := oaccept, lat := lat, f := arith fi ff } g := by
  intro x ht hw hs ha hb hc w
  refine lanes_mapLanes (fun i => ?_) (fun i => ?_)
  · simp only [VArgs.elem, elem_vector ha, elem_vector hb, elem_vector hc]
    rw [VArgs.T, if_pos (isInt_integer ht), hs, fitInt_wraps, intValue_lane ht (laneOf_lt ..), intValue_lane ht (laneOf_lt ..), intValue_lane ht (laneOf_lt ..),
      h _ _ (x.w / w) (laneOf x.a w) (laneOf x.b w) (laneOf x.c w) i (laneOf_lt ..) (laneOf_lt ..)]
  · rw [← h _ _ _ (laneOf x.a w) (laneOf x.b w) (laneOf x.c w) i (laneOf_lt ..) (laneOf_lt ..)]
    exact wrap_lt _ _

theorem wrap_nat {w n : Nat} {z : Int} (h : Agree w z n) : wrap w z = n % 2 ^ w := (wrap_congr h).trans (wrap_natCast w n)

/-- Subtracting a lane is adding its complement. -/
theorem sub_agree {w b : Nat} (hb : b < 2 ^ w) (z : Int) : Agree w (z - b) (z + ((2 ^ w - b : Nat) : Int)) := by
  refine agree_of_eq (-1) ?_
  generalize 2 ^ w = m at hb ⊢
  omega

theorem intLanes_add : IntLanes opVaAdd fun w _ _ a b _ i => (a i + b i) % 2 ^ w :=
  intLanes_arith fun w sg _ a b _ i _ _ => wrap_nat ((laneInt_agree sg w (a i)).add (laneInt_agree sg w (b i)))

theorem intLanes_sub : IntLanes opVaSub fun w _ _ a b _ i => (a i + 2 ^ w - b i) % 2 ^ w :=
  intLanes_arith fun w sg _ a b _ i _ hb => by
    rw [Nat.add_sub_assoc (Nat.le_of_lt hb)]
    exact wrap_nat (((laneInt_agree sg w (a i)).sub (laneInt_agree sg w (b i))).trans (sub_agree hb _))

theorem intLanes_mul : IntLanes opVaMul fun w _ _ a b _ i => a i * b i % 2 ^ w :=
  intLanes_arith fun w sg _ a b _ i _ _ => wrap_nat ((laneInt_agree sg w (a i)).mul (laneInt_agree sg w (b i)))

theorem intLanes_fma : IntLanes opVaFma fun w _ _ a b c i => (a i * b i + c i) % 2 ^ w :=
  intLanes_arith fun w sg _ a b c i _ _ =>
    wrap_nat (((laneInt_agree sg w (a i)).mul (laneInt_agree sg w (b i))).add (laneInt_agree sg w (c i)))

theorem intLanes_fms : IntLanes opVaFms fun w _ _ a b c i => (a i * b i + (2 ^ w - c i)) % 2 ^ w :=
  intLanes_arith fun w sg _ a b c i hc _ =>
    wrap_nat ((((laneInt_agree sg w (a i)).mul (laneInt_agree sg w (b i))).sub (laneInt_agree sg w (c i))).trans (sub_agree hc _))

/-- An operation that takes each lane's patterns to a pattern. -/
theorem intLanes_pattern {accept : Nat → Bool} {oaccept : Option (Nat → Nat → Bool)} {lat : Nat → Nat} {p : Bool → Nat → Nat → Nat → Nat → Flagged Nat}
    {g : Nat → Bool → Nat → (Nat → Nat) → (Nat → Nat) → (Nat → Nat) → Nat → Nat}
    (h : ∀ (t : Nat), t < 6 → ∀ (n : Nat) (a b c : Nat → Nat) (i : Nat), a i < 2 ^ fmtBits t → b i < 2 ^ fmtBits t →
      p false t (a i) (b i) (c i) = ⟨g (fmtBits t) (decide (t % 2 = 0)) n a b c i, 0⟩ ∧ g (fmtBits t) (decide (t % 2 = 0)) n a b c i < 2 ^ fmtBits t) :
    IntLanes { accept := accept, oaccept := oaccept, lat := lat, f := fun x => pattern (p x.mode.sat) x } g := by
  intro x ht hw hs ha hb hc w
  have lane := fun i => h x.mode.type ht (x.w / w) (laneOf x.a w) (laneOf x.b w) (laneOf x.c w) i (laneOf_lt ..) (laneOf_lt ..)
  refine lanes_mapLanes (fun i => ?_) (fun i => (lane i).2)
  rw [hs]
  simp only [VArgs.elem, elem_vector ha, elem_vector hb, elem_vector hc]
  exact (lane i).1

theorem intLanes_min : IntLanes opVaMin fun w sg _ a b _ i => if laneInt sg w (a i) ≤ laneInt sg w (b i) then a i else b i := by
  refine intLanes_pattern (p := fun _ t a b _ => plainLane (pick t false a b)) fun t ht n a b c i ha hb => ⟨?_, ?_⟩
  · rw [plainLane, pick, if_pos (isInt_integer ht), if_neg Bool.false_ne_true, intValue_lane ht ha, intValue_lane ht hb]
    by_cases small : laneInt (decide (t % 2 = 0)) (fmtBits t) (b i) < laneInt (decide (t % 2 = 0)) (fmtBits t) (a i)
    · rw [if_pos small, if_neg (Int.not_le.2 small)]
    · rw [if_neg small, if_pos (Int.not_lt.1 small)]
  · split <;> assumption

theorem intLanes_max : IntLanes opVaMax fun w sg _ a b _ i => if laneInt sg w (a i) < laneInt sg w (b i) then b i else a i := by
  refine intLanes_pattern (p := fun _ t a b _ => plainLane (pick t true a b)) fun t ht n a b c i ha hb => ⟨?_, ?_⟩
  · rw [plainLane, pick, if_pos (isInt_integer ht), if_pos rfl, intValue_lane ht ha, intValue_lane ht hb]
  · split <;> assumption

theorem wrap_laneInt_neg {sg : Bool} {w b : Nat} (hb : b < 2 ^ w) : wrap w (-laneInt sg w b) = (2 ^ w - b) % 2 ^ w := by
  refine wrap_nat ((laneInt_agree sg w b).neg.trans ?_)
  simpa using sub_agree hb 0

theorem intLanes_abs : IntLanes opVaAbs fun w sg _ _ b _ i => if laneInt sg w (b i) < 0 then (2 ^ w - b i) % 2 ^ w else b i := by
  refine intLanes_pattern (p := fun sat t _ b _ => absLane sat t b) fun t ht n a b c i ha hb => ⟨?_, ?_⟩
  · rw [absLane, if_pos (isInt_integer ht), fitInt_wraps, intValue_lane ht hb]
    by_cases negative : laneInt (decide (t % 2 = 0)) (fmtBits t) (b i) < 0
    · rw [if_pos negative, Int.ofNat_natAbs_of_nonpos (Int.le_of_lt negative), wrap_laneInt_neg hb]
    · rw [if_neg negative, Int.natAbs_of_nonneg (Int.not_lt.1 negative), wrap_nat (laneInt_agree _ _ _), Nat.mod_eq_of_lt hb]
  · split
    · exact Nat.mod_lt _ (Nat.two_pow_pos _)
    · exact hb

theorem intLanes_neg : IntLanes opVaNeg fun w _ _ _ b _ i => (2 ^ w - b i) % 2 ^ w := by
  refine intLanes_pattern (p := fun sat t _ b _ => negLane sat t b) fun t ht n a b c i ha hb => ⟨?_, Nat.mod_lt _ (Nat.two_pow_pos _)⟩
  rw [negLane, if_pos (isInt_integer ht), fitInt_wraps, intValue_lane ht hb, wrap_laneInt_neg hb]

theorem intLanes_sel : IntLanes opVaSel fun _ _ _ a b c i => if c i = 0 then b i else a i := by
  refine intLanes_pattern (p := fun _ _ a b c => plainLane (if c = 0 then b else a)) fun t ht n a b c i ha hb => ⟨rfl, ?_⟩
  split <;> assumption

/-! ### Logic -/

/-- A lane of the low `W` bits is the lane of the whole, below `W`. -/
theorem lane_of_low {W w i : Nat} (h : i < W / w) (x : Nat) : x % 2 ^ W / 2 ^ (w * i) % 2 ^ w = x / 2 ^ (w * i) % 2 ^ w := by
  have fits : w * i + w ≤ W := by
    have := Nat.mul_le_mul_left w (Nat.succ_le_of_lt h)
    exact Nat.le_trans this (Nat.mul_div_le W w)
  rw [← Nat.sub_add_cancel (Nat.le_of_add_right_le fits), Nat.add_comm, Nat.pow_add, Nat.mod_mul_right_div_self, Nat.mod_mod_of_dvd]
  exact Nat.pow_dvd_pow 2 (by omega)

theorem intLanes_logic {accept : Nat → Bool} {oaccept : Option (Nat → Nat → Bool)} {lat : Nat → Nat} {p : Nat → Nat → Nat}
    (bound : ∀ {W a b : Nat}, a < 2 ^ W → b < 2 ^ W → p a b < 2 ^ W)
    (lanes : ∀ (w i a b : Nat), p a b / 2 ^ (w * i) % 2 ^ w = p (a / 2 ^ (w * i) % 2 ^ w) (b / 2 ^ (w * i) % 2 ^ w)) :
    IntLanes { accept := accept, oaccept := oaccept, lat := lat, f := logic p } fun _ _ _ a b _ i => p (a i) (b i) := by
  intro x ht hw hs ha hb hc w
  refine ⟨rfl, ?_, fun i hi => ?_⟩
  all_goals simp only [logic, Val.plain, ha, hb, if_true]
  · exact bound (Nat.mod_lt _ (Nat.two_pow_pos _)) (Nat.mod_lt _ (Nat.two_pow_pos _))
  · rw [lanes, lane_of_low hi, lane_of_low hi]
    rfl

theorem intLanes_and : IntLanes opVaAnd fun _ _ _ a b _ i => a i &&& b i :=
  intLanes_logic (fun ha _ => Nat.lt_of_le_of_lt Nat.and_le_left ha) fun w i a b => by rw [Nat.and_div_two_pow, Nat.and_mod_two_pow]

theorem intLanes_or : IntLanes opVaOr fun _ _ _ a b _ i => a i ||| b i :=
  intLanes_logic (fun ha hb => Nat.or_lt_two_pow ha hb) fun w i a b => by rw [Nat.or_div_two_pow, Nat.or_mod_two_pow]

theorem intLanes_xor : IntLanes opVaXor fun _ _ _ a b _ i => a i ^^^ b i :=
  intLanes_logic (fun ha hb => Nat.xor_lt_two_pow ha hb) fun w i a b => by rw [Nat.xor_div_two_pow, Nat.xor_mod_two_pow]

theorem intLanes_mov : IntLanes opVaMov fun _ _ _ _ b _ i => b i :=
  intLanes_logic (fun _ hb => hb) fun _ _ _ _ => rfl

/-! ### Shifts -/

theorem intLanes_shift {accept : Nat → Bool} {oaccept : Option (Nat → Nat → Bool)} {lat : Nat → Nat} {p : Nat → Nat → Nat → Nat}
    {g : Nat → Nat → Nat → Nat} (h : ∀ {w a n : Nat}, a < 2 ^ w → n < w → p w a n = g w a n ∧ g w a n < 2 ^ w) :
    IntLanes { accept := accept, oaccept := oaccept, lat := lat, f := shiftLanes p } fun w _ _ a b _ i => g w (a i) (b i % w) := by
  intro x ht hw hs ha hb hc w
  have lane := fun i => h (laneOf_lt x.a w i) (Nat.mod_lt (laneOf x.b w i) (fmtBits_pos ht))
  refine lanes_mapLanes (fun i => ?_) (fun i => (lane i).2)
  simp only [VArgs.elem, elem_vector ha, elem_vector hb]
  rw [plainLane]
  exact congrArg (fun v => (⟨v, 0⟩ : Flagged Nat)) (lane i).1

theorem intLanes_shl : IntLanes opVaShl fun w _ _ a b _ i => a i * 2 ^ (b i % w) % 2 ^ w :=
  intLanes_shift (g := fun w a n => a * 2 ^ n % 2 ^ w) fun _ _ => ⟨by rw [Nat.shiftLeft_eq], Nat.mod_lt _ (Nat.two_pow_pos _)⟩

theorem intLanes_shr : IntLanes opVaShr fun w _ _ a b _ i => a i / 2 ^ (b i % w) :=
  intLanes_shift (g := fun _ a n => a / 2 ^ n) fun ha _ => ⟨Nat.shiftRight_eq_div_pow _ _, Nat.lt_of_le_of_lt (Nat.div_le_self _ _) ha⟩

theorem intLanes_sar : IntLanes opVaSar fun w _ _ a b _ i => (laneInt true w (a i) / 2 ^ (b i % w) % 2 ^ w).toNat := by
  refine intLanes_shift (g := fun w a n => (laneInt true w a / 2 ^ n % 2 ^ w).toNat) fun {w a n} ha hn => ?_
  have value : wrap w (signed w a / 2 ^ n) = (laneInt true w a / 2 ^ n % 2 ^ w).toNat := by
    have cast : ((2 ^ w : Nat) : Int) = 2 ^ w := by push_cast; rfl
    rw [wrap, signed, laneInt, Nat.mod_eq_of_lt ha, cast]
    by_cases small : a < 2 ^ (w - 1)
    · rw [if_pos small, if_neg (fun c => absurd c.2 (Nat.not_le.2 small))]
    · rw [if_neg small, if_pos ⟨rfl, Nat.not_lt.1 small⟩]
  exact ⟨value, value ▸ wrap_lt _ _⟩

/-! ### Compares -/

theorem elemValue_lane {t : Nat} (h : t < 6) (x : Nat) : elemValue t x = .ofInt (intValue t x) := by
  rw [elemValue, floatFmt_integer h, intValue]
  rcases lt_six h with rfl | rfl | rfl | rfl | rfl | rfl <;> rfl

theorem cmp_ofInt (a b : Int) : (Num.ofInt a).cmp (.ofInt b) = if a - b < 0 then -1 else if a - b = 0 then 0 else 1 := by
  have sign : ∀ z : Int, (if (decide (z < 0)) = true then -((z.natAbs : Nat) : Int) else ((z.natAbs : Nat) : Int)) = z := by
    intro z
    by_cases hz : z < 0
    · rw [if_pos (decide_eq_true hz)]; omega
    · rw [if_neg (by simpa using hz)]; omega
  change (Ex.cmp _ _ : Int) = _
  simp only [Ex.cmp, Ex.at, Int.min_self, Int.sub_self, Int.toNat_zero, Nat.shiftLeft_zero, Nat.mul_one]
  rw [sign a, sign b]

/-- All ones where a condition holds. -/
def laneMask (w : Nat) (p : Bool) : Nat := if p then 2 ^ w - 1 else 0

theorem laneMask_lt (w : Nat) (p : Bool) : laneMask w p < 2 ^ w := by
  have := Nat.two_pow_pos w
  rw [laneMask]
  split <;> omega

theorem intLanes_compare {accept : Nat → Bool} {oaccept : Option (Nat → Nat → Bool)} {lat : Nat → Nat} {p : Int → Bool} {q : Bool → Nat → Nat → Nat → Bool}
    (h : ∀ (sg : Bool) {w a b : Nat}, a < 2 ^ w → b < 2 ^ w → p ((Num.ofInt (laneInt sg w a)).cmp (.ofInt (laneInt sg w b))) = q sg w a b) :
    IntLanes { accept := accept, oaccept := oaccept, lat := lat, f := compare p } fun w sg _ a b _ i => laneMask w (q sg w (a i) (b i)) := by
  intro x ht hw hs ha hb hc w
  refine lanes_mapLanes (fun i => ?_) (fun i => laneMask_lt _ _)
  simp only [VArgs.elem, elem_vector ha, elem_vector hb]
  rw [VArgs.T, elemValue_lane ht, elemValue_lane ht, intValue_lane ht (laneOf_lt ..), intValue_lane ht (laneOf_lt ..), h _ (laneOf_lt ..) (laneOf_lt ..)]
  rfl

theorem intLanes_cmpeq : IntLanes opVaCmpeq fun w _ _ a b _ i => laneMask w (a i == b i) := by
  refine intLanes_compare (q := fun _ _ a b => a == b) fun sg {w a b} ha hb => ?_
  rw [cmp_ofInt]
  by_cases equal : a = b
  · subst equal
    simp
  · have apart : laneInt sg w a ≠ laneInt sg w b := fun h => equal (laneInt_inj ha hb h)
    rw [beq_false_of_ne equal, beq_eq_false_iff_ne]
    split
    · decide
    · rw [if_neg (fun h => apart (Int.sub_eq_zero.1 h))]
      decide

theorem intLanes_cmplt : IntLanes opVaCmplt fun w sg _ a b _ i => laneMask w (decide (laneInt sg w (a i) < laneInt sg w (b i))) := by
  refine intLanes_compare (q := fun sg w a b => decide (laneInt sg w a < laneInt sg w b)) fun sg {w a b} _ _ => ?_
  rw [cmp_ofInt]
  refine decide_eq_decide.2 ?_
  split
  · omega
  · split <;> omega

theorem intLanes_cmple : IntLanes opVaCmple fun w sg _ a b _ i => laneMask w (decide (laneInt sg w (a i) ≤ laneInt sg w (b i))) := by
  refine intLanes_compare (q := fun sg w a b => decide (laneInt sg w a ≤ laneInt sg w b)) fun sg {w a b} _ _ => ?_
  rw [cmp_ofInt]
  refine decide_eq_decide.2 ?_
  split
  · omega
  · split <;> omega

/-! ### Permutes and sums -/

/-- Lane `k` of B's lanes followed by C's. -/
def laneSeq (n : Nat) (b c : Nat → Nat) (k : Nat) : Nat := if k < n then b k else if k < 2 * n then c (k - n) else 0

theorem laneSeq_lt {w : Nat} {b c : Nat → Nat} (hb : ∀ i, b i < 2 ^ w) (hc : ∀ i, c i < 2 ^ w) (n k : Nat) : laneSeq n b c k < 2 ^ w := by
  rw [laneSeq]
  split
  · exact hb k
  · split
    · exact hc _
    · exact Nat.two_pow_pos w

theorem intLanes_permute {accept : Nat → Bool} {oaccept : Option (Nat → Nat → Bool)} {lat : Nat → Nat} {p : VArgs → Nat → Nat}
    {g : Nat → (Nat → Nat) → (Nat → Nat) → (Nat → Nat) → Nat → Nat}
    (value : ∀ (x : VArgs) (i : Nat), p x i = g x.n (x.elem x.a) (x.elem x.b) (x.elem x.c) i)
    (bound : ∀ {w : Nat} (n : Nat) {a b c : Nat → Nat}, (∀ i, a i < 2 ^ w) → (∀ i, b i < 2 ^ w) → (∀ i, c i < 2 ^ w) → ∀ i, g n a b c i < 2 ^ w) :
    IntLanes { accept := accept, oaccept := oaccept, lat := lat, f := permute p } fun _ _ n a b c i => g n a b c i := by
  intro x ht hw hs ha hb hc w
  refine lanes_mapLanes (fun i => ?_) (fun i => bound _ (laneOf_lt x.a w) (laneOf_lt x.b w) (laneOf_lt x.c w) i)
  have a := funext fun i => elem_vector ha w i
  have b := funext fun i => elem_vector hb w i
  have c := funext fun i => elem_vector hc w i
  rw [plainLane, value, VArgs.n]
  change (⟨g (x.w / w) (x.a.elem w) (x.b.elem w) (x.c.elem w) i, 0⟩ : Flagged Nat) = _
  rw [a, b, c]

theorem intLanes_bcast : IntLanes opVaBcast fun _ _ n a b _ _ => if a 0 < n then b (a 0) else 0 :=
  intLanes_permute (g := fun n a b _ _ => if a 0 < n then b (a 0) else 0) (fun _ _ => rfl) fun {w} n _ _ _ _ hb _ _ => by
    split
    · exact hb _
    · exact Nat.two_pow_pos w

theorem intLanes_perm : IntLanes opVaPerm fun _ _ n a b c i => laneSeq n b c (a i) :=
  intLanes_permute (g := fun n a b c i => laneSeq n b c (a i)) (fun _ _ => rfl) fun n _ _ _ _ hb hc _ => laneSeq_lt hb hc n _

theorem intLanes_slide : IntLanes opVaSlide fun _ _ n a b c i => laneSeq n b c (i + a 0) :=
  intLanes_permute (g := fun n a b c i => laneSeq n b c (i + a 0)) (fun _ _ => rfl) fun n _ _ _ _ hb hc _ => laneSeq_lt hb hc n _

theorem intLanes_zip : IntLanes opVaZip fun _ _ _ a b _ i => if i % 2 = 0 then a (i / 2) else b (i / 2) :=
  intLanes_permute (g := fun _ a b _ i => if i % 2 = 0 then a (i / 2) else b (i / 2)) (fun _ _ => rfl) fun _ _ _ _ ha hb _ _ => by
    split
    · exact ha _
    · exact hb _

theorem intLanes_unzip : IntLanes opVaUnzip fun _ _ n _ b _ i => if i < n / 2 then b (2 * i) else b (2 * (i - n / 2) + 1) :=
  intLanes_permute (g := fun n _ b _ i => if i < n / 2 then b (2 * i) else b (2 * (i - n / 2) + 1)) (fun _ _ => rfl) fun _ _ _ _ _ hb _ _ => by
    split <;> exact hb _

theorem foldl_intValue {t : Nat} (h : t < 6) (l : List Nat) (hl : ∀ x ∈ l, x < 2 ^ fmtBits t) (z : Int) (k : Nat) (hz : Agree (fmtBits t) z k) :
    Agree (fmtBits t) (l.foldl (fun s e => s + intValue t e) z) ((k + l.sum : Nat) : Int) := by
  induction l generalizing z k with
  | nil => simpa using hz
  | cons x r ih =>
    rw [List.foldl_cons, List.sum_cons, ← Nat.add_assoc]
    refine ih (fun y hy => hl y (List.mem_cons_of_mem _ hy)) _ _ ?_
    rw [intValue_lane h (hl x List.mem_cons_self)]
    push_cast
    exact hz.add (laneInt_agree _ _ _)

theorem intLanes_rsum : IntLanes opVaRsum fun w _ n _ b _ i => if i = 0 then ((List.range n).map b).sum % 2 ^ w else 0 := by
  intro x ht hw hs ha hb hc w
  have lanes : lanesB x = (List.range (x.w / w)).map (laneOf x.b w) := by
    rw [lanesB, VArgs.n]
    exact List.map_congr_left fun i _ => elem_vector hb w i
  have below : ∀ y ∈ lanesB x, y < 2 ^ fmtBits x.mode.type := by
    rw [lanes]
    intro y hy
    obtain ⟨i, -, rfl⟩ := List.mem_map.1 hy
    exact laneOf_lt ..
  have sum := foldl_intValue ht (lanesB x) below 0 0 rfl
  have run : opVaRsum.f x = (((List.range (x.w / w)).map (laneOf x.b w)).sum % 2 ^ w, 0) := by
    change rsumLane x = _
    rw [rsumLane, VArgs.T, floatFmt_integer ht, hs]
    simp only [fitInt_wraps, oneLane]
    rw [wrap_nat sum, Nat.zero_add, lanes]
  rw [run]
  have small : ((List.range (x.w / w)).map (laneOf x.b w)).sum % 2 ^ w < 2 ^ w := Nat.mod_lt _ (Nat.two_pow_pos w)
  refine ⟨rfl, Nat.lt_of_lt_of_le small (Nat.pow_le_pow_right (by decide) hw), fun i hi => ?_⟩
  · cases i with
    | zero => simp
    | succ i =>
      refine Eq.trans ?_ (if_neg (Nat.succ_ne_zero i)).symm
      rw [Nat.div_eq_of_lt (Nat.lt_of_lt_of_le small (Nat.pow_le_pow_right (by decide) (Nat.le_mul_of_pos_right w (Nat.succ_pos i)))), Nat.zero_mod]

end Sys2Proof.Machine
end

section
/-!
SUPPORT. The vector units (O11): FP32 lanes, the mode checks, and the triggers.
-/

namespace Sys2Proof.Machine

/-! ### An FP32 result has 32 bits -/

/-- A finite value is an integer times a power of two. -/
def Dyadic (v : Num) : Prop := ∀ x, v = .fin x → x.d = 1

theorem dyadic_ofDyadic (s : Bool) (m : Nat) (e : Int) : Dyadic (.ofDyadic s m e) := by
  intro x h
  obtain rfl := Num.fin.inj h
  rfl

theorem dyadic_decode (f : FloatFmt) (x : Nat) : Dyadic (f.decode x) := by
  rw [FloatFmt.decode]
  split
  · split <;> exact fun _ h => nomatch h
  · split
    · exact fun _ h => nomatch h
    · split <;> exact dyadic_ofDyadic _ _ _

theorem Dyadic.neg {v : Num} (h : Dyadic v) : Dyadic v.neg := by
  cases v with
  | nan => exact h
  | inf s => exact fun _ e => nomatch e
  | fin x =>
    intro y e
    obtain rfl := Num.fin.inj e
    exact h x rfl

theorem Dyadic.add {u v : Num} (hu : Dyadic u) (hv : Dyadic v) (rm : Nat) : Dyadic (u.add v rm).val := by
  intro z h
  cases u with
  | nan => rw [nan_add] at h; cases h
  | inf s =>
    cases v with
    | nan => cases h
    | inf t => rw [Num.add] at h; split at h <;> cases h
    | fin y => cases h
  | fin x =>
    cases v with
    | nan => cases h
    | inf t => cases h
    | fin y =>
      obtain rfl := Num.fin.inj h
      exact congr (congrArg (· * ·) (hu x rfl)) (hv y rfl)

theorem Dyadic.mul {u v : Num} (hu : Dyadic u) (hv : Dyadic v) : Dyadic (u.mul v).val := by
  intro z h
  cases u with
  | nan => rw [nan_mul] at h; cases h
  | inf s =>
    cases v with
    | nan => cases h
    | inf t => cases h
    | fin y => rw [Num.mul] at h; split at h <;> cases h
  | fin x =>
    cases v with
    | nan => cases h
    | inf t => rw [Num.mul] at h; split at h <;> cases h
    | fin y =>
      obtain rfl := Num.fin.inj h
      exact congr (congrArg (· * ·) (hu x rfl)) (hv y rfl)

theorem log2_dyadic {x : Ex} (hd : x.d = 1) (hn : x.n ≠ 0) : x.log2 = x.n.log2 + x.e := by
  have top : 1 <<< x.n.log2 ≤ x.n := by
    rw [Nat.one_shiftLeft]
    exact Nat.log2_self_le hn
  have zero : (x.n.log2 : Int) - (Nat.log2 1 : Int) = x.n.log2 := Int.sub_zero _
  rw [Ex.log2, floorLog2, hd]
  simp only [zero, ge_iff_le, Int.natCast_nonneg, if_true, Int.toNat_natCast, top, decide_true]

/-- The significand of a value at its FP32 quantum has 24 bits. -/
theorem significand_lt {x : Ex} (hd : x.d = 1) (hn : x.n ≠ 0) : (x.scaled (fp32.quantum x)).1 < 2 ^ 24 := by
  have below : x.n < 2 ^ (x.n.log2 + 1) := Nat.lt_log2_self
  have large : (x.n.log2 : Int) + x.e - 23 ≤ fp32.quantum x := by
    rw [FloatFmt.quantum, log2_dyadic hd hn]
    exact Int.le_max_left _ _
  rw [Ex.scaled, hd, Nat.one_shiftLeft, Nat.shiftLeft_eq]
  refine Nat.div_lt_of_lt_mul ?_
  rw [← Nat.pow_add]
  calc x.n * 2 ^ (x.e - fp32.quantum x).toNat
      < 2 ^ (x.n.log2 + 1) * 2 ^ (x.e - fp32.quantum x).toNat := Nat.mul_lt_mul_of_pos_right below (Nat.two_pow_pos _)
    _ ≤ 2 ^ ((fp32.quantum x - x.e).toNat + 24) := by
      rw [← Nat.pow_add]
      exact Nat.pow_le_pow_right (by decide) (by omega)

/-- A significand of 24 bits or more that is not too large stands at most at the top quantum. -/
theorem quantum_le {k : Nat} {q : Int} (h : fp32.tooLarge k q = false) (hk : 2 ^ 23 ≤ k) : q ≤ 104 ∧ (k = 2 ^ 24 → q ≤ 103) := by
  have bound : ∀ d : Nat, q = 104 + d → k * 2 ^ d ≤ 2 ^ 24 - 1 := by
    intro d hq
    have top : min q fp32.maxE = 104 := Int.min_eq_right (by rw [hq]; exact Int.le_add_of_nonneg_right (Int.natCast_nonneg d))
    rw [FloatFmt.tooLarge, decide_eq_false_iff_not, top] at h
    have up : (q - 104).toNat = d := by omega
    rw [up, Nat.shiftLeft_eq k] at h
    exact Nat.not_lt.1 (show ¬ (2 ^ 24 - 1) <<< 0 < k * 2 ^ d from h)
  refine ⟨?_, fun full => ?_⟩
  · refine Decidable.byContradiction fun above => ?_
    have := bound (q - 104).toNat (by omega)
    have two : 2 ^ 1 ≤ 2 ^ (q - 104).toNat := Nat.pow_le_pow_right (by decide) (by omega)
    have := Nat.mul_le_mul hk two
    omega
  · refine Decidable.byContradiction fun above => ?_
    have := bound (q - 104).toNat (by omega)
    have one : 1 ≤ 2 ^ (q - 104).toNat := Nat.two_pow_pos _
    have := Nat.mul_le_mul hk one
    rw [full] at this
    have := Nat.mul_le_mul (Nat.le_of_eq full.symm) one
    omega

theorem pack_lt {neg : Bool} {k : Nat} {q : Int} (hk : k ≤ 2 ^ 24) (h : fp32.tooLarge k q = false) : fp32.pack neg k q < 2 ^ 32 := by
  have sign : (if neg then 2 ^ 31 else 0 : Nat) ≤ 2 ^ 31 := by cases neg <;> decide
  change (if (if k = 2 ^ 24 then 2 ^ 23 else k) < 2 ^ 23 then (if neg then 2 ^ 31 else 0 : Nat) + (if k = 2 ^ 24 then 2 ^ 23 else k)
    else (if neg then 2 ^ 31 else 0 : Nat) + ((if k = 2 ^ 24 then q + 1 else q) + 23 + 127).toNat * 2 ^ 23 + ((if k = 2 ^ 24 then 2 ^ 23 else k) - 2 ^ 23)) < 2 ^ 32
  by_cases full : k = 2 ^ 24
  · obtain ⟨-, top⟩ := quantum_le h (by omega)
    have := top full
    rw [if_pos full, if_pos full, if_neg (by decide)]
    omega
  · rw [if_neg full, if_neg full]
    by_cases low : k < 2 ^ 23
    · rw [if_pos low]
      omega
    · obtain ⟨top, -⟩ := quantum_le h (by omega)
      rw [if_neg low]
      omega

theorem overflow_lt (neg : Bool) (rm : Nat) (sat : Bool) : (fp32.overflow neg rm sat).val < 2 ^ 32 := by
  have largest : fp32.largest neg < 2 ^ 32 := by cases neg <;> decide
  have infinity : fp32.infinity neg < 2 ^ 32 := by cases neg <;> decide
  have run : (fp32.overflow neg rm sat).val = fp32.largest neg ∨ (fp32.overflow neg rm sat).val = fp32.infinity neg := by
    rw [FloatFmt.overflow, if_pos (show fp32.hasInf = true from rfl)]
    cases sat
    · rw [if_neg Bool.false_ne_true]
      dsimp only
      split
      · exact .inr rfl
      · exact .inl rfl
    · exact .inl rfl
  rcases run with h | h <;> rw [h]
  · exact largest
  · exact infinity

theorem roundEx_lt {x : Ex} (hd : x.d = 1) (rm : Nat) (sat : Bool) : (fp32.roundEx x rm sat).val < 2 ^ 32 := by
  rw [FloatFmt.roundEx]
  by_cases hn : x.n = 0
  · rw [if_pos hn]
    cases x.neg <;> decide
  · rw [if_neg hn]
    have low := significand_lt hd hn
    dsimp only
    generalize x.scaled (fp32.quantum x) = z at low ⊢
    obtain ⟨k, r, den⟩ := z
    dsimp only at low ⊢
    have rounded : (if roundsUp rm x.neg k r den = true then k + 1 else k) ≤ 2 ^ 24 := by split <;> omega
    generalize (if roundsUp rm x.neg k r den = true then k + 1 else k) = k' at rounded ⊢
    by_cases large : fp32.tooLarge k' (fp32.quantum x) = true
    · rw [if_pos large]
      exact overflow_lt _ _ _
    · rw [if_neg large]
      exact pack_lt rounded (Bool.not_eq_true _ ▸ large)

theorem out_lt {v : Num} (h : Dyadic v) (rm : Nat) (sat : Bool) : (fp32.out v rm sat).val < 2 ^ 32 := by
  cases v with
  | nan => change 0x7FC00000 < 2 ^ 32; decide
  | inf s =>
    change (fp32.ofInf s sat).val < 2 ^ 32
    cases s <;> cases sat <;> decide
  | fin x => exact roundEx_lt (h x rfl) rm sat

/-- The FP32 lanes of an operation, under RNE and with vector operands: `p` of the lanes' values, rounded once. -/
def Fp32Lanes (op : VectorOp) (p : Num → Num → Flagged Num) : Prop :=
  ∀ x : VArgs, x.mode.type = 9 → x.mode.rm = 0 → x.a.vector = true → x.b.vector = true →
    Lanes x.w 32 (x.w / 32) (op.f x).1 fun i => (fp32.out (p (fp32.decode (laneOf x.a 32 i)) (fp32.decode (laneOf x.b 32 i))).val 0 x.mode.sat).val

theorem fp32Lanes_arith {lat : Nat → Nat} {fi : Int → Int → Int → Int} {ff : Nat → Num → Num → Num → Flagged Num} {p : Num → Num → Flagged Num}
    (hp : ∀ a b c, ff 0 a b c = p a b) (closed : ∀ {a b : Num}, Dyadic a → Dyadic b → Dyadic (p a b).val) :
    Fp32Lanes { accept := vectorType, oaccept := none, lat := lat, f := arith fi ff } p := by
  intro x ht hr ha hb
  have values : (arith fi ff x).1 = packLanes 32 ((List.range (x.w / 32)).map
      fun i => (fp32.out (p (fp32.decode (laneOf x.a 32 i)) (fp32.decode (laneOf x.b 32 i))).val 0 x.mode.sat).val) := by
    obtain ⟨⟨type, otype, rm, sat, sr, blk, ue, seed⟩, unit, count, w, a, b, c⟩ := x
    cases ht
    cases hr
    rw [arith, mapLanes_values]
    refine congrArg (packLanes 32) (List.map_congr_left fun i _ => ?_)
    have ea := elem_vector ha 32 i
    have eb := elem_vector hb 32 i
    rw [← ea, ← eb, ← hp _ _ (elemValue 9 (c.elem 32 i))]
    cases sr <;> rfl
  rw [values]
  exact lanes_packed _ fun i => out_lt (closed (dyadic_decode _ _) (dyadic_decode _ _)) 0 _

theorem fp32Lanes_add : Fp32Lanes opVaAdd fun a b => a.add b 0 := fp32Lanes_arith (fun _ _ _ => rfl) fun ha hb => ha.add hb 0

theorem fp32Lanes_sub : Fp32Lanes opVaSub fun a b => a.add b.neg 0 := fp32Lanes_arith (fun _ _ _ => rfl) fun ha hb => ha.add hb.neg 0

theorem fp32Lanes_mul : Fp32Lanes opVaMul fun a b => a.mul b := fp32Lanes_arith (fun _ _ _ => rfl) fun ha hb => ha.mul hb

/-! ### Triggers -/

theorem widthBits_bounds (w : BitVec 2) : 32 ≤ widthBits w ∧ widthBits w ≤ 1024 := by
  rw [widthBits]
  split
  · decide
  · split <;> decide

section
variable {i : Vm → Instr} {op : VectorOp} {port : Nat} (he : ∀ m s, exec (i m) s = runVm m port (vector op) s)
include he

/-- A vector instruction whose mode passes the checks delivers its value. -/
theorem vector_delivers {m : Vm} {s t : State} {v : Val} (h : Reads s m.bus m.src false v t) (present : Present t [32, 33])
    (pass : modeFault op (vectorArgs t m.bus.val (widthBits m.w) v).mode = none) :
    exec (i m) s = .next (deliver t s.cur m.bus.val (0x0B0 + m.bus.val) (op.lat (vectorArgs t m.bus.val (widthBits m.w) v).mode.type)
      (BitVec.ofNat 1024 (op.f (vectorArgs t m.bus.val (widthBits m.w) v)).1) (op.f (vectorArgs t m.bus.val (widthBits m.w) v)).2) := by
  have latches : needLatches t s.cur port = .ok () := h.cur ▸ needLatches_present present (by simp) port
  have body := vector_eq (x := { c := s.cur, bus := m.bus.val, port := port, b := v, w := widthBits m.w, pre := s.here.arch }) h.cur.symm present op
  rw [pass, busResult, h.cur] at body
  rw [he]
  exact runVm_next h latches body

/-- A vector instruction whose mode fails a check faults with that check's subcode. -/
theorem vector_faults {m : Vm} {s t : State} {v : Val} {n : Nat} (h : Reads s m.bus m.src false v t) (present : Present t [32, 33])
    (fails : modeFault op (vectorArgs t m.bus.val (widthBits m.w) v).mode = some n) :
    exec (i m) s = .next (takeCoreFault s s.cur (modeRecord n m.bus.val)) := by
  have latches : needLatches t s.cur port = .ok () := h.cur ▸ needLatches_present present (by simp) port
  have body := vector_eq (x := { c := s.cur, bus := m.bus.val, port := port, b := v, w := widthBits m.w, pre := s.here.arch }) h.cur.symm present op
  rw [fails] at body
  rw [he]
  exact runVm_fault h latches body

end

end Sys2Proof.Machine
end

section
/-!
SUPPORT. The vector triggers (O11), assembled: latencies, integer and FP32 lanes, and the checks of Table 11.3.
-/

namespace Sys2Proof.Machine

/-! ### Latencies -/

/-- What a vector instruction does, by the checks of its mode. -/
def VectorRuns (i : Vm → Instr) (op : VectorOp) (lo hi : Nat) : Prop :=
  ∀ (m : Vm) (s t : State) (v : Val), 2 ≤ m.bus → m.bus ≤ 4 → Reads s m.bus m.src false v t → Present t [32, 33] →
    let x := vectorArgs t m.bus.val (widthBits m.w) v
    (modeFault op x.mode = none →
      exec (i m) s = .next (deliver t s.cur m.bus.val (0x0B0 + m.bus.val) (if isFloat x.mode.type then hi else lo) (BitVec.ofNat 1024 (op.f x).1) (op.f x).2)) ∧
    ∀ n, modeFault op x.mode = some n → exec (i m) s = .next (takeCoreFault s s.cur (modeRecord n m.bus.val))

theorem toNat_ofNat_of_lt {x w n : Nat} (h : x < 2 ^ w) (hw : w ≤ n) : (BitVec.ofNat n x).toNat = x := by
  rw [BitVec.toNat_ofNat]
  exact Nat.mod_eq_of_lt (Nat.lt_of_lt_of_le h (Nat.pow_le_pow_right (by decide) hw))

section
variable {i : Vm → Instr} {op : VectorOp} {port lo hi : Nat} (he : ∀ m s, exec (i m) s = runVm m port (vector op) s)
include he

/-- An operation whose latency is that of its type. -/
theorem runs_byType (hlat : op.lat = latOf lo hi := by rfl) : VectorRuns i op lo hi := by
  intro m s t v _ _ h present x
  refine ⟨fun pass => ?_, fun _ fails => vector_faults he h present fails⟩
  have value := vector_delivers he h present pass
  rw [hlat] at value
  exact value

/-- An operation of one latency. -/
theorem runs_fixed (hlat : op.lat = fun _ => lo := by rfl) : VectorRuns i op lo lo := by
  intro m s t v _ _ h present x
  refine ⟨fun pass => ?_, fun _ fails => vector_faults he h present fails⟩
  have value := vector_delivers he h present pass
  rw [hlat] at value
  rw [ite_self]
  exact value

/-! ### Lanes -/

/-- An operation on the integer types, unsaturated and with vector operands: its lanes hold `g`, and no flag is set. -/
theorem runs_intLanes {g : Nat → Bool → Nat → (Nat → Nat) → (Nat → Nat) → (Nat → Nat) → Nat → Nat} (lanes : IntLanes op g)
    (pass : ∀ t, t < 6 → op.accept t = true := by decide) (free : op.oaccept = none := by rfl) (hlat : ∀ t, t < 6 → op.lat t = lo := by decide)
    (m : Vm) (s t : State) (v : Val) (_ : 2 ≤ m.bus) (_ : m.bus ≤ 4) (h : Reads s m.bus m.src false v t) (present : Present t [32, 33]) :
    let x := vectorArgs t m.bus.val (widthBits m.w) v
    x.mode.type < 6 → x.mode.sat = false → m.w ≠ 3 → x.a.vector = true → x.b.vector = true → x.c.vector = true →
      let w := 8 * 2 ^ (x.mode.type / 2)
      let n := widthBits m.w / w
      ∃ r : BitVec 1024, exec (i m) s = .next (deliver t s.cur m.bus.val (0x0B0 + m.bus.val) lo r 0) ∧ r.toNat < 2 ^ widthBits m.w ∧
        ∀ k, k < n → r.toNat / 2 ^ (w * k) % 2 ^ w = g w (decide (x.mode.type % 2 = 0)) n (laneOf x.a w) (laneOf x.b w) (laneOf x.c w) k := by
  intro x ht hs _ ha hb hc w n
  have known : badCode x.mode.type = false := by
    generalize x.mode.type = t at ht ⊢
    rcases lt_six ht with rfl | rfl | rfl | rfl | rfl | rfl <;> rfl
  have passes : modeFault op x.mode = none := by
    rw [modeFault, known, if_neg Bool.false_ne_true, pass _ ht, free]
    rfl
  have fits : fmtBits x.mode.type ≤ x.w := by
    refine Nat.le_trans ?_ (widthBits_bounds m.w).1
    generalize x.mode.type = t at ht ⊢
    rcases lt_six ht with rfl | rfl | rfl | rfl | rfl | rfl <;> decide
  obtain ⟨flags, below, values⟩ := lanes x ht fits hs ha hb hc
  have value := vector_delivers he h present passes
  rw [flags, hlat _ ht] at value
  have whole := toNat_ofNat_of_lt below (widthBits_bounds m.w).2
  refine ⟨_, value, whole.symm ▸ below, fun k hk => ?_⟩
  rw [whole]
  rw [fmtBits_integer ht] at values
  exact values k hk

/-- An FP32 operation under RNE with vector operands: each lane is the exact value rounded once. -/
theorem runs_fp32 {p : Num → Num → Flagged Num} (lanes : Fp32Lanes op p)
    (pass : op.accept 9 = true := by rfl) (free : op.oaccept = none := by rfl) (hlat : op.lat 9 = 4 := by rfl)
    (m : Vm) (s t : State) (v : Val) (_ : 2 ≤ m.bus) (_ : m.bus ≤ 4) (h : Reads s m.bus m.src false v t) (present : Present t [32, 33]) :
    let x := vectorArgs t m.bus.val (widthBits m.w) v
    x.mode.type = 9 → x.mode.rm = 0 → m.w ≠ 3 → x.a.vector = true → x.b.vector = true →
      ∃ (r : BitVec 1024) (f : Word), exec (i m) s = .next (deliver t s.cur m.bus.val (0x0B0 + m.bus.val) 4 r f) ∧ r.toNat < 2 ^ widthBits m.w ∧
        ∀ k, k < widthBits m.w / 32 → r.toNat / 2 ^ (32 * k) % 2 ^ 32 =
          (fp32.out (p (fp32.decode (laneOf x.a 32 k)) (fp32.decode (laneOf x.b 32 k))).val 0 x.mode.sat).val := by
  intro x ht hr _ ha hb
  have passes : modeFault op x.mode = none := by
    rw [modeFault, ht, pass, free]
    rfl
  obtain ⟨below, values⟩ := lanes x ht hr ha hb
  have value := vector_delivers he h present passes
  rw [show op.lat (vectorArgs t m.bus.val (widthBits m.w) v).mode.type = 4 from (congrArg op.lat ht).trans hlat] at value
  have whole := toNat_ofNat_of_lt below (widthBits_bounds m.w).2
  refine ⟨_, _, value, whole.symm ▸ below, fun k hk => ?_⟩
  rw [whole]
  exact values k hk

end

/-! ### The checks of Table 11.3 -/

theorem badCode_iff (t : Nat) : badCode t = true ↔ t = 0x12 ∨ 0x15 ≤ t := by
  simp only [badCode, Bool.or_eq_true, beq_iff_eq, decide_eq_true_eq]
  exact Iff.rfl

theorem modeFault_reserved (op : VectorOp) {m : Mode} (h : m.type = 0x12 ∨ 0x15 ≤ m.type) : modeFault op m = some 1 := if_pos ((badCode_iff _).2 h)

/-- A code that the operation does not accept. -/
theorem modeFault_unaccepted {op : VectorOp} {m : Mode} {l : List Nat} (h : m.type ∈ l) (refused : ∀ t ∈ l, op.accept t = false := by decide)
    (known : ∀ t ∈ l, badCode t = false := by decide) : modeFault op m = some 2 := by
  rw [modeFault, known _ h, if_neg Bool.false_ne_true, refused _ h]
  rfl

/-- An otype that the operation does not accept with this type. -/
theorem modeFault_otype {op : VectorOp} {m : Mode} {l o : List Nat} {g : Nat → Nat → Bool} (h : m.type ∈ l) (ho : badCode m.otype = true ∨ m.otype ∈ o)
    (reads : op.oaccept = some g := by rfl) (accepted : ∀ t ∈ l, op.accept t = true := by decide) (known : ∀ t ∈ l, badCode t = false := by decide)
    (refused : ∀ t ∈ l, ∀ u ∈ o, g t u = false := by decide) : modeFault op m = some 3 := by
  have fails : (badCode m.otype || !g m.type m.otype) = true := by
    rcases ho with bad | other
    · rw [bad]; rfl
    · rw [refused _ h _ other]; exact Bool.or_true _
  rw [modeFault, known _ h, if_neg Bool.false_ne_true, accepted _ h, reads]
  exact if_pos fails

/-- Settles O11: each operation is a vector trigger; the lanes of the integer operations are those of their lemmas, FP32 lanes are rounded once, and the
checks of Table 11.3 are tried in their order. -/
theorem vectorRuns : Obligations.VectorRuns := by
  unfold Obligations.VectorRuns
  refine ⟨fun p hp => ?latencies, ?lanes, ?checks⟩
  case latencies =>
    show VectorRuns p.1 p.2.1 p.2.2.1 p.2.2.2
    revert p
    simp only [List.forall_mem_cons]
    exact ⟨runs_byType fun _ _ => rfl, runs_byType fun _ _ => rfl, runs_byType fun _ _ => rfl, runs_fixed fun _ _ => rfl, runs_fixed fun _ _ => rfl,
      runs_byType fun _ _ => rfl, runs_byType fun _ _ => rfl, runs_fixed fun _ _ => rfl, runs_fixed fun _ _ => rfl, runs_fixed fun _ _ => rfl,
      runs_fixed fun _ _ => rfl, runs_fixed fun _ _ => rfl, runs_fixed fun _ _ => rfl, runs_fixed fun _ _ => rfl, runs_fixed fun _ _ => rfl,
      runs_fixed fun _ _ => rfl, runs_fixed fun _ _ => rfl, runs_fixed fun _ _ => rfl, runs_fixed fun _ _ => rfl, runs_fixed fun _ _ => rfl,
      runs_fixed fun _ _ => rfl, runs_fixed fun _ _ => rfl, runs_fixed fun _ _ => rfl, runs_fixed fun _ _ => rfl, runs_fixed fun _ _ => rfl,
      runs_fixed fun _ _ => rfl, runs_fixed fun _ _ => rfl, runs_fixed fun _ _ => rfl, runs_fixed fun _ _ => rfl, runs_fixed fun _ _ => rfl,
      runs_fixed fun _ _ => rfl, runs_fixed fun _ _ => rfl, runs_fixed fun _ _ => rfl, runs_fixed fun _ _ => rfl, runs_fixed fun _ _ => rfl,
      runs_fixed fun _ _ => rfl, runs_byType fun _ _ => rfl, runs_fixed fun _ _ => rfl, runs_fixed fun _ _ => rfl, List.forall_mem_nil _⟩
  case lanes =>
    intro int mask seq lane
    simp only [List.forall_mem_cons]
    exact ⟨⟨runs_intLanes (fun _ _ => rfl) intLanes_add, runs_intLanes (fun _ _ => rfl) intLanes_sub, runs_intLanes (fun _ _ => rfl) intLanes_mul,
      runs_intLanes (fun _ _ => rfl) intLanes_fma, runs_intLanes (fun _ _ => rfl) intLanes_fms, runs_intLanes (fun _ _ => rfl) intLanes_min,
      runs_intLanes (fun _ _ => rfl) intLanes_max, runs_intLanes (fun _ _ => rfl) intLanes_abs, runs_intLanes (fun _ _ => rfl) intLanes_neg,
      runs_intLanes (fun _ _ => rfl) intLanes_and, runs_intLanes (fun _ _ => rfl) intLanes_or, runs_intLanes (fun _ _ => rfl) intLanes_xor,
      runs_intLanes (fun _ _ => rfl) intLanes_mov, runs_intLanes (fun _ _ => rfl) intLanes_shl, runs_intLanes (fun _ _ => rfl) intLanes_shr,
      runs_intLanes (fun _ _ => rfl) intLanes_sar, runs_intLanes (fun _ _ => rfl) intLanes_cmpeq, runs_intLanes (fun _ _ => rfl) intLanes_cmplt,
      runs_intLanes (fun _ _ => rfl) intLanes_cmple, runs_intLanes (fun _ _ => rfl) intLanes_sel, runs_intLanes (fun _ _ => rfl) intLanes_bcast,
      runs_intLanes (fun _ _ => rfl) intLanes_perm, runs_intLanes (fun _ _ => rfl) intLanes_zip, runs_intLanes (fun _ _ => rfl) intLanes_unzip,
      runs_intLanes (fun _ _ => rfl) intLanes_slide, runs_intLanes (fun _ _ => rfl) intLanes_rsum, List.forall_mem_nil _⟩,
      runs_fp32 (fun _ _ => rfl) fp32Lanes_add,
      runs_fp32 (fun _ _ => rfl) fp32Lanes_sub,
      runs_fp32 (fun _ _ => rfl) fp32Lanes_mul, List.forall_mem_nil _⟩
  case checks =>
    intro m s t v _ _ h present x faults
    refine ⟨fun bad i hi => ?reserved, fun low high i hi => ?shifts, fun ht i hi => ?unaccepted, fun ht ho i hi => ?otype, fun ht ho i hi => ?halves⟩
    all_goals simp only [List.mem_cons (a := i), List.not_mem_nil, or_false] at hi
    case reserved =>
      rcases hi with rfl | rfl | rfl | rfl | rfl | rfl | rfl | rfl | rfl | rfl | rfl | rfl | rfl | rfl | rfl | rfl | rfl | rfl | rfl | rfl | rfl | rfl | rfl | rfl | rfl |
        rfl | rfl | rfl | rfl | rfl | rfl | rfl | rfl | rfl | rfl | rfl | rfl | rfl | rfl <;> exact vector_faults (fun _ _ => rfl) h present (modeFault_reserved _ bad)
    case shifts =>
      have ht : x.type ∈ List.range' 6 12 := by
        rw [List.mem_range'_1]
        omega
      rcases hi with rfl | rfl | rfl <;> exact vector_faults (fun _ _ => rfl) h present (modeFault_unaccepted ht)
    case unaccepted =>
      rcases hi with rfl | rfl | rfl | rfl | rfl | rfl | rfl | rfl | rfl | rfl | rfl | rfl | rfl | rfl | rfl | rfl | rfl | rfl | rfl | rfl | rfl | rfl | rfl | rfl | rfl |
        rfl | rfl | rfl | rfl | rfl <;> exact vector_faults (fun _ _ => rfl) h present (modeFault_unaccepted ht)
    case otype =>
      have refused : badCode x.otype = true ∨ x.otype ∈ [0x06] := by
        rw [badCode_iff, List.mem_singleton, or_assoc]
        exact ho
      rcases hi with rfl | rfl | rfl | rfl | rfl | rfl <;> exact vector_faults (fun _ _ => rfl) h present (modeFault_otype ht refused)
    case halves =>
      rcases hi with rfl | rfl | rfl <;> exact vector_faults (fun _ _ => rfl) h present (modeFault_otype (List.mem_singleton.2 ht) (.inr ho))

end Sys2Proof.Machine
end

section
/-!
SUPPORT. The invariant of the module (O57): the relation that every function of the machine keeps, and its rules.
-/

namespace Sys2Proof.Machine

/-- What the work from `r` to `s` keeps: canonical memories stay canonical, the allowance stays within the budget, and the current core is the same. -/
structure Sound (r s : State) : Prop where
  mem : r.MemOk → s.MemOk
  budget : r.BudgetOk → s.BudgetOk
  cur : s.cur = r.cur

/-- The same of the four fields that matter. -/
def SoundBy (r : State) (m h : Memory) (b : Budget) (c : Nat) : Prop :=
  (r.MemOk → m.wf ∧ h.wf) ∧ (r.BudgetOk → b.allowance ≤ Config.windowBudget ∧ b.nextAllowance ≤ Config.windowBudget) ∧ c = r.cur

theorem soundBy_iff (r s : State) : SoundBy r s.mem s.host s.budget s.cur ↔ Sound r s :=
  ⟨fun ⟨hm, hb, hc⟩ => ⟨hm, hb, hc⟩, fun ⟨hm, hb, hc⟩ => ⟨hm, hb, hc⟩⟩

/-- The other fields of a state are any whatever. -/
theorem sound_record (r : State) :
    ∀ {agenda cur eng fresh module cores banks mem host ecc counters regions newRegions pasids caches blocks shoots pools snapFrames timedOut ats runs
      decided hubRuns targets qcbs packets gaths jobs graphs readies deadDies budget saved vault savePasid time members domain flows circuits timetabled
      landing slotTabs slotNext slotTime links apertures slices windows mailbox command status manifests checkpoint policyLoaded tx reports hostOut},
      Sound r (.mk agenda cur eng fresh module cores banks mem host ecc counters regions newRegions pasids caches blocks shoots pools snapFrames timedOut ats runs
        decided hubRuns targets qcbs packets gaths jobs graphs readies deadDies budget saved vault savePasid time members domain flows circuits timetabled
        landing slotTabs slotNext slotTime links apertures slices windows mailbox command status manifests checkpoint policyLoaded tx reports hostOut) ↔
        SoundBy r mem host budget cur :=
  (soundBy_iff r _).symm

theorem Sound.refl (r : State) : Sound r r := ⟨id, id, rfl⟩

theorem Sound.trans {r s t : State} (h : Sound r s) (g : Sound s t) : Sound r t := ⟨g.mem ∘ h.mem, g.budget ∘ h.budget, g.cur.trans h.cur⟩

/-- The invariant is kept. -/
theorem Sound.inv {r s : State} (h : Sound r s) (ok : r.Inv) : s.Inv := ⟨h.mem ok.1, h.budget ok.2⟩

theorem Sound.same {r s t : State} (h : Sound r s) (hm : t.mem = s.mem) (hh : t.host = s.host) (hb : t.budget = s.budget) (hc : t.cur = s.cur) : Sound r t := by
  rw [← soundBy_iff] at h ⊢
  rwa [hm, hh, hb, hc]

@[simp] theorem sound_setCore (r s : State) (c : Nat) (k : Core) : Sound r (s.setCore c k) ↔ Sound r s := by rw [← soundBy_iff, ← soundBy_iff]; rfl

@[simp] theorem sound_modCore (r s : State) (c : Nat) (f : Core → Core) : Sound r (s.modCore c f) ↔ Sound r s := sound_setCore ..

@[simp] theorem sound_modArch (r s : State) (c : Nat) (f : Arch → Arch) : Sound r (s.modArch c f) ↔ Sound r s := sound_modCore ..

@[simp] theorem sound_setBank (r s : State) (e : Nat) (b : Bank) : Sound r (s.setBank e b) ↔ Sound r s := by rw [← soundBy_iff, ← soundBy_iff]; rfl

@[simp] theorem sound_modBank (r s : State) (e : Nat) (f : Bank → Bank) : Sound r (s.modBank e f) ↔ Sound r s := sound_setBank ..

/-- Work on each member of a list. -/
theorem sound_foldl {α : Type} {r s : State} {f : State → α → State} {l : List α} (h : Sound r s) (step : ∀ u x, Sound r u → Sound r (f u x)) : Sound r (l.foldl f s) := by
  induction l generalizing s with
  | nil => exact h
  | cons x l ih => exact ih (step s x h)

/-! ### Results that may stop -/

theorem bind_ok {ε α β : Type} {x : Except ε α} {f : α → Except ε β} {b : β} : (x >>= f) = .ok b ↔ ∃ a, x = .ok a ∧ f a = .ok b := by
  cases x with
  | error e => exact ⟨fun h => (nomatch h), fun ⟨_, h, _⟩ => (nomatch h)⟩
  | ok a => exact ⟨fun h => ⟨a, rfl, h⟩, fun ⟨_, h, h'⟩ => by cases h; exact h'⟩

theorem dotBind_ok {ε α β : Type} {x : Except ε α} {f : α → Except ε β} {b : β} : x.bind f = .ok b ↔ ∃ a, x = .ok a ∧ f a = .ok b := bind_ok

theorem pure_ok {ε α : Type} {a : α} : @Pure.pure (Except ε) (@Applicative.toPure _ (@Monad.toApplicative _ Except.instMonad)) α a = .ok a := rfl

theorem map_ok {ε α β : Type} {x : Except ε α} {f : α → β} {b : β} : x.map f = .ok b ↔ ∃ a, x = .ok a ∧ f a = b := by
  cases x with
  | error e => exact ⟨fun h => (nomatch h), fun ⟨_, h, _⟩ => (nomatch h)⟩
  | ok a => exact ⟨fun h => ⟨a, rfl, Except.ok.inj h⟩, fun ⟨_, h, h'⟩ => by cases h; cases h'; rfl⟩

theorem upon_ok {α : Type} {s : State} {x : Res α} {a : α} : upon s x = .ok a ↔ x = .ok a := by
  cases x with
  | error e => exact ⟨fun h => (nomatch h), fun h => (nomatch h)⟩
  | ok b => exact Iff.rfl

theorem atPart_eq_ok {α : Type} {w : Nat} {x : Res α} {a : α} : atPart w x = .ok a ↔ x = .ok a := by
  cases x with
  | error e => exact ⟨fun h => (nomatch h), fun h => (nomatch h)⟩
  | ok b => exact Iff.rfl

/-! ### Memory -/

theorem sound_writeByte {r s : State} {p : Place} {b : Byte} (h : Sound r s) : Sound r (s.writeByte p b) := by
  obtain ⟨m, g, eq⟩ := s.writeByte_eq p b
  exact ⟨fun ok => (h.mem ok).writeByte p b, by rw [eq]; exact h.budget, by rw [eq]; exact h.cur⟩

theorem sound_writeAt {r s : State} {p : Place} {d : List Byte} (h : Sound r s) : Sound r (s.writeAt p d) := by
  obtain ⟨m, g, x, eq⟩ := s.writeAt_eq p d
  exact ⟨fun ok => (h.mem ok).writeAt p d, by rw [eq]; exact h.budget, by rw [eq]; exact h.cur⟩

theorem sound_write64 {r s : State} {p : Place} {v : Word} (h : Sound r s) : Sound r (s.write64 p v) := sound_writeAt h

theorem sound_write32 {r s : State} {p : Place} {v : BitVec 32} (h : Sound r s) : Sound r (s.write32 p v) := sound_writeAt h

theorem sound_writeMasked {r s : State} {p : Place} {l : List (Nat × Byte)} (h : Sound r s) : Sound r (writeMasked p l s) := by
  induction l generalizing s with
  | nil => exact h
  | cons x l ih => exact ih (sound_writeByte h)

/-! ### The relations of the parts before -/

theorem LeafWork.sound {r s t : State} (w : LeafWork s t) (h : Sound r s) : Sound r t := by
  obtain ⟨ok, m, a, x, c, sh, po, sn, wt, rfl⟩ := w
  exact ⟨ok ∘ h.mem, h.budget, h.cur⟩

theorem HubWork.sound {r s t : State} (w : HubWork s t) (h : Sound r s) : Sound r t := by
  obtain ⟨ok, m, a, x, c, sh, po, sn, wt, hr, fl, tx, rfl⟩ := w
  exact ⟨ok ∘ h.mem, h.budget, h.cur⟩

end Sys2Proof.Machine
end

section
/-!
SUPPORT. The invariant (O57): cores, translation, the gate and the triggers.
-/

namespace Sys2Proof.Machine

theorem sound_withdrawFabric {r s : State} {c : Nat} (h : Sound r s) : Sound r (withdrawFabric s c) := by
  grind [withdrawFabric, sound_record, soundBy_iff, = map_ok, = dotBind_ok, = upon_ok, = atPart_eq_ok]

theorem sound_takeFault {r s : State} {c : Nat} {f : CFault} {bundle count : Nat} (h : Sound r s) : Sound r (takeFault s c f bundle count) := by
  grind [takeFault, sound_setCore, sound_withdrawFabric, sound_record, soundBy_iff]

theorem sound_takeCoreFault {r s : State} {c : Nat} {f : CFault} (h : Sound r s) : Sound r (takeCoreFault s c f) := by
  grind [takeCoreFault, sound_takeFault]

theorem sound_takeFreeze {r s : State} {c : Nat} {why : Freeze} {arg w : Nat} (h : Sound r s) : Sound r (takeFreeze s c why arg w) := by
  grind [takeFreeze, sound_modCore, sound_record, soundBy_iff]

theorem sound_markFaulted {r s : State} {agent pasid va : Nat} (h : Sound r s) : Sound r (markFaulted s agent pasid va) := by
  grind [markFaulted, sound_record, soundBy_iff, = map_ok, = dotBind_ok, = upon_ok, = atPart_eq_ok]

theorem sound_dropFaulted {r s : State} {agent pasid va : Nat} (h : Sound r s) : Sound r (dropFaulted s agent pasid va) := by
  grind [dropFaulted, sound_record, soundBy_iff]

theorem sound_resumeCore {r s : State} {c : Nat} (h : Sound r s) : Sound r (resumeCore s c) := by
  grind [resumeCore, sound_setCore, sound_record, soundBy_iff]

theorem sound_deliver {r s : State} {c bus port lat : Nat} {v : Vec} {flags : Word} (h : Sound r s) : Sound r (deliver s c bus port lat v flags) := by
  grind [deliver, sound_modArch]

theorem sound_recordOp {r s : State} {c : Nat} {o : Op} {f : CFault} (h : Sound r s) : Sound r (recordOp s c o f).1 := by
  grind [recordOp, sound_setCore, sound_record, soundBy_iff]

theorem sound_noteDecodeError {r s : State} {c : Nat} {o : Op} {place : Nat} (h : Sound r s) : Sound r (noteDecodeError s c o place) := by
  grind [noteDecodeError, sound_recordOp, sound_record, soundBy_iff]

theorem sound_parkOp {r s : State} {c : Nat} {o : Op} {f : CFault} (h : Sound r s) : Sound r (parkOp s c o f) := by
  grind [parkOp, sound_modCore, sound_recordOp, sound_record, soundBy_iff]

theorem sound_finishOp {r s : State} {c : Nat} {o : Op} {err : Option (Nat × Nat)} (h : Sound r s) : Sound r (finishOp s c o err) := by
  grind [finishOp, sound_modCore, sound_record, soundBy_iff]

theorem sound_releaseCancel {r s : State} {c : Nat} {o : Op} (h : Sound r s) : Sound r (releaseCancel s c o) := by
  grind [releaseCancel, sound_modCore, sound_record, soundBy_iff, sound_foldl]

theorem sound_releaseClose {r s : State} {c : Nat} (h : Sound r s) : Sound r (releaseClose s c) := by
  grind [releaseClose.eq_def, sound_modCore, sound_finishOp, sound_record, soundBy_iff]

theorem sound_enqueueList {r s : State} {c id : Nat} {l : List Nat} (h : Sound r s) : Sound r (enqueueList c id l s) := by
  induction l generalizing s with
  | nil => exact h
  | cons e l ih => exact ih ((sound_modBank ..).2 h)

theorem sound_releaseList {r s : State} {c : Nat} {o : Op} (h : Sound r s) : Sound r (releaseList s c o) := by
  grind [releaseList, sound_modCore, sound_enqueueList, sound_record, soundBy_iff]

theorem sound_performWrites {r s : State} {e : Nat} {p : BankWrite → Bool} (h : Sound r s) : Sound r (performWrites s e p) := by
  grind [performWrites, sound_writeAt, sound_modBank, sound_record, soundBy_iff, sound_foldl]

theorem sound_performBank {r s : State} {e : Nat} (h : Sound r s) : Sound r (performBank s e) := by
  grind [performBank, sound_performWrites]

theorem sound_endOnEngine {r s : State} {id e : Nat} (h : Sound r s) : Sound r (endOnEngine s id e) := by
  grind [endOnEngine, sound_modBank, sound_performBank, sound_record, soundBy_iff]

theorem sound_endOnEngines {r s : State} {l : BankList} (h : Sound r s) : Sound r (endOnEngines s l) := by
  grind [endOnEngines, sound_endOnEngine, sound_foldl]

theorem sound_stopList {r s : State} {c : Nat} {l : BankList} {err : Nat × Nat} (h : Sound r s) : Sound r (stopList s c l err) := by
  grind [stopList, sound_modCore, sound_endOnEngines, sound_record, soundBy_iff]

theorem sound_stopLists {r s : State} {c : Nat} (h : Sound r s) : Sound r (stopLists s c) := by
  grind [stopLists, sound_stopList, sound_foldl]

theorem sound_release {r s : State} {c : Nat} {o : Op} (h : Sound r s) : Sound r (release s c o) := by
  grind [release, sound_modCore, sound_releaseCancel, sound_releaseClose, sound_releaseList, sound_stopLists, sound_record, soundBy_iff]

theorem sound_arrive {r s : State} {c off n : Nat} (h : Sound r s) : Sound r (arrive s c off n) := by
  grind [arrive, sound_modCore]

theorem sound_arriveErr {r s : State} {c off n : Nat} (h : Sound r s) : Sound r (arriveErr s c off n) := by
  grind [arriveErr, sound_modCore]

theorem sound_touchLeaf {r s : State} {a : Nat} {e : Word} {write : Bool} (h : Sound r s) : Sound r (touchLeaf s a e write).1 := by
  grind [touchLeaf, sound_write64]

theorem sound_walk {r s : State} {ag : Agent} {pasid va : Nat} {write : Bool} {t : State} {y : Word} (e : walk s ag pasid va write = .ok (t, y))
    (h : Sound r s) : Sound r t := by
  have work := leafWork_walk s ag pasid va write
  rw [e] at work
  exact work.sound h

theorem sound_translate {r s : State} {ag : Agent} {pasid va : Nat} {write : Bool} {t y} (e : translate s ag pasid va write = .ok (t, y)) (h : Sound r s) : Sound r t := by
  grind [translate, sound_walk, sound_record, soundBy_iff]

theorem sound_forgetTimeOut {r s : State} {agent pasid va : Nat} (h : Sound r s) : Sound r (State.forgetTimeOut s agent pasid va) := by
  grind [State.forgetTimeOut, sound_record, soundBy_iff]

theorem sound_touchCached {r s : State} {x : CacheEntry} (h : Sound r s) : Sound r (touchCached s x) := by
  grind [touchCached.eq_def, sound_write64, sound_record, soundBy_iff]

theorem sound_keepWalks {r s t : State} (h : Sound r s) : Sound r (s.keepWalks t) := (leafWork_keepWalks s t).sound h

theorem sound_walked {r s : State} {e : Stop} (h : Sound r s) : Sound r (e.walked s) := by
  induction e generalizing s with
  | behind t e ih => exact ih (sound_keepWalks h)
  | _ => exact h

theorem sound_dirtyPage {r s : State} {pasid : Nat} {h : Handle} (hs : Sound r s) : Sound r (dirtyPage s pasid h) := by
  grind [dirtyPage.eq_def, sound_write64, sound_record, soundBy_iff]

theorem sound_rewalkFor {r s : State} {die pasid : Nat} {h : Handle} {t y} (e : rewalkFor s die pasid h = .ok (t, y)) (hs : Sound r s) : Sound r t := by
  grind [rewalkFor.eq_def, sound_walk, sound_record, soundBy_iff]

theorem sound_rewalk {r s : State} {c : Nat} {h : Handle} {t y} (e : rewalk s c h = .ok (t, y)) (hs : Sound r s) : Sound r t := by
  grind [rewalk, sound_rewalkFor]

theorem sound_freshHandle {r s : State} {c : Nat} {h : Handle} {w addr : Nat} {t y} (e : freshHandle s c h w addr = .ok (t, y)) (hs : Sound r s) : Sound r t := by
  grind [freshHandle, sound_rewalk, sound_record, soundBy_iff]

theorem sound_writableHandle {r s : State} {c : Nat} {h : Handle} {w addr : Nat} {t y} (e : writableHandle s c h w addr = .ok (t, y)) (hs : Sound r s) : Sound r t := by
  grind [writableHandle, sound_rewalk, sound_record, soundBy_iff]

theorem sound_checkContents {r s : State} {c : Nat} {h : Handle} {off size g : Nat} {write : Bool} {inv w addr : Nat} {t y} (e : checkContents s c h off size g write inv w addr = .ok (t, y)) (hs : Sound r s) : Sound r t := by
  grind [checkContents, sound_freshHandle, sound_writableHandle, sound_record, soundBy_iff, = bind_ok, = pure_ok, = map_ok, = dotBind_ok, = upon_ok, = atPart_eq_ok]

theorem sound_checkHandle {r s : State} {c : Nat} {t : Word} {size g : Nat} {write : Bool} {w : Nat} {u y} (e : checkHandle s c t size g write w = .ok (u, y)) (h : Sound r s) : Sound r u := by
  grind [checkHandle, sound_modArch, sound_checkContents, = bind_ok, = pure_ok]

theorem sound_takeStop {r s : State} {c : Nat} {e : Stop} (h : Sound r s) : Sound r (takeStop s c e) := by
  induction e generalizing s with
  | fault f => exact sound_takeCoreFault h
  | faultAt f bundle count => exact sound_takeFault h
  | freeze why arg w => exact sound_takeFreeze h
  | behind t e ih => exact ih (sound_keepWalks h)

theorem sound_finish {r s t : State} {c : Nat} {x : Res State} (h : Sound r s) (ok : ∀ u, x = .ok u → Sound r u) (e : finish s c x = .next t) : Sound r t := by
  cases x with
  | ok u =>
    obtain rfl := Host.Outcome.next.inj e
    exact ok _ rfl
  | error f =>
    obtain rfl := Host.Outcome.next.inj e
    exact sound_takeStop h

theorem sound_fillBoth {r s : State} {c tag : Nat} {f : Due → Due} (h : Sound r s) : Sound r (fillBoth s c tag f) := by
  grind [fillBoth, sound_modCore, sound_record, soundBy_iff]

theorem sound_flagRaise {r s : State} {id : Nat} (h : Sound r s) : Sound r (flagRaise s id) := by
  grind [flagRaise, sound_record, soundBy_iff, = map_ok, = dotBind_ok, = upon_ok, = atPart_eq_ok]

theorem sound_performAtomic {r s : State} {c : Nat} {p : Place} {port size : Nat} {b cmp : Word} {old : Nat} (h : Sound r s) : Sound r (performAtomic s c p port size b cmp old) := by
  grind [performAtomic, sound_writeAt, sound_flagRaise, sound_record, soundBy_iff]

theorem sound_performPub {r s : State} {e : Pub} (h : Sound r s) : Sound r (performPub s e) := by
  grind [performPub, sound_writeMasked, sound_record, soundBy_iff]

theorem sound_performGranule {r s : State} {c : Nat} {g : Place} (h : Sound r s) : Sound r (performGranule s c g) := by
  grind [performGranule, sound_modCore, sound_performPub, sound_record, soundBy_iff, sound_foldl]

theorem sound_atomicArrival {r s : State} {c : Nat} {d : Due} (h : Sound r s) : Sound r (atomicArrival s c d) := by
  grind [atomicArrival.eq_def, sound_fillBoth, sound_performAtomic, sound_performGranule, sound_record, soundBy_iff]

theorem sound_settleGranule {r s : State} {c : Nat} {g : Place} (h : Sound r s) : Sound r (settleGranule s c g) := by
  grind [settleGranule, sound_atomicArrival, sound_foldl]

theorem sound_performAll {r s : State} {c : Nat} (h : Sound r s) : Sound r (performAll s c) := by
  grind [performAll, sound_modCore, sound_performPub, sound_record, soundBy_iff, sound_foldl]

theorem sound_pubRoom {r s : State} {c : Nat} {g : Place} (h : Sound r s) : Sound r (pubRoom s c g) := by
  grind [pubRoom, sound_modCore, sound_performPub, sound_record, soundBy_iff]

theorem sound_publish {r s : State} {c page : Nat} {p : Place} {d : List Byte} (h : Sound r s) : Sound r (publish s c page p d) := by
  grind [publish, sound_modCore, sound_settleGranule, sound_pubRoom, sound_record, soundBy_iff, sound_foldl]

theorem sound_gateAppend {r s : State} {c bus : Nat} {g : Gated} {t : State} (e : gateAppend s c bus g = .ok t) (h : Sound r s) : Sound r t := by
  grind [gateAppend, sound_modCore, sound_record, soundBy_iff]

theorem sound_publishStore {r s : State} {c : Nat} {h : Handle} {x : Store} (hs : Sound r s) : Sound r (publishStore s c h x) := by
  grind [publishStore, sound_dirtyPage, sound_publish]

theorem sound_commitStore {r s : State} {c : Nat} {x : Store} {t : State} (e : commitStore s c x = .ok t) (h : Sound r s) : Sound r t := by
  grind [commitStore.eq_def, sound_modCore, sound_modArch, sound_checkContents, sound_publishStore, sound_record, soundBy_iff, = bind_ok, = pure_ok]

theorem sound_commitEntry {r s t : State} {c : Nat} {g : Gated} (e : commitEntry s c g = .ok t) (h : Sound r s) : Sound r t := by
  cases g with
  | store x => exact sound_commitStore e h
  | engine o => grind [commitEntry, sound_release, = map_ok]
  | _ => grind [commitEntry, sound_modCore, sound_performAll, = map_ok]

theorem sound_commitEntries {r s t : State} {c : Nat} {l : List Gated} (e : commitEntries c l s = .ok t) (h : Sound r s) : Sound r t := by
  induction l generalizing s with
  | nil => exact Except.ok.inj e ▸ h
  | cons g l ih =>
    obtain ⟨u, first, rest⟩ := dotBind_ok.1 e
    exact ih (upon_ok.1 rest) (sound_commitEntry first h)

theorem sound_commitGate {r s : State} {c : Nat} {t : State} (e : commitGate s c = .ok t) (h : Sound r s) : Sound r t := by
  grind [commitGate, sound_modCore, sound_commitEntries, sound_record, soundBy_iff, = map_ok, = dotBind_ok, = upon_ok, = atPart_eq_ok]

theorem sound_snapshot {r s : State} {c : Nat} (h : Sound r s) : Sound r (snapshot s c) := by
  grind [snapshot, sound_modCore, sound_record, soundBy_iff]

theorem sound_writeDest {r s : State} {c p : Nat} {v : Val} (h : Sound r s) : Sound r (writeDest s c p v) := by
  grind [writeDest, sound_modCore, sound_record, soundBy_iff]

/-- What a trigger's body keeps. -/
def SoundBody (body : Body) : Prop := ∀ {r s t : State} {x : Trig}, Sound r s → body x s = .ok t → Sound r t

theorem sound_startTrigger {r s t : State} {x : Trig} {body : Body} (hb : SoundBody body) (h : Sound r s) (e : startTrigger x body s = .ok t) : Sound r t := by
  obtain ⟨_, -, run⟩ := dotBind_ok.1 e
  exact hb h run

theorem sound_runTrigger {r s t : State} {c bus src : Nat} {keep : Bool} {port w : Nat} {body : Body} (hb : SoundBody body) (h : Sound r s)
    (e : runTrigger c bus src keep port w body s = .ok t) : Sound r t := by
  obtain ⟨v, -, e⟩ := bind_ok.1 e
  dsimp only at e
  split at e
  · obtain ⟨u, pops, run⟩ := bind_ok.1 e
    obtain ⟨k, -, rfl⟩ := map_ok.1 pops
    exact sound_startTrigger hb ((sound_setCore ..).2 h) (atPart_eq_ok.1 run)
  · exact sound_startTrigger hb h (atPart_eq_ok.1 e)

theorem sound_runMv {r s t : State} {m : Mv} {port : Nat} {body : Body} (hb : SoundBody body) (h : Sound r s) (e : runMv m port body s = .next t) : Sound r t :=
  sound_finish h (fun _ run => sound_runTrigger hb h run) e

theorem sound_runVm {r s t : State} {m : Vm} {port : Nat} {body : Body} (hb : SoundBody body) (h : Sound r s) (e : runVm m port body s = .next t) : Sound r t :=
  sound_finish h (fun _ run => sound_runTrigger hb h run) e

/-- What an address-slot operation keeps. -/
def SoundSlot (f : SlotBody) : Prop := ∀ {r s t : State} {c : Nat} {a : Arch}, Sound r s → f c a s = .ok t → Sound r t

theorem sound_runSlot {r s t : State} {f : SlotBody} (hf : SoundSlot f) (h : Sound r s) (e : runSlot f s = .next t) : Sound r t :=
  sound_finish h (fun _ run => hf h run) e

theorem sound_due {r s t : State} {x : Trig} {lat : Nat} {v : Vec} {flags : Word} (e : due x s lat v flags = .ok t) (h : Sound r s) : Sound r t :=
  Except.ok.inj e ▸ sound_deliver h

theorem sound_markFirst {r s : State} {c : Nat} {t : State} (e : markFirst s c = .ok t) (h : Sound r s) : Sound r t := by
  grind [markFirst, sound_commitGate, sound_snapshot, = bind_ok, = pure_ok, = map_ok, = dotBind_ok, = upon_ok, = atPart_eq_ok]

theorem sound_waitState {r s : State} {c : Nat} {why : Freeze} {arg : Nat} (h : Sound r s) : Sound r (waitState s c why arg) := by
  grind [waitState, sound_modCore, sound_performAll, sound_record, soundBy_iff]

theorem sound_runMark {r s : State} {c : Nat} {f : State → Res State} (hf : ∀ {u t}, Sound r u → f u = .ok t → Sound r t) (h : Sound r s) : Sound r (runMark s c f) := by
  unfold runMark
  cases first : markFirst s c with
  | error e => exact sound_takeStop h
  | ok t =>
    have marked := sound_markFirst first h
    dsimp only
    cases run : f t with
    | ok u => exact (sound_modCore ..).2 (hf marked run)
    | error e =>
      have walked : Sound r (e.walked t) := sound_walked marked
      dsimp only
      grind [sound_takeFreeze, sound_waitState, sound_keepWalks, sound_takeStop]

theorem sound_runMarkMv {r s t : State} {m : Mv} {port : Nat} {body : Body} (hb : SoundBody body) (h : Sound r s) (e : runMarkMv m port body s = .next t) : Sound r t :=
  Host.Outcome.next.inj e ▸ sound_runMark (sound_runTrigger hb) h

theorem sound_runAfterMarkMv {r s t : State} {m : Mv} {port : Nat} {body : Body} (hb : SoundBody body) (h : Sound r s) (e : runAfterMarkMv m port body s = .next t) :
    Sound r t := by
  refine Host.Outcome.next.inj e ▸ sound_runMark (fun h run => ?_) h
  obtain ⟨u, first, eq⟩ := map_ok.1 run
  exact eq ▸ sound_snapshot (sound_runTrigger hb h first)

end Sys2Proof.Machine
end

section
/-!
SUPPORT. The invariant (O57): the memory units, and the memory accesses of the engines.
-/

namespace Sys2Proof.Machine

theorem sound_lateDue {r s : State} {x : Trig} {lat page : Nat} {req : Req} (h : Sound r s) : Sound r (lateDue x s lat page req) := by
  grind [lateDue, sound_modArch, sound_record, soundBy_iff]

theorem sound_performLoad {r s : State} {c : Nat} {d : Due} (h : Sound r s) : Sound r (performLoad s c d) := by
  grind [performLoad.eq_def, sound_modCore, sound_fillBoth, sound_record, soundBy_iff, = map_ok, = dotBind_ok, = upon_ok, = atPart_eq_ok]

theorem sound_performBefore {r s : State} {c epoch : Nat} (h : Sound r s) : Sound r (performBefore s c epoch) := by
  grind [performBefore, sound_performLoad, sound_foldl]

theorem sound_ownDue {r s : State} {x : Trig} {v : Core → Vec} {t : State} (e : ownDue x s v = .ok t) (h : Sound r s) : Sound r t := by
  grind [ownDue, sound_due, sound_performBefore]

theorem sound_load {r s : State} {size sx : Nat} {x : Trig} {t : State} (e : load size sx x s = .ok t) (h : Sound r s) : Sound r t := by
  grind [load, sound_checkHandle, sound_lateDue, sound_ownDue, = bind_ok, = pure_ok]

theorem sound_store {r s : State} {size : Nat} {x : Trig} {t : State} (e : store size x s = .ok t) (h : Sound r s) : Sound r t := by
  grind [store, sound_checkHandle, sound_gateAppend, = bind_ok, = pure_ok, = map_ok, = dotBind_ok, = upon_ok, = atPart_eq_ok]

theorem sound_xlt {r s : State} {x : Trig} {t : State} (e : xlt x s = .ok t) (h : Sound r s) : Sound r t := by
  grind [xlt, sound_lateDue, = bind_ok, = pure_ok]

theorem sound_hrel {r s : State} {x : Trig} {t : State} (e : hrel x s = .ok t) (h : Sound r s) : Sound r t := by
  grind [hrel, sound_setCore, sound_record, soundBy_iff, = bind_ok, = pure_ok]

theorem sound_tlook {r s : State} {x : Trig} {t : State} (e : tlook x s = .ok t) (h : Sound r s) : Sound r t := by
  grind [tlook, sound_setCore, sound_due, sound_record, soundBy_iff, = bind_ok, = pure_ok]

theorem sound_tagWrite {r s : State} {x : Trig} {o : TagOp} {t : State} (e : tagWrite x s o = .ok t) (h : Sound r s) : Sound r t := by
  grind [tagWrite, sound_setCore, sound_record, soundBy_iff, = bind_ok, = pure_ok]

theorem sound_tins {r s : State} {x : Trig} {t : State} (e : tins x s = .ok t) (h : Sound r s) : Sound r t := by
  grind [tins, sound_tagWrite]

theorem sound_tdel {r s : State} {x : Trig} {t : State} (e : tdel x s = .ok t) (h : Sound r s) : Sound r t := by
  grind [tdel, sound_tagWrite]

theorem sound_swpost {r s : State} {x : Trig} {t : State} (e : swpost x s = .ok t) (h : Sound r s) : Sound r t := by
  grind [swpost, sound_gateAppend, = bind_ok, = pure_ok]

theorem sound_swadd {r s : State} {x : Trig} {t : State} (e : swadd x s = .ok t) (h : Sound r s) : Sound r t := by
  grind [swadd, sound_gateAppend, = bind_ok, = pure_ok]

theorem sound_swrd {r s : State} {x : Trig} {t : State} (e : swrd x s = .ok t) (h : Sound r s) : Sound r t := by
  grind [swrd, sound_ownDue, = bind_ok, = pure_ok]

theorem sound_swwait {r s : State} {x : Trig} {t : State} (e : swwait x s = .ok t) (h : Sound r s) : Sound r t := by
  grind [swwait, = bind_ok, = pure_ok]

theorem sound_jwait {r s : State} {x : Trig} {t : State} (e : jwait x s = .ok t) (h : Sound r s) : Sound r t := by
  grind [jwait, = bind_ok, = pure_ok]

theorem sound_jset {r s : State} {x : Trig} {t : State} (e : jset x s = .ok t) (h : Sound r s) : Sound r t := by
  grind [jset, sound_gateAppend]

theorem sound_atomic {r s : State} {x : Trig} {t : State} (e : atomic x s = .ok t) (h : Sound r s) : Sound r t := by
  grind [atomic, sound_setCore, sound_dirtyPage, sound_checkHandle, sound_due, sound_lateDue, = bind_ok, = pure_ok]

theorem sound_phase {r s : State} {x : Trig} {t : State} (e : phase x s = .ok t) (h : Sound r s) : Sound r t := by
  grind [phase, sound_performAll]

theorem sound_xfence {r s : State} {x : Trig} {t : State} (e : xfence x s = .ok t) (h : Sound r s) : Sound r t := by
  grind [xfence, sound_gateAppend]

theorem sound_lateArrival {r s : State} {c tag : Nat} (h : Sound r s) : Sound r (lateArrival s c tag) := by
  grind [lateArrival.eq_def, sound_atomicArrival, sound_performLoad, sound_performBefore, sound_record, soundBy_iff, sound_foldl]

theorem sound_settleAtomics {r s : State} {c : Nat} (h : Sound r s) : Sound r (settleAtomics s c) := by
  grind [settleAtomics, sound_lateArrival, sound_record, soundBy_iff, sound_foldl]

theorem sound_walkArrival {r s : State} {c tag : Nat} (h : Sound r s) : Sound r (walkArrival s c tag) := by
  unfold walkArrival
  split
  · exact h
  · split
    · split
      · exact sound_fillBoth (sound_walk ‹_› h)
      · exact sound_fillBoth (sound_dropFaulted h)
      · exact h
    · exact h

theorem sound_execLateResultArrival {r s : State} {core tag : Nat} {t : State} (e : execLateResultArrival core tag s = .next t) (h : Sound r s) : Sound r t := by
  grind [execLateResultArrival, sound_lateArrival]

theorem sound_execXltWalkComplete {r s : State} {core tag : Nat} {t : State} (e : execXltWalkComplete core tag s = .next t) (h : Sound r s) : Sound r t := by
  grind [execXltWalkComplete, sound_walkArrival]

theorem sound_execPublishEntryPerform {r s : State} {core granule : Nat} {t : State} (e : execPublishEntryPerform core granule s = .next t) (h : Sound r s) : Sound r t := by
  obtain rfl := Host.Outcome.next.inj e
  split
  · exact sound_performGranule h
  · exact h

/-! ### Units of engine operations that may stop -/

/-- What a stopped unit of an engine operation leaves: where it waits for answers, the state that holds its requests. -/
def SoundStop (r : State) : EStop → Prop
  | .hold t => Sound r t
  | .behind _ e => SoundStop r e
  | _ => True

theorem bind_error {ε α β : Type} {x : Except ε α} {f : α → Except ε β} {e : ε} : (x >>= f) = .error e ↔ x = .error e ∨ ∃ a, x = .ok a ∧ f a = .error e := by
  cases x with
  | error e' => exact ⟨fun h => .inl (congrArg Except.error (Except.error.inj h)), fun h => h.elim (fun h => congrArg Except.error (Except.error.inj h)) fun ⟨_, h, _⟩ => (nomatch h)⟩
  | ok a => exact ⟨fun h => .inr ⟨a, rfl, h⟩, fun h => h.elim (fun h => (nomatch h)) fun ⟨_, h, h'⟩ => by cases h; exact h'⟩

theorem map_error {ε α β : Type} {x : Except ε α} {f : α → β} {e : ε} : x.map f = .error e ↔ x = .error e := by
  cases x with
  | error e' => exact ⟨fun h => congrArg Except.error (Except.error.inj h), fun h => congrArg Except.error (Except.error.inj h)⟩
  | ok a => exact ⟨fun h => (nomatch h), fun h => (nomatch h)⟩

theorem along_ok {α : Type} {s : State} {x : ERes α} {a : α} : along s x = .ok a ↔ x = .ok a := by
  cases x with
  | error e => cases e <;> exact ⟨fun h => (nomatch h), fun h => (nomatch h)⟩
  | ok b => exact Iff.rfl

theorem stop_along {α : Type} {r s : State} {x : ERes α} {e : EStop} (he : along s x = .error e) (h : ∀ f, x = .error f → SoundStop r f) : SoundStop r e := by
  cases x with
  | ok a => cases he
  | error f =>
    have first := h f rfl
    cases f <;> cases he <;> exact first

theorem stop_walkStop (r s : State) (agent pasid at' va : Nat) (f : XFail) : SoundStop r (walkStop s agent pasid at' va f) := by
  cases f <;> trivial

theorem stop_mapFault {r : State} {g : CFault → CFault} {e : EStop} (h : SoundStop r e) : SoundStop r (e.mapFault g) := by
  induction e with
  | behind t e ih => exact ih h
  | hold t => exact h
  | _ => trivial

theorem sound_modOp {r s : State} {c id : Nat} {f : Op → Op} (h : Sound r s) : Sound r (State.modOp s c id f) := by
  grind [State.modOp, sound_modCore, sound_record, soundBy_iff]

theorem sound_setFlow {r s : State} {key : Nat} {f : Flow} (h : Sound r s) : Sound r (State.setFlow s key f) := by
  grind [State.setFlow, sound_record, soundBy_iff]

theorem sound_sendSprayed {r s : State} {die node : Nat} {p : Packet} {core op : Nat} (h : Sound r s) : Sound r (sendSprayed s die node p core op) := by
  grind [sendSprayed, sound_setFlow, sound_record, soundBy_iff]

theorem sound_sendRequest {r s : State} {c id : Nat} {q : Request} (h : Sound r s) : Sound r (sendRequest s c id q) := by
  unfold sendRequest
  split
  · exact h
  · dsimp only
    grind [sound_modOp, sound_sendSprayed, sound_modCore]

theorem sound_windowPlace {r s : State} {perm pasid node off at' : Nat} {write : Bool} {t y} (e : windowPlace s perm pasid node off at' write = .ok (t, y)) (h : Sound r s) : Sound r t := by
  grind [windowPlace.eq_def, sound_translate, sound_record, soundBy_iff]

theorem stop_windowPlace {r s : State} {perm pasid node off at' : Nat} {write : Bool} {err : EStop} (e : windowPlace s perm pasid node off at' write = .error err) (_ : Sound r s) : SoundStop r err := by
  grind [windowPlace.eq_def, eFault, stop_walkStop, sound_translate, sound_record, soundBy_iff, SoundStop]

theorem stop_needSpad {r s : State} {d off n : Nat} {err : EStop} (e : needSpad s d off n = .error err) : SoundStop r err := by
  grind [needSpad, SoundStop]

theorem stop_readSpad {r s : State} {d off n : Nat} {err : EStop} (e : readSpad s d off n = .error err) : SoundStop r err := by
  grind [readSpad, stop_needSpad, = map_ok, = map_error, SoundStop]

theorem sound_writeSpad {r s : State} {d off : Nat} {data : List Byte} {t : State} (e : writeSpad s d off data = .ok t) (h : Sound r s) : Sound r t := by
  grind [writeSpad, sound_modCore, = map_ok, = dotBind_ok, = upon_ok, = atPart_eq_ok]

theorem stop_writeSpad {r s : State} {d off : Nat} {data : List Byte} {err : EStop} (e : writeSpad s d off data = .error err) (_ : Sound r s) : SoundStop r err := by
  grind [writeSpad, stop_needSpad, sound_modCore, = map_ok, = map_error, SoundStop]

theorem sound_dropTid {r s : State} {c tid : Nat} (h : Sound r s) : Sound r (dropTid s c tid) := (sound_modCore ..).2 h

theorem stop_runMoved {r s : State} {c id : Nat} {d : Dest} {w : Nat} (h : Sound r s) : SoundStop r (runMoved s c id d w) := by
  grind [runMoved, sound_dropTid, State.modOp, sound_modCore, SoundStop]

theorem sound_tableParts {r s t : State} {die pasid : Nat} {l : List (Nat × Nat)} {y : List Byte} (e : tableParts die pasid l s = .ok (t, y)) (h : Sound r s) : Sound r t := by
  have work := leafWork_tableParts die pasid l s
  rw [e] at work
  exact work.sound h

theorem sound_tableBytes {r s : State} {die pasid va n : Nat} {t y} (e : tableBytes s die pasid va n = .ok (t, y)) (h : Sound r s) : Sound r t := by
  grind [tableBytes, sound_tableParts]

theorem sound_targetEntry {r s : State} {die pasid tid mapver : Nat} {again : Bool} {t y} (e : targetEntry s die pasid tid mapver again = .ok (t, y)) (h : Sound r s) : Sound r t := by
  grind [targetEntry, sound_tableBytes, sound_record, soundBy_iff, = bind_ok, = pure_ok, = map_ok, = dotBind_ok, = upon_ok, = atPart_eq_ok]

/-- What a decision ends with keeps the state that it was made in. -/
theorem decided_state {u t : State} {c d : Prop} [Decidable c] [Decidable d] {x y z w : Decision}
    (e : (if c then .ok (u, x) else if d then .ok (u, y) else .ok (u, z) : Except Missed (State × Decision)) = .ok (t, w)) : t = u := by
  split at e
  · cases e
    rfl
  · split at e <;> cases e <;> rfl

theorem sound_decideRun {r s t : State} {q : Asked} {again : Bool} {y : Decision} (e : decideRun s q again = .ok (t, y)) (h : Sound r s) : Sound r t := by
  obtain ⟨⟨u, b⟩, first, e⟩ := bind_ok.1 e
  have entry := sound_targetEntry first h
  dsimp only at e
  split at e
  · cases e
  · split at e
    · exact decided_state e ▸ entry
    · obtain ⟨⟨v, m⟩, table, e⟩ := bind_ok.1 e
      obtain ⟨⟨w, d⟩, read, eq⟩ := map_ok.1 table
      cases eq
      exact decided_state e ▸ sound_tableBytes read entry

theorem sound_decideOnce {r s t : State} {src : Nat} {q : Asked} {again : Bool} {y : Decision} (e : decideOnce s src q again = .ok (t, y)) (h : Sound r s) : Sound r t := by
  unfold decideOnce at e
  split at e
  · exact sound_decideRun e h
  · split at e
    · cases e
      exact h
    · cases e
      exact h
    · obtain ⟨⟨u, d⟩, run, e⟩ := bind_ok.1 e
      have decided := sound_decideRun run h
      cases d <;> cases e
      · exact decided.same rfl rfl rfl rfl
      · exact decided
      · exact decided.same rfl rfl rfl rfl

theorem sound_ownRun {r s t : State} {c id : Nat} {p : Piece} (e : ownRun s c id p = .ok t) (h : Sound r s) : Sound r t := by
  grind [ownRun.eq_def, sound_decideOnce, sound_record, soundBy_iff]

theorem stop_ownRun {r s : State} {c id : Nat} {p : Piece} {err : EStop} (e : ownRun s c id p = .error err) (h : Sound r s) : SoundStop r err := by
  unfold ownRun at e
  split at e
  · dsimp only at e
    split at e
    · cases e
      dsimp only [SoundStop]
      split <;> trivial
    · cases e
    · cases e
      have decided := sound_decideOnce ‹_› h
      dsimp only [SoundStop]
      split
      · exact decided
      · exact decided.same rfl rfl rfl rfl
    · cases e
      exact stop_runMoved (sound_decideOnce ‹_› h)
  · cases e

theorem sound_placePart {r s t : State} {c id : Nat} {ag : Agent} {write : Bool} {p : Piece} {va : Nat} {y : Target}
    (e : placePart s c id ag write p va = .ok (t, y)) (h : Sound r s) : Sound r t := by
  unfold placePart at e
  split at e
  · split at e
    · cases e
    · split at e <;> cases e
      exact h
  · obtain ⟨u, own, e⟩ := bind_ok.1 e
    have run := sound_ownRun own h
    dsimp only at e
    split at e
    · cases e
    · have leaf := sound_translate ‹_› run
      split at e
      · cases e
      · split at e
        · split at e
          · obtain ⟨⟨v, q⟩, window, eq⟩ := map_ok.1 (along_ok.1 e)
            cases eq
            exact sound_windowPlace window leaf
          · split at e <;> cases e
            exact leaf
        · cases e
          exact leaf

theorem stop_placePart {r s : State} {c id : Nat} {ag : Agent} {write : Bool} {p : Piece} {va : Nat} {err : EStop}
    (e : placePart s c id ag write p va = .error err) (h : Sound r s) : SoundStop r err := by
  have far : ∀ code sub, SoundStop r (farFault ag code sub va) := fun code sub => by
    unfold farFault
    split <;> trivial
  unfold placePart at e
  split at e
  · split at e
    · cases e
      exact far ..
    · split at e <;> cases e
      exact far ..
  · rcases bind_error.1 e with own | ⟨u, own, e⟩
    · exact stop_ownRun own h
    · have run := sound_ownRun own h
      dsimp only at e
      split at e
      · cases e
        exact stop_walkStop ..
      · have leaf := sound_translate ‹_› run
        split at e
        · cases e
          trivial
        · split at e
          · split at e
            · exact stop_along e fun f window => stop_windowPlace (map_error.1 window) leaf
            · split at e <;> cases e
              exact far ..
          · cases e

theorem sound_placeAll {r s t : State} {c id : Nat} {ag : Agent} {write : Bool} {p : Piece} {l : List (Nat × Nat)} {y : List (Target × Nat)}
    (e : placeAll c id ag write p l s = .ok (t, y)) (h : Sound r s) : Sound r t := by
  induction l generalizing s t y with
  | nil => cases e; exact h
  | cons x l ih =>
    obtain ⟨⟨u, a⟩, first, e⟩ := bind_ok.1 e
    obtain ⟨⟨v, b⟩, rest, e⟩ := bind_ok.1 e
    cases e
    exact ih (along_ok.1 rest) (sound_placePart first h)

theorem stop_placeAll {r s : State} {c id : Nat} {ag : Agent} {write : Bool} {p : Piece} {l : List (Nat × Nat)} {err : EStop}
    (e : placeAll c id ag write p l s = .error err) (h : Sound r s) : SoundStop r err := by
  induction l generalizing s err with
  | nil => cases e
  | cons x l ih =>
    rcases bind_error.1 e with first | ⟨⟨u, a⟩, first, e⟩
    · exact stop_placePart first h
    · rcases bind_error.1 e with rest | ⟨⟨v, b⟩, rest, e⟩
      · exact stop_along rest fun f rest => ih rest (sound_placePart first h)
      · cases e

theorem sound_placePieces {r s t : State} {c id : Nat} {ag : Agent} {write : Bool} {l : List Piece} {y : List (List (Target × Nat))}
    (e : placePieces c id ag write l s = .ok (t, y)) (h : Sound r s) : Sound r t := by
  induction l generalizing s t y with
  | nil => cases e; exact h
  | cons x l ih =>
    obtain ⟨⟨u, a⟩, first, e⟩ := bind_ok.1 e
    obtain ⟨⟨v, b⟩, rest, e⟩ := bind_ok.1 e
    cases e
    exact ih (along_ok.1 rest) (sound_placeAll first h)

theorem stop_placePieces {r s : State} {c id : Nat} {ag : Agent} {write : Bool} {l : List Piece} {err : EStop}
    (e : placePieces c id ag write l s = .error err) (h : Sound r s) : SoundStop r err := by
  induction l generalizing s err with
  | nil => cases e
  | cons x l ih =>
    rcases bind_error.1 e with first | ⟨⟨u, a⟩, first, e⟩
    · exact stop_placeAll first h
    · rcases bind_error.1 e with rest | ⟨⟨v, b⟩, rest, e⟩
      · exact stop_along rest fun f rest => ih rest (sound_placeAll first h)
      · cases e

theorem sound_sendReads {r s : State} {c id : Nat} {l : List (Target × Nat)} (h : Sound r s) : Sound r (sendReads c id l s) := by
  induction l generalizing s with
  | nil => exact h
  | cons x l ih =>
    obtain ⟨d | p, n⟩ := x
    · exact ih h
    · exact ih (sound_sendRequest h)

theorem sound_readPieces {r s : State} {c id : Nat} {ag : Agent} {pieces : List Piece} {t y} (e : readPieces s c id ag pieces = .ok (t, y)) (h : Sound r s) : Sound r t := by
  grind [readPieces, sound_placePieces, sound_sendReads, sound_record, soundBy_iff, = bind_ok, = pure_ok]

theorem stop_readPieces {r s : State} {c id : Nat} {ag : Agent} {pieces : List Piece} {err : EStop} (e : readPieces s c id ag pieces = .error err) (h : Sound r s) : SoundStop r err := by
  grind [readPieces, stop_placePieces, sound_placePieces, sound_sendReads, sound_record, soundBy_iff, = bind_ok, = bind_error, = pure_ok, SoundStop]

theorem sound_sendWrites {r s : State} {c id : Nat} {l pending : List Request} (h : Sound r s) : Sound r (sendWrites c id l pending s) := by
  induction l generalizing s pending with
  | nil => exact h
  | cons q l ih =>
    unfold sendWrites
    split
    · exact h
    · exact ih (sound_sendRequest h)

theorem sound_writeHere {r s : State} {l : List (Target × Nat)} {d : List Byte} (h : Sound r s) : Sound r (writeHere l d s) := by
  induction l generalizing s d with
  | nil => exact h
  | cons x l ih =>
    obtain ⟨p | q, n⟩ := x
    · exact ih (sound_writeAt h)
    · exact ih h

theorem sound_writePieces {r s : State} {c id : Nat} {ag : Agent} {pieces : List Piece} {d : List Byte} {t : State} (e : writePieces s c id ag pieces d = .ok t) (h : Sound r s) : Sound r t := by
  grind [writePieces, sound_placePieces, sound_sendWrites, sound_writeHere, = bind_ok, = pure_ok]

theorem stop_writePieces {r s : State} {c id : Nat} {ag : Agent} {pieces : List Piece} {d : List Byte} {err : EStop} (e : writePieces s c id ag pieces d = .error err) (h : Sound r s) : SoundStop r err := by
  grind [writePieces, stop_placePieces, sound_placePieces, sound_sendWrites, sound_writeHere, = bind_ok, = bind_error, = pure_ok, SoundStop]

theorem sound_readTable {r s : State} {c id : Nat} {ag : Agent} {va len : Nat} {t y} (e : readTable s c id ag va len = .ok (t, y)) (h : Sound r s) : Sound r t := by
  grind [readTable, sound_readPieces]

theorem stop_readTable {r s : State} {c id : Nat} {ag : Agent} {va len : Nat} {err : EStop} (e : readTable s c id ag va len = .error err) (h : Sound r s) : SoundStop r err := by
  grind [readTable, stop_readPieces, sound_readPieces, SoundStop]

theorem sound_entryOf {r s t : State} {c id : Nat} {ag : Agent} {tid : Nat} {coords : List Nat} {y : Tid} (e : entryOf s c id ag tid coords = .ok (t, y))
    (h : Sound r s) : Sound r t := by
  obtain ⟨⟨u, b⟩, read, e⟩ := bind_ok.1 e
  have bytes : Sound r u := by
    split at read
    · cases read
      exact h
    · exact sound_readTable read h
  dsimp only at e
  split at e
  · cases e
  · split at e <;> cases e
    exact (sound_modCore ..).2 bytes
  · cases e
    exact (sound_modCore ..).2 bytes

theorem stop_entryOf {r s : State} {c id : Nat} {ag : Agent} {tid : Nat} {coords : List Nat} {err : EStop} (e : entryOf s c id ag tid coords = .error err)
    (h : Sound r s) : SoundStop r err := by
  rcases bind_error.1 e with read | ⟨⟨u, b⟩, read, e⟩
  · split at read
    · cases read
    · exact stop_readTable read h
  · have bytes : Sound r u := by
      split at read
      · cases read
        exact h
      · exact sound_readTable read h
    dsimp only at e
    split at e
    · cases e
      trivial
    · split at e <;> cases e
      exact sound_dropTid ((sound_modCore ..).2 bytes)
    · cases e

theorem sound_mapOf {r s : State} {c id : Nat} {ag : Agent} {e : Tid} {t y} (he : mapOf s c id ag e = .ok (t, y)) (h : Sound r s) : Sound r t := by
  grind [mapOf, sound_readPieces, = map_ok, = dotBind_ok, = upon_ok, = atPart_eq_ok]

theorem stop_mapOf {r s : State} {c id : Nat} {ag : Agent} {e : Tid} {err : EStop} (he : mapOf s c id ag e = .error err) (h : Sound r s) : SoundStop r err := by
  grind [mapOf, stop_readPieces, sound_readPieces, = map_ok, = map_error, SoundStop]

theorem stop_resolve {r s : State} {tid : Nat} {e : Tid} {shards : List Shard} {coords : List Nat} {err : EStop} (he : resolve s tid e shards coords = .error err) : SoundStop r err := by
  grind [resolve, eFault, sound_record, soundBy_iff, = map_ok, = map_error, SoundStop]

theorem stop_resolvePlain {r s : State} {tid : Nat} {e : Tid} {l : List (List Nat)} {err : EStop} (he : resolvePlain s tid e l = .error err) : SoundStop r err := by
  induction l generalizing err with
  | nil => cases he
  | cons x l ih =>
    rcases bind_error.1 he with first | ⟨m, -, he⟩
    · exact stop_resolve first
    · rcases bind_error.1 he with rest | ⟨_, -, he⟩
      · exact ih rest
      · cases he

theorem sound_resolveShards {r s t : State} {c id tid : Nat} {e : Tid} {shards : List Shard} {last : Option Resolved} {l : List (List Nat)} {y : List Resolved}
    (he : resolveShards c id tid e shards last l s = .ok (t, y)) (h : Sound r s) : Sound r t := by
  induction l generalizing s t last y with
  | nil => cases he; exact h
  | cons x l ih =>
    unfold resolveShards at he
    dsimp only at he
    split at he
    · obtain ⟨⟨u, m⟩, rest, he⟩ := bind_ok.1 he
      cases he
      exact ih rest (sound_modOp h)
    · obtain ⟨m, -, he⟩ := bind_ok.1 he
      obtain ⟨⟨u, n⟩, rest, he⟩ := bind_ok.1 he
      cases he
      exact ih rest ((sound_record ..).2 ((soundBy_iff ..).2 (sound_modOp h)))

theorem stop_resolveShards {r s : State} {c id tid : Nat} {e : Tid} {shards : List Shard} {last : Option Resolved} {l : List (List Nat)} {err : EStop}
    (he : resolveShards c id tid e shards last l s = .error err) (h : Sound r s) : SoundStop r err := by
  induction l generalizing s last err with
  | nil => cases he
  | cons x l ih =>
    unfold resolveShards at he
    dsimp only at he
    split at he
    · rcases bind_error.1 he with rest | ⟨⟨u, m⟩, -, he⟩
      · exact ih rest (sound_modOp h)
      · cases he
    · rcases bind_error.1 he with first | ⟨m, -, he⟩
      · exact stop_resolve first
      · rcases bind_error.1 he with rest | ⟨⟨u, n⟩, -, he⟩
        · exact ih rest ((sound_record ..).2 ((soundBy_iff ..).2 (sound_modOp h)))
        · cases he

theorem sound_resolveAll {r s : State} {c id tid : Nat} {e : Tid} {shards : List Shard} {l : List (List Nat)} {t y} (he : resolveAll c id tid e shards l s = .ok (t, y)) (h : Sound r s) : Sound r t := by
  grind [resolveAll, sound_resolveShards, = map_ok, = dotBind_ok, = upon_ok, = atPart_eq_ok]

theorem stop_resolveAll {r s : State} {c id tid : Nat} {e : Tid} {shards : List Shard} {l : List (List Nat)} {err : EStop} (he : resolveAll c id tid e shards l s = .error err) (h : Sound r s) : SoundStop r err := by
  grind [resolveAll, stop_resolvePlain, stop_resolveShards, sound_resolveShards, = map_ok, = map_error, SoundStop]

theorem sound_keepUnit {r s t : State} {c id : Nat} (h : Sound r s) : Sound r (s.keepUnit c id t) :=
  (sound_record ..).2 ((soundBy_iff ..).2 (sound_modOp ((sound_modCore ..).2 (sound_keepWalks h))))

theorem sound_takeEStop {r s : State} {c id : Nat} {e : EStop} (he : SoundStop r e) (h : Sound r s) : Sound r (takeEStop s c id e) := by
  induction e generalizing s with
  | hold t => exact he
  | behind t e ih => exact ih he (sound_keepUnit h)
  | fault f => grind [takeEStop, sound_modOp, sound_parkOp]
  | _ => grind [takeEStop, sound_modOp, sound_modCore]

end Sys2Proof.Machine
end

section
/-!
SUPPORT. The invariant (O57): the matrix engine.
-/

namespace Sys2Proof.Machine

/-- A unit's part that ends in a state, or stops. -/
structure EKeeps (r : State) {α : Type} (get : α → State) (x : ERes α) : Prop where
  ok : ∀ {a}, x = .ok a → Sound r (get a)
  stop : ∀ {e}, x = .error e → SoundStop r e

section
variable {r s : State} {α β : Type} {get : α → State} {get' : β → State}

theorem EKeeps.value {a : α} (h : Sound r (get a)) : EKeeps r get (.ok a) := ⟨fun e => by cases e; exact h, fun e => (nomatch e)⟩

theorem EKeeps.error {e : EStop} (h : SoundStop r e) : EKeeps r get (.error e) := ⟨fun e => (nomatch e), fun e => by cases e; exact h⟩

theorem EKeeps.bind {x : ERes α} {f : α → ERes β} (h : EKeeps r get x) (next : ∀ a, Sound r (get a) → EKeeps r get' (f a)) : EKeeps r get' (x >>= f) := by
  cases x with
  | error e => exact .error (h.stop rfl)
  | ok a => exact next a (h.ok rfl)

/-- A check that stops the unit, or changes nothing. -/
theorem EKeeps.check {x : ERes α} {f : α → ERes β} (h : ∀ {e}, x = .error e → SoundStop r e) (next : ∀ a, EKeeps r get' (f a)) : EKeeps r get' (x >>= f) := by
  cases x with
  | error e => exact .error (h rfl)
  | ok a => exact next a

theorem EKeeps.along {x : ERes α} (h : EKeeps r get x) : EKeeps r get (along s x) :=
  ⟨fun e => h.ok (along_ok.1 e), fun e => stop_along e fun _ => h.stop⟩

theorem EKeeps.map {x : ERes α} {f : α → β} (h : EKeeps r get x) (same : ∀ a, get' (f a) = get a) : EKeeps r get' (x.map f) := by
  cases x with
  | error e => exact .error (h.stop rfl)
  | ok a => exact .value (same a ▸ h.ok rfl)

theorem EKeeps.operand {x : ERes α} {d : Word} (h : EKeeps r get x) : EKeeps r get (asOperand d x) := by
  cases x with
  | error e => exact .error (stop_mapFault (h.stop rfl))
  | ok a => exact .value (h.ok rfl)

end

theorem sound_gateOp {r s : State} {x : Trig} {j : Nat} {t : State} (e : gateOp x s j = .ok t) (h : Sound r s) : Sound r t := by
  grind [gateOp, sound_gateAppend, = bind_ok]

theorem sound_meTrigger {r s : State} {x : Trig} {t : State} (e : meTrigger x s = .ok t) (h : Sound r s) : Sound r t := by
  grind [meTrigger, sound_gateOp, sound_record, soundBy_iff]

theorem sound_directWrite {r s : State} {col : Bool} {x : Trig} {t : State} (e : directWrite col x s = .ok t) (h : Sound r s) : Sound r t := by
  grind [directWrite, sound_setCore, = bind_ok, = pure_ok, = map_ok, = dotBind_ok, = upon_ok, = atPart_eq_ok]

theorem sound_directRead {r s : State} {col : Bool} {x : Trig} {t : State} (e : directRead col x s = .ok t) (h : Sound r s) : Sound r t := by
  grind [directRead, sound_deliver, = bind_ok, = pure_ok, = map_ok, = dotBind_ok, = upon_ok, = atPart_eq_ok]

theorem sound_setShape {r s : State} {x : Trig} {t : State} (e : setShape x s = .ok t) (h : Sound r s) : Sound r t := by
  grind [setShape, sound_setCore, sound_record, soundBy_iff, = bind_ok, = pure_ok]

theorem keeps_openSrc {r s : State} {c id : Nat} {d : Word} (h : Sound r s) : EKeeps r Prod.fst (openSrc s c id d) := by
  unfold openSrc
  split
  · exact .value h
  · split
    · exact .error trivial
    · exact .value h
  · refine .operand (.bind ⟨fun e => sound_entryOf e h, fun e => stop_entryOf e h⟩ fun ⟨u, e⟩ hu => .along ?_)
    dsimp only
    split
    · exact .error trivial
    · split
      · exact .error trivial
      · split
        · exact .error trivial
        · exact .bind ⟨fun e => sound_mapOf e hu, fun e => stop_mapOf e hu⟩ fun ⟨v, m⟩ hv => .value hv

theorem sound_openSrc {r s t : State} {c id : Nat} {d : Word} {y : Src} (e : openSrc s c id d = .ok (t, y)) (h : Sound r s) : Sound r t := (keeps_openSrc h).ok e

theorem stop_openSrc {r s : State} {c id : Nat} {d : Word} {err : EStop} (e : openSrc s c id d = .error err) (h : Sound r s) : SoundStop r err := (keeps_openSrc h).stop e

theorem keeps_readPieces {r s : State} {c id : Nat} {ag : Agent} {pieces : List Piece} (h : Sound r s) : EKeeps r Prod.fst (readPieces s c id ag pieces) :=
  ⟨fun e => sound_readPieces e h, fun e => stop_readPieces e h⟩

theorem keeps_resolveAll {r s : State} {c id tid : Nat} {e : Tid} {shards : List Shard} {l : List (List Nat)} (h : Sound r s) :
    EKeeps r Prod.fst (resolveAll c id tid e shards l s) :=
  ⟨fun e => sound_resolveAll e h, fun e => stop_resolveAll e h⟩

theorem keeps_tidRows {r s : State} {c id : Nat} {d : Word} {e : Tid} {shards : List Shard} {rows k0 k1 : Nat} (h : Sound r s) :
    EKeeps r Prod.fst (tidRows s c id d e shards rows k0 k1) :=
  .operand (.bind (keeps_resolveAll h) fun _ h => .bind (.along (keeps_readPieces h)) fun _ h => .bind (.along (keeps_readPieces h)) fun _ h => .value h)

theorem sound_tidRows {r s t : State} {c id : Nat} {d : Word} {e : Tid} {shards : List Shard} {rows k0 k1 : Nat} {y : List (List Elt)}
    (he : tidRows s c id d e shards rows k0 k1 = .ok (t, y)) (h : Sound r s) : Sound r t := (keeps_tidRows h).ok he

theorem stop_tidRows {r s : State} {c id : Nat} {d : Word} {e : Tid} {shards : List Shard} {rows k0 k1 : Nat} {err : EStop}
    (he : tidRows s c id d e shards rows k0 k1 = .error err) (h : Sound r s) : SoundStop r err := (keeps_tidRows h).stop he

theorem sound_fetchRows {r s : State} {c id : Nat} {x : Src} {rows kAll k0 k1 : Nat} {t y} (e : fetchRows s c id x rows kAll k0 k1 = .ok (t, y)) (h : Sound r s) : Sound r t := by
  grind [fetchRows, sound_tidRows, sound_record, soundBy_iff, = bind_ok, = pure_ok, = map_ok, = dotBind_ok, = upon_ok, = atPart_eq_ok]

theorem stop_fetchRows {r s : State} {c id : Nat} {x : Src} {rows kAll k0 k1 : Nat} {err : EStop} (e : fetchRows s c id x rows kAll k0 k1 = .error err) (h : Sound r s) : SoundStop r err := by
  grind [fetchRows, stop_needSpad, stop_tidRows, sound_tidRows, sound_record, soundBy_iff, = bind_ok, = bind_error, = pure_ok, = map_ok, = map_error, SoundStop]

theorem sound_operandRows {r s : State} {c id : Nat} {o : Op} {n : Nat} {x : Src} {rows kAll k0 k1 : Nat} {t y} (e : operandRows s c id o n x rows kAll k0 k1 = .ok (t, y)) (h : Sound r s) : Sound r t := by
  grind [operandRows.eq_def, sound_fetchRows, sound_record, soundBy_iff]

theorem stop_operandRows {r s : State} {c id : Nat} {o : Op} {n : Nat} {x : Src} {rows kAll k0 k1 : Nat} {err : EStop} (e : operandRows s c id o n x rows kAll k0 k1 = .error err) (h : Sound r s) : SoundStop r err := by
  grind [operandRows.eq_def, stop_fetchRows, sound_fetchRows, sound_record, soundBy_iff, SoundStop]

theorem keeps_openMultiply {r s : State} {c id : Nat} {o : Op} (h : Sound r s) : EKeeps r Prod.fst (openMultiply s c id o) := by
  have bad : ∀ (n : Nat) (d : Word), EKeeps r Prod.fst (.error (eFault cEngineError n d.toNat) : ERes (State × Src × Src)) := fun _ _ => .error trivial
  unfold openMultiply
  dsimp only
  split
  · exact bad ..
  · split
    · exact bad ..
    · split
      · exact bad ..
      · refine .bind (keeps_openSrc h) fun ⟨u, a⟩ hu => .bind (.along (keeps_openSrc hu)) fun ⟨v, b⟩ hv => .along ?_
        dsimp only
        split
        · exact bad ..
        · split
          · exact bad ..
          · split
            · split <;> exact bad ..
            · exact bad ..
            · exact bad ..
            · exact .value hv

theorem sound_openMultiply {r s t : State} {c id : Nat} {o : Op} {y : Src × Src} (e : openMultiply s c id o = .ok (t, y)) (h : Sound r s) : Sound r t :=
  (keeps_openMultiply h).ok e

theorem stop_needTiles {r s : State} {c shape : Nat} {l : List Nat} {err : EStop} (e : needTiles s c shape l = .error err) : SoundStop r err := by
  grind [needTiles, = map_ok, = map_error, SoundStop]

theorem stop_needLatchFolios {r s : State} {c n : Nat} {err : EStop} (e : needLatchFolios s c n = .error err) : SoundStop r err := by
  grind [needLatchFolios, SoundStop]

theorem stop_needLatch {r s : State} {c : Nat} {d : Word} {err : EStop} (e : needLatch s c d = .error err) : SoundStop r err := by
  grind [needLatch, stop_needLatchFolios, SoundStop]

theorem keeps_operandRows {r s : State} {c id : Nat} {o : Op} {n : Nat} {x : Src} {rows kAll k0 k1 : Nat} (h : Sound r s) :
    EKeeps r Prod.fst (operandRows s c id o n x rows kAll k0 k1) :=
  ⟨fun e => sound_operandRows e h, fun e => stop_operandRows e h⟩

theorem keeps_multiplyUnit {r s : State} {c id : Nat} {o : Op} (h : Sound r s) : EKeeps r (·) (multiplyUnit s c id o) :=
  .check stop_needLatch fun _ => .check stop_needLatch fun _ => .bind (keeps_openMultiply h) fun _ h => .along (.check stop_needTiles fun _ =>
    .bind (keeps_operandRows h) fun _ h => .bind (.along (keeps_operandRows h)) fun _ h => .value ((sound_setCore ..).2 h))

theorem sound_multiplyUnit {r s t : State} {c id : Nat} {o : Op} (e : multiplyUnit s c id o = .ok t) (h : Sound r s) : Sound r t := (keeps_multiplyUnit h).ok e

theorem stop_multiplyUnit {r s : State} {c id : Nat} {o : Op} {err : EStop} (e : multiplyUnit s c id o = .error err) (h : Sound r s) : SoundStop r err :=
  (keeps_multiplyUnit h).stop e

theorem sound_klatchUnit {r s : State} {c id : Nat} {o : Op} {t : State} (e : klatchUnit s c id o = .ok t) (h : Sound r s) : Sound r t := by
  grind [klatchUnit, sound_modCore, sound_openSrc, sound_operandRows, sound_record, soundBy_iff, = along_ok, = bind_ok, = pure_ok]

theorem stop_klatchUnit {r s : State} {c id : Nat} {o : Op} {err : EStop} (e : klatchUnit s c id o = .error err) (h : Sound r s) : SoundStop r err := by
  grind [klatchUnit, stop_along, stop_openSrc, stop_operandRows, stop_needLatchFolios, eFault, sound_modCore, sound_openSrc, sound_operandRows, sound_record, soundBy_iff, = bind_ok, = bind_error, = pure_ok, = along_ok, stop_along, SoundStop]

theorem stop_tloadRow {r0 s : State} {c : Nat} {o : Op} {r : Nat} {err : EStop} (e : tloadRow s c o r = .error err) : SoundStop r0 err := by
  grind [tloadRow, stop_readSpad, = bind_ok, = bind_error, = pure_ok, = map_ok, = map_error, SoundStop]

theorem sound_tloadUnit {r s : State} {c : Nat} {o : Op} {t : State} (e : tloadUnit s c o = .ok t) (h : Sound r s) : Sound r t := by
  grind [tloadUnit, sound_modCore, sound_record, soundBy_iff, = bind_ok, = pure_ok, = map_ok, = dotBind_ok, = upon_ok, = atPart_eq_ok]

theorem stop_tloadUnit {r s : State} {c : Nat} {o : Op} {err : EStop} (e : tloadUnit s c o = .error err) (_ : Sound r s) : SoundStop r err := by
  grind [tloadUnit, stop_needTiles, stop_tloadRow, eFault, sound_modCore, sound_record, soundBy_iff, = bind_ok, = bind_error, = pure_ok, = map_ok, = map_error, SoundStop]

theorem sound_tstoreUnit {r s : State} {c : Nat} {o : Op} {t : State} (e : tstoreUnit s c o = .ok t) (h : Sound r s) : Sound r t := by
  grind [tstoreUnit, sound_writeSpad, sound_record, soundBy_iff, = bind_ok, = pure_ok]

theorem stop_tstoreUnit {r s : State} {c : Nat} {o : Op} {err : EStop} (e : tstoreUnit s c o = .error err) (h : Sound r s) : SoundStop r err := by
  grind [tstoreUnit, stop_writeSpad, stop_needTiles, eFault, sound_writeSpad, sound_record, soundBy_iff, = bind_ok, = bind_error, = pure_ok, SoundStop]

theorem sound_tcvtUnit {r s : State} {c : Nat} {o : Op} {t : State} (e : tcvtUnit s c o = .ok t) (h : Sound r s) : Sound r t := by
  grind [tcvtUnit, sound_writeSpad, sound_record, soundBy_iff, = bind_ok, = pure_ok, = map_ok, = dotBind_ok, = upon_ok, = atPart_eq_ok]

theorem stop_tcvtUnit {r s : State} {c : Nat} {o : Op} {err : EStop} (e : tcvtUnit s c o = .error err) (h : Sound r s) : SoundStop r err := by
  grind [tcvtUnit, stop_writeSpad, stop_needTiles, eFault, sound_writeSpad, sound_record, soundBy_iff, = bind_ok, = bind_error, = pure_ok, = map_ok, = map_error, SoundStop]

theorem sound_rowUnit {r s : State} {c : Nat} {o : Op} {f : Core → Nat → Nat} {t : State} (e : rowUnit s c o f = .ok t) (h : Sound r s) : Sound r t := by
  grind [rowUnit, sound_setCore, = bind_ok, = pure_ok, = map_ok, = dotBind_ok, = upon_ok, = atPart_eq_ok]

theorem stop_rowUnit {r s : State} {c : Nat} {o : Op} {f : Core → Nat → Nat} {err : EStop} (e : rowUnit s c o f = .error err) (_ : Sound r s) : SoundStop r err := by
  grind [rowUnit, stop_needTiles, sound_setCore, = bind_ok, = bind_error, = pure_ok, = map_ok, = map_error, SoundStop]

theorem sound_taddUnit {r s : State} {c : Nat} {o : Op} {t : State} (e : taddUnit s c o = .ok t) (h : Sound r s) : Sound r t := by
  grind [taddUnit, sound_rowUnit]

theorem stop_taddUnit {r s : State} {c : Nat} {o : Op} {err : EStop} (e : taddUnit s c o = .error err) (h : Sound r s) : SoundStop r err := by
  grind [taddUnit, stop_rowUnit, eFault, sound_rowUnit, SoundStop]

theorem sound_tscaleUnit {r s : State} {c : Nat} {o : Op} {t : State} (e : tscaleUnit s c o = .ok t) (h : Sound r s) : Sound r t := by
  grind [tscaleUnit, sound_rowUnit]

theorem stop_tscaleUnit {r s : State} {c : Nat} {o : Op} {err : EStop} (e : tscaleUnit s c o = .error err) (h : Sound r s) : SoundStop r err := by
  grind [tscaleUnit, stop_rowUnit, eFault, sound_rowUnit, SoundStop]

theorem sound_sendAtomic {r s : State} {c id node va m : Nat} (h : Sound r s) : Sound r (sendAtomic s c id node va m) := by
  unfold sendAtomic
  split
  · exact h
  · dsimp only
    split
    · exact h
    · exact sound_modOp (sound_sendSprayed h)

theorem keeps_walked {r s : State} {ag : Agent} {pasid va : Nat} (h : Sound r s) :
    EKeeps r Prod.fst ((translate s ag pasid va true).mapError (walkStop s ag.cache pasid va va)) := by
  cases run : translate s ag pasid va true with
  | error f => exact .error (stop_walkStop ..)
  | ok x => exact .value (sound_translate (t := x.1) run h)

theorem keeps_tamaxUnit {r s : State} {c id : Nat} {o : Op} (h : Sound r s) : EKeeps r (·) (tamaxUnit s c id o) := by
  unfold tamaxUnit
  dsimp only
  split
  · exact .error trivial
  · split
    · exact .error trivial
    · refine .check stop_needTiles fun _ => .bind (keeps_walked h) fun ⟨u, _⟩ hu => .bind (.along (keeps_walked hu)) fun ⟨v, e⟩ hv => .along ?_
      dsimp only
      split
      · split
        · exact .bind ⟨fun e => sound_windowPlace e hv, fun e => stop_windowPlace e hv⟩ fun ⟨w, p⟩ hw => .value (sound_write32 hw)
        · split
          · exact .error trivial
          · split
            · exact .value (sound_sendAtomic hv)
            · exact .error (sound_sendAtomic hv)
      · exact .value (sound_write32 hv)

theorem sound_tamaxUnit {r s t : State} {c id : Nat} {o : Op} (e : tamaxUnit s c id o = .ok t) (h : Sound r s) : Sound r t := (keeps_tamaxUnit h).ok e

theorem stop_tamaxUnit {r s : State} {c id : Nat} {o : Op} {err : EStop} (e : tamaxUnit s c id o = .error err) (h : Sound r s) : SoundStop r err :=
  (keeps_tamaxUnit h).stop e

theorem sound_meUnit {r s : State} {c id : Nat} {o : Op} {t : State} (e : meUnit s c id o = .ok t) (h : Sound r s) : Sound r t := by
  grind [meUnit, sound_modCore, sound_multiplyUnit, sound_klatchUnit, sound_tloadUnit, sound_tstoreUnit, sound_tcvtUnit, sound_taddUnit, sound_tscaleUnit, sound_tamaxUnit, = map_ok, = dotBind_ok, = upon_ok, = atPart_eq_ok]

theorem stop_meUnit {r s : State} {c id : Nat} {o : Op} {err : EStop} (e : meUnit s c id o = .error err) (h : Sound r s) : SoundStop r err := by
  grind [meUnit, stop_needTiles, stop_multiplyUnit, stop_klatchUnit, stop_tloadUnit, stop_tstoreUnit, stop_tcvtUnit, stop_taddUnit, stop_tscaleUnit, stop_tamaxUnit, eFault, sound_modCore, sound_multiplyUnit, sound_klatchUnit, sound_tloadUnit, sound_tstoreUnit, sound_tcvtUnit, sound_taddUnit, sound_tscaleUnit, sound_tamaxUnit, = map_ok, = map_error, SoundStop]

theorem sound_prefetchOperand {r s : State} {c id : Nat} {o : Op} {n u : Nat} {t : State} (e : prefetchOperand s c id o n u = .ok t) (h : Sound r s) : Sound r t := by
  grind [prefetchOperand, sound_modOp, sound_openSrc, sound_fetchRows, sound_record, soundBy_iff, = along_ok, = bind_ok, = pure_ok]

theorem stop_prefetchOperand {r s : State} {c id : Nat} {o : Op} {n u : Nat} {err : EStop} (e : prefetchOperand s c id o n u = .error err) (h : Sound r s) : SoundStop r err := by
  grind [prefetchOperand, stop_along, stop_openSrc, stop_fetchRows, sound_modOp, sound_openSrc, sound_fetchRows, sound_record, soundBy_iff, = bind_ok, = bind_error, = pure_ok, = along_ok, stop_along, SoundStop]

theorem sound_prefetchRow {r s : State} {c id : Nat} {o : Op} {u : Nat} (h : Sound r s) : Sound r (prefetchRow s c id o u) := by
  grind [prefetchRow.eq_def, sound_modOp, sound_record, soundBy_iff]

theorem sound_prefetch {r s : State} {c id : Nat} {o : Op} (h : Sound r s) : Sound r (prefetch s c id o) := by
  have one : ∀ (n u : Nat) (s : State), Sound r s → Sound r (if o.fetched.any fun f => f.1 == u && f.2.1 == n then s
      else match prefetchOperand s c id o n u with | .ok t => t | .error (.hold t) => t | .error (.behind t _) => s.keepUnit c id t | .error _ => s) := by
    intro n u s h
    split
    · exact h
    · split
      · exact sound_prefetchOperand ‹_› h
      · exact stop_prefetchOperand ‹_› h
      · exact sound_keepUnit h
      · exact h
  unfold prefetch
  dsimp only
  split
  · exact one _ _ _ h
  · split
    · exact one _ _ _ (one _ _ _ h)
    · split
      · exact sound_prefetchRow h
      · exact h

end Sys2Proof.Machine
end

section
/-!
SUPPORT. The invariant (O57): the copy engine.
-/

namespace Sys2Proof.Machine

theorem sound_ceTrigger {r s : State} {x : Trig} {t : State} (e : ceTrigger x s = .ok t) (h : Sound r s) : Sound r t := by
  grind [ceTrigger, sound_gateOp]

theorem stop_ceCheck {r s : State} {c : Nat} {o : Op} {err : EStop} (e : ceCheck s c o = .error err) : SoundStop r err := by
  grind [ceCheck, eFault, sound_record, soundBy_iff, SoundStop]

theorem stop_endsAt {r : State} {c kind : Nat} {w : Word} {l : List (Int × Nat)} {err : EStop} (e : endsAt c kind w l = .error err) : SoundStop r err := by
  grind [endsAt, eFault, = map_ok, = map_error, SoundStop]

theorem stop_needEnds {r s : State} {l : List (End × Nat)} {err : EStop} (e : needEnds s l = .error err) : SoundStop r err := by
  induction l generalizing err with
  | nil => cases e
  | cons x l ih =>
    obtain ⟨⟨d, off⟩ | va, n⟩ := x
    · unfold needEnds at e
      split at e
      · cases e
        trivial
      · rcases bind_error.1 e with first | ⟨_, -, rest⟩
        · exact stop_needSpad first
        · exact ih rest
    · exact ih e

theorem sound_ceReadPieces {r s : State} {c id circ : Nat} {ag : Agent} {pieces : List Piece} {t y} (e : ceReadPieces s c id circ ag pieces = .ok (t, y)) (h : Sound r s) : Sound r t := by
  grind [ceReadPieces, sound_placePieces, sound_readPieces, = along_ok, = bind_ok, = pure_ok]

theorem stop_ceReadPieces {r s : State} {c id circ : Nat} {ag : Agent} {pieces : List Piece} {err : EStop} (e : ceReadPieces s c id circ ag pieces = .error err) (h : Sound r s) : SoundStop r err := by
  grind [ceReadPieces, stop_along, stop_placePieces, stop_readPieces, eFault, sound_placePieces, sound_readPieces, = bind_ok, = bind_error, = pure_ok, = along_ok, stop_along, SoundStop]

theorem keeps_readEnds {r s : State} {c id circ : Nat} {ag : Agent} {l : List (End × Nat)} (h : Sound r s) : EKeeps r Prod.fst (readEnds s c id circ ag l) := by
  refine .check stop_needEnds fun _ => ?_
  split
  · exact ⟨fun e => sound_ceReadPieces e h, fun e => stop_ceReadPieces e h⟩
  · exact .value h

theorem sound_readEnds {r s t : State} {c id circ : Nat} {ag : Agent} {l : List (End × Nat)} {y : List Byte} (e : readEnds s c id circ ag l = .ok (t, y))
    (h : Sound r s) : Sound r t := (keeps_readEnds h).ok e

theorem stop_readEnds {r s : State} {c id circ : Nat} {ag : Agent} {l : List (End × Nat)} {err : EStop} (e : readEnds s c id circ ag l = .error err)
    (h : Sound r s) : SoundStop r err := (keeps_readEnds h).stop e

theorem sound_writeSpads {r s : State} {l : List (End × Nat)} {b : List Byte} (h : Sound r s) : Sound r (writeSpads l b s) := by
  induction l generalizing s b with
  | nil => exact h
  | cons x l ih =>
    obtain ⟨⟨d, off⟩ | va, n⟩ := x
    · exact ih ((sound_modCore ..).2 h)
    · exact ih h

theorem sound_queueCircuit {r s : State} {c : Nat} {o : Op} {l : List (Target × Nat)} {d : List Byte} (h : Sound r s) : Sound r (queueCircuit c o l d s).1 := by
  induction l generalizing d with
  | nil => exact h
  | cons x l ih =>
    obtain ⟨t, n⟩ := x
    unfold queueCircuit
    dsimp only
    split
    · split
      · exact (sound_record ..).2 ((soundBy_iff ..).2 ih)
      · exact ih
    · exact ih

theorem keeps_cePlaceWrites {r s : State} {c id : Nat} {o : Op} {ag : Agent} {pieces : List Piece} {d : List Byte} (h : Sound r s) :
    EKeeps r Prod.fst (cePlaceWrites s c id o ag pieces d) := by
  refine .bind ⟨fun e => sound_placePieces e h, fun e => stop_placePieces e h⟩ fun ⟨u, l⟩ hu => ?_
  dsimp only
  split
  · exact .value ((sound_record ..).2 ((soundBy_iff ..).2 (sound_writeHere (sound_queueCircuit ((sound_record ..).2 ((soundBy_iff ..).2 (sound_sendWrites hu)))))))
  · exact .error (sound_sendWrites hu)

theorem sound_cePlaceWrites {r s t : State} {c id : Nat} {o : Op} {ag : Agent} {pieces : List Piece} {d : List Byte} {y : Nat}
    (e : cePlaceWrites s c id o ag pieces d = .ok (t, y)) (h : Sound r s) : Sound r t := (keeps_cePlaceWrites h).ok e

theorem stop_cePlaceWrites {r s : State} {c id : Nat} {o : Op} {ag : Agent} {pieces : List Piece} {d : List Byte} {err : EStop}
    (e : cePlaceWrites s c id o ag pieces d = .error err) (h : Sound r s) : SoundStop r err := (keeps_cePlaceWrites h).stop e

theorem keeps_writeEnds {r s : State} {c id : Nat} {o : Op} {ag : Agent} {l : List (End × Nat)} {d : List Byte} (h : Sound r s) :
    EKeeps r Prod.fst (writeEnds s c id o ag l d) := by
  refine .check stop_needEnds fun _ => ?_
  split
  · exact keeps_cePlaceWrites h
  · exact .value (sound_writeSpads h)

theorem sound_writeEnds {r s t : State} {c id : Nat} {o : Op} {ag : Agent} {l : List (End × Nat)} {d : List Byte} {y : Nat}
    (e : writeEnds s c id o ag l d = .ok (t, y)) (h : Sound r s) : Sound r t := (keeps_writeEnds h).ok e

theorem stop_writeEnds {r s : State} {c id : Nat} {o : Op} {ag : Agent} {l : List (End × Nat)} {d : List Byte} {err : EStop}
    (e : writeEnds s c id o ag l d = .error err) (h : Sound r s) : SoundStop r err := (keeps_writeEnds h).stop e

theorem sound_ceArrive {r s : State} {c : Nat} {o : Op} {n : Nat} {t : State} (e : ceArrive s c o n = .ok t) (h : Sound r s) : Sound r t := by
  grind [ceArrive, sound_arrive, = map_ok, = dotBind_ok, = upon_ok, = atPart_eq_ok]

theorem stop_ceArrive {r s : State} {c : Nat} {o : Op} {n : Nat} {err : EStop} (e : ceArrive s c o n = .error err) (_ : Sound r s) : SoundStop r err := by
  grind [ceArrive, stop_needSpad, sound_arrive, = map_ok, = map_error, SoundStop]

theorem keeps_ceDecodeError {r s : State} {c id : Nat} {o : Op} {rest units place : Nat} (h : Sound r s) : EKeeps r (·) (ceDecodeError s c id o rest units place) := by
  refine .bind (get := (·)) ?_ fun u hu => .value (sound_modOp (sound_noteDecodeError hu))
  split
  · exact ⟨fun e => by obtain ⟨_, -, rfl⟩ := map_ok.1 e; exact sound_arriveErr h, fun e => stop_needSpad (map_error.1 e)⟩
  · exact .value h

theorem sound_ceDecodeError {r s t : State} {c id : Nat} {o : Op} {rest units place : Nat} (e : ceDecodeError s c id o rest units place = .ok t)
    (h : Sound r s) : Sound r t := (keeps_ceDecodeError h).ok e

theorem stop_ceDecodeError {r s : State} {c id : Nat} {o : Op} {rest units place : Nat} {err : EStop} (e : ceDecodeError s c id o rest units place = .error err)
    (h : Sound r s) : SoundStop r err := (keeps_ceDecodeError h).stop e

theorem stop_needList {r s : State} {c : Nat} {o : Op} {l : List Nat} {err : EStop} (e : needList s c o l = .error err) : SoundStop r err := by
  unfold needList at e
  split at e
  · split at e
    · cases e
    · exact stop_needSpad e
  · cases e

theorem sound_granuleSource {r s : State} {c id : Nat} {o : Op} {l : List Nat} {t y} (e : granuleSource s c id o l = .ok (t, y)) (h : Sound r s) : Sound r t := by
  grind [granuleSource, sound_readEnds, = bind_ok, = pure_ok, = map_ok, = dotBind_ok, = upon_ok, = atPart_eq_ok]

theorem stop_granuleSource {r s : State} {c id : Nat} {o : Op} {l : List Nat} {err : EStop} (e : granuleSource s c id o l = .error err) (h : Sound r s) : SoundStop r err := by
  grind [granuleSource, stop_endsAt, stop_readEnds, sound_readEnds, = bind_ok, = bind_error, = pure_ok, = map_ok, = map_error, SoundStop]

theorem sound_moveGranule {r s : State} {c id : Nat} {o : Op} {t : State} (e : moveGranule s c id o = .ok t) (h : Sound r s) : Sound r t := by
  grind [moveGranule, sound_writeEnds, sound_ceArrive, sound_granuleSource, = along_ok, = bind_ok, = pure_ok, = map_ok, = dotBind_ok, = upon_ok, = atPart_eq_ok]

theorem stop_moveGranule {r s : State} {c id : Nat} {o : Op} {err : EStop} (e : moveGranule s c id o = .error err) (h : Sound r s) : SoundStop r err := by
  grind [moveGranule, stop_along, stop_endsAt, stop_writeEnds, stop_ceArrive, stop_needList, stop_granuleSource, sound_writeEnds, sound_ceArrive, sound_granuleSource, = bind_ok, = bind_error, = pure_ok, = map_ok, = map_error, = along_ok, stop_along, SoundStop]

theorem sound_landAt {r s : State} {c id : Nat} {o : Op} {n e off : Nat} {d : List Byte} (h : Sound r s) : Sound r (landAt c id o n e off d s) :=
  sound_modOp ((sound_modCore ..).2 h)

theorem sound_failMember {r s : State} {c id n code sub : Nat} (h : Sound r s) : Sound r (failMember c id n code sub s) := by
  grind [failMember, sound_modOp, sound_record, soundBy_iff]

theorem sound_mcastMembersTake {r s : State} {c id : Nat} {l : List (Nat × Nat × Nat × List Byte)} (h : Sound r s) : Sound r (mcastMembersTake c id l s) := by
  induction l generalizing s with
  | nil => exact h
  | cons x l ih =>
    obtain ⟨n, e, off, d⟩ := x
    unfold mcastMembersTake
    split
    · exact h
    · refine ih ?_
      split
      · exact h
      · split
        · exact sound_failMember h
        · split
          · exact sound_landAt h
          · exact sound_modOp ((sound_modCore ..).2 h)

theorem sound_mcastCount {r s : State} {c id : Nat} {all : Bool} (h : Sound r s) : Sound r (mcastCount c id all s) := by
  grind [mcastCount.eq_def, sound_modCore, sound_arrive, sound_modOp, sound_record, soundBy_iff, sound_foldl]

theorem sound_mcastLate {r s : State} {c id : Nat} (h : Sound r s) : Sound r (mcastLate s c id) := by
  grind [mcastLate.eq_def, sound_modOp, sound_mcastMembersTake, sound_mcastCount, sound_record, soundBy_iff]

theorem sound_mcastGranule {r s : State} {c id : Nat} {o : Op} {t : State} (e : mcastGranule s c id o = .ok t) (h : Sound r s) : Sound r t := by
  grind [mcastGranule, sound_granuleSource, sound_mcastMembersTake, sound_mcastCount, = bind_ok, = pure_ok, = map_ok, = dotBind_ok, = upon_ok, = atPart_eq_ok]

theorem stop_mcastGranule {r s : State} {c id : Nat} {o : Op} {err : EStop} (e : mcastGranule s c id o = .error err) (h : Sound r s) : SoundStop r err := by
  grind [mcastGranule, stop_granuleSource, sound_granuleSource, sound_mcastMembersTake, sound_mcastCount, = bind_ok, = bind_error, = pure_ok, = map_ok, = map_error, SoundStop]

theorem sound_openRegion {r s : State} {c id : Nat} {o : Op} {ag : Agent} {t y} (e : openRegion s c id o ag = .ok (t, y)) (h : Sound r s) : Sound r t := by
  grind [openRegion, sound_entryOf, sound_mapOf, = along_ok, = bind_ok, = pure_ok]

theorem stop_openRegion {r s : State} {c id : Nat} {o : Op} {ag : Agent} {err : EStop} (e : openRegion s c id o ag = .error err) (h : Sound r s) : SoundStop r err := by
  grind [openRegion, stop_along, stop_entryOf, stop_mapOf, eFault, sound_entryOf, sound_mapOf, = bind_ok, = bind_error, = pure_ok, = along_ok, stop_along, SoundStop]

theorem sound_regionElems {r s : State} {c id : Nat} {o : Op} {e : Tid} {m : List Shard} {lo n : Nat} {t y} (he : regionElems s c id o e m lo n = .ok (t, y)) (h : Sound r s) : Sound r t := by
  grind [regionElems, sound_resolveAll, = bind_ok, = pure_ok, = map_ok, = dotBind_ok, = upon_ok, = atPart_eq_ok]

theorem stop_regionElems {r s : State} {c id : Nat} {o : Op} {e : Tid} {m : List Shard} {lo n : Nat} {err : EStop} (he : regionElems s c id o e m lo n = .error err) (h : Sound r s) : SoundStop r err := by
  grind [regionElems, stop_resolveAll, sound_resolveAll, = bind_ok, = bind_error, = pure_ok, = map_ok, = map_error, SoundStop]

theorem sound_readRegion {r s : State} {c id circ : Nat} {ag : Agent} {e : Tid} {lo n : Nat} {l : List (Nat × Resolved)} {t y} (he : readRegion s c id circ ag e lo n l = .ok (t, y)) (h : Sound r s) : Sound r t := by
  grind [readRegion, sound_ceReadPieces, = map_ok, = dotBind_ok, = upon_ok, = atPart_eq_ok]

theorem stop_readRegion {r s : State} {c id circ : Nat} {ag : Agent} {e : Tid} {lo n : Nat} {l : List (Nat × Resolved)} {err : EStop} (he : readRegion s c id circ ag e lo n l = .error err) (h : Sound r s) : SoundStop r err := by
  grind [readRegion, stop_ceReadPieces, sound_ceReadPieces, = map_ok, = map_error, SoundStop]

theorem sound_writeRegion {r s : State} {c id : Nat} {o : Op} {ag : Agent} {e : Tid} {lo : Nat} {l : List (Nat × Resolved)} {d : List Byte} {t y} (he : writeRegion s c id o ag e lo l d = .ok (t, y)) (h : Sound r s) : Sound r t := by
  grind [writeRegion, sound_readPieces, sound_cePlaceWrites, = along_ok, = bind_ok, = pure_ok, = map_ok, = dotBind_ok, = upon_ok, = atPart_eq_ok]

theorem stop_writeRegion {r s : State} {c id : Nat} {o : Op} {ag : Agent} {e : Tid} {lo : Nat} {l : List (Nat × Resolved)} {d : List Byte} {err : EStop} (he : writeRegion s c id o ag e lo l d = .error err) (h : Sound r s) : SoundStop r err := by
  grind [writeRegion, stop_along, stop_readPieces, stop_cePlaceWrites, sound_readPieces, sound_cePlaceWrites, = bind_ok, = bind_error, = pure_ok, = map_ok, = map_error, = along_ok, stop_along, SoundStop]

theorem stop_denseRange {r : State} {w : Word} {n : Nat} {err : EStop} (e : denseRange w n = .error err) : SoundStop r err := by
  grind [denseRange, eFault, SoundStop]

theorem keeps_openRegion {r s : State} {c id : Nat} {o : Op} {ag : Agent} (h : Sound r s) : EKeeps r Prod.fst (openRegion s c id o ag) :=
  ⟨fun e => sound_openRegion e h, fun e => stop_openRegion e h⟩

theorem keeps_ceArrive {r s : State} {c : Nat} {o : Op} {n : Nat} (h : Sound r s) : EKeeps r (·) (ceArrive s c o n) :=
  ⟨fun e => sound_ceArrive e h, fun e => stop_ceArrive e h⟩

theorem keeps_tidGranule {r s : State} {c id : Nat} {o : Op} (h : Sound r s) : EKeeps r (·) (tidGranule s c id o) := by
  refine .bind (keeps_openRegion h) fun ⟨u, e, m⟩ hu => .along (.check stop_denseRange fun _ => ?_)
  dsimp only
  refine .bind ⟨fun e => sound_regionElems e hu, fun e => stop_regionElems e hu⟩ fun ⟨v, l⟩ hv => ?_
  split
  · exact .bind ⟨fun e => sound_readRegion e hv, fun e => stop_readRegion e hv⟩ fun ⟨w, d⟩ hw => .along
      (.bind (keeps_writeEnds hw) fun ⟨x, k⟩ hx => .along (keeps_ceArrive hx))
  · exact .bind (keeps_readEnds hv) fun ⟨w, d⟩ hw => .bind ⟨fun e => sound_writeRegion e hw, fun e => stop_writeRegion e hw⟩ fun ⟨x, k⟩ hx =>
      .along (keeps_ceArrive hx)

theorem sound_tidGranule {r s t : State} {c id : Nat} {o : Op} (e : tidGranule s c id o = .ok t) (h : Sound r s) : Sound r t := (keeps_tidGranule h).ok e

theorem stop_tidGranule {r s : State} {c id : Nat} {o : Op} {err : EStop} (e : tidGranule s c id o = .error err) (h : Sound r s) : SoundStop r err :=
  (keeps_tidGranule h).stop e

theorem sound_sparseRead {r s : State} {c id circ : Nat} {ag : Agent} {e : Tid} {g : Nat} {t y} (he : sparseRead s c id circ ag e g = .ok (t, y)) (h : Sound r s) : Sound r t := by
  grind [sparseRead, sound_ceReadPieces, sound_record, soundBy_iff, = along_ok, = bind_ok, = pure_ok]

theorem stop_sparseRead {r s : State} {c id circ : Nat} {ag : Agent} {e : Tid} {g : Nat} {err : EStop} (he : sparseRead s c id circ ag e g = .error err) (h : Sound r s) : SoundStop r err := by
  grind [sparseRead, stop_along, stop_ceReadPieces, sound_ceReadPieces, sound_record, soundBy_iff, = bind_ok, = bind_error, = pure_ok, = along_ok, stop_along, SoundStop]

theorem keeps_sparseReads {r s : State} {c id circ : Nat} {ag : Agent} {e : Tid} {l : List Nat} (h : Sound r s) : EKeeps r Prod.fst (sparseReads c id circ ag e l s) := by
  induction l generalizing s with
  | nil => exact .value h
  | cons g l ih =>
    refine .bind ⟨fun e => sound_sparseRead e h, fun e => stop_sparseRead e h⟩ fun ⟨u, a⟩ hu => .along ?_
    dsimp only
    split
    · exact .value hu
    · exact .bind (ih hu) fun ⟨v, b⟩ hv => .value hv

theorem sound_zeroRest {r s : State} {c id : Nat} {o : Op} {kind : Nat} {w : Word} {lo n : Nat} {t : State} (e : zeroRest s c id o kind w lo n = .ok t) (h : Sound r s) : Sound r t := by
  grind [zeroRest, sound_writeEnds, = bind_ok, = pure_ok, = map_ok, = dotBind_ok, = upon_ok, = atPart_eq_ok]

theorem stop_zeroRest {r s : State} {c id : Nat} {o : Op} {kind : Nat} {w : Word} {lo n : Nat} {err : EStop} (e : zeroRest s c id o kind w lo n = .error err) (h : Sound r s) : SoundStop r err := by
  grind [zeroRest, stop_endsAt, stop_writeEnds, sound_writeEnds, = bind_ok, = bind_error, = pure_ok, = map_ok, = map_error, SoundStop]

theorem keeps_decodeError {r s : State} {c id : Nat} {o : Op} {kind lo n rest units place : Nat} {w : Word} (h : Sound r s) :
    EKeeps r (·) (do let u ← zeroRest s c id o kind w lo n; along u (ceDecodeError u c id o rest units place)) :=
  .bind (get := (·)) ⟨fun e => sound_zeroRest e h, fun e => stop_zeroRest e h⟩ fun _ hu => .along (keeps_ceDecodeError hu)

theorem keeps_sfillGranule {r s : State} {c id : Nat} {o : Op} (h : Sound r s) : EKeeps r (·) (sfillGranule s c id o) := by
  refine .bind (keeps_openRegion h) fun ⟨u, e, m⟩ hu => .along (.check stop_denseRange fun _ => ?_)
  dsimp only
  refine .bind (keeps_sparseReads hu) fun ⟨v, x⟩ hv => .along ?_
  dsimp only
  split
  · exact .bind (keeps_writeEnds hv) fun ⟨x, k⟩ hx => .along (keeps_ceArrive hx)
  · exact keeps_decodeError hv

theorem sound_sfillGranule {r s t : State} {c id : Nat} {o : Op} (e : sfillGranule s c id o = .ok t) (h : Sound r s) : Sound r t := (keeps_sfillGranule h).ok e

theorem stop_sfillGranule {r s : State} {c id : Nat} {o : Op} {err : EStop} (e : sfillGranule s c id o = .error err) (h : Sound r s) : SoundStop r err :=
  (keeps_sfillGranule h).stop e

theorem sound_readEntry {r s : State} {c id : Nat} {ag : Agent} {va : Nat} {t y} (e : readEntry s c id ag va = .ok (t, y)) (h : Sound r s) : Sound r t := by
  grind [readEntry, sound_readPieces, = map_ok, = dotBind_ok, = upon_ok, = atPart_eq_ok]

theorem stop_readEntry {r s : State} {c id : Nat} {ag : Agent} {va : Nat} {err : EStop} (e : readEntry s c id ag va = .error err) (h : Sound r s) : SoundStop r err := by
  grind [readEntry, stop_readPieces, sound_readPieces, = map_ok, = map_error, SoundStop]

theorem sound_readChunk {r s : State} {c id : Nat} {ag : Agent} {bankLocal : Bool} {base e : Nat} {t y} (he : readChunk s c id ag bankLocal base e = .ok (t, y)) (h : Sound r s) : Sound r t := by
  grind [readChunk, sound_readPieces, sound_record, soundBy_iff, = map_ok, = dotBind_ok, = upon_ok, = atPart_eq_ok]

theorem stop_readChunk {r s : State} {c id : Nat} {ag : Agent} {bankLocal : Bool} {base e : Nat} {err : EStop} (he : readChunk s c id ag bankLocal base e = .error err) (h : Sound r s) : SoundStop r err := by
  grind [readChunk, stop_readPieces, sound_readPieces, sound_record, soundBy_iff, = map_ok, = map_error, SoundStop]

theorem keeps_dfillGranule {r s : State} {c id : Nat} {o : Op} (h : Sound r s) : EKeeps r (·) (dfillGranule s c id o) := by
  refine .bind ⟨fun e => sound_readEntry e h, fun e => stop_readEntry e h⟩ fun ⟨u, e⟩ hu =>
    .bind (.along ⟨fun e => sound_readChunk e hu, fun e => stop_readChunk e hu⟩) fun ⟨v, x⟩ hv => .along ?_
  dsimp only
  split
  · exact .check stop_endsAt fun _ => .bind (keeps_writeEnds hv) fun ⟨x, k⟩ hx => .along (keeps_ceArrive hx)
  · exact keeps_decodeError hv

theorem sound_dfillGranule {r s t : State} {c id : Nat} {o : Op} (e : dfillGranule s c id o = .ok t) (h : Sound r s) : Sound r t := (keeps_dfillGranule h).ok e

theorem stop_dfillGranule {r s : State} {c id : Nat} {o : Op} {err : EStop} (e : dfillGranule s c id o = .error err) (h : Sound r s) : SoundStop r err :=
  (keeps_dfillGranule h).stop e

theorem keeps_cputFill {r s : State} {c id : Nat} {o : Op} {f : Nat} (h : Sound r s) : EKeeps r (·) (cputFill c id o f s) := by
  induction f generalizing s with
  | zero => exact .value h
  | succ f ih =>
    unfold cputFill
    split
    · exact .value h
    · dsimp only
      split
      · exact .value h
      · exact .check stop_endsAt fun _ => .bind (keeps_readEnds h) fun ⟨u, d⟩ hu => .along (ih (sound_modOp hu))

theorem keeps_cputGranule {r s : State} {c id : Nat} {o : Op} (h : Sound r s) : EKeeps r (·) (cputGranule s c id o) := by
  refine .bind (get := (·)) (keeps_cputFill h) fun u hu => .along ?_
  split
  · exact .value hu
  · dsimp only
    exact .bind (keeps_cePlaceWrites hu) fun ⟨v, k⟩ hv => .along (keeps_ceArrive (sound_modOp hv))

theorem sound_cputGranule {r s t : State} {c id : Nat} {o : Op} (e : cputGranule s c id o = .ok t) (h : Sound r s) : Sound r t := (keeps_cputGranule h).ok e

theorem stop_cputGranule {r s : State} {c id : Nat} {o : Op} {err : EStop} (e : cputGranule s c id o = .error err) (h : Sound r s) : SoundStop r err :=
  (keeps_cputGranule h).stop e

theorem sound_ceUnit {r s : State} {c id : Nat} {o : Op} {t : State} (e : ceUnit s c id o = .ok t) (h : Sound r s) : Sound r t := by
  grind [ceUnit, sound_moveGranule, sound_mcastGranule, sound_tidGranule, sound_sfillGranule, sound_dfillGranule, sound_cputGranule, = bind_ok, = pure_ok]

theorem stop_ceUnit {r s : State} {c id : Nat} {o : Op} {err : EStop} (e : ceUnit s c id o = .error err) (h : Sound r s) : SoundStop r err := by
  grind [ceUnit, stop_ceCheck, stop_moveGranule, stop_mcastGranule, stop_tidGranule, stop_sfillGranule, stop_dfillGranule, stop_cputGranule, sound_moveGranule, sound_mcastGranule, sound_tidGranule, sound_sfillGranule, sound_dfillGranule, sound_cputGranule, = bind_ok, = bind_error, = pure_ok, SoundStop]

end Sys2Proof.Machine
end

section
/-!
SUPPORT. The invariant (O57): the transform units and the progress of engine operations.
-/

namespace Sys2Proof.Machine

theorem sound_transformTrigger {r s : State} {lo : Nat} {x : Trig} {t : State} (e : transformTrigger lo x s = .ok t) (h : Sound r s) : Sound r t := by
  grind [transformTrigger, sound_gateOp]

theorem sound_tdWindow {r s : State} {x : Trig} {t : State} (e : tdWindow x s = .ok t) (h : Sound r s) : Sound r t := by
  grind [tdWindow, sound_deliver, = bind_ok, = pure_ok]

theorem sound_tdBlock {r s : State} {x : Trig} {t : State} (e : tdBlock x s = .ok t) (h : Sound r s) : Sound r t := by
  grind [tdBlock, sound_transformTrigger, = bind_ok, = pure_ok]

theorem sound_dxStored {r s : State} {c id : Nat} {o : Op} {e : Tid} {lo n : Nat} {t y} (he : dxStored s c id o e lo n = .ok (t, y)) (h : Sound r s) : Sound r t := by
  grind [dxStored, sound_readPieces, sound_readEntry, sound_readChunk, sound_record, soundBy_iff, = along_ok, = bind_ok, = pure_ok, = map_ok, = dotBind_ok, = upon_ok, = atPart_eq_ok]

theorem stop_dxStored {r s : State} {c id : Nat} {o : Op} {e : Tid} {lo n : Nat} {err : EStop} (he : dxStored s c id o e lo n = .error err) (h : Sound r s) : SoundStop r err := by
  grind [dxStored, stop_along, stop_readPieces, stop_readEntry, stop_readChunk, sound_readPieces, sound_readEntry, sound_readChunk, sound_record, soundBy_iff, = bind_ok, = bind_error, = pure_ok, = map_ok, = map_error, = along_ok, stop_along, SoundStop]

theorem sound_dxRead {r s : State} {c id : Nat} {o : Op} {i : Nat} {t y} (e : dxRead s c id o i = .ok (t, y)) (h : Sound r s) : Sound r t := by
  grind [dxRead, sound_readPieces, sound_entryOf, sound_dxStored, = along_ok, = bind_ok, = pure_ok, = map_ok, = dotBind_ok, = upon_ok, = atPart_eq_ok]

theorem stop_dxRead {r s : State} {c id : Nat} {o : Op} {i : Nat} {err : EStop} (e : dxRead s c id o i = .error err) (h : Sound r s) : SoundStop r err := by
  grind [dxRead, stop_along, stop_readPieces, stop_entryOf, stop_dxStored, eFault, sound_readPieces, sound_entryOf, sound_dxStored, = bind_ok, = bind_error, = pure_ok, = along_ok, stop_along, SoundStop]

theorem stop_dxCheck {r : State} {o : Op} {err : EStop} (e : dxCheck o = .error err) : SoundStop r err := by
  grind [dxCheck, eFault, SoundStop]

theorem stop_tdEntry {r s : State} {c : Nat} {o : Op} {err : EStop} (e : tdEntry s c o = .error err) : SoundStop r err := by
  grind [tdEntry, stop_readSpad, eFault, = bind_ok, = bind_error, = pure_ok, SoundStop]

theorem sound_enter {r s : State} {c : Nat} {o : Op} {d : List Byte} (h : Sound r s) : Sound r (enter s c o d) := by
  grind [enter, sound_modCore, sound_record, soundBy_iff]

theorem sound_entryArrives {r s : State} {c : Nat} {o : Op} {t : State} (e : entryArrives s c o = .ok t) (h : Sound r s) : Sound r t := by
  grind [entryArrives, sound_modArch, sound_arrive, sound_arriveErr, sound_record, soundBy_iff, = map_ok, = dotBind_ok, = upon_ok, = atPart_eq_ok]

theorem stop_entryArrives {r s : State} {c : Nat} {o : Op} {err : EStop} (e : entryArrives s c o = .error err) (_ : Sound r s) : SoundStop r err := by
  grind [entryArrives, stop_needSpad, sound_modArch, sound_arrive, sound_arriveErr, sound_record, soundBy_iff, = map_ok, = map_error, SoundStop]

theorem keeps_entryArrives {r s : State} {c : Nat} {o : Op} (h : Sound r s) : EKeeps r (·) (entryArrives s c o) :=
  ⟨fun e => sound_entryArrives e h, fun e => stop_entryArrives e h⟩

theorem keeps_fifoUnit {r s : State} {c id : Nat} {o : Op} (h : Sound r s) : EKeeps r (·) (fifoUnit s c id o) := by
  have enters : ∀ {u : State} {p q : Op} {d : List Byte}, Sound r u → EKeeps r (·) (do let v ← entryArrives u c p; pure (enter v c q d)) :=
    fun h => .bind (get := (·)) (keeps_entryArrives h) fun _ h => .value (sound_enter h)
  unfold fifoUnit
  split
  · exact (⟨fun e => by obtain ⟨_, -, rfl⟩ := map_ok.1 e; exact sound_enter h, fun e => stop_tdEntry (map_error.1 e)⟩)
  · refine .check stop_dxCheck fun _ => ?_
    dsimp only
    split
    · exact enters h
    · refine .bind ⟨fun e => sound_dxRead e h, fun e => stop_dxRead e h⟩ fun ⟨u, d⟩ hu => .along ?_
      dsimp only
      split
      · exact enters hu
      · refine enters ?_
        split
        · exact hu
        · exact sound_noteDecodeError hu

theorem of_ite {α : Type} {c : Prop} [Decidable c] {x y z : α} (e : (if c then x else y) = z) : x = z ∨ y = z := by
  split at e
  · exact .inl e
  · exact .inr e

theorem sound_execDxEntryDeliver {r s t : State} {core op : Nat} (e : execDxEntryDeliver core op s = .next t) (h : Sound r s) : Sound r t := by
  unfold execDxEntryDeliver at e
  split at e
  · exact Host.Outcome.next.inj e ▸ h
  · rcases of_ite e with e | e
    · exact Host.Outcome.next.inj e ▸ h
    · have unit := keeps_fifoUnit (c := core) (id := op) (o := ‹Op›) h
      split at e
      · exact Host.Outcome.next.inj e ▸ unit.ok ‹_›
      · exact Host.Outcome.next.inj e ▸ sound_takeEStop (unit.stop ‹_›) h

theorem stop_fcCheck {r : State} {o : Op} {err : EStop} (e : fcCheck o = .error err) : SoundStop r err := by
  grind [fcCheck, eFault, SoundStop]

theorem stop_inSpad {r : State} {off n : Nat} {err : EStop} (e : inSpad off n = .error err) : SoundStop r err := by
  grind [inSpad, eFault, SoundStop]

theorem sound_fcEncUnit {r s : State} {c : Nat} {o : Op} {t : State} (e : fcEncUnit s c o = .ok t) (h : Sound r s) : Sound r t := by
  grind [fcEncUnit, sound_writeSpad, = bind_ok, = pure_ok]

theorem stop_fcEncUnit {r s : State} {c : Nat} {o : Op} {err : EStop} (e : fcEncUnit s c o = .error err) (h : Sound r s) : SoundStop r err := by
  grind [fcEncUnit, stop_readSpad, stop_writeSpad, stop_fcCheck, stop_inSpad, sound_writeSpad, = bind_ok, = bind_error, = pure_ok, SoundStop]

theorem stop_fcChunk {r s : State} {c : Nat} {o : Op} {e : Nat} {err : EStop} (he : fcChunk s c o e = .error err) : SoundStop r err := by
  grind [fcChunk, stop_readSpad, stop_inSpad, = bind_ok, = bind_error, = pure_ok, SoundStop]

theorem keeps_writeSpad {r s : State} {d off : Nat} {data : List Byte} (h : Sound r s) : EKeeps r (·) (writeSpad s d off data) :=
  ⟨fun e => sound_writeSpad e h, fun e => stop_writeSpad e h⟩

theorem keeps_fcDecUnit {r s : State} {c id : Nat} {o : Op} (h : Sound r s) : EKeeps r (·) (fcDecUnit s c id o) := by
  refine .check stop_fcCheck fun _ => .check stop_inSpad fun _ => .check stop_inSpad fun _ => .check stop_readSpad fun _ =>
    .check stop_fcChunk fun x => ?_
  split
  · exact keeps_writeSpad h
  · have zeros := keeps_writeSpad (d := c) (off := fcDst o) (data := List.replicate 4096 0) h
    exact ⟨fun e => by obtain ⟨u, first, rfl⟩ := map_ok.1 e; exact sound_modOp (sound_noteDecodeError (zeros.ok first)), fun e => zeros.stop (map_error.1 e)⟩

theorem sound_fcDecUnit {r s t : State} {c id : Nat} {o : Op} (e : fcDecUnit s c id o = .ok t) (h : Sound r s) : Sound r t := (keeps_fcDecUnit h).ok e

theorem stop_fcDecUnit {r s : State} {c id : Nat} {o : Op} {err : EStop} (e : fcDecUnit s c id o = .error err) (h : Sound r s) : SoundStop r err :=
  (keeps_fcDecUnit h).stop e

theorem keeps_veRunUnit {r s : State} {c : Nat} {o : Op} (h : Sound r s) : EKeeps r (·) (veRunUnit s c o) := by
  unfold veRunUnit
  dsimp only
  split
  · exact .error trivial
  · split
    · exact .error trivial
    · refine .check stop_inSpad fun _ => .check stop_inSpad fun _ => .check stop_inSpad fun _ => .check stop_readSpad fun _ =>
        .check stop_readSpad fun _ => ?_
      split
      · exact .error trivial
      · split
        · exact .bind (get := (·)) (keeps_writeSpad h) fun u hu => .value ((sound_modCore ..).2 ((sound_record ..).2 ((soundBy_iff ..).2 hu)))
        · exact .bind (get := (·)) (keeps_writeSpad h) fun u hu => .value ((sound_modCore ..).2 hu)

theorem sound_veRunUnit {r s t : State} {c : Nat} {o : Op} (e : veRunUnit s c o = .ok t) (h : Sound r s) : Sound r t := (keeps_veRunUnit h).ok e

theorem stop_veRunUnit {r s : State} {c : Nat} {o : Op} {err : EStop} (e : veRunUnit s c o = .error err) (h : Sound r s) : SoundStop r err :=
  (keeps_veRunUnit h).stop e

theorem sound_veStatUnit {r s : State} {c : Nat} {o : Op} {t : State} (e : veStatUnit s c o = .ok t) (h : Sound r s) : Sound r t := by
  grind [veStatUnit, sound_writeSpad, = bind_ok, = pure_ok]

theorem stop_veStatUnit {r s : State} {c : Nat} {o : Op} {err : EStop} (e : veStatUnit s c o = .error err) (h : Sound r s) : SoundStop r err := by
  grind [veStatUnit, stop_writeSpad, stop_inSpad, eFault, sound_writeSpad, = bind_ok, = bind_error, = pure_ok, SoundStop]

theorem sound_transformUnit {r s : State} {c id : Nat} {o : Op} {t : State} (e : transformUnit s c id o = .ok t) (h : Sound r s) : Sound r t := by
  grind [transformUnit, sound_fcEncUnit, sound_fcDecUnit, sound_veRunUnit, sound_veStatUnit]

theorem stop_transformUnit {r s : State} {c id : Nat} {o : Op} {err : EStop} (e : transformUnit s c id o = .error err) (h : Sound r s) : SoundStop r err := by
  grind [transformUnit, stop_fcEncUnit, stop_fcDecUnit, stop_veRunUnit, stop_veStatUnit, sound_fcEncUnit, sound_fcDecUnit, sound_veRunUnit, sound_veStatUnit, SoundStop]

theorem keeps_opUnit {r s : State} {c id : Nat} {o : Op} (h : Sound r s) : EKeeps r (·) (opUnit s c id o) := by
  unfold opUnit
  split
  · exact .error trivial
  · split
    · exact ⟨fun e => sound_ceUnit e h, fun e => stop_ceUnit e h⟩
    · split
      · exact ⟨fun e => sound_meUnit e h, fun e => stop_meUnit e h⟩
      · exact ⟨fun e => sound_transformUnit e h, fun e => stop_transformUnit e h⟩

theorem sound_unitFault {r s : State} {c : Nat} {o : Op} {e : EStop} (h : Sound r s) : Sound r (unitFault s c o e) := by
  grind [unitFault.eq_def, sound_modCore, sound_mcastCount, sound_record, soundBy_iff]

theorem sound_stepOp {r s : State} {c id : Nat} (h : Sound r s) : Sound r (stepOp s c id) := by
  have late : Sound r (mcastLate s c id) := sound_mcastLate h
  unfold stepOp
  dsimp only
  split
  · exact late
  · split
    · have unit := keeps_opUnit (c := c) (id := id) (o := ‹Op›) late
      split
      · exact sound_modOp (unit.ok ‹_›)
      · exact sound_unitFault (sound_takeEStop (unit.stop ‹_›) late)
    · exact late

theorem sound_stepOps {r s : State} {c id n : Nat} (h : Sound r s) : Sound r (stepOps c id n s) := by
  induction n generalizing s with
  | zero => exact h
  | succ n ih => exact ih (sound_stepOp h)

theorem sound_completeOp {r s : State} {c : Nat} {o : Op} (h : Sound r s) : Sound r (completeOp s c o) := by
  grind [completeOp, sound_modCore, sound_recordOp, sound_finishOp, sound_record, soundBy_iff]

theorem sound_execCeGranuleLand {r s : State} {core op : Nat} {t : State} (e : execCeGranuleLand core op s = .next t) (h : Sound r s) : Sound r t := by
  grind [execCeGranuleLand.eq_def, sound_stepOp, sound_record, soundBy_iff]

theorem sound_execEngineOpComplete {r s : State} {core op : Nat} {t : State} (e : execEngineOpComplete core op s = .next t) (h : Sound r s) : Sound r t := by
  grind [execEngineOpComplete.eq_def, sound_mcastLate, sound_stepOps, sound_completeOp, sound_record, soundBy_iff]

theorem sound_execMeFollowOn {r s t : State} {core op : Nat} (e : execMeFollowOn core op s = .next t) (h : Sound r s) : Sound r t := by
  unfold execMeFollowOn at e
  split at e
  · exact Host.Outcome.next.inj e ▸ h
  · split at e
    · exact Host.Outcome.next.inj e ▸ h
    · rcases of_ite e with e | e
      · exact Host.Outcome.next.inj e ▸ h
      · rcases of_ite e with e | e
        · exact Host.Outcome.next.inj e ▸ sound_takeEStop trivial h
        · rcases of_ite e with e | e
          · exact Host.Outcome.next.inj e ▸ sound_parkOp ((sound_record ..).2 ((soundBy_iff ..).2 ((sound_modCore ..).2 h)))
          · exact Host.Outcome.next.inj e ▸ (sound_record ..).2 ((soundBy_iff ..).2 ((sound_modCore ..).2 h))

theorem sound_resumeEngines {r s : State} {c : Nat} {l : BankList} (h : Sound r s) : Sound r (resumeEngines c l s) := by
  grind [resumeEngines, sound_modCore, sound_modBank, sound_record, soundBy_iff, sound_foldl]

theorem sound_execEngineOpResume {r s : State} {core slot : Nat} {t : State} (e : execEngineOpResume core slot s = .next t) (h : Sound r s) : Sound r t := by
  grind [execEngineOpResume, sound_setCore, sound_resumeEngines, sound_record, soundBy_iff]

theorem sound_execEngineOpCancel {r s : State} {core slot : Nat} {t : State} (e : execEngineOpCancel core slot s = .next t) (h : Sound r s) : Sound r t := by
  grind [execEngineOpCancel, sound_setCore, sound_finishOp, sound_stopList, sound_record, soundBy_iff]

theorem sound_engineTurn {r s : State} {c id : Nat} {t : State} (e : engineTurn s c id = .next t) (h : Sound r s) : Sound r t := by
  grind [engineTurn.eq_def, sound_prefetch, sound_execDxEntryDeliver, sound_stepOp, sound_record, soundBy_iff]

end Sys2Proof.Machine
end

section
/-!
SUPPORT. The invariant of the module (O57): bank engines and control.
-/

namespace Sys2Proof.Machine

theorem sound_modDesk {r s : State} {id : Nat} {f : Desk → Desk} (h : Sound r s) : Sound r (modDesk s id f) := by
  grind [modDesk.eq_def, sound_modCore, sound_record, soundBy_iff, = map_ok, = dotBind_ok, = upon_ok, = atPart_eq_ok]

theorem sound_modList {r s : State} {id : Nat} {f : BankList → BankList} (h : Sound r s) : Sound r (modList s id f) := by
  grind [modList, sound_modDesk, sound_record, soundBy_iff, = map_ok, = dotBind_ok, = upon_ok, = atPart_eq_ok]

theorem sound_countFor {r s : State} {id j : Nat} (h : Sound r s) : Sound r (countFor s id j) := by
  grind [countFor, sound_modDesk, sound_record, soundBy_iff]

theorem sound_parkBank {r s : State} {e code sub : Nat} (h : Sound r s) : Sound r (parkBank s e code sub) := by
  grind [parkBank.eq_def, sound_modBank, sound_modDesk, sound_record, soundBy_iff, = map_ok, = dotBind_ok, = upon_ok, = atPart_eq_ok]

theorem sound_takeBStop {r s : State} {e : Nat} {x : BStop} (h : Sound r s) : Sound r (takeBStop s e x) := by
  induction x generalizing s with
  | behind t x ih => exact ih (sound_keepWalks h)
  | fault code sub addr => exact sound_parkBank h
  | wait w => cases w <;> grind [takeBStop, sound_modBank, sound_modCore]

theorem sound_bankPlace {r s : State} {e : Nat} {l : BankList} {write : Bool} {va : Nat} {t y} (he : bankPlace s e l write va = .ok (t, y)) (h : Sound r s) : Sound r t := by
  grind [bankPlace.eq_def, sound_translate, sound_record, soundBy_iff]

theorem sound_bankRead {r s t : State} {e : Nat} {l : BankList} {a : List (Nat × Nat)} {y : List Byte} (he : bankRead e l a s = .ok (t, y)) (h : Sound r s) : Sound r t := by
  induction a generalizing s t y with
  | nil => cases he; exact h
  | cons x a ih =>
    obtain ⟨⟨u, p⟩, first, he⟩ := bind_ok.1 he
    obtain ⟨⟨v, d⟩, rest, he⟩ := bind_ok.1 he
    cases he
    exact ih rest (sound_bankPlace first h)

theorem sound_execBankListStart {r s t : State} {engine : Nat} (e : execBankListStart engine s = .next t) (h : Sound r s) : Sound r t := by
  unfold execBankListStart at e
  dsimp only at e
  split at e
  · split at e
    · exact Host.Outcome.next.inj e ▸ (sound_setBank ..).2 h
    · split at e
      · exact Host.Outcome.next.inj e ▸ sound_parkBank (sound_modList ((sound_setBank ..).2 h))
      · exact Host.Outcome.next.inj e ▸ sound_modList ((sound_setBank ..).2 h)
  · exact Host.Outcome.next.inj e ▸ h

theorem sound_bankRun {r s t : State} {f : State → Nat → BankList → BRes State} (hf : ∀ e l u, f s e l = .ok u → Sound r u) (e : bankRun f s = .next t)
    (h : Sound r s) : Sound r t := by
  unfold bankRun at e
  dsimp only at e
  split at e
  · exact Host.Outcome.next.inj e ▸ h
  · split at e
    · exact Host.Outcome.next.inj e ▸ h
    · split at e
      · exact Host.Outcome.next.inj e ▸ (sound_modBank ..).2 (hf _ _ _ ‹_›)
      · exact Host.Outcome.next.inj e ▸ sound_takeBStop h

theorem sound_bloadStep {r s : State} {xb : Nat} {src : Bool} {off e : Nat} {l : BankList} {t : State} (he : bloadStep xb src off s e l = .ok t) (h : Sound r s) : Sound r t := by
  grind [bloadStep, sound_modBank, sound_bankRead, = bind_ok, = pure_ok]

theorem sound_macRows {r s t : State} {m : MacKind} {p : Mac} {e : Nat} {l : BankList} {a : List Nat} {y : List (List Byte)}
    (he : macRows m p e l a s = .ok (t, y)) (h : Sound r s) : Sound r t := by
  induction a generalizing s t y with
  | nil => cases he; exact h
  | cons x a ih =>
    obtain ⟨⟨u, w, q⟩, first, he⟩ := bind_ok.1 he
    dsimp only at he
    split at he
    · cases he
    · obtain ⟨⟨v, d⟩, rest, he⟩ := bind_ok.1 he
      cases he
      exact ih rest (sound_bankPlace first h)

theorem sound_macStep {r s : State} {m : MacKind} {p : Mac} {e : Nat} {l : BankList} {t : State} (he : macStep m p s e l = .ok t) (h : Sound r s) : Sound r t := by
  grind [macStep, sound_setBank, sound_macRows, = bind_ok, = pure_ok, sound_foldl]

theorem sound_bscaleStep {r s : State} {perlane : Bool} {xb : Nat} {factor : BitVec 32} {e : Nat} {q5 : BankList} {t : State} (he : bscaleStep perlane xb factor s e q5 = .ok t) (h : Sound r s) : Sound r t := by
  grind [bscaleStep, sound_modBank, sound_foldl]

theorem sound_bstoreLanes {r s t : State} {bf : Bool} {off e : Nat} {l : BankList} {a : List Nat} (he : bstoreLanes bf off e l a s = .ok t) (h : Sound r s) : Sound r t := by
  induction a generalizing s with
  | nil => cases he; exact h
  | cons i a ih =>
    obtain ⟨⟨u, w, p⟩, first, he⟩ := bind_ok.1 he
    exact ih he ((sound_modBank ..).2 (sound_bankPlace first h))

theorem sound_bstoreStep {r s : State} {bf : Bool} {n off e : Nat} {l : BankList} {t : State} (he : bstoreStep bf n off s e l = .ok t) (h : Sound r s) : Sound r t := by
  grind [bstoreStep, sound_bstoreLanes]

theorem sound_bsendStep {r s : State} {bf : Bool} {n coreid off sw : Nat} {swv : Bool} {e : Nat} {l : BankList} {t : State} (he : bsendStep bf n coreid off sw swv s e l = .ok t) (h : Sound r s) : Sound r t := by
  grind [bsendStep, sound_modCore, sound_arrive, sound_record, soundBy_iff, = bind_ok, = pure_ok, = map_ok, = dotBind_ok, = upon_ok, = atPart_eq_ok, sound_foldl]

theorem sound_bzeroStep {r s : State} {acc : Bool} {mask : BitVec 4} {e : Nat} {q4 : BankList} {t : State} (he : bzeroStep acc mask s e q4 = .ok t) (h : Sound r s) : Sound r t := by
  grind [bzeroStep, sound_modBank, sound_record, soundBy_iff, sound_foldl]

theorem sound_bjoinStep {r s : State} {j e : Nat} {l : BankList} {t : State} (he : bjoinStep j s e l = .ok t) (h : Sound r s) : Sound r t := by
  grind [bjoinStep, sound_performBank, sound_countFor]

theorem sound_bfenceStep {r s : State} {e : Nat} {q2 : BankList} {t : State} (he : bfenceStep s e q2 = .ok t) (h : Sound r s) : Sound r t := by
  grind [bfenceStep, sound_performBank]

theorem sound_bredStep {r s : State} {d e : Nat} {l : BankList} {t : State} (he : bredStep d s e l = .ok t) (h : Sound r s) : Sound r t := by
  grind [bredStep, sound_modBank, sound_record, soundBy_iff]

theorem sound_bsyncStep {r s : State} {sw gen q3 : Nat} {l : BankList} {t : State} (e : bsyncStep sw gen s q3 l = .ok t) (h : Sound r s) : Sound r t := by
  grind [bsyncStep, = bind_ok, = pure_ok]

theorem sound_bendStep {r s : State} {t : State} (e : bendStep s = .next t) (h : Sound r s) : Sound r t := by
  grind [bendStep, sound_endOnEngine, sound_modList, sound_record, soundBy_iff]

theorem sound_arriveBred {r s : State} {e : Nat} (h : Sound r s) : Sound r (arriveBred s e) := by
  grind [arriveBred, sound_setBank, sound_record, soundBy_iff]

theorem sound_execBload {r s : State} {xb : BitVec 2} {src : Bool} {off : BitVec 40} {t : State} (e : execBload xb src off s = .next t) (h : Sound r s) : Sound r t := by
  grind [execBload, sound_bankRun, sound_bloadStep]

theorem sound_execBmac {r s : State} {p : Mac} {t : State} (e : execBmac p s = .next t) (h : Sound r s) : Sound r t := by
  grind [execBmac, sound_bankRun, sound_macStep]

theorem sound_execBmact {r s : State} {p : Mac} {t : State} (e : execBmact p s = .next t) (h : Sound r s) : Sound r t := by
  grind [execBmact, sound_bankRun, sound_macStep]

theorem sound_execBmacq {r s : State} {tq : Bool} {shift : BitVec 2} {p : Mac} {t : State} (e : execBmacq tq shift p s = .next t) (h : Sound r s) : Sound r t := by
  grind [execBmacq, sound_bankRun, sound_macStep]

theorem sound_execBscale {r s : State} {perlane : Bool} {xb : BitVec 2} {factor : BitVec 32} {t : State} (e : execBscale perlane xb factor s = .next t) (h : Sound r s) : Sound r t := by
  grind [execBscale, sound_bankRun, sound_bscaleStep]

theorem sound_execBstore {r s : State} {ofmt : Bool} {n1 : BitVec 6} {off : BitVec 40} {t : State} (e : execBstore ofmt n1 off s = .next t) (h : Sound r s) : Sound r t := by
  grind [execBstore, sound_bankRun, sound_bstoreStep]

theorem sound_execBsend {r s : State} {ofmt : Bool} {n1 : BitVec 6} {coreid : BitVec 9} {off : BitVec 19} {sw : BitVec 15} {swv : Bool} {t : State} (e : execBsend ofmt n1 coreid off sw swv s = .next t) (h : Sound r s) : Sound r t := by
  grind [execBsend, sound_bankRun, sound_bsendStep]

theorem sound_execBzero {r s : State} {acc : Bool} {mask : BitVec 4} {t : State} (e : execBzero acc mask s = .next t) (h : Sound r s) : Sound r t := by
  grind [execBzero, sound_bankRun, sound_bzeroStep]

theorem sound_execBfence {r s : State} {t : State} (e : execBfence s = .next t) (h : Sound r s) : Sound r t := by
  grind [execBfence, sound_bankRun, sound_bfenceStep]

theorem sound_execBred {r s : State} {d : BitVec 6} {t : State} (e : execBred d s = .next t) (h : Sound r s) : Sound r t := by
  grind [execBred.eq_def, sound_bankRun, sound_bredStep, sound_arriveBred, sound_record, soundBy_iff]

theorem sound_execBsync {r s : State} {sw : BitVec 19} {gen : BitVec 16} {t : State} (e : execBsync sw gen s = .next t) (h : Sound r s) : Sound r t := by
  grind [execBsync, sound_bankRun, sound_bsyncStep]

theorem sound_execBend {r s : State} {t : State} (e : execBend s = .next t) (h : Sound r s) : Sound r t := by
  grind [execBend, sound_bendStep]

theorem sound_execBankWaitRelease {r s : State} {engine : Nat} {t : State} (e : execBankWaitRelease engine s = .next t) (h : Sound r s) : Sound r t := by
  grind [execBankWaitRelease, sound_modBank, sound_record, soundBy_iff]

theorem sound_moveStep {r s : State} {c bus src : Nat} {keep : Bool} {dst : Nat} {t : State} (e : moveStep c bus src keep dst s = .ok t) (h : Sound r s) : Sound r t := by
  grind [moveStep, sound_setCore, sound_writeDest, = bind_ok, = pure_ok, = map_ok, = dotBind_ok, = upon_ok, = atPart_eq_ok]

theorem sound_execMove {r s : State} {m : Mv} {dst : BitVec 11} {t : State} (e : execMove m dst s = .next t) (h : Sound r s) : Sound r t := by
  grind [execMove, sound_finish, sound_moveStep]

theorem sound_lpPush {r s : State} {x : Trig} {t : State} (e : lpPush x s = .ok t) (h : Sound r s) : Sound r t := by
  grind [lpPush, sound_modArch, sound_record, soundBy_iff]

theorem sound_lpPop {r s : State} {x : Trig} {t : State} (e : lpPop x s = .ok t) (h : Sound r s) : Sound r t := by
  grind [lpPop, sound_modArch, sound_record, soundBy_iff]

theorem sound_cuJump {r s : State} {x : Trig} {t : State} (e : cuJump x s = .ok t) (h : Sound r s) : Sound r t := by
  grind [cuJump, sound_modArch]

theorem sound_cuCall {r s : State} {x : Trig} {t : State} (e : cuCall x s = .ok t) (h : Sound r s) : Sound r t := by
  grind [cuCall, sound_modArch, sound_record, soundBy_iff]

theorem sound_cuTrap {r s : State} {x : Trig} {t : State} (e : cuTrap x s = .ok t) (_ : Sound r s) : Sound r t := by
  grind [cuTrap]

theorem sound_cuBrk {r s : State} {x : Trig} {t : State} (e : cuBrk x s = .ok t) (h : Sound r s) : Sound r t := by
  grind [cuBrk, sound_modCore, sound_record, soundBy_iff]

theorem sound_cuHalt {r s : State} {x : Trig} {t : State} (e : cuHalt x s = .ok t) (h : Sound r s) : Sound r t := by
  grind [cuHalt, sound_modCore, sound_settleAtomics, sound_record, soundBy_iff]

theorem sound_cuWdog {r s : State} {x : Trig} {t : State} (e : cuWdog x s = .ok t) (h : Sound r s) : Sound r t := by
  grind [cuWdog, sound_modCore, sound_record, soundBy_iff]

theorem sound_slotLend {r s : State} {d n0 : Nat} {a : Arch} {t : State} (e : slotLend d n0 a s = .ok t) (h : Sound r s) : Sound r t := by
  grind [slotLend, sound_modArch]

theorem sound_streamStep {r s : State} {n : Nat} {f : Arch → Stream → Stream} {n0 : Nat} {a : Arch} {t : State} (e : streamStep n f n0 a s = .ok t) (h : Sound r s) : Sound r t := by
  grind [streamStep, sound_modCore, sound_record, soundBy_iff, = bind_ok, = pure_ok]

theorem sound_slotSbase {r s : State} {a : BitVec 3} {n : BitVec 6} {n0 : Nat} {pre : Arch} {t : State} (e : slotSbase a n n0 pre s = .ok t) (h : Sound r s) : Sound r t :=
  sound_streamStep e h

theorem sound_slotSstr {r s : State} {a : BitVec 3} {l : BitVec 2} {n : BitVec 6} {n0 : Nat} {pre : Arch} {t : State} (e : slotSstr a l n n0 pre s = .ok t) (h : Sound r s) : Sound r t :=
  sound_streamStep e h

theorem sound_slotSstri {r s : State} {a : BitVec 3} {l : BitVec 2} {imm : BitVec 13} {n0 : Nat} {pre : Arch} {t : State} (e : slotSstri a l imm n0 pre s = .ok t) (h : Sound r s) : Sound r t :=
  sound_streamStep e h

theorem sound_slotSspace {r s : State} {a : BitVec 3} {kind : BitVec 2} {idx : BitVec 5} {n0 : Nat} {pre : Arch} {t : State} (e : slotSspace a kind idx n0 pre s = .ok t) (h : Sound r s) : Sound r t :=
  sound_streamStep e h

theorem sound_slotSwlev {r s : State} {a b : BitVec 3} {n0 : Nat} {pre : Arch} {t : State} (e : slotSwlev a b n0 pre s = .ok t) (h : Sound r s) : Sound r t :=
  sound_streamStep e h

theorem sound_slotSrst {r s : State} {a : BitVec 3} {n0 : Nat} {pre : Arch} {t : State} (e : slotSrst a n0 pre s = .ok t) (h : Sound r s) : Sound r t :=
  sound_streamStep e h

end Sys2Proof.Machine
end

section
/-!
SUPPORT. The invariant of the module (O57): triggers, and the issue of a bundle.
-/

namespace Sys2Proof.Machine

theorem sound_scalar {r s : State} {op : ScalarOp} {x : Trig} {t : State} (e : scalar op x s = .ok t) (h : Sound r s) : Sound r t := by
  grind [scalar, sound_due, = bind_ok, = pure_ok]

theorem sound_vector {r s : State} {op : VectorOp} {x : Trig} {t : State} (e : vector op x s = .ok t) (h : Sound r s) : Sound r t := by
  grind [vector, sound_due, sound_record, soundBy_iff, = bind_ok, = pure_ok]

theorem sound_special {r s : State} {lat : Nat} {f : VArgs → Nat × Word} {x : Trig} {t : State} (e : special lat f x s = .ok t) (h : Sound r s) : Sound r t := by
  grind [special, sound_due, = bind_ok, = pure_ok]

theorem sound_stepRings {r s : State} {c : Nat} {t : State} (e : stepRings s c = .ok t) (h : Sound r s) : Sound r t := by
  grind [stepRings, sound_setCore, sound_record, soundBy_iff, = bind_ok, = pure_ok]

theorem sound_popOnce {r s : State} {c : Nat} {l : List Slot} {t : State} (e : popOnce c l s = .ok t) (h : Sound r s) : Sound r t := by
  grind [popOnce.eq_def, sound_setCore, sound_record, soundBy_iff, = map_ok, = dotBind_ok, = upon_ok, = atPart_eq_ok]

theorem sound_leafPops {r s : State} {c n : Nat} {t : State} (e : leafPops c n s = .ok t) (h : Sound r s) : Sound r t := by
  grind [leafPops, sound_modArch, sound_record, soundBy_iff]

/-! ### The bodies of the triggers and slots -/

@[simp] theorem soundBody_scalar (op : ScalarOp) : SoundBody (scalar op) := fun h e => sound_scalar e h
@[simp] theorem soundBody_vector (op : VectorOp) : SoundBody (vector op) := fun h e => sound_vector e h
@[simp] theorem soundBody_special (lat : Nat) (f : VArgs → Nat × Word) : SoundBody (special lat f) := fun h e => sound_special e h
@[simp] theorem soundBody_load (size sx : Nat) : SoundBody (load size sx) := fun h e => sound_load e h
@[simp] theorem soundBody_store (size : Nat) : SoundBody (store size) := fun h e => sound_store e h
@[simp] theorem soundBody_xlt : SoundBody xlt := fun h e => sound_xlt e h
@[simp] theorem soundBody_hrel : SoundBody hrel := fun h e => sound_hrel e h
@[simp] theorem soundBody_tlook : SoundBody tlook := fun h e => sound_tlook e h
@[simp] theorem soundBody_tins : SoundBody tins := fun h e => sound_tins e h
@[simp] theorem soundBody_tdel : SoundBody tdel := fun h e => sound_tdel e h
@[simp] theorem soundBody_swpost : SoundBody swpost := fun h e => sound_swpost e h
@[simp] theorem soundBody_swadd : SoundBody swadd := fun h e => sound_swadd e h
@[simp] theorem soundBody_swrd : SoundBody swrd := fun h e => sound_swrd e h
@[simp] theorem soundBody_swwait : SoundBody swwait := fun h e => sound_swwait e h
@[simp] theorem soundBody_jwait : SoundBody jwait := fun h e => sound_jwait e h
@[simp] theorem soundBody_jset : SoundBody jset := fun h e => sound_jset e h
@[simp] theorem soundBody_atomic : SoundBody atomic := fun h e => sound_atomic e h
@[simp] theorem soundBody_phase : SoundBody phase := fun h e => sound_phase e h
@[simp] theorem soundBody_xfence : SoundBody xfence := fun h e => sound_xfence e h
@[simp] theorem soundBody_meTrigger : SoundBody meTrigger := fun h e => sound_meTrigger e h
@[simp] theorem soundBody_directWrite (col : Bool) : SoundBody (directWrite col) := fun h e => sound_directWrite e h
@[simp] theorem soundBody_directRead (col : Bool) : SoundBody (directRead col) := fun h e => sound_directRead e h
@[simp] theorem soundBody_setShape : SoundBody setShape := fun h e => sound_setShape e h
@[simp] theorem soundBody_ceTrigger : SoundBody ceTrigger := fun h e => sound_ceTrigger e h
@[simp] theorem soundBody_transformTrigger (lo : Nat) : SoundBody (transformTrigger lo) := fun h e => sound_transformTrigger e h
@[simp] theorem soundBody_gateOp (j : Nat) : SoundBody (fun x s => gateOp x s j) := fun h e => sound_gateOp e h
@[simp] theorem soundBody_tdWindow : SoundBody tdWindow := fun h e => sound_tdWindow e h
@[simp] theorem soundBody_tdBlock : SoundBody tdBlock := fun h e => sound_tdBlock e h
@[simp] theorem soundBody_lpPush : SoundBody lpPush := fun h e => sound_lpPush e h
@[simp] theorem soundBody_lpPop : SoundBody lpPop := fun h e => sound_lpPop e h
@[simp] theorem soundBody_cuJump : SoundBody cuJump := fun h e => sound_cuJump e h
@[simp] theorem soundBody_cuCall : SoundBody cuCall := fun h e => sound_cuCall e h
@[simp] theorem soundBody_cuTrap : SoundBody cuTrap := fun h e => sound_cuTrap e h
@[simp] theorem soundBody_cuBrk : SoundBody cuBrk := fun h e => sound_cuBrk e h
@[simp] theorem soundBody_cuHalt : SoundBody cuHalt := fun h e => sound_cuHalt e h
@[simp] theorem soundBody_cuWdog : SoundBody cuWdog := fun h e => sound_cuWdog e h

/-- Every instruction's trigger. -/
theorem soundBody_triggerOf {i : Instr} {tr : Trigger} (h : triggerOf i = some tr) : SoundBody tr.body := by
  cases i
  all_goals first
    | (obtain rfl := Option.some.inj h
       simp [Trigger.ofMv, Trigger.ofVm, opSfExp, opSfExp2, opSfLn, opSfLog2, opSfRcp, opSfRsqrt, opSfSqrt, opSfDiv, opSfSin, opSfCos, opSfTanh, opSfSigmoid,
         opSfGelu, opSfSilu, opSfErf, opSfSoftplus])
    | cases h

/-- Every instruction's slot. -/
theorem soundSlot_slotBodyOf {i : Instr} {f : SlotBody} (h : slotBodyOf i = some f) : SoundSlot f := by
  intro r s t c a sound run
  unfold slotBodyOf at h
  split at h <;> cases h
  · exact sound_slotLend run sound
  · exact sound_slotSbase run sound
  · exact sound_slotSstr run sound
  · exact sound_slotSstri run sound
  · exact sound_slotSspace run sound
  · exact sound_slotSwlev run sound
  · exact sound_slotSrst run sound

/-! ### The steps of an issue -/

theorem sound_slotPart {r s : State} {c : Nat} {pre : Arch} {fall : Bool} {x : Slot} {t : State} (e : slotPart c pre fall x s = .ok t) (h : Sound r s) : Sound r t := by
  unfold slotPart at e
  split at e
  · exact Except.ok.inj e ▸ h
  next f some =>
    have keeps : SoundSlot f := soundSlot_slotBodyOf some
    split at e
    · rcases of_ite e with e | e
      · obtain ⟨u, run, rfl⟩ := map_ok.1 e
        exact (sound_modArch ..).2 (keeps h run)
      · exact Except.ok.inj e ▸ h
    · exact keeps h e

/-- What a part of a bundle keeps. -/
def SoundRun (f : State → Res State) : Prop := ∀ {r s t : State}, Sound r s → f s = .ok t → Sound r t

theorem sound_then {r : State} {x : Run'} {f : State → Res State} (hf : SoundRun f) (h : Sound r x.s) : Sound r (x.then f).s := by
  unfold Run'.then
  cases run : f x.s with
  | ok t => exact hf h run
  | error e =>
    have walked : Sound r (e.walked x.s) := sound_walked h
    dsimp only
    split
    · exact walked
    · split <;> exact walked

theorem sound_all {r : State} {x : Run'} {l : List (State → Res State)} (hl : ∀ f ∈ l, SoundRun f) (h : Sound r x.s) : Sound r (x.all l).s := by
  induction l generalizing x with
  | nil => exact h
  | cons f l ih => exact ih (fun g m => hl g (.tail _ m)) (sound_then (hl f (.head _)) h)

/-- The triggers among the parts keep the invariant. -/
def SoundParts (l : List Part) : Prop := ∀ t v, .run t v ∈ l → SoundBody t.body

theorem soundParts_readParts {s : State} {c : Nat} {slots : List Slot} {w w' : Option (Freeze × Nat × Nat)} {l : List Part}
    (e : readParts s c slots w = .ok (l, w')) : SoundParts l := by
  induction slots generalizing w l w' with
  | nil => cases e; exact fun _ _ m => nomatch m
  | cons x slots ih =>
    unfold readParts at e
    split at e
    · exact ih e
    · split at e
      · obtain ⟨⟨l', u⟩, rest, e⟩ := bind_ok.1 e
        have parts := ih rest
        dsimp only at e
        split at e
        · cases e
          exact fun t v m => by cases m with | tail _ m => exact parts t v m
        · next is _ =>
          cases e
          intro t v m
          cases m with
          | head => exact soundBody_triggerOf is
          | tail _ m => exact parts t v m
        · cases e; exact parts
      · exact ih e
      · cases e

theorem soundRun_writePart {c : Nat} {p : Part} {f : State → Res State} (e : writePart c p = some f) : SoundRun f := by
  cases p with
  | run t v => cases e
  | write bus dst v =>
    cases e
    intro r s t h run
    obtain ⟨_, -, rfl⟩ := map_ok.1 run
    exact sound_writeDest h

theorem soundRun_runPart {c : Nat} {pre : Arch} {hold : Nat → Bool} {cu : Bool} {l : List Part} (parts : SoundParts l) {p : Part} (m : p ∈ l)
    {f : State → Res State} (e : runPart c pre hold cu p = some f) : SoundRun f := by
  cases p with
  | write bus dst v => cases e
  | run t v =>
    obtain ⟨-, e⟩ := Option.ite_none_right_eq_some.1 e
    exact Option.some.inj e ▸ fun h run => sound_startTrigger (parts t v m) h (atPart_eq_ok.1 run)

theorem sound_issueSteps {r s : State} {c : Nat} {mark : Bool} {b : Bundle} {t : State} (e : issueSteps s c mark b = .ok t) (h : Sound r s) : Sound r t := by
  obtain ⟨s₁, rings, e⟩ := bind_ok.1 e
  obtain ⟨⟨i, leaf⟩, -, e⟩ := bind_ok.1 e
  obtain ⟨⟨parts, wait⟩, read, e⟩ := bind_ok.1 e
  have sound := soundParts_readParts read
  dsimp only at e
  split at e
  · cases e
  · obtain ⟨a, -, e⟩ := bind_ok.1 e
    refine Except.ok.inj e ▸ (sound_modCore ..).2 (sound_all ?_ (sound_all ?_ (sound_stepRings rings h)))
    · intro f m
      simp only [List.mem_append, List.mem_map, List.mem_filterMap] at m
      rcases m with (⟨x, -, rfl⟩ | ⟨p, mem, run⟩) | ⟨p, mem, run⟩
      · exact fun h run => sound_slotPart (atPart_eq_ok.1 run) h
      · exact soundRun_runPart sound mem run
      · exact soundRun_runPart sound mem run
    · intro f m
      simp only [List.mem_append, List.mem_cons, List.not_mem_nil, or_false, List.mem_filterMap] at m
      rcases m with (rfl | rfl) | ⟨p, -, write⟩
      · exact fun h run => sound_popOnce run h
      · exact fun h run => sound_leafPops run h
      · exact soundRun_writePart write

theorem sound_issue {r s : State} {c : Nat} (h : Sound r s) : Sound r (issue s c) := by
  unfold issue
  dsimp only
  split
  · exact h
  split
  · exact sound_takeFreeze h
  split
  · exact sound_takeFreeze h
  split
  · exact sound_takeCoreFault h
  split
  · refine sound_runMark (fun h e => ?_) h
    split at e
    · obtain ⟨u, run, rfl⟩ := map_ok.1 e
      exact sound_snapshot (sound_issueSteps run h)
    · exact sound_issueSteps e h
  · split
    · next run => exact sound_issueSteps run h
    · exact sound_takeStop h

theorem sound_execBundleIssue {r s : State} {t : State} (e : execBundleIssue s = .next t) (h : Sound r s) : Sound r t := by
  grind [execBundleIssue, sound_issue]

theorem sound_setGath {r s : State} {g : Gath} (h : Sound r s) : Sound r (State.setGath s g) := by
  grind [State.setGath, sound_record, soundBy_iff, = map_ok, = dotBind_ok, = upon_ok, = atPart_eq_ok]

theorem sound_sendBarriers {r s : State} {g n : Nat} {l : List Nat} (h : Sound r s) : Sound r (sendBarriers g n l s) := by
  induction l generalizing s with
  | nil => exact h
  | cons m l ih =>
    refine ih ?_
    split
    · exact sound_sendSprayed h
    · exact h

theorem sound_fabricPhase {r s : State} {g : Nat} (h : Sound r s) : Sound r (fabricPhase s g).1 := by
  unfold fabricPhase
  split
  · exact h
  · dsimp only
    split
    · exact h
    · dsimp only
      split
      · exact h
      · exact sound_setGath (sound_sendBarriers h)

theorem sound_completePhase {r s : State} {l : List Nat} (h : Sound r s) : Sound r (completePhase l s) := by
  grind [completePhase, sound_modCore, sound_record, soundBy_iff, sound_foldl]

theorem sound_execPhaseBarrierComplete {r s : State} {core : Nat} {t : State} (e : execPhaseBarrierComplete core s = .next t) (h : Sound r s) : Sound r t := by
  grind [execPhaseBarrierComplete.eq_def, sound_setGath, sound_fabricPhase, sound_completePhase, sound_record, soundBy_iff]

theorem sound_execWatchdogExpiry {r s : State} {core : Nat} {t : State} (e : execWatchdogExpiry core s = .next t) (h : Sound r s) : Sound r t := by
  grind [execWatchdogExpiry, sound_modCore, sound_takeCoreFault, sound_record, soundBy_iff]

end Sys2Proof.Machine
end

section
/-!
SUPPORT. The invariant of the module (O57): shootdowns and waits for pages.
-/

namespace Sys2Proof.Machine

theorem sound_addShoot {r0 s : State} {r : Shoot} (h : Sound r0 s) : Sound r0 (State.addShoot s r) := by
  grind [State.addShoot, sound_record, soundBy_iff]

theorem sound_execShootdownGo {r s : State} {policy : Bool} {lo hi ctl : Word} {t : State} (e : execShootdownGo policy lo hi ctl s = .next t) (h : Sound r s) : Sound r t := by
  have put (l : Tab ControlBlock) : Sound r { s with blocks := l } := (sound_record ..).2 ((soundBy_iff ..).2 h)
  unfold execShootdownGo at e
  dsimp only at e
  rcases of_ite e with e | e
  · exact Host.Outcome.next.inj e ▸ put _
  rcases of_ite e with e | e
  · exact Host.Outcome.next.inj e ▸ put _
  split at e
  · exact Host.Outcome.next.inj e ▸ put _
  · exact Host.Outcome.next.inj e ▸ sound_addShoot (put _)

theorem sound_drainCore {r0 s : State} {r : Shoot} {c : Nat} (h : Sound r0 s) : Sound r0 (drainCore r s c) := by
  grind [drainCore, sound_performGranule, sound_lateArrival, sound_foldl]

theorem sound_drainBank {r0 s : State} {r : Shoot} {e : Nat} (h : Sound r0 s) : Sound r0 (drainBank r s e) := by
  grind [drainBank.eq_def, sound_performWrites, sound_record, soundBy_iff, = map_ok, = dotBind_ok, = upon_ok, = atPart_eq_ok]

theorem sound_shootAgent {r0 s : State} {r : Shoot} {agent : Nat} (h : Sound r0 s) : Sound r0 (shootAgent s r agent) := by
  grind [shootAgent, sound_setCore, sound_drainCore, sound_drainBank, sound_record, soundBy_iff, sound_foldl]

theorem sound_removeDrained {r s : State} (h : Sound r s) : Sound r (removeDrained s) := by
  grind [removeDrained, sound_record, soundBy_iff]

theorem sound_shootDone {r0 s : State} {r : Shoot} (h : Sound r0 s) : Sound r0 (shootDone s r) := by
  grind [shootDone, sound_removeDrained, sound_record, soundBy_iff]

theorem sound_execShootdownAgentAck {r s : State} {agent : Nat} {t : State} (e : execShootdownAgentAck agent s = .next t) (h : Sound r s) : Sound r t := by
  grind [execShootdownAgentAck.eq_def, sound_shootAgent, sound_shootDone, sound_record, soundBy_iff]

theorem sound_execAtsInvalidation {r s : State} {pasid : Nat} {lo hi : Word} {t : State} (e : execAtsInvalidation pasid lo hi s = .next t) (h : Sound r s) : Sound r t := by
  grind [execAtsInvalidation, sound_addShoot, sound_record, soundBy_iff]

theorem sound_wake {r s : State} {w : Waiter} (h : Sound r s) : Sound r (wake s w) := by
  cases w with
  | core c => simpa only [wake, sound_modCore] using h
  | op c id => exact sound_modOp h
  | bank e => simpa only [wake, sound_modBank] using h
  | walk agent pasid va => exact (sound_record ..).2 ((soundBy_iff ..).2 h)

theorem sound_wakeOp {r s : State} {w : Waiter} (h : Sound r s) : Sound r (wakeOp s w) := by
  unfold wakeOp
  split
  · exact sound_wake h
  · exact h

theorem sound_failWaiter {r s : State} {code sub va : Nat} {w : Waiter} (h : Sound r s) : Sound r (failWaiter s code sub va w) := by
  cases w with
  | core c => exact sound_takeCoreFault h
  | op c id =>
    dsimp only [failWaiter]
    split
    · exact sound_unitFault (sound_takeEStop trivial h)
    · exact h
  | bank e => exact sound_parkBank h
  | walk agent pasid va =>
    dsimp only [failWaiter]
    split
    · exact h
    · exact (sound_record ..).2 ((soundBy_iff ..).2 h)

theorem sound_failWanted {r s : State} {x : Wanted} {sub : Nat} {w : Waiter} (h : Sound r s) : Sound r (failWanted s x sub w) := by
  grind [failWanted, sound_dropFaulted, sound_failWaiter]

theorem sound_execMigratingRewalk {r s : State} {w : Waiter} {t : State} (e : execMigratingRewalk w s = .next t) (h : Sound r s) : Sound r t := by
  grind [execMigratingRewalk.eq_def, sound_wake, sound_wakeOp, sound_record, soundBy_iff]

theorem sound_execMigratingTimeout {r s : State} {w : Waiter} {t : State} (e : execMigratingTimeout w s = .next t) (h : Sound r s) : Sound r t := by
  grind [execMigratingTimeout.eq_def, sound_dropFaulted, sound_fillBoth, sound_failWanted, sound_record, soundBy_iff, sound_foldl]

theorem sound_writePage {r s : State} {pasid : Nat} {e : Word} {d : List Byte} (h : Sound r s) : Sound r (State.writePage s pasid e d) := by
  grind [State.writePage, sound_writeAt, sound_foldl]

theorem sound_duplicate {r s : State} {pasid va a : Nat} {e : Word} {frame : Nat} (h : Sound r s) : Sound r (duplicate s pasid va a e frame) :=
  (sound_record ..).2 ((soundBy_iff ..).2 (sound_addShoot (sound_write64 (sound_writePage h))))

theorem sound_execCowDuplicate {r s : State} {w : Waiter} {t : State} (e : execCowDuplicate w s = .next t) (h : Sound r s) : Sound r t := by
  unfold execCowDuplicate at e
  split at e
  · exact Host.Outcome.next.inj e ▸ sound_wakeOp h
  split at e
  · exact Host.Outcome.next.inj e ▸ sound_wake h
  rcases of_ite e with e | e
  · exact Host.Outcome.next.inj e ▸ h
  rcases of_ite e with e | e
  · exact Host.Outcome.next.inj e ▸ sound_wake h
  split at e
  · exact Host.Outcome.next.inj e ▸ sound_failWanted h
  · exact Host.Outcome.next.inj e ▸ sound_wake (sound_duplicate ((sound_record ..).2 ((soundBy_iff ..).2 h)))

end Sys2Proof.Machine
end

section
/-!
SUPPORT. The invariant of the module (O57): the hub, and how gatherings end.
-/

namespace Sys2Proof.Machine

/-! ### The relations of the parts before -/

theorem sound_keep {r s t : State} (h : Sound r s) : Sound r (s.keep t) := (hubWork_keep s t).sound h

theorem PaperWork.sound {r s t : State} (w : PaperWork s t) (h : Sound r s) : Sound r t := by
  obtain ⟨n, p, w⟩ := w
  exact w.sound ((sound_record ..).2 ((soundBy_iff ..).2 h))

theorem sound_paper {r s t : State} {w : Work} (paper : PaperWork s w.state) (e : w = .ok t) (h : Sound r s) : Sound r t := by
  subst e
  exact paper.sound h

theorem sound_hubRes {r s t : State} {α : Type} {x : HRes (State × α)} {y : α} (works : x.Works s Prod.fst) (e : x = .ok (t, y)) (h : Sound r s) : Sound r t :=
  (works.ok e).sound h

/-- A try of some work leaves what it has done, or its walks and requests. -/
theorem sound_settleWork {r s : State} {w : Work} (hw : ∀ t, w = .ok t → Sound r t) (h : Sound r s) : Sound r (settleWork s w) := by
  cases w with
  | ok t => exact hw t rfl
  | error t => exact sound_keep h

theorem sound_agentLeaf {r s : State} {ag : Agent} {pasid va : Nat} {write : Bool} {t y} (e : agentLeaf s ag pasid va write = .ok (t, y)) (h : Sound r s) : Sound r t :=
  sound_hubRes (works_agentLeaf ..) e h

theorem sound_hubPlace {r s : State} {ag : Agent} {pasid va : Nat} {write : Bool} {t y} (e : hubPlace s ag pasid va write = .ok (t, y)) (h : Sound r s) : Sound r t :=
  sound_hubRes (works_hubPlace ..) e h

theorem sound_agentRead {r s : State} {ag : Agent} {pasid va n : Nat} {t y} (e : agentRead s ag pasid va n = .ok (t, y)) (h : Sound r s) : Sound r t :=
  sound_hubRes (works_agentRead ..) e h

theorem sound_hubRead {r s : State} {pasid va n : Nat} {t y} (e : hubRead s pasid va n = .ok (t, y)) (h : Sound r s) : Sound r t :=
  sound_hubRes (works_hubRead ..) e h

theorem sound_agentWrite {r s : State} {ag : Agent} {pasid va : Nat} {d : List Byte} {t : State} (e : agentWrite s ag pasid va d = .ok t) (h : Sound r s) : Sound r t :=
  ((works_agentWrite ..).ok e).sound h

theorem sound_hubWrite {r s : State} {pasid va : Nat} {d : List Byte} {t : State} (e : hubWrite s pasid va d = .ok t) (h : Sound r s) : Sound r t :=
  ((works_hubWrite ..).ok e).sound h

theorem sound_hubRead64 {r s : State} {pasid va : Nat} {t y} (e : hubRead64 s pasid va = .ok (t, y)) (h : Sound r s) : Sound r t :=
  sound_hubRes (works_hubRead64 ..) e h

theorem sound_hubNote {r s : State} {pasid va : Nat} {d : List Byte} {t : State} (e : hubNote s pasid va d = .ok t) (h : Sound r s) : Sound r t :=
  sound_paper (paperWork_noteDone (works_hubWrite ..)) e h

theorem sound_hubAdd {r s : State} {pasid va : Nat} {v : Word} {t : State} (e : hubAdd s pasid va v = .ok t) (h : Sound r s) : Sound r t :=
  sound_paper (paperWork_hubAdd ..) e h

theorem sound_completePacket {r s : State} {p : QPacket} {t : State} (e : completePacket s p = .ok t) (h : Sound r s) : Sound r t :=
  sound_paper (paperWork_completePacket ..) e h

theorem sound_completePacketId {r s : State} {id : Nat} {t : State} (e : completePacketId s id = .ok t) (h : Sound r s) : Sound r t :=
  sound_paper (paperWork_completePacketId ..) e h

theorem sound_writeColophon {r s : State} {pasid va : Nat} {v : Verdict} {flags done exit : Nat} {t : State} (e : writeColophon s pasid va v flags done exit = .ok t) (h : Sound r s) : Sound r t :=
  sound_paper (paperWork_writeColophon ..) e h

theorem sound_endLists {r s : State} {l : List BankList} (h : Sound r s) : Sound r (endLists l s) := by
  grind [endLists, sound_endOnEngines, sound_foldl]

theorem sound_dropTimetabled {r s : State} {l : List Op} (h : Sound r s) : Sound r (dropTimetabled l s) := by
  grind [dropTimetabled, sound_record, soundBy_iff]

theorem sound_endMember {r s : State} {c : Nat} (h : Sound r s) : Sound r (endMember s c) :=
  sound_dropTimetabled ((sound_modCore ..).2 (sound_endLists (sound_performAll (sound_settleAtomics h))))

/-- The cores drop what they hold for a gathering. -/
theorem sound_dropHeld {r s : State} {g : Nat} {l : List Nat} (h : Sound r s) :
    Sound r (l.foldl (fun s c => if (s.core c).held.any (fun x => x.gath == g) then s.modCore c (dropHeld g) else s) s) := by
  refine sound_foldl h fun u c hu => ?_
  split
  · exact (sound_modCore ..).2 hu
  · exact hu

theorem sound_removeGath {r s : State} {g : Nat} (h : Sound r s) : Sound r (removeGath s g) :=
  (sound_record ..).2 ((soundBy_iff ..).2 (sound_dropHeld (sound_dropTimetabled (sound_endLists (sound_foldl h fun _ _ => sound_endMember)))))

theorem sound_setJob {r s : State} {j : Job} (h : Sound r s) : Sound r (State.setJob s j) := by
  grind [State.setJob, sound_record, soundBy_iff, = map_ok, = dotBind_ok, = upon_ok, = atPart_eq_ok]

/-- Debt is no allowance. -/
theorem sound_settleEnergy {r s : State} {g : Gath} (h : Sound r s) : Sound r (settleEnergy s g) := ⟨h.mem, h.budget, h.cur⟩

theorem sound_retireGath {r s : State} {g : Gath} (h : Sound r s) : Sound r (retireGath s g) := by
  grind [retireGath, sound_removeGath, sound_setJob, sound_settleEnergy, sound_record, soundBy_iff, = map_ok, = dotBind_ok, = upon_ok, = atPart_eq_ok]

theorem sound_retireGaths {r s : State} {l : List Nat} (h : Sound r s) : Sound r (retireGaths l s) := by
  grind [retireGaths, sound_retireGath, sound_record, soundBy_iff, sound_foldl]

theorem sound_cancelJob {r s : State} {id : Nat} (h : Sound r s) : Sound r (cancelJob s id) := by
  grind [cancelJob, sound_retireGaths]

theorem sound_removeJob {r s : State} {id : Nat} (h : Sound r s) : Sound r (removeJob s id) := by
  grind [removeJob, sound_record, soundBy_iff]

theorem sound_jobTail {r s : State} {j : Job} {t y} (e : jobTail s j = .ok (t, y)) (h : Sound r s) : Sound r t := by
  grind [jobTail, sound_hubRead64, = bind_ok, = pure_ok]

theorem sound_jobDone {r s : State} {j : Job} {t y} (e : jobDone s j = .ok (t, y)) (h : Sound r s) : Sound r t := by
  grind [jobDone.eq_def, sound_keep, sound_jobTail, sound_record, soundBy_iff]

theorem sound_cancelJobs {r s : State} {l : List Nat} {g : Graph} {t y} (e : cancelJobs l s g = .ok (t, y)) (h : Sound r s) : Sound r t := by
  induction l generalizing s g with
  | nil => cases e; exact h
  | cons id l ih =>
    have cancelled : Sound r (cancelJob s id) := sound_cancelJob h
    unfold cancelJobs at e
    dsimp only at e
    split at e
    · exact ih e cancelled
    · obtain ⟨⟨u, done, z⟩, tail, e⟩ := bind_ok.1 e
      exact ih e (sound_removeJob (sound_jobDone tail cancelled))

theorem sound_endGraph {r s : State} {g : Graph} {v : Verdict} {t : State} (e : endGraph s g v = .ok t) (h : Sound r s) : Sound r t := by
  grind [endGraph, sound_completePacketId, sound_writeColophon, sound_cancelJobs, sound_record, soundBy_iff, = bind_ok, = pure_ok, = map_ok, = dotBind_ok, = upon_ok, = atPart_eq_ok]

theorem sound_setGraph {r s : State} {g : Graph} (h : Sound r s) : Sound r (State.setGraph s g) := by
  grind [State.setGraph, sound_record, soundBy_iff, = map_ok, = dotBind_ok, = upon_ok, = atPart_eq_ok]

theorem sound_branchTo {r s : State} {g : Graph} {branch : Nat} {next : List Nat} {t : State} (e : branchTo s g branch next = .ok t) (h : Sound r s) : Sound r t := by
  have placed (n : Nat) (x : Graph) : Sound r (({ s with fresh := n } : State).setGraph x) := sound_setGraph ((sound_record ..).2 ((soundBy_iff ..).2 h))
  cases next with
  | nil =>
    rcases of_ite e with e | e
    · exact sound_endGraph e (placed ..)
    · exact Except.ok.inj e ▸ placed ..
  | cons a l =>
    rcases of_ite e with e | e
    · exact sound_endGraph e (placed ..)
    · exact Except.ok.inj e ▸ placed ..

theorem sound_endJob {r s : State} {j : Job} {v : Verdict} {t : State} (e : endJob s j v = .ok t) (h : Sound r s) : Sound r t := by
  obtain ⟨⟨u, done, colo⟩, tail, e⟩ := bind_ok.1 e
  obtain ⟨x, colophon, e⟩ := bind_ok.1 e
  have wrote : Sound r x := sound_writeColophon colophon (sound_jobDone tail (sound_removeJob (sound_cancelJob (sound_setJob h))))
  dsimp only at e
  split at e
  · exact sound_completePacketId e wrote
  · split at e
    · exact Except.ok.inj e ▸ wrote
    · rcases of_ite e with e | e
      · exact sound_endGraph e wrote
      · split at e
        · exact Except.ok.inj e ▸ wrote
        · split at e
          · next read => exact sound_branchTo e (sound_hubRead read wrote)
          · exact sound_endGraph e (sound_keep wrote)
          · cases e
  · exact Except.ok.inj e ▸ wrote

theorem sound_failGath {r s : State} {g : Gath} {v : Verdict} {t : State} (e : failGath s g v = .ok t) (h : Sound r s) : Sound r t := by
  grind [failGath, sound_completePacketId, sound_writeColophon, sound_retireGath, sound_endJob, sound_record, soundBy_iff, = bind_ok, = pure_ok]

theorem sound_endWith {r s : State} {gath : Nat} {v : Verdict} {t : State} (e : endWith s gath v = .ok t) (h : Sound r s) : Sound r t := by
  grind [endWith.eq_def, sound_failGath, sound_record, soundBy_iff]

theorem sound_endAllWith {r s : State} {v : Verdict} {l : List Nat} {t : State} (e : endAllWith v l s = .ok t) (h : Sound r s) : Sound r t := by
  induction l generalizing s with
  | nil => cases e; exact h
  | cons g l ih =>
    obtain ⟨u, one, e⟩ := bind_ok.1 e
    exact ih e (sound_endWith one h)

theorem sound_killWith {r s : State} {gath : Nat} {v : Verdict} (h : Sound r s) : Sound r (killWith s gath v) :=
  sound_settleWork (fun _ e => sound_endWith e h) h

theorem sound_execKillGathering {r s : State} {gath : Nat} {t : State} (e : execKillGathering gath s = .next t) (h : Sound r s) : Sound r t := by
  grind [execKillGathering, sound_killWith]

theorem sound_endInstance {r s : State} {g : Gath} {t : State} (e : endInstance s g = .ok t) (h : Sound r s) : Sound r t := by
  grind [endInstance, sound_completePacketId, sound_writeColophon, sound_setJob, sound_retireGath, sound_record, soundBy_iff, = bind_ok, = pure_ok]

theorem sound_execInstanceComplete {r s : State} {gath : Nat} {t : State} (e : execInstanceComplete gath s = .next t) (h : Sound r s) : Sound r t := by
  grind [execInstanceComplete.eq_def, sound_performAll, sound_settleAtomics, sound_fabricPhase, sound_settleWork, sound_endInstance, sound_record, soundBy_iff, sound_foldl]

theorem sound_execPasidTeardown {r s : State} {pasid : Nat} {t : State} (e : execPasidTeardown pasid s = .next t) (h : Sound r s) : Sound r t :=
  Host.Outcome.next.inj e ▸ sound_addShoot ((sound_record ..).2 ((soundBy_iff ..).2 (sound_retireGaths h)))

end Sys2Proof.Machine
end

section
/-!
SUPPORT. The invariant of the module (O57): folios, preemption and restoration.
-/

namespace Sys2Proof.Machine

theorem sound_farLoc {r s : State} {write : Bool} {l : Loc} {n : Nat} {b : List Byte} {t y} (e : farLoc s write l n b = .ok (t, y)) (h : Sound r s) : Sound r t := by
  rcases of_ite e with e | e
  · exact sound_hubRes ((works_hubTakes ..).after (hubWork_foldl (fun s q => hubWork_hubSend s _ q) _ s)) e h
  · cases e

theorem sound_writeLoc {r s : State} {l : Loc} {b : List Byte} {t : State} (e : writeLoc s l b = .ok t) (h : Sound r s) : Sound r t := by
  grind [writeLoc, sound_writeAt, sound_hubWrite, sound_farLoc, = map_ok, = dotBind_ok, = upon_ok, = atPart_eq_ok]

theorem sound_readLoc {r s : State} {pasid : Nat} {l : Loc} {t y} (e : readLoc s pasid l = .ok (t, y)) (h : Sound r s) : Sound r t := by
  grind [readLoc, sound_hubRead, sound_farLoc]

theorem sound_vaultPut {r s : State} {x : Held} (h : Sound r s) : Sound r (vaultPut s x) := by
  grind [vaultPut, sound_record, soundBy_iff]

theorem sound_modEp {r0 s : State} {g r : Nat} {f : Endpaper → Endpaper} (h : Sound r0 s) : Sound r0 (modEp s g r f) := by
  grind [modEp.eq_def, sound_modCore, sound_record, soundBy_iff, = map_ok, = dotBind_ok, = upon_ok, = atPart_eq_ok]

/-- A write that is lost leaves its walks. -/
theorem sound_noteDone {r s : State} {x : HRes State} {t : State} (hx : ∀ u, x = .ok u → Sound r u) (e : noteDone s x = .ok t) (h : Sound r s) : Sound r t := by
  cases x with
  | ok u => exact Except.ok.inj e ▸ hx u rfl
  | error y =>
    cases y with
    | fault code sub u => exact Except.ok.inj e ▸ sound_keep h
    | wait u => cases e

theorem sound_noteLoc {r s : State} {l : Loc} {b : List Byte} {t : State} (e : noteDone s (writeLoc s l b) = .ok t) (h : Sound r s) : Sound r t :=
  sound_noteDone (fun _ wrote => sound_writeLoc wrote h) e h

theorem sound_writeJoins {r s : State} {id : Nat} {t : State} (e : writeJoins s id = .ok t) (h : Sound r s) : Sound r t := by
  unfold writeJoins at e
  split at e
  · exact sound_noteLoc e h
  · exact Except.ok.inj e ▸ h

theorem sound_execBjoin {r s : State} {j : BitVec 4} {t : State} (e : execBjoin j s = .next t) (h : Sound r s) : Sound r t := by
  grind [execBjoin.eq_def, sound_bankRun, sound_bjoinStep, sound_keep, sound_writeJoins, sound_record, soundBy_iff]

theorem sound_execBankListComplete {r s : State} {core op : Nat} {t : State} (e : execBankListComplete core op s = .next t) (h : Sound r s) : Sound r t := by
  grind [execBankListComplete.eq_def, sound_modDesk, sound_settleWork, sound_writeJoins, sound_record, soundBy_iff]

theorem sound_pushFolio {r s : State} {x : Held} {t : State} (e : pushFolio s x = .ok t) (h : Sound r s) : Sound r t := by
  grind [pushFolio.eq_def, sound_writeLoc, sound_vaultPut, sound_modEp, sound_record, soundBy_iff, = bind_ok, = pure_ok]

theorem sound_pushFail {r s : State} {c : Nat} {x : Held} {sub : Nat} {t : State} (e : pushFail s c x sub = .ok t) (h : Sound r s) : Sound r t := by
  grind [pushFail, sound_modCore, sound_endWith, sound_modEp, sound_record, soundBy_iff]

theorem sound_pushOut {r s : State} {c : Nat} {x : Held} {t : State} (e : pushOut s c x = .ok t) (h : Sound r s) : Sound r t := by
  grind [pushOut.eq_def, sound_modCore, sound_keep, sound_pushFolio, sound_pushFail, sound_record, soundBy_iff]

theorem sound_execFolioPushComplete {r s : State} {core folio err : Nat} {t : State} (e : execFolioPushComplete core folio err s = .next t) (h : Sound r s) : Sound r t := by
  grind [execFolioPushComplete.eq_def, sound_settleWork, sound_pushFail, sound_pushOut, sound_record, soundBy_iff]

theorem sound_execBackgroundPush {r s : State} {core folio : Nat} {t : State} (e : execBackgroundPush core folio s = .next t) (h : Sound r s) : Sound r t := by
  grind [execBackgroundPush, sound_modCore, sound_record, soundBy_iff, = map_ok, = dotBind_ok, = upon_ok, = atPart_eq_ok]

theorem sound_failCore {r s : State} {c f : Nat} {bad : CFault} {d : Nat} (h : Sound r s) : Sound r (failCore c f bad s d) := by
  grind [failCore, sound_takeFault, sound_takeCoreFault, sound_record, soundBy_iff]

theorem sound_failMembers {r s : State} {c f : Nat} {bad : CFault} {d : Nat} {o : Op} (h : Sound r s) : Sound r (failMembers c f bad d s o) := by
  grind [failMembers, sound_failMember, = map_ok, = dotBind_ok, = upon_ok, = atPart_eq_ok, sound_foldl]

theorem sound_failOp {r s : State} {c f : Nat} {bad : CFault} {d : Nat} {o : Op} (h : Sound r s) : Sound r (failOp c f bad d s o) := by
  grind [failOp, sound_parkOp, sound_unitFault, sound_failMembers, sound_record, soundBy_iff]

theorem sound_failBank {r s : State} {c f : Nat} {bad : CFault} {e : Nat} (h : Sound r s) : Sound r (failBank c f bad s e) := by
  grind [failBank, sound_parkBank]

theorem sound_pullFail {r s : State} {c f sub : Nat} (h : Sound r s) : Sound r (pullFail s c f sub) := by
  grind [pullFail, sound_modCore, sound_failCore, sound_failOp, sound_failBank, = map_ok, = dotBind_ok, = upon_ok, = atPart_eq_ok, sound_foldl]

theorem sound_s0Walk {r s : State} {die pasid : Nat} {h : Handle} {t y} (e : s0Walk s die pasid h = some (t, y)) (hs : Sound r s) : Sound r t := by
  grind [s0Walk.eq_def, sound_dropFaulted, sound_forgetTimeOut, sound_rewalkFor, sound_record, soundBy_iff]

theorem sound_rewalkHandles {r s : State} {die pasid : Nat} {l : List Nat} {a : Arch} {t y} (e : rewalkHandles die pasid l s a = some (t, y)) (h : Sound r s) : Sound r t := by
  induction l generalizing s a with
  | nil => cases e; exact h
  | cons n l ih =>
    unfold rewalkHandles at e
    rcases of_ite e with e | e
    · exact ih e h
    · split at e
      · cases e
      · next walked => exact ih e (sound_s0Walk walked h)

theorem sound_pulledData {r s : State} {die pasid : Nat} {d : Folio} {t y} (e : pulledData s die pasid d = some (t, y)) (h : Sound r s) : Sound r t := by
  unfold pulledData at e
  split at e
  · obtain ⟨x, walked, eq⟩ := Option.map_eq_some_iff.1 e
    cases eq
    exact sound_rewalkHandles walked h
  · cases e; exact h

/-- What a pull leaves. -/
def Pulled.state : Pulled → State
  | .wait s => s
  | .fail s _ => s
  | .ok s _ => s

theorem sound_pullFolio {r s : State} {c : Nat} {m : Member} {ep : Endpaper} {shape : Nat} {fill : BitVec 512} {f : Nat} (h : Sound r s) :
    Sound r (pullFolio s c m ep shape fill f).state := by
  have done (u : State) (d : Folio) (hu : Sound r u) :
      Sound r (Pulled.state (match pulledData u (dieOf c) m.pasid d with | some (t, d) => Pulled.ok t d | none => .wait u)) := by
    split
    · next walked => exact sound_pulledData walked hu
    · exact hu
  unfold pullFolio
  dsimp only
  split
  · split
    · exact h
    · simpa only [Pulled.state, sound_modCore] using h
  split
  · split
    · exact h
    · split <;> exact h
  split
  · split <;> exact h
  split
  · exact h
  split
  · exact sound_keep h
  · exact sound_keep h
  · next read =>
    split
    · split
      · exact sound_readLoc read h
      · exact done _ _ (sound_readLoc read h)
    · split
      · exact sound_readLoc read h
      · exact done _ _ (sound_readLoc read h)

theorem sound_endLeftPull {r s : State} {v : Saved} {f : Nat} (h : Sound r s) : Sound r (endLeftPull s v f) := by
  grind [endLeftPull, sound_record, soundBy_iff, = map_ok, = dotBind_ok, = upon_ok, = atPart_eq_ok]

theorem sound_holdLeft {r s : State} {c f : Nat} {v : Saved} {d : Folio} (h : Sound r s) : Sound r (holdLeft s c f v d) := by
  grind [holdLeft, sound_modCore, sound_endLeftPull, sound_record, soundBy_iff]

theorem sound_execFolioPullComplete {r s : State} {core folio : Nat} {t : State} (e : execFolioPullComplete core folio s = .next t) (h : Sound r s) : Sound r t := by
  unfold execFolioPullComplete at e
  dsimp only at e
  rcases of_ite e with e | e
  · exact Host.Outcome.next.inj e ▸ h
  split at e
  · refine Host.Outcome.next.inj e ▸ ?_
    next v _ =>
    have pulled := sound_pullFolio (c := core) (m := v.member) (ep := v.ep) (shape := v.shape) (fill := (s.core core).fill) (f := folio) h
    split
    · next eq => rwa [eq] at pulled
    · next eq => rw [eq] at pulled; exact sound_endLeftPull pulled
    · next eq => rw [eq] at pulled; exact sound_holdLeft pulled
  · rcases of_ite e with e | e
    · exact Host.Outcome.next.inj e ▸ h
    refine Host.Outcome.next.inj e ▸ ?_
    have pulled := sound_pullFolio (c := core) (m := (s.core core).member) (ep := (s.core core).ep) (shape := (s.core core).shape) (fill := (s.core core).fill) (f := folio) h
    split
    · next eq => rwa [eq] at pulled
    · next eq => rw [eq] at pulled; exact sound_pullFail pulled
    · next eq => rw [eq] at pulled; exact (sound_modCore ..).2 pulled

theorem sound_execPullTimeout {r s : State} {core folio : Nat} {t : State} (e : execPullTimeout core folio s = .next t) (h : Sound r s) : Sound r t := by
  grind [execPullTimeout, sound_pullFail]

theorem sound_settleDue {r s : State} {c : Nat} (h : Sound r s) : Sound r (settleDue s c) := by
  grind [settleDue, sound_lateArrival, sound_record, soundBy_iff, sound_foldl]

theorem sound_detachList {r s : State} {l : BankList} (h : Sound r s) : Sound r (detachList s l) := by
  grind [detachList, sound_endOnEngines]

theorem sound_stopMember {r s : State} {c : Nat} (h : Sound r s) : Sound r (stopMember s c) := by
  grind [stopMember, sound_modCore, sound_withdrawFabric, sound_record, soundBy_iff]

theorem sound_drainMember {r s : State} {c : Nat} (h : Sound r s) : Sound r (drainMember s c) := by
  grind [drainMember, sound_performAll, sound_settleDue]

theorem sound_finishUnits {r s : State} {c : Nat} (h : Sound r s) : Sound r (finishUnits s c) := by
  grind [finishUnits, sound_stepOp, sound_foldl]

theorem sound_haltMember {r s : State} {c : Nat} (h : Sound r s) : Sound r (haltMember s c) := by
  grind [haltMember, sound_modCore, sound_detachList, sound_record, soundBy_iff, sound_foldl]

theorem sound_writeEager {r s : State} {v : Saved} {t : State} (e : writeEager s v = .ok t) (h : Sound r s) : Sound r t := by
  obtain ⟨t₁, seq, e⟩ := bind_ok.1 e
  obtain ⟨t₂, eng, e⟩ := bind_ok.1 e
  obtain ⟨t₃, folio0, e⟩ := bind_ok.1 e
  exact sound_noteLoc e (sound_noteLoc folio0 (sound_noteLoc eng (sound_noteLoc seq h)))

theorem sound_saveMember {r s : State} {c : Nat} {t : State} (e : saveMember s c = .ok t) (h : Sound r s) : Sound r t := by
  grind [saveMember, sound_modCore, sound_writeEager, sound_record, soundBy_iff, = bind_ok, = pure_ok]

theorem sound_saveMembers {r s : State} {l : List Nat} {t : State} (e : saveMembers l s = .ok t) (h : Sound r s) : Sound r t := by
  induction l generalizing s with
  | nil => cases e; exact h
  | cons c l ih =>
    obtain ⟨u, one, e⟩ := bind_ok.1 e
    exact ih e (sound_saveMember one h)

/-- A pre-emption that waits keeps its stopped members. -/
theorem sound_preempt {r s : State} {g : Gath} (h : Sound r s) : Sound r (preempt s g).state := by
  have stopped : Sound r ((s.membersOf g.id).foldl finishUnits ((s.membersOf g.id).foldl drainMember ((s.membersOf g.id).foldl stopMember s))) :=
    sound_foldl (sound_foldl (sound_foldl h fun _ _ => sound_stopMember) fun _ _ => sound_drainMember) fun _ _ => sound_finishUnits
  unfold preempt
  dsimp only
  split
  · split
    · next saved => exact sound_setGath (sound_saveMembers saved (sound_foldl stopped fun _ _ => sound_haltMember))
    · exact sound_keep stopped
  · exact stopped

theorem sound_execPreemptRequest {r s : State} {gath : Nat} {t : State} (e : execPreemptRequest gath s = .next t) (h : Sound r s) : Sound r t := by
  unfold execPreemptRequest at e
  split at e
  · next g _ =>
    have kept : Sound r (preempt s g).state := sound_preempt h
    refine Host.Outcome.next.inj e ▸ ?_
    split
    · split
      · next eq => rwa [eq] at kept
      · next eq => rwa [eq] at kept
    · exact h
  · exact Host.Outcome.next.inj e ▸ h

theorem sound_requeueList {r s : State} {c : Nat} {l : BankList} (h : Sound r s) : Sound r (requeueList c s l) := by
  grind [requeueList, sound_enqueueList]

theorem sound_restoreMember {r s : State} {fill : BitVec 512} {v : Saved} {c : Nat} (h : Sound r s) : Sound r (restoreMember fill s v c) := by
  grind [restoreMember, sound_modCore, sound_requeueList, sound_record, soundBy_iff, sound_foldl]

theorem sound_execContextRestore {r s : State} {gath : Nat} {on : List Nat} {t : State} (e : execContextRestore gath on s = .next t) (h : Sound r s) : Sound r t := by
  unfold execContextRestore at e
  dsimp only at e
  split at e
  · exact Host.Outcome.next.inj e ▸ h
  rcases of_ite e with e | e
  · exact Host.Outcome.next.inj e ▸ h
  · refine Host.Outcome.next.inj e ▸ sound_setGath ((sound_record ..).2 ((soundBy_iff ..).2 ?_))
    refine sound_foldl (sound_foldl (sound_foldl ?_ fun _ _ => sound_restoreMember) fun _ _ hu => (sound_modCore ..).2 hu) fun _ _ hu => (sound_modCore ..).2 hu
    exact (sound_record ..).2 ((soundBy_iff ..).2 h)

theorem sound_execCoreFaultResume {r s : State} {core : Nat} {t : State} (e : execCoreFaultResume core s = .next t) (h : Sound r s) : Sound r t := by
  grind [execCoreFaultResume, sound_resumeCore]

theorem sound_execDebugAttach {r s : State} {core : Nat} {t : State} (e : execDebugAttach core s = .next t) (h : Sound r s) : Sound r t := by
  grind [execDebugAttach, sound_modCore, sound_record, soundBy_iff]

theorem sound_execDebugHalt {r s : State} {core : Nat} {t : State} (e : execDebugHalt core s = .next t) (h : Sound r s) : Sound r t := by
  grind [execDebugHalt, sound_modCore, sound_record, soundBy_iff]

theorem sound_execSingleStep {r s : State} {core : Nat} {t : State} (e : execSingleStep core s = .next t) (h : Sound r s) : Sound r t := by
  grind [execSingleStep, sound_modCore, sound_record, soundBy_iff]

theorem sound_execDebugResume {r s : State} {core : Nat} {t : State} (e : execDebugResume core s = .next t) (h : Sound r s) : Sound r t := by
  grind [execDebugResume, sound_modCore, sound_record, soundBy_iff]

end Sys2Proof.Machine
end

section
/-!
SUPPORT. The invariant of the module (O57): the command processor.
-/

namespace Sys2Proof.Machine

theorem sound_setQcb {r s : State} {i : Nat} {q : Qcb} (h : Sound r s) : Sound r (State.setQcb s i q) := by
  grind [State.setQcb, sound_record, soundBy_iff]

theorem sound_count {r s : State} {n : Nat} (h : Sound r s) : Sound r (State.count s n) := by
  grind [State.count, sound_record, soundBy_iff]

theorem sound_execNotifyWrite {r s : State} {aperture queue : Nat} {v : BitVec 32} {t : State} (e : execNotifyWrite aperture queue v s = .next t) (h : Sound r s) : Sound r t := by
  grind [execNotifyWrite.eq_def, sound_setQcb, sound_count, sound_record, soundBy_iff, = map_ok, = dotBind_ok, = upon_ok, = atPart_eq_ok]

theorem sound_packetColophon {r s : State} {p : QPacket} {t y} (e : packetColophon s p = .ok (t, y)) (h : Sound r s) : Sound r t := by
  grind [packetColophon, sound_keep, sound_hubRead64, sound_record, soundBy_iff]

theorem sound_refusePacket {r s : State} {p : QPacket} {v : Verdict} {t : State} (e : refusePacket s p v = .ok t) (h : Sound r s) : Sound r t := by
  grind [refusePacket, sound_completePacket, sound_writeColophon, sound_packetColophon, = bind_ok, = pure_ok]

theorem sound_acceptPacket {r s : State} {p : QPacket} {t : State} (e : acceptPacket s p = .ok t) (h : Sound r s) : Sound r t := by
  grind [acceptPacket, sound_refusePacket, sound_record, soundBy_iff]

theorem sound_execPacketFetch {r s : State} {slot : Nat} {t : State} (e : execPacketFetch slot s = .next t) (h : Sound r s) : Sound r t := by
  unfold execPacketFetch at e
  dsimp only at e
  rcases of_ite e with e | e
  · exact Host.Outcome.next.inj e ▸ h
  rcases of_ite e with e | e
  · refine Host.Outcome.next.inj e ▸ ?_
    split
    · exact sound_setQcb h
    · exact h
  split at e
  · exact Host.Outcome.next.inj e ▸ sound_keep h
  next u b read =>
    rcases of_ite e with e | e
    · exact Host.Outcome.next.inj e ▸ sound_setQcb h
    split at e
    · exact Host.Outcome.next.inj e ▸ sound_keep h
    next clear =>
      have cleared := sound_hubWrite clear (sound_hubRead read h)
      exact Host.Outcome.next.inj e ▸ sound_settleWork (fun _ taken => sound_acceptPacket taken ((sound_record ..).2 ((soundBy_iff ..).2 (sound_setQcb cleared)))) h

theorem sound_execFetcherTranslationReturn {r s : State} {slot : Nat} {t : State} (e : execFetcherTranslationReturn slot s = .next t) (h : Sound r s) : Sound r t := by
  unfold execFetcherTranslationReturn at e
  dsimp only at e
  rcases of_ite e with e | e
  · exact Host.Outcome.next.inj e ▸ h
  rcases of_ite e with e | e
  · exact Host.Outcome.next.inj e ▸ sound_removeDrained (sound_setQcb h)
  split at e
  · exact Host.Outcome.next.inj e ▸ sound_keep h
  · exact Host.Outcome.next.inj e ▸ sound_setQcb (sound_keep h)
  · next leaf => exact Host.Outcome.next.inj e ▸ sound_setQcb (sound_agentLeaf leaf h)

theorem sound_launchPacket {r s : State} {p : QPacket} (h : Sound r s) : Sound r (launchPacket s p) := by
  grind [launchPacket, sound_setQcb, sound_record, soundBy_iff, = map_ok, = dotBind_ok, = upon_ok, = atPart_eq_ok]

/-- What is left of a window is no allowance. -/
theorem sound_debit {r s : State} {slot est : Nat} (h : Sound r s) : Sound r (debit s slot est) := sound_setQcb ⟨h.mem, h.budget, h.cur⟩

theorem sound_loadKernel {r s : State} {pasid va : Nat} {t y} (e : loadKernel s pasid va = .ok (t, y)) (h : Sound r s) : Sound r t :=
  (hubWork_loadKernel e).sound h

theorem sound_evictAll {r s : State} {c : Nat} {l : List Held} {t : State} (e : evictAll c l s = .ok t) (h : Sound r s) : Sound r t := by
  induction l generalizing s with
  | nil => cases e; exact h
  | cons x l ih =>
    unfold evictAll at e
    rcases of_ite e with e | e
    · obtain ⟨u, one, e⟩ := bind_ok.1 e
      exact ih e (sound_pushOut one h)
    · exact ih e ((sound_modCore ..).2 h)

theorem sound_evict {r s : State} {c : Nat} {t : State} (e : evict s c = .ok t) (h : Sound r s) : Sound r t := by
  grind [evict, sound_evictAll]

theorem sound_evictCores {r s : State} {l : List Nat} {t : State} (e : evictCores l s = .ok t) (h : Sound r s) : Sound r t := by
  induction l generalizing s with
  | nil => cases e; exact h
  | cons c l ih =>
    obtain ⟨u, one, e⟩ := bind_ok.1 e
    exact ih e (sound_evict one h)

theorem sound_loadMembers {r s : State} {g : Gath} {k : Kernel} {on : List Nat} {t : State} (e : loadMembers g k on s = .ok t) (h : Sound r s) : Sound r t := by
  grind [loadMembers, sound_modCore, sound_evictCores, = bind_ok, = pure_ok, sound_foldl]

theorem sound_onLaunch {r s : State} {id type : Nat} {f : QPacket → State → Work} {t : State} (hf : ∀ {p u v}, f p u = .ok v → Sound r u → Sound r v)
    (e : onLaunch id type s f = .next t) (h : Sound r s) : Sound r t := by
  unfold onLaunch at e
  split at e
  · exact Host.Outcome.next.inj e ▸ h
  rcases of_ite e with e | e
  · exact Host.Outcome.next.inj e ▸ h
  · exact Host.Outcome.next.inj e ▸ sound_settleWork (fun _ work => hf work (sound_launchPacket h)) h

theorem sound_readArgs {r s : State} {pasid : Nat} {w : Nat → Word} {t y} (e : readArgs s pasid w = .ok (t, y)) (h : Sound r s) : Sound r t := by
  grind [readArgs, sound_hubRead]

theorem sound_addGath {r s : State} {g : Gath} (h : Sound r s) : Sound r (addGath s g) := by
  grind [addGath, sound_record, soundBy_iff]

theorem sound_execLaunchPacket {r s : State} {id : Nat} {t : State} (e : execLaunchPacket id s = .next t) (h : Sound r s) : Sound r t := by
  unfold execLaunchPacket at e
  split at e
  · exact Host.Outcome.next.inj e ▸ h
  rcases of_ite e with e | e
  · exact Host.Outcome.next.inj e ▸ h
  dsimp only at e
  split at e
  · exact Host.Outcome.next.inj e ▸ sound_settleWork (fun _ work => sound_refusePacket work h) h
  split at e
  · exact Host.Outcome.next.inj e ▸ sound_keep h
  · next load => exact Host.Outcome.next.inj e ▸ sound_settleWork (fun _ work => sound_refusePacket work (sound_loadKernel load h)) h
  next load =>
    have loaded := sound_loadKernel load h
    split at e
    · exact Host.Outcome.next.inj e ▸ sound_keep h
    · exact Host.Outcome.next.inj e ▸ sound_settleWork (fun _ work => sound_refusePacket work (sound_keep loaded)) h
    · next args => exact Host.Outcome.next.inj e ▸ sound_addGath (sound_readArgs args loaded)

theorem sound_execQueueAging {r s : State} {slot : Nat} {t : State} (e : execQueueAging slot s = .next t) (h : Sound r s) : Sound r t := by
  grind [execQueueAging, sound_setQcb, sound_record, soundBy_iff]

theorem sound_sendReady {r s : State} {g : Gath} (h : Sound r s) : Sound r (sendReady g s) := by
  grind [sendReady, sound_sendSprayed, sound_record, soundBy_iff, sound_foldl]

theorem sound_nextInstance {r s : State} {j : Job} {entry : Nat} (h : Sound r s) : Sound r (nextInstance s j entry) := by
  grind [nextInstance.eq_def, sound_setJob, sound_addGath, sound_record, soundBy_iff, = map_ok, = dotBind_ok, = upon_ok, = atPart_eq_ok]

theorem sound_resetCur {r s : State} {slot : Nat} (h : Sound r s) : Sound r (resetCur s slot) := by
  grind [resetCur, sound_setQcb, sound_record, soundBy_iff]

theorem sound_placed {r s : State} {g : Gath} {on : List Nat} (h : Sound r s) : Sound r (placed s g on) := by
  grind [placed, sound_setGath, sound_launchPacket, sound_sendReady, sound_nextInstance, sound_resetCur, sound_record, soundBy_iff, = map_ok, = dotBind_ok, = upon_ok, = atPart_eq_ok]

theorem sound_execGatheringPlace {r s : State} {gath : Nat} {on : List Nat} {t : State} (e : execGatheringPlace gath on s = .next t) (h : Sound r s) : Sound r t := by
  unfold execGatheringPlace at e
  split at e
  · exact Host.Outcome.next.inj e ▸ h
  rcases of_ite e with e | e
  · exact Host.Outcome.next.inj e ▸ h
  refine Host.Outcome.next.inj e ▸ sound_settleWork (fun v work => ?_) h
  obtain ⟨⟨u, k⟩, load, work⟩ := bind_ok.1 work
  have loaded := sound_loadKernel load h
  cases k with
  | error verdict => exact sound_failGath work loaded
  | ok k =>
    obtain ⟨x, members, rfl⟩ := map_ok.1 work
    exact sound_placed (sound_debit (sound_loadMembers members loaded))

theorem sound_execGatheringRelease {r s : State} {gath : Nat} {t : State} (e : execGatheringRelease gath s = .next t) (h : Sound r s) : Sound r t := by
  unfold execGatheringRelease at e
  split at e
  · exact Host.Outcome.next.inj e ▸ h
  rcases of_ite e with e | e
  · exact Host.Outcome.next.inj e ▸ h
  · exact Host.Outcome.next.inj e ▸ sound_setGath (sound_foldl ((sound_record ..).2 ((soundBy_iff ..).2 h)) fun _ _ hu => (sound_modCore ..).2 hu)

theorem sound_execTickLaunchTimeout {r s : State} {gath : Nat} {t : State} (e : execTickLaunchTimeout gath s = .next t) (h : Sound r s) : Sound r t := by
  grind [execTickLaunchTimeout.eq_def, sound_settleWork, sound_failGath, sound_record, soundBy_iff]

theorem sound_execCopyPacket {r s : State} {id : Nat} {t : State} (e : execCopyPacket id s = .next t) (h : Sound r s) : Sound r t := by
  refine sound_onLaunch (fun work hu => ?_) e h
  split at work
  · cases work
  · exact sound_completePacket work (sound_keep hu)
  · next read =>
    obtain ⟨x, note, work⟩ := bind_ok.1 work
    exact sound_completePacket work (sound_hubNote note (sound_hubRead read hu))

theorem sound_execSignalPacket {r s : State} {id : Nat} {t : State} (e : execSignalPacket id s = .next t) (h : Sound r s) : Sound r t := by
  refine sound_onLaunch (fun work hu => ?_) e h
  obtain ⟨x, add, work⟩ := bind_ok.1 work
  exact sound_completePacket work (sound_hubAdd add hu)

theorem sound_tryWait {r s : State} {p : QPacket} {t : State} (e : tryWait s p = .ok t) (h : Sound r s) : Sound r t := by
  grind [tryWait.eq_def, sound_keep, sound_hubRead64, sound_completePacket, sound_record, soundBy_iff]

theorem sound_execWaitPacket {r s : State} {id : Nat} {t : State} (e : execWaitPacket id s = .next t) (h : Sound r s) : Sound r t := by
  unfold execWaitPacket at e
  split at e
  · exact Host.Outcome.next.inj e ▸ h
  rcases of_ite e with e | e
  · exact Host.Outcome.next.inj e ▸ h
  rcases of_ite e with e | e
  · exact Host.Outcome.next.inj e ▸ sound_settleWork (fun _ work => sound_tryWait work h) h
  · exact sound_onLaunch (fun work hu => sound_tryWait work hu) e h

theorem sound_execEnergyPacket {r s : State} {id : Nat} {t : State} (e : execEnergyPacket id s = .next t) (h : Sound r s) : Sound r t :=
  sound_onLaunch (fun work hu => sound_completePacket work (sound_setQcb hu)) e h

theorem sound_execBarrierPacket {r s : State} {id : Nat} {t : State} (e : execBarrierPacket id s = .next t) (h : Sound r s) : Sound r t := by
  unfold execBarrierPacket at e
  split at e
  · exact Host.Outcome.next.inj e ▸ h
  rcases of_ite e with e | e
  · exact Host.Outcome.next.inj e ▸ h
  rcases of_ite e with e | e
  · refine Host.Outcome.next.inj e ▸ ?_
    split
    · exact sound_settleWork (fun _ work => sound_completePacket work h) h
    · exact h
  · refine sound_onLaunch (fun work hu => ?_) e h
    rcases of_ite work with work | work
    · exact sound_completePacket work hu
    · exact Except.ok.inj work ▸ hu

theorem sound_startJob {r s : State} {pasid : Nat} {w : Nat → Word} {packet : Option Nat} {graph : Option (Nat × Nat)} {t : State}
    (e : startJob s pasid w packet graph = .ok t) (h : Sound r s) : Sound r t := by
  have added (l : List Job) (n : Nat) : Sound r { s with fresh := n, jobs := l } := (sound_record ..).2 ((soundBy_iff ..).2 h)
  unfold startJob at e
  dsimp only at e
  rcases of_ite e with e | e
  · exact sound_endJob e (added ..)
  split at e
  · cases e
  · next load => exact sound_endJob e (sound_loadKernel load (added ..))
  next load =>
    have loaded := sound_loadKernel load (added ..)
    split at e
    · cases e
    · exact sound_endJob e (sound_keep loaded)
    next args =>
      have argued := sound_readArgs args loaded
      split at e
      · cases e
      · exact sound_endJob e (sound_keep argued)
      next expected =>
        have ready := sound_hubRead64 expected argued
        rcases of_ite e with e | e
        · exact sound_endJob e (sound_setJob ready)
        · exact Except.ok.inj e ▸ sound_setJob ready

theorem sound_execJobPacket {r s : State} {id : Nat} {t : State} (e : execJobPacket id s = .next t) (h : Sound r s) : Sound r t :=
  sound_onLaunch (fun work hu => sound_startJob work hu) e h

theorem sound_readJcb {r s : State} {j : Job} {t y} (e : readJcb s j = .ok (t, y)) (h : Sound r s) : Sound r t := by
  grind [readJcb, sound_hubRead, = bind_ok, = pure_ok]

theorem sound_jobFault {r s : State} {j : Job} {x : HStop} {t : State} (e : jobFault s j x = .ok t) (h : Sound r s) : Sound r t := by
  cases x with
  | fault code sub u => exact sound_endJob e (sound_keep h)
  | wait u => cases e

theorem sound_handOut {r s : State} {j : Job} {b : Jcb} {die first n : Nat} {redo : Bool} {t : State} (e : handOut s j b die first n redo = .ok t) (h : Sound r s) : Sound r t := by
  grind [handOut, sound_hubWrite, sound_setJob, sound_nextInstance, sound_record, soundBy_iff, = bind_ok, = pure_ok]

theorem sound_execBlockHandout {r s : State} {job die : Nat} {t : State} (e : execBlockHandout job die s = .next t) (h : Sound r s) : Sound r t := by
  unfold execBlockHandout at e
  split at e
  · exact Host.Outcome.next.inj e ▸ h
  rcases of_ite e with e | e
  · exact Host.Outcome.next.inj e ▸ h
  split at e
  · exact Host.Outcome.next.inj e ▸ sound_settleWork (fun _ work => sound_jobFault work h) h
  next read =>
    split at e
    · exact Host.Outcome.next.inj e ▸ h
    rcases of_ite e with e | e
    · exact Host.Outcome.next.inj e ▸ sound_settleWork (fun _ work => sound_endJob work (sound_readJcb read h)) h
    split at e
    · next handed => exact Host.Outcome.next.inj e ▸ sound_handOut handed (sound_readJcb read h)
    · exact Host.Outcome.next.inj e ▸ sound_settleWork (fun _ work => sound_jobFault work h) h

theorem sound_execBlockReport {r s : State} {job k : Nat} {t : State} (e : execBlockReport job k s = .next t) (h : Sound r s) : Sound r t := by
  unfold execBlockReport at e
  split at e
  · exact Host.Outcome.next.inj e ▸ h
  split at e
  · exact Host.Outcome.next.inj e ▸ h
  rcases of_ite e with e | e
  · exact Host.Outcome.next.inj e ▸ h
  split at e
  · exact Host.Outcome.next.inj e ▸ sound_settleWork (fun _ work => sound_jobFault work h) h
  next read =>
    dsimp only at e
    split at e
    · exact Host.Outcome.next.inj e ▸ sound_settleWork (fun _ work => sound_jobFault work h) h
    next wrote =>
      obtain ⟨x, entry, count⟩ := bind_ok.1 wrote
      have done := sound_hubWrite count (sound_hubWrite entry (sound_readJcb read h))
      rcases of_ite e with e | e
      · exact Host.Outcome.next.inj e ▸ sound_settleWork (fun _ work => sound_endJob work (sound_setJob done)) h
      · exact Host.Outcome.next.inj e ▸ sound_setJob done

theorem sound_markVoid {r s : State} {j : Job} {btab : Nat} {l : List Block} {t : State} (e : markVoid j btab l s = .ok t) (h : Sound r s) : Sound r t :=
  sound_paper (paperWork_markVoid ..) e h

theorem sound_voidBlocks {r s : State} {die : Nat} {j : Job} {t : State} (e : voidBlocks s die j = .ok t) (h : Sound r s) : Sound r t := by
  grind [voidBlocks, sound_keep, sound_setJob, sound_retireGaths, sound_readJcb, sound_markVoid, sound_record, soundBy_iff, = bind_ok, = pure_ok, = map_ok, = dotBind_ok, = upon_ok, = atPart_eq_ok]

theorem sound_voidJobs {r s : State} {die : Nat} {l : List Job} {t : State} (e : voidJobs die l s = .ok t) (h : Sound r s) : Sound r t := by
  induction l generalizing s with
  | nil => cases e; exact h
  | cons j l ih =>
    obtain ⟨u, one, e⟩ := bind_ok.1 e
    exact ih e (sound_voidBlocks one h)

theorem sound_endJobs {r s : State} {l : List Nat} {t : State} (e : endJobs l s = .ok t) (h : Sound r s) : Sound r t := by
  induction l generalizing s with
  | nil => cases e; exact h
  | cons id l ih =>
    unfold endJobs at e
    split at e
    · obtain ⟨u, one, e⟩ := bind_ok.1 e
      exact ih e (sound_endJob one h)
    · exact ih e h

theorem sound_endOversized {r s : State} {t : State} (e : endOversized s = .ok t) (h : Sound r s) : Sound r t := by
  grind [endOversized, sound_endAllWith, sound_endJobs, = bind_ok, = pure_ok, = map_ok, = dotBind_ok, = upon_ok, = atPart_eq_ok]

theorem sound_fenceDie {r s : State} {die : Nat} {t : State} (e : fenceDie s die = .ok t) (h : Sound r s) : Sound r t := by
  grind [fenceDie, sound_endAllWith, sound_voidJobs, sound_endOversized, sound_record, soundBy_iff, = bind_ok, = pure_ok, = map_ok, = dotBind_ok, = upon_ok, = atPart_eq_ok]

theorem sound_execDieFence {r s : State} {die : Nat} {t : State} (e : execDieFence die s = .next t) (h : Sound r s) : Sound r t := by
  grind [execDieFence, sound_settleWork, sound_fenceDie]

theorem sound_execGraphPacket {r s : State} {id : Nat} {t : State} (e : execGraphPacket id s = .next t) (h : Sound r s) : Sound r t :=
  sound_onLaunch (fun work hu => Except.ok.inj work ▸ (sound_record ..).2 ((soundBy_iff ..).2 hu)) e h

theorem sound_graphFault {r s : State} {g : Graph} {x : HStop} {t : State} (e : graphFault s g x = .ok t) (h : Sound r s) : Sound r t := by
  cases x with
  | fault code sub u => exact sound_endGraph e (sound_keep h)
  | wait u => cases e

theorem sound_onNode {r s : State} {graph branch kind : Nat} {f : Graph → Nat → List Byte → State → Work} {t : State}
    (hf : ∀ {g va b u v}, f g va b u = .ok v → Sound r u → Sound r v) (e : onNode graph branch kind s f = .next t) (h : Sound r s) : Sound r t := by
  unfold onNode at e
  split at e
  · exact Host.Outcome.next.inj e ▸ h
  split at e
  · exact Host.Outcome.next.inj e ▸ h
  rcases of_ite e with e | e
  · exact Host.Outcome.next.inj e ▸ h
  rcases of_ite e with e | e
  · exact Host.Outcome.next.inj e ▸ sound_settleWork (fun _ work => sound_endGraph work h) h
  split at e
  · exact Host.Outcome.next.inj e ▸ sound_settleWork (fun _ work => sound_graphFault work h) h
  next read =>
    have done := sound_hubRead read h
    rcases of_ite e with e | e
    · exact Host.Outcome.next.inj e ▸ sound_settleWork (fun _ work => sound_endGraph work done) h
    rcases of_ite e with e | e
    · exact Host.Outcome.next.inj e ▸ h
    · exact Host.Outcome.next.inj e ▸ sound_settleWork (fun _ work => hf work done) h

theorem sound_prepareJcb {r s : State} {pasid jcb n : Nat} {t : State} (e : prepareJcb s pasid jcb n = .ok t) (h : Sound r s) : Sound r t := by
  grind [prepareJcb, sound_hubRead, sound_hubWrite, = bind_ok, = pure_ok]

theorem sound_execKernelNode {r s : State} {graph branch : Nat} {t : State} (e : execKernelNode graph branch s = .next t) (h : Sound r s) : Sound r t := by
  refine sound_onNode (fun work hu => ?_) e h
  split at work
  · exact sound_graphFault work hu
  next read =>
    have done := sound_hubRead read hu
    dsimp only at work
    rcases of_ite work with work | work
    · exact sound_endGraph work done
    split at work
    · exact sound_graphFault work done
    · next prepared => exact sound_startJob work (sound_prepareJcb prepared done)

theorem sound_execCondNode {r s : State} {graph branch : Nat} {t : State} (e : execCondNode graph branch s = .next t) (h : Sound r s) : Sound r t := by
  refine sound_onNode (fun work hu => ?_) e h
  split at work
  · exact sound_graphFault work hu
  · next read => exact sound_branchTo work (sound_hubRead64 read hu)

theorem sound_execWhileNode {r s : State} {graph branch : Nat} {t : State} (e : execWhileNode graph branch s = .next t) (h : Sound r s) : Sound r t := by
  refine sound_onNode (fun work hu => ?_) e h
  dsimp only at work
  split at work
  · exact sound_graphFault work hu
  next read =>
    have done := sound_hubRead64 read hu
    rcases of_ite work with work | work
    · split at work
      · exact sound_graphFault work done
      · next wrote => exact sound_branchTo work (sound_hubWrite wrote done)
    rcases of_ite work with work | work
    · split at work
      · exact sound_graphFault work done
      · next wrote => exact sound_branchTo work (sound_hubWrite wrote done)
    · exact sound_endGraph work done

theorem sound_execJoinNode {r s : State} {graph branch : Nat} {t : State} (e : execJoinNode graph branch s = .next t) (h : Sound r s) : Sound r t := by
  refine sound_onNode (fun work hu => ?_) e h
  dsimp only at work
  split at work
  · exact sound_graphFault work hu
  · next wrote => exact sound_branchTo work (sound_hubWrite wrote hu)

theorem sound_execEndNode {r s : State} {graph branch : Nat} {t : State} (e : execEndNode graph branch s = .next t) (h : Sound r s) : Sound r t :=
  sound_onNode (fun work hu => sound_branchTo work hu) e h

/-- The next window's allowance was within the budget. -/
theorem sound_execEnergyWindowEnd {r s : State} {t : State} (e : execEnergyWindowEnd s = .next t) (h : Sound r s) : Sound r t :=
  Host.Outcome.next.inj e ▸ ⟨h.mem, fun ok => ⟨(h.budget ok).2, (h.budget ok).2⟩, h.cur⟩

theorem sound_execEnergyPacing {r s : State} {on : Bool} {t : State} (e : execEnergyPacing on s = .next t) (h : Sound r s) : Sound r t :=
  Host.Outcome.next.inj e ▸ ⟨h.mem, h.budget, h.cur⟩

end Sys2Proof.Machine
end

section
/-!
SUPPORT. The invariant of the module (O57): the fabric.
-/

namespace Sys2Proof.Machine

theorem sound_sendSack {r s : State} {key : Nat} (h : Sound r s) : Sound r (sendSack s key) := by
  grind [sendSack, sound_record, soundBy_iff]

theorem sound_acceptSeq {r s : State} {key fseq : Nat} (h : Sound r s) : Sound r (acceptSeq s key fseq) := by
  grind [acceptSeq, sound_setFlow, sound_sendSack]

theorem sound_resendAnswer {r s : State} {p : Packet} (h : Sound r s) : Sound r (resendAnswer s p) := by
  grind [resendAnswer, sound_sendSack, sound_record, soundBy_iff]

theorem sound_answer {r s : State} {p a : Packet} (h : Sound r s) : Sound r (answer s p a) := by
  grind [answer, sound_sendSprayed, sound_record, soundBy_iff]

theorem sound_answerNak {r s : State} {p : Packet} {code sub : Nat} (h : Sound r s) : Sound r (answerNak s p code sub) := by
  grind [answerNak, sound_answer, sound_record, soundBy_iff]

theorem sound_answerMoved {r s : State} {p : Packet} {w : Nat} (h : Sound r s) : Sound r (answerMoved s p w) := by
  grind [answerMoved, sound_answer, sound_record, soundBy_iff]

theorem sound_agentPlaces {r s : State} {ag : Agent} {pasid : Nat} {write bankLocal : Bool} {l : List (Nat × Nat)} {t y}
    (e : agentPlaces ag pasid write bankLocal l s = .ok (t, y)) (h : Sound r s) : Sound r t :=
  ((leaves_agentPlaces ..).ok e).sound h

theorem sound_writePlaces {r s : State} {l : List (Place × Nat)} {d : List Byte} (h : Sound r s) : Sound r (writePlaces l d s) :=
  (leafWork_writePlaces ..).sound h

theorem sound_serve {r s : State} {p : Packet} {run bankLocal : Bool} {t y} (e : serve s p run bankLocal = .ok (t, y)) (h : Sound r s) : Sound r t :=
  ((leaves_serve ..).ok e).sound h

theorem sound_acceptServed {r s : State} {p : Packet} {d : List Byte} (h : Sound r s) : Sound r (acceptServed s p d) := by
  grind [acceptServed, sound_acceptSeq, sound_answer, sound_record, soundBy_iff]

theorem sound_serveRequest {r s : State} {p : Packet} {run bankLocal : Bool} (h : Sound r s) : Sound r (serveRequest s p run bankLocal) := by
  grind [serveRequest.eq_def, sound_keep, sound_answerNak, sound_serve, sound_acceptServed, sound_record, soundBy_iff]

theorem sound_onArrival {r s f : State} {p : Packet} {t : State} (hf : Sound r f) (e : onArrival s p f = .next t) (h : Sound r s) : Sound r t := by
  unfold onArrival at e
  rcases of_ite e with e | e
  · exact Host.Outcome.next.inj e ▸ h
  rcases of_ite e with e | e
  · exact Host.Outcome.next.inj e ▸ sound_resendAnswer h
  split at e
  · refine Host.Outcome.next.inj e ▸ ?_
    split
    · exact h
    · exact hf
  · exact Host.Outcome.next.inj e ▸ sound_resendAnswer h
  · exact Host.Outcome.next.inj e ▸ h

theorem sound_decide_prime {r s : State} {p : Packet} {again : Bool} {t y} (e : decide' s p again = .ok (t, y)) (h : Sound r s) : Sound r t := by
  grind [decide'.eq_def, sound_decideOnce, sound_record, soundBy_iff]

theorem sound_dropRun {r s : State} {p : Packet} (h : Sound r s) : Sound r (dropRun s p) := by
  grind [dropRun, sound_record, soundBy_iff]

theorem sound_holdRun {r s : State} {p : Packet} (h : Sound r s) : Sound r (holdRun s p) := by
  grind [holdRun, sound_record, soundBy_iff]

theorem sound_runOnce {r s : State} {p : Packet} {again : Bool} (h : Sound r s) : Sound r (runOnce s p again) := by
  grind [runOnce.eq_def, sound_keep, sound_answerNak, sound_answerMoved, sound_serveRequest, sound_decide_prime, sound_dropRun, sound_holdRun, sound_record, soundBy_iff]

theorem sound_execRunReceive {r s : State} {p : Packet} {t : State} (e : execRunReceive p s = .next t) (h : Sound r s) : Sound r t := by
  rcases of_ite e with e | e
  · exact Host.Outcome.next.inj e ▸ h
  rcases of_ite e with e | e
  · exact Host.Outcome.next.inj e ▸ h
  · exact sound_onArrival (sound_runOnce h) e h

theorem sound_spanServed {r s : State} {p : Packet} {t y} (e : spanServed s p = .ok (t, y)) (h : Sound r s) : Sound r t := by
  grind [spanServed, sound_decide_prime, sound_holdRun, sound_record, soundBy_iff]

theorem sound_performSpan {r s : State} {p : Packet} {d : List Byte} {a b : Nat} {t : State} (e : performSpan s p d a b = .ok t) (h : Sound r s) : Sound r t := by
  grind [performSpan, sound_agentPlaces, sound_writePlaces, sound_spanServed, = bind_ok, = pure_ok]

theorem sound_packetArrival {r s : State} {p : Packet} {err : Bool} (h : Sound r s) : Sound r (packetArrival s p err) := by
  grind [packetArrival, sound_arrive, sound_arriveErr, sound_count, sound_record, soundBy_iff]

theorem sound_landGranules {r s : State} {a : Assembly} (h : Sound r s) : Sound r (landGranules s a).1 := by
  grind [landGranules, sound_keep, sound_performSpan, sound_record, soundBy_iff]

theorem sound_landPacket {r s : State} {a : Assembly} (h : Sound r s) : Sound r (landPacket s a).1 := by
  grind [landPacket.eq_def, sound_modCore, sound_packetArrival, sound_landGranules, sound_record, soundBy_iff]

theorem sound_endTimetabled {r s : State} {a : Assembly} (h : Sound r s) : Sound r (endTimetabled s a) := by
  grind [endTimetabled, sound_landPacket, sound_record, soundBy_iff]

theorem sound_retryLanding {r s : State} (h : Sound r s) : Sound r (retryLanding s) := by
  grind [retryLanding, sound_endTimetabled, sound_record, soundBy_iff, sound_foldl]

theorem sound_ownOnce {r s : State} {x : HeldRun} (h : Sound r s) : Sound r (ownOnce s x) := by
  grind [ownOnce.eq_def, sound_keep, sound_decide_prime, sound_dropRun, sound_record, soundBy_iff]

theorem sound_execShardHoldReread {r s : State} {k : Nat} {t : State} (e : execShardHoldReread k s = .next t) (h : Sound r s) : Sound r t := by
  grind [execShardHoldReread.eq_def, sound_runOnce, sound_retryLanding, sound_ownOnce, sound_record, soundBy_iff]

theorem sound_markMoved {r s : State} {p : Packet} {w : Nat} (h : Sound r s) : Sound r (markMoved s p w) := by
  grind [markMoved, sound_record, soundBy_iff, = map_ok, = dotBind_ok, = upon_ok, = atPart_eq_ok]

theorem sound_closeHeld {r s : State} {x : HeldRun} {f : State → State} (hf : ∀ {u}, Sound r u → Sound r (f u)) (h : Sound r s) : Sound r (closeHeld s x f) := by
  unfold closeHeld
  dsimp only
  split
  · exact sound_dropRun h
  · exact hf (sound_dropRun h)

theorem sound_execShardHoldTimeout {r s : State} {k : Nat} {t : State} (e : execShardHoldTimeout k s = .next t) (h : Sound r s) : Sound r t := by
  unfold execShardHoldTimeout at e
  split at e
  · exact Host.Outcome.next.inj e ▸ h
  rcases of_ite e with e | e
  · exact Host.Outcome.next.inj e ▸ h
  dsimp only at e
  split at e
  · next entry => exact Host.Outcome.next.inj e ▸ sound_retryLanding (sound_closeHeld sound_answerMoved (sound_markMoved (sound_targetEntry entry h)))
  · split at e
    · exact Host.Outcome.next.inj e ▸ sound_closeHeld sound_answerNak (sound_keep h)
    · exact Host.Outcome.next.inj e ▸ sound_keep h

theorem sound_execFabricWrite {r s : State} {p : Packet} {t : State} (e : execFabricWrite p s = .next t) (h : Sound r s) : Sound r t := by
  rcases of_ite e with e | e
  · exact Host.Outcome.next.inj e ▸ h
  rcases of_ite e with e | e
  · refine Host.Outcome.next.inj e ▸ ?_
    split
    · exact sound_endTimetabled h
    · exact h
  · exact sound_onArrival (sound_serveRequest h) e h

theorem sound_execFabricRead {r s : State} {p : Packet} {t : State} (e : execFabricRead p s = .next t) (h : Sound r s) : Sound r t := by
  rcases of_ite e with e | e
  · exact Host.Outcome.next.inj e ▸ h
  · exact sound_onArrival (sound_serveRequest h) e h

theorem sound_execAtomic {r s : State} {p : Packet} {t : State} (e : execAtomic p s = .next t) (h : Sound r s) : Sound r t := by
  rcases of_ite e with e | e
  · exact Host.Outcome.next.inj e ▸ h
  · exact sound_onArrival (sound_serveRequest h) e h

theorem sound_answered {r s : State} {a : Asker} {node fseq : Nat} {d : List Byte} (h : Sound r s) : Sound r (answered s a node fseq d) := by
  grind [answered.eq_def, sound_modOp, sound_record, soundBy_iff, = map_ok, = dotBind_ok, = upon_ok, = atPart_eq_ok]

theorem sound_takeAsked {r s : State} {p : Packet} (h : Sound r s) : Sound r (takeAsked s p) := by
  grind [takeAsked, sound_modCore, sound_dropTid, sound_record, soundBy_iff, sound_foldl]

theorem sound_takeAnswer {r s : State} {p : Packet} {f : Asker → State → State} {t : State} (hf : ∀ {a u}, Sound r u → Sound r (f a u))
    (e : takeAnswer p s f = .next t) (h : Sound r s) : Sound r t := by
  unfold takeAnswer at e
  rcases of_ite e with e | e
  · exact Host.Outcome.next.inj e ▸ h
  split at e
  · exact Host.Outcome.next.inj e ▸ h
  · exact Host.Outcome.next.inj e ▸ sound_sendSack h
  · have taken : Sound r (takeAsked (acceptSeq s (pKey p) p.fseq.toNat) p) := sound_takeAsked (sound_acceptSeq h)
    dsimp only at e
    split at e
    · exact Host.Outcome.next.inj e ▸ hf taken
    · exact Host.Outcome.next.inj e ▸ taken

theorem sound_execRdata {r s : State} {p : Packet} {t : State} (e : execRdata p s = .next t) (h : Sound r s) : Sound r t := by
  rcases of_ite e with e | e
  · exact Host.Outcome.next.inj e ▸ h
  · exact sound_takeAnswer sound_answered e h

theorem sound_execAresp {r s : State} {p : Packet} {t : State} (e : execAresp p s = .next t) (h : Sound r s) : Sound r t := by
  rcases of_ite e with e | e
  · exact Host.Outcome.next.inj e ▸ h
  · exact sound_takeAnswer sound_answered e h

theorem sound_remoteFault {r s : State} {a : Asker} {code sub va node fseq : Nat} (h : Sound r s) : Sound r (remoteFault s a code sub va node fseq) := by
  grind [remoteFault.eq_def, sound_parkOp, sound_modOp, sound_unitFault, sound_record, soundBy_iff, = map_ok, = dotBind_ok, = upon_ok, = atPart_eq_ok]

theorem sound_execNak {r s : State} {p : Packet} {t : State} (e : execNak p s = .next t) (h : Sound r s) : Sound r t := by
  rcases of_ite e with e | e
  · exact Host.Outcome.next.inj e ▸ h
  · exact sound_takeAnswer sound_remoteFault e h

theorem sound_movedRun {r s : State} {c id : Nat} {x : Run} {w : Nat} (h : Sound r s) : Sound r (movedRun s c id x w) := by
  have stops := stop_runMoved (c := c) (id := id) (d := x.dest) (w := w) h
  unfold movedRun
  split
  · exact h
  dsimp only
  split
  · exact sound_modOp (sound_modOp (sound_dropTid h))
  split
  · exact sound_modOp (sound_dropTid h)
  split
  · next eq => rwa [eq] at stops
  · split
    · exact sound_modOp (sound_dropTid h)
    · exact sound_takeEStop (stop_mapFault stops) (sound_modOp (sound_modOp h))

theorem sound_execShardMovedReceive {r s : State} {core op : Nat} {version : BitVec 32} {t : State} (e : execShardMovedReceive core op version s = .next t) (h : Sound r s) : Sound r t := by
  grind [execShardMovedReceive.eq_def, sound_movedRun, sound_record, soundBy_iff, = map_ok, = dotBind_ok, = upon_ok, = atPart_eq_ok]

theorem sound_execMoved {r s : State} {p : Packet} {t : State} (e : execMoved p s = .next t) (h : Sound r s) : Sound r t := by
  rcases of_ite e with e | e
  · exact Host.Outcome.next.inj e ▸ h
  · refine sound_takeAnswer (fun hu => ?_) e h
    split
    · split
      · exact sound_movedRun hu
      · exact hu
    · exact hu

theorem sound_execShardRequesterReread {r s : State} {core op : Nat} {t : State} (e : execShardRequesterReread core op s = .next t) (h : Sound r s) : Sound r t := by
  grind [execShardRequesterReread.eq_def, sound_stepOp, sound_record, soundBy_iff]

theorem sound_execShardRequesterTimeout {r s : State} {core op : Nat} {t : State} (e : execShardRequesterTimeout core op s = .next t) (h : Sound r s) : Sound r t := by
  unfold execShardRequesterTimeout at e
  split at e
  · split at e
    · exact Host.Outcome.next.inj e ▸ sound_takeEStop trivial (sound_modOp h)
    · exact Host.Outcome.next.inj e ▸ h
  · exact Host.Outcome.next.inj e ▸ h

theorem sound_releasePacket {r s : State} {key : Nat} {u : Packet × Nat × Nat × Nat} (h : Sound r s) : Sound r (releasePacket key s u) := by
  grind [releasePacket, sound_modCore, sound_acceptSeq, sound_answered, sound_record, soundBy_iff]

theorem sound_execSack {r s : State} {p : Packet} {t : State} (e : execSack p s = .next t) (h : Sound r s) : Sound r t := by
  grind [execSack, sound_setFlow, sound_releasePacket, sound_record, soundBy_iff, sound_foldl]

theorem sound_execSprayRetransmitTimer {r s : State} {dst fseq : Nat} {t : State} (e : execSprayRetransmitTimer dst fseq s = .next t) (h : Sound r s) : Sound r t := by
  grind [execSprayRetransmitTimer, sound_setFlow, sound_remoteFault, sound_record, soundBy_iff, = map_ok, = dotBind_ok, = upon_ok, = atPart_eq_ok]

theorem sound_execFabricBarrier {r s : State} {p : Packet} {t : State} (e : execFabricBarrier p s = .next t) (h : Sound r s) : Sound r t := by
  have accepted : Sound r (acceptSeq s (pKey p) p.fseq.toNat) := sound_acceptSeq h
  rcases of_ite e with e | e
  · exact Host.Outcome.next.inj e ▸ h
  · refine sound_onArrival ?_ e h
    split
    · split
      · exact accepted
      · exact sound_setGath accepted
    · exact accepted

theorem sound_execReady {r s : State} {p : Packet} {t : State} (e : execReady p s = .next t) (h : Sound r s) : Sound r t := by
  have accepted : Sound r (acceptSeq s (pKey p) p.fseq.toNat) := sound_acceptSeq h
  rcases of_ite e with e | e
  · exact Host.Outcome.next.inj e ▸ h
  · refine sound_onArrival ?_ e h
    split
    · exact accepted
    · exact (sound_record ..).2 ((soundBy_iff ..).2 accepted)

theorem sound_deliverPacket {r s : State} {p : Packet} {t : State} (e : deliverPacket p s = .next t) (h : Sound r s) : Sound r t := by
  unfold deliverPacket at e
  dsimp only at e
  rcases of_ite e with e | e
  · rcases of_ite e with e | e
    · exact sound_execRunReceive e h
    · exact sound_execFabricWrite e h
  rcases of_ite e with e | e
  · rcases of_ite e with e | e
    · exact sound_execRunReceive e h
    · exact sound_execFabricRead e h
  rcases of_ite e with e | e
  · exact sound_execRdata e h
  rcases of_ite e with e | e
  · exact sound_execAtomic e h
  rcases of_ite e with e | e
  · exact sound_execAresp e h
  rcases of_ite e with e | e
  · exact sound_execSack e h
  rcases of_ite e with e | e
  · exact sound_execMoved e h
  rcases of_ite e with e | e
  · exact sound_execNak e h
  rcases of_ite e with e | e
  · exact sound_execFabricBarrier e h
  rcases of_ite e with e | e
  · exact sound_execReady e h
  · exact Host.Outcome.next.inj e ▸ h

theorem sound_delivered {r s : State} {p : Packet} (h : Sound r s) : Sound r (delivered p s) := by
  grind [delivered.eq_def, sound_deliverPacket, sound_record, soundBy_iff]

theorem sound_setLink {r s : State} {port : Nat} {l : Link} (h : Sound r s) : Sound r (State.setLink s port l) := by
  grind [State.setLink, sound_record, soundBy_iff]

theorem sound_modLink {r s : State} {port : Nat} {f : Link → Link} (h : Sound r s) : Sound r (State.modLink s port f) := by
  grind [State.modLink, sound_setLink]

theorem sound_sendFlit {r s : State} {port : Nat} {f : BitVec 512} (h : Sound r s) : Sound r (sendFlit s port f) := by
  grind [sendFlit, sound_setLink, sound_record, soundBy_iff]

theorem sound_drainQueue {r s : State} {port : Nat} (h : Sound r s) : Sound r (drainQueue s port) := by
  grind [drainQueue, sound_setLink, sound_sendFlit, sound_record, soundBy_iff]

theorem sound_queueFlit {r s : State} {port : Nat} {resend : Bool} {f : BitVec 512} (h : Sound r s) : Sound r (queueFlit s port resend f) := by
  grind [queueFlit, sound_modLink, sound_drainQueue, sound_record, soundBy_iff]

theorem sound_drainQueues {r s : State} (h : Sound r s) : Sound r (drainQueues s) := by
  grind [drainQueues, sound_drainQueue, sound_foldl]

theorem sound_sendControl {r s : State} {port type lseq n : Nat} {parity : BitVec 128} (h : Sound r s) : Sound r (sendControl s port type lseq n parity) := by
  grind [sendControl, sound_queueFlit]

theorem sound_repair {r s : State} {port lseq n : Nat} (h : Sound r s) : Sound r (repair s port lseq n) := by
  grind [repair.eq_def, sound_queueFlit, sound_sendControl, sound_record, soundBy_iff]

theorem sound_execLreq {r s : State} {port lseq n : Nat} {t : State} (e : execLreq port lseq n s = .next t) (h : Sound r s) : Sound r t := by
  grind [execLreq, sound_repair]

theorem sound_modLane {r s : State} {port stream : Nat} {f : Lane → Lane} (h : Sound r s) : Sound r (State.modLane s port stream f) := by
  grind [State.modLane, sound_modLink, sound_record, soundBy_iff]

theorem sound_drainTransit {r s : State} {port : Nat} (h : Sound r s) : Sound r (drainTransit s port) := by
  grind [drainTransit, sound_modLink, sound_sendFlit, sound_record, soundBy_iff, sound_foldl]

theorem sound_drainTransits {r s : State} (h : Sound r s) : Sound r (drainTransits s) := by
  grind [drainTransits, sound_drainTransit, sound_foldl]

theorem sound_passOn {r s : State} {port slot stream : Nat} {f : BitVec 512} (h : Sound r s) : Sound r (passOn s port slot stream f) := by
  grind [passOn, sound_modLink, sound_modLane, sound_drainTransit, sound_record, soundBy_iff]

theorem sound_endAssembly {r s : State} {a : Assembly} (h : Sound r s) : Sound r (endAssembly s a) := by
  grind [endAssembly, sound_endTimetabled, sound_delivered, sound_record, soundBy_iff]

theorem sound_takeData {r s : State} {port stream : Nat} {a : Assembly} {f : BitVec 512} (h : Sound r s) : Sound r (takeData s port stream a f) := by
  grind [takeData, sound_landGranules, sound_modLane, sound_endAssembly, sound_record, soundBy_iff]

theorem sound_takeHead {r s : State} {port : Nat} {x : InFlit} (h : Sound r s) : Sound r (takeHead s port x) := by
  grind [takeHead, sound_delivered, sound_modLane, sound_endAssembly, sound_record, soundBy_iff]

theorem sound_takeHere {r s : State} {port : Nat} {x : InFlit} (h : Sound r s) : Sound r (takeHere port s x) := by
  grind [takeHere, sound_takeData, sound_takeHead, sound_record, soundBy_iff]

theorem sound_takeFlit {r s : State} {port : Nat} {x : InFlit} {slot : Nat} (h : Sound r s) : Sound r (takeFlit port s x slot) := by
  grind [takeFlit, sound_passOn, sound_takeHere]

theorem sound_releaseLane {r s : State} {port stream : Nat} {l : List LaneItem} (h : Sound r s) : Sound r (releaseLane port stream l s) := by
  induction l generalizing s with
  | nil => exact sound_modLane h
  | cons i l ih =>
    cases i with
    | got x slot => exact ih (sound_takeFlit h)
    | waits n => exact sound_modLane h

theorem sound_lostFlit {r s : State} {port lseq : Nat} (h : Sound r s) : Sound r (lostFlit s port lseq) := by
  grind [lostFlit.eq_def, sound_modLink, sound_releaseLane, sound_record, soundBy_iff]

theorem sound_holdFlit {r s : State} {port stream : Nat} {i : LaneItem} (h : Sound r s) : Sound r (holdFlit s port stream i) := by
  grind [holdFlit, sound_modLane, sound_lostFlit, sound_record, soundBy_iff]

theorem sound_putFlit {r s : State} {port : Nat} {x : InFlit} {slot : Nat} (h : Sound r s) : Sound r (putFlit s port x slot) := by
  grind [putFlit, sound_repair, sound_takeFlit, sound_lostFlit, sound_holdFlit]

theorem sound_setDamaged {r s : State} {port : Nat} {d : Damaged} (h : Sound r s) : Sound r (setDamaged s port d) := by
  grind [setDamaged, sound_modLink, sound_record, soundBy_iff, = map_ok, = dotBind_ok, = upon_ok, = atPart_eq_ok]

theorem sound_suppDecode {r s : State} {port lseq part : Nat} {parity : BitVec 128} (h : Sound r s) : Sound r (suppDecode s port lseq part parity).1 := by
  grind [suppDecode.eq_def, sound_sendControl, sound_setDamaged, sound_record, soundBy_iff]

theorem sound_deliverDamaged {r s : State} {act : State → InFlit → Nat → State} {port : Nat} {d : Damaged} {f : BitVec 512}
    (ha : ∀ {u x slot}, Sound r u → Sound r (act u x slot)) (h : Sound r s) : Sound r (deliverDamaged act s port d f) := by
  unfold deliverDamaged
  dsimp only
  split
  · exact ha (sound_modLink h)
  split
  · exact sound_releaseLane (sound_count (sound_modLink h))
  · exact sound_releaseLane (sound_modLink h)

theorem sound_actFlit {r s : State} {port n : Nat} {x : InFlit} {slot : Nat} (h : Sound r s) : Sound r (actFlit port n s x slot) := by
  induction n generalizing s x slot with
  | zero => exact h
  | succ n ih =>
    have decoded := sound_suppDecode (port := port) (lseq := (flitBody x.bits).toNat % 4096) (part := (flitBody x.bits).toNat / 2 ^ 12 % 4)
      (parity := BitVec.ofNat 128 ((flitBody x.bits).toNat / 2 ^ 16)) h
    unfold actFlit
    dsimp only
    split
    · exact sound_count h
    split
    · split
      · next eq => rw [eq] at decoded; exact sound_deliverDamaged ih decoded
      · next eq => rwa [eq] at decoded
    · exact sound_putFlit h

theorem sound_arrived {r s : State} {port : Nat} {x : InFlit} {slot : Nat} (h : Sound r s) : Sound r (arrived s port x slot) := by
  grind [arrived, sound_actFlit]

theorem sound_recovered {r s : State} {port : Nat} {d : Damaged} {f : BitVec 512} (h : Sound r s) : Sound r (recovered s port d f) := sound_deliverDamaged sound_arrived h

theorem sound_supp {r s : State} {port lseq part : Nat} {parity : BitVec 128} (h : Sound r s) : Sound r (supp s port lseq part parity) := by
  grind [supp.eq_def, sound_suppDecode, sound_recovered, sound_record, soundBy_iff]

theorem sound_execSupp {r s : State} {port lseq part : Nat} {parity : BitVec 128} {t : State} (e : execSupp port lseq part parity s = .next t) (h : Sound r s) : Sound r t := by
  grind [execSupp, sound_supp]

theorem sound_execLost {r s : State} {port lseq : Nat} {t : State} (e : execLost port lseq s = .next t) (h : Sound r s) : Sound r t := by
  grind [execLost, sound_lostFlit]

theorem sound_passLost {r s : State} {port stream : Nat} (h : Sound r s) : Sound r (passLost port s stream) := by
  grind [passLost, sound_passOn, sound_record, soundBy_iff]

theorem sound_retrain {r s : State} {port : Nat} (h : Sound r s) : Sound r (retrain s port) := by
  grind [retrain, sound_modLink, sound_lostFlit, sound_passLost, sound_record, soundBy_iff, = map_ok, = dotBind_ok, = upon_ok, = atPart_eq_ok, sound_foldl]

theorem sound_execLinkRetrain {r s : State} {port : Nat} {t : State} (e : execLinkRetrain port s = .next t) (h : Sound r s) : Sound r t := by
  grind [execLinkRetrain, sound_retrain]

theorem sound_execLinkRetrainDone {r s : State} {port : Nat} {t : State} (e : execLinkRetrainDone port s = .next t) (h : Sound r s) : Sound r t := by
  grind [execLinkRetrainDone, sound_modLink, sound_record, soundBy_iff]

theorem sound_execFlitRetentionExpiry {r s : State} {port lseq : Nat} {t : State} (e : execFlitRetentionExpiry port lseq s = .next t) (h : Sound r s) : Sound r t := by
  grind [execFlitRetentionExpiry, sound_modLink, sound_record, soundBy_iff]

theorem sound_badFlit {r s : State} {port : Nat} {x : InFlit} (h : Sound r s) : Sound r (badFlit s port x) := by
  grind [badFlit, sound_setLink, sound_sendControl, sound_holdFlit, sound_setDamaged, sound_retrain, sound_record, soundBy_iff]

theorem sound_goodFlit {r s : State} {port : Nat} {x : InFlit} (h : Sound r s) : Sound r (goodFlit s port x) := by
  grind [goodFlit, sound_setLink, sound_arrived, sound_recovered, sound_record, soundBy_iff]

theorem sound_execFlitReceive {r s : State} {port : Nat} {flit : InFlit} {t : State} (e : execFlitReceive port flit s = .next t) (h : Sound r s) : Sound r t := by
  grind [execFlitReceive, sound_retryLanding, sound_badFlit, sound_goodFlit]

theorem sound_sendOn {r s : State} {l : List Nat} {f : BitVec 512} (h : Sound r s) : Sound r (sendOn l f s) := by
  grind [sendOn, sound_sendFlit, sound_foldl]

theorem sound_execCircuitSlotInject {r s : State} {circ : Nat} {t : State} (e : execCircuitSlotInject circ s = .next t) (h : Sound r s) : Sound r t := by
  grind [execCircuitSlotInject, sound_sendOn, sound_record, soundBy_iff, = map_ok, = dotBind_ok, = upon_ok, = atPart_eq_ok]

theorem sound_hostReads {r s : State} {l : List (Nat × Nat × Nat)} {t y} (e : hostReads l s = .ok (t, y)) (h : Sound r s) : Sound r t := by
  induction l generalizing s t y with
  | nil => cases e; exact h
  | cons x l ih =>
    unfold hostReads at e
    split at e
    · cases e
    · obtain ⟨⟨u, d⟩, read, e⟩ := bind_ok.1 e
      obtain ⟨⟨v, b⟩, rest, e⟩ := bind_ok.1 e
      cases e
      exact ih rest (sound_agentRead read h)

theorem sound_hostWrites {r s : State} {l : List (Nat × Nat × Nat)} {d : List Byte} {t : State} (e : hostWrites l d s = .ok t) (h : Sound r s) : Sound r t := by
  induction l generalizing s d with
  | nil => cases e; exact h
  | cons x l ih =>
    unfold hostWrites at e
    split at e
    · exact ih e h
    · obtain ⟨u, note, e⟩ := bind_ok.1 e
      exact ih e (sound_noteDone (fun _ wrote => sound_agentWrite wrote h) note h)

theorem sound_execHostBar4Access {r s : State} {off len : Nat} {write : Option (List Byte)} {t : State} (e : execHostBar4Access off len write s = .next t) (h : Sound r s) :
    Sound r t := by
  unfold execHostBar4Access at e
  split at e
  · exact Host.Outcome.next.inj e ▸ sound_settleWork (fun _ work => sound_hostWrites work h) h
  · split at e
    · next read => exact Host.Outcome.next.inj e ▸ (sound_record ..).2 ((soundBy_iff ..).2 (sound_hostReads read h))
    · exact Host.Outcome.next.inj e ▸ sound_keep h

end Sys2Proof.Machine
end

section
/-!
SUPPORT. The invariant of the module (O57): firmware, checkpoints and power.
-/

namespace Sys2Proof.Machine

theorem sound_setMail {r s : State} {l : List Word} {i : Nat} (h : Sound r s) : Sound r (setMail s l i) := by
  induction l generalizing s i with
  | nil => exact h
  | cons x l ih => exact ih ((sound_record ..).2 ((soundBy_iff ..).2 h))

theorem sound_mailStatus {r s : State} {w : Word} (h : Sound r s) : Sound r (mailStatus s w) := by
  grind [mailStatus, sound_record, soundBy_iff]

/-- A command that does not end leaves its walks and requests. -/
theorem sound_commandEnd {r s : State} {op : Nat} {args : List Word} {c : Command} (hc : ∀ t, c = .done t → Sound r t) (h : Sound r s) : Sound r (commandEnd op args s c) := by
  cases c with
  | done t => exact sound_mailStatus ((sound_record ..).2 ((soundBy_iff ..).2 (hc t rfl)))
  | err n t => exact sound_mailStatus ((sound_record ..).2 ((soundBy_iff ..).2 (sound_keep h)))
  | wait t => exact sound_mailStatus ((sound_record ..).2 ((soundBy_iff ..).2 (sound_keep h)))

theorem sound_firmware {r s : State} {op : Nat} {args : List Word} {f : State → Command} {t : State} (hf : ∀ {u v}, f u = .done v → Sound r u → Sound r v)
    (e : firmware op args s f = .next t) (h : Sound r s) : Sound r t := by
  rcases of_ite e with e | e
  · exact Host.Outcome.next.inj e ▸ sound_mailStatus (sound_setMail h)
  · exact Host.Outcome.next.inj e ▸ sound_commandEnd (fun _ done => hf done (sound_setMail h)) (sound_setMail h)

theorem firmwareRead_done {r s : State} {va n : Nat} {f : State → List Byte → Command} {t : State} (e : firmwareRead s va n f = .done t) (h : Sound r s) :
    ∃ u d, Sound r u ∧ f u d = .done t := by
  unfold firmwareRead at e
  split at e
  · next read => exact ⟨_, _, sound_hubRead read h, e⟩
  · cases e
  · cases e

theorem sound_pasidBindCommand {r s : State} {pasid root table : Word} {t : State} (e : pasidBindCommand pasid root table s = .done t) (h : Sound r s) : Sound r t := by
  grind [pasidBindCommand, sound_record, soundBy_iff]

theorem sound_execPasidBind {r s : State} {pasid root table : Word} {t : State} (e : execPasidBind pasid root table s = .next t) (h : Sound r s) : Sound r t :=
  sound_firmware sound_pasidBindCommand e h

theorem sound_qcbCreateCommand {r s : State} {pasid queue m ring prio ecap : Word} {t : State} (e : qcbCreateCommand pasid queue m ring prio ecap s = .done t) (h : Sound r s) : Sound r t := by
  grind [qcbCreateCommand, sound_setQcb, sound_record, soundBy_iff]

theorem sound_execQcbCreate {r s : State} {pasid queue m ring prio ecap : Word} {t : State} (e : execQcbCreate pasid queue m ring prio ecap s = .next t) (h : Sound r s) : Sound r t :=
  sound_firmware sound_qcbCreateCommand e h

theorem sound_qcbDestroyCommand {r s : State} {pasid queue : Word} {t : State} (e : qcbDestroyCommand pasid queue s = .done t) (h : Sound r s) : Sound r t := by
  grind [qcbDestroyCommand.eq_def, sound_removeDrained, sound_setQcb, sound_record, soundBy_iff]

theorem sound_execQcbDestroy {r s : State} {pasid queue : Word} {t : State} (e : execQcbDestroy pasid queue s = .next t) (h : Sound r s) : Sound r t :=
  sound_firmware sound_qcbDestroyCommand e h

theorem sound_hbmMapCommand {r s : State} {stack va : Word} {t : State} (e : hbmMapCommand stack va s = .done t) (h : Sound r s) : Sound r t := by
  rcases of_ite e with e | e
  · cases e
  · obtain ⟨u, d, hu, e⟩ := firmwareRead_done e h
    rcases of_ite e with e | e
    · cases e; exact (sound_record ..).2 ((soundBy_iff ..).2 hu)
    · cases e

theorem sound_execHbmMap {r s : State} {stack va : Word} {t : State} (e : execHbmMap stack va s = .next t) (h : Sound r s) : Sound r t :=
  sound_firmware sound_hbmMapCommand e h

/-- Forgotten bytes leave the canonical form. -/
theorem sound_scrambleRegion {r s : State} {st : Nat} {w : Word} (h : Sound r s) : Sound r (scrambleRegion st w s) := by
  unfold scrambleRegion
  split
  · exact ⟨fun ok => ⟨Memory.wf_scramble (h.mem ok).1 .., (h.mem ok).2⟩, h.budget, h.cur⟩
  · exact h

theorem sound_execHbmMapEffect {r s : State} {stack : Nat} {t : State} (e : execHbmMapEffect stack s = .next t) (h : Sound r s) : Sound r t := by
  unfold execHbmMapEffect at e
  split at e
  · exact Host.Outcome.next.inj e ▸ h
  rcases of_ite e with e | e
  · exact Host.Outcome.next.inj e ▸ h
  · refine Host.Outcome.next.inj e ▸ sound_foldl ((sound_record ..).2 ((soundBy_iff ..).2 h)) fun u k hu => (sound_record ..).2 ((soundBy_iff ..).2 ?_)
    split
    · exact sound_scrambleRegion (sound_scrambleRegion hu)
    · exact hu

theorem sound_slotTableCommand {r s : State} {router va time : Word} {t : State} (e : slotTableCommand router va time s = .done t) (h : Sound r s) : Sound r t := by
  rcases of_ite e with e | e
  · cases e
  · obtain ⟨u, d, hu, e⟩ := firmwareRead_done e h
    rcases of_ite e with e | e
    · cases e
    · cases e; exact (sound_record ..).2 ((soundBy_iff ..).2 hu)

theorem sound_execSlotTable {r s : State} {router va time : Word} {t : State} (e : execSlotTable router va time s = .next t) (h : Sound r s) : Sound r t :=
  sound_firmware sound_slotTableCommand e h

theorem sound_execSlotTableActivate {r s : State} {t : State} (e : execSlotTableActivate s = .next t) (h : Sound r s) : Sound r t := by
  grind [execSlotTableActivate, sound_record, soundBy_iff, = map_ok, = dotBind_ok, = upon_ok, = atPart_eq_ok, sound_foldl]

theorem sound_circuitCommand {r s : State} {circ va : Word} {t : State} (e : circuitCommand circ va s = .done t) (h : Sound r s) : Sound r t := by
  rcases of_ite e with e | e
  · cases e
  · obtain ⟨u, d, hu, e⟩ := firmwareRead_done e h
    rcases of_ite e with e | e
    · cases e
    · cases e; exact (sound_record ..).2 ((soundBy_iff ..).2 hu)

theorem sound_execCircuit {r s : State} {circ va : Word} {t : State} (e : execCircuit circ va s = .next t) (h : Sound r s) : Sound r t :=
  sound_firmware sound_circuitCommand e h

theorem sound_notifyBindCommand {r s : State} {aperture pasid : Word} {t : State} (e : notifyBindCommand aperture pasid s = .done t) (h : Sound r s) : Sound r t := by
  grind [notifyBindCommand, sound_record, soundBy_iff]

theorem sound_execNotifyBind {r s : State} {aperture pasid : Word} {t : State} (e : execNotifyBind aperture pasid s = .next t) (h : Sound r s) : Sound r t :=
  sound_firmware sound_notifyBindCommand e h

theorem sound_sliceBindCommand {r s : State} {slice pasid base : Word} {t : State} (e : sliceBindCommand slice pasid base s = .done t) (h : Sound r s) : Sound r t := by
  grind [sliceBindCommand, sound_record, soundBy_iff]

theorem sound_execSliceBind {r s : State} {slice pasid base : Word} {t : State} (e : execSliceBind slice pasid base s = .next t) (h : Sound r s) : Sound r t :=
  sound_firmware sound_sliceBindCommand e h

theorem sound_windowCommand {r s : State} {pasid base : Word} {t : State} (e : windowCommand pasid base s = .done t) (h : Sound r s) : Sound r t := by
  grind [windowCommand, sound_record, soundBy_iff]

theorem sound_execWindow {r s : State} {pasid base : Word} {t : State} (e : execWindow pasid base s = .next t) (h : Sound r s) : Sound r t :=
  sound_firmware sound_windowCommand e h

theorem sound_identityCommand {r s : State} {va : Word} {t : State} (e : identityCommand va s = .done t) (h : Sound r s) : Sound r t := by
  obtain ⟨u, d, hu, e⟩ := firmwareRead_done e h
  dsimp only at e
  split at e
  · next wrote => cases e; exact sound_hubWrite wrote hu
  · cases e
  · cases e

theorem sound_execIdentity {r s : State} {va : Word} {t : State} (e : execIdentity va s = .next t) (h : Sound r s) : Sound r t :=
  sound_firmware sound_identityCommand e h

theorem sound_fabricMembersCommand {r s : State} {members domain : Word} {t : State} (e : fabricMembersCommand members domain s = .done t) (h : Sound r s) : Sound r t := by
  obtain ⟨u, a, hu, e⟩ := firmwareRead_done e h
  obtain ⟨v, b, hv, e⟩ := firmwareRead_done e hu
  rcases of_ite e with e | e
  · cases e; exact (sound_record ..).2 ((soundBy_iff ..).2 hv)
  · cases e

theorem sound_execFabricMembers {r s : State} {members domain : Word} {t : State} (e : execFabricMembers members domain s = .next t) (h : Sound r s) : Sound r t :=
  sound_firmware sound_fabricMembersCommand e h

theorem sound_shardPages {r s : State} {pasid n va stop : Nat} {t y} (e : shardPages pasid n va stop s = .ok (t, y)) (h : Sound r s) : Sound r t := by
  induction n generalizing s va t y with
  | zero => cases e; exact h
  | succ n ih =>
    unfold shardPages at e
    rcases of_ite e with e | e
    · cases e; exact h
    split at e
    · cases e
    next walked =>
      rcases of_ite e with e | e
      · cases e
      · obtain ⟨⟨u, l⟩, rest, eq⟩ := map_ok.1 e
        cases eq
        exact ih rest (sound_walk walked h)

theorem sound_allPages {r s : State} {pasid : Nat} {l : List (Nat × Nat)} {t y} (e : allPages pasid l s = .ok (t, y)) (h : Sound r s) : Sound r t := by
  induction l generalizing s t y with
  | nil => cases e; exact h
  | cons x l ih =>
    obtain ⟨⟨u, a⟩, one, e⟩ := bind_ok.1 e
    obtain ⟨⟨v, b⟩, rest, e⟩ := bind_ok.1 e
    cases e
    exact ih rest (sound_shardPages one h)

theorem sound_setLeaf {r s : State} {pasid va : Nat} {f : Word → Word} (h : Sound r s) : Sound r (setLeaf s pasid va f) := by
  grind [setLeaf.eq_def, sound_write64, sound_record, soundBy_iff]

theorem sound_releaseFrames {r s : State} {pasid : Nat} (h : Sound r s) : Sound r (releaseFrames s pasid) := by
  grind [releaseFrames, sound_record, soundBy_iff, sound_foldl]

theorem sound_takeSnapshot {r s : State} {pasid : Nat} {shards pages : List (Nat × Nat)} (h : Sound r s) : Sound r (takeSnapshot s pasid shards pages) := by
  grind [takeSnapshot, sound_addShoot, sound_setLeaf, sound_releaseFrames, sound_record, soundBy_iff, sound_foldl]

theorem sound_preemptAll {r s : State} (h : Sound r s) : Sound r (preemptAll s) := by
  refine sound_foldl h fun u g hu => ?_
  have kept : Sound r (preempt u g).state := sound_preempt hu
  split
  · next eq => rwa [eq] at kept
  · next eq => rwa [eq] at kept

theorem sound_knowOwed {r s : State} (h : Sound r s) : Sound r (knowOwed s) := by
  grind [knowOwed, sound_vaultPut, sound_foldl]

theorem sound_checkpointPlan {r s : State} {p : QPacket} {t y} (e : checkpointPlan s p = .ok (t, y)) (h : Sound r s) : Sound r t := by
  grind [checkpointPlan, sound_keep, sound_hubRead, sound_allPages, sound_record, soundBy_iff]

theorem sound_startCheckpoint {r s : State} {p : QPacket} {shards pages : List (Nat × Nat)} {t : State} (e : startCheckpoint s p shards pages = .ok t) (h : Sound r s) :
    Sound r t := by
  refine sound_refusePacket e ((sound_record ..).2 ((soundBy_iff ..).2 (sound_takeSnapshot ?_)))
  split
  · exact sound_writeAt (sound_knowOwed h)
  · exact h

theorem sound_execCheckpointPacket {r s : State} {id : Nat} {t : State} (e : execCheckpointPacket id s = .next t) (h : Sound r s) : Sound r t := by
  grind [execCheckpointPacket.eq_def, sound_keep, sound_settleWork, sound_refusePacket, sound_launchPacket, sound_preemptAll, sound_checkpointPlan, sound_startCheckpoint, sound_record, soundBy_iff]

theorem sound_readLeaf {r s : State} {pasid va : Nat} {e : Word} {t y} (he : readLeaf s pasid va e = .ok (t, y)) (h : Sound r s) : Sound r t := by
  unfold readLeaf at he
  dsimp only at he
  rcases of_ite he with he | he
  · cases he; exact h
  rcases of_ite he with he | he
  · split at he
    · cases he
    · exact sound_agentRead he h
  rcases of_ite he with he | he
  · exact sound_hubRes ((works_hubTakes ..).after (hubWork_foldl (fun s q => hubWork_hubSend s _ q) _ s)) he h
  · cases he

theorem sound_holdPage {r s : State} {pasid va : Nat} (h : Sound r s) : Sound r (holdPage s pasid va) := by
  grind [holdPage.eq_def, sound_setLeaf, sound_record, soundBy_iff]

theorem sound_copySource {r s : State} {pasid va : Nat} {t y} (e : copySource s pasid va = .ok (t, y)) (h : Sound r s) : Sound r t := by
  unfold copySource at e
  split at e
  · cases e
  rcases of_ite e with e | e
  · obtain ⟨⟨u, d⟩, read, eq⟩ := map_ok.1 e
    cases eq
    exact sound_setLeaf (sound_readLeaf read h)
  split at e
  · obtain ⟨⟨u, d⟩, read, eq⟩ := map_ok.1 e
    cases eq
    exact (sound_record ..).2 ((soundBy_iff ..).2 (sound_readLeaf read h))
  · exact sound_readLeaf e h

theorem sound_writeShards {r s : State} {va : Nat} {d : List Byte} {l : List (Nat × Nat × Nat)} (h : Sound r s) : Sound r (writeShards va d s l) := by
  induction l generalizing s with
  | nil => exact h
  | cons x l ih =>
    refine ih ?_
    split
    · exact sound_writeAt h
    · exact h

theorem sound_discard {r s : State} {c : Checkpoint} (h : Sound r s) : Sound r (discard s c) := by
  grind [discard, sound_releaseFrames, sound_record, soundBy_iff]

theorem sound_execCheckpointPageCopy {r s : State} {t : State} (e : execCheckpointPageCopy s = .next t) (h : Sound r s) : Sound r t := by
  unfold execCheckpointPageCopy at e
  split at e
  · exact Host.Outcome.next.inj e ▸ h
  split at e
  · exact Host.Outcome.next.inj e ▸ h
  rcases of_ite e with e | e
  · exact Host.Outcome.next.inj e ▸ h
  rcases of_ite e with e | e
  · exact Host.Outcome.next.inj e ▸ sound_discard h
  dsimp only at e
  split at e
  · exact Host.Outcome.next.inj e ▸ (sound_record ..).2 ((soundBy_iff ..).2 (sound_keep (sound_holdPage h)))
  · exact Host.Outcome.next.inj e ▸ sound_discard (sound_setLeaf (sound_keep (sound_holdPage h)))
  · next copied => exact Host.Outcome.next.inj e ▸ (sound_record ..).2 ((soundBy_iff ..).2 (sound_writeShards (sound_copySource copied (sound_holdPage h))))

theorem sound_commitSlot {r s : State} {i : Nat} {m : Manifest} (h : Sound r s) : Sound r (State.commitSlot s i m) := by
  grind [State.commitSlot, sound_record, soundBy_iff]

theorem sound_execManifestCommit {r s : State} {ok : Bool} {t : State} (e : execManifestCommit ok s = .next t) (h : Sound r s) : Sound r t := by
  grind [execManifestCommit.eq_def, sound_writeAt, sound_settleWork, sound_hubAdd, sound_writeColophon, sound_discard, sound_commitSlot, sound_record, soundBy_iff]

/-- POWER_LOSS begins anew: with the NV module's bytes, and with the reset's budget. -/
theorem inv_execPowerLoss {s t : State} (e : execPowerLoss s = .next t) (ok : s.Inv) : t.Inv :=
  Host.Outcome.next.inj e ▸ ⟨⟨Memory.wf_keep ok.1.1 _, ok.1.2⟩, Nat.le_refl _, Nat.le_refl _⟩

theorem sound_restoreControl {r s : State} {c : Control} (h : Sound r s) : Sound r (restoreControl c s) := by
  grind [restoreControl, sound_record, soundBy_iff, = map_ok, = dotBind_ok, = upon_ok, = atPart_eq_ok]

theorem sound_execBringUp {r s : State} {status : Word} {t : State} (e : execBringUp status s = .next t) (h : Sound r s) : Sound r t := by
  grind [execBringUp, sound_restoreControl, sound_record, soundBy_iff, = map_ok, = dotBind_ok, = upon_ok, = atPart_eq_ok]

theorem sound_execFullService {r s : State} {t : State} (e : execFullService s = .next t) (h : Sound r s) : Sound r t := by
  grind [execFullService, sound_record, soundBy_iff]

theorem sound_execEnergyAllowanceWrite {r s : State} {v : Nat} {t : State} (e : execEnergyAllowanceWrite v s = .next t) (h : Sound r s) : Sound r t :=
  Host.Outcome.next.inj e ▸ ⟨h.mem, fun ok => ⟨(h.budget ok).1, Nat.min_le_right ..⟩, h.cur⟩

theorem sound_execPowerGating {r s : State} {core : Nat} {on : Bool} {t : State} (e : execPowerGating core on s = .next t) (h : Sound r s) : Sound r t := by
  grind [execPowerGating, sound_modCore, sound_record, soundBy_iff]

theorem sound_report {r0 s : State} {r : Report} (h : Sound r0 s) : Sound r0 (report r s) := by
  grind [report, sound_record, soundBy_iff]

theorem sound_execEccUncorrectable {r s : State} {granule gath : Nat} {t : State} (e : execEccUncorrectable granule gath s = .next t) (h : Sound r s) : Sound r t := by
  grind [execEccUncorrectable, sound_settleWork, sound_endWith, sound_report, sound_record, soundBy_iff]

theorem sound_softError {r s : State} {stack : Nat} (h : Sound r s) : Sound r (softError stack s) := by
  grind [softError, sound_count]

theorem sound_execHostLinkUncorrectableError {r s : State} {code : Nat} {t : State} (e : execHostLinkUncorrectableError code s = .next t) (h : Sound r s) : Sound r t := by
  grind [execHostLinkUncorrectableError, sound_report]

end Sys2Proof.Machine
end

section
/-!
SUPPORT. The invariant of the module (O57): the management region, and time.
-/

namespace Sys2Proof.Machine

theorem sound_clearDone {r s : State} {unit : Nat} {v : Word} (h : Sound r s) : Sound r (clearDone unit v s) := by
  grind [clearDone, sound_mailStatus, sound_record, soundBy_iff]

theorem sound_toHost {r s : State} {w : Word} (h : Sound r s) : Sound r (toHost w s) := by
  grind [toHost, sound_record, soundBy_iff]

theorem sound_commandBody {r s : State} {op : Nat} {args : List Word} {t : State} (e : commandBody op args s = .done t) (h : Sound r s) : Sound r t := by
  unfold commandBody at e
  dsimp only at e
  split at e
  · exact sound_pasidBindCommand e h
  · exact sound_qcbCreateCommand e h
  · exact sound_qcbDestroyCommand e h
  · exact sound_hbmMapCommand e h
  · exact sound_slotTableCommand e h
  · exact sound_circuitCommand e h
  · exact sound_notifyBindCommand e h
  · exact sound_sliceBindCommand e h
  · exact sound_windowCommand e h
  · exact sound_identityCommand e h
  · exact sound_fabricMembersCommand e h
  · cases e

theorem sound_commandTurn {r s : State} (h : Sound r s) : Sound r (commandTurn s) := by
  grind [commandTurn.eq_def, sound_commandEnd, sound_commandBody, sound_record, soundBy_iff]

theorem sound_mailWrite {r s : State} {i : Nat} {v : Word} {t : State} (e : mailWrite i v s = .next t) (h : Sound r s) : Sound r t := by
  grind [mailWrite, sound_setMail, sound_firmware, sound_commandBody, sound_record, soundBy_iff, = map_ok, = dotBind_ok, = upon_ok, = atPart_eq_ok]

theorem sound_loadImage {r s : State} {pasid : Nat} {g : GlobalImage} {t : State} (e : loadImage pasid g s = .ok t) (h : Sound r s) : Sound r t := by
  grind [loadImage.eq_def, sound_keep, sound_hubWrite, sound_hubNote, sound_record, soundBy_iff, sound_foldl]

theorem sound_hostAct {r s : State} {a : HostAct} {t : State} (e : hostAct a s = .next t) (h : Sound r s) : Sound r t := by
  grind [hostAct.eq_def, sound_settleWork, sound_answer, sound_firmware, sound_clearDone, sound_toHost, sound_mailWrite, sound_loadImage, sound_record, soundBy_iff]

theorem sound_policyAct {r s : State} {a : PolicyAct} (h : Sound r s) : Sound r (policyAct a s) := by
  grind [policyAct.eq_def, sound_modEp, sound_record, soundBy_iff]

theorem sound_passTime {r s : State} {n : Nat} (h : Sound r s) : Sound r (passTime n s) :=
  sound_retryLanding (sound_drainTransits (sound_drainQueues ((sound_record ..).2 ((soundBy_iff ..).2 h))))

end Sys2Proof.Machine
end

section
/-!
SUPPORT. Every step keeps the memories canonical and the allowance within the budget (O57): the instructions and the step.
-/

namespace Sys2Proof.Machine

/-- A trigger that is a mark runs behind its mark; an atomic's snapshot is taken after it. -/
theorem exec_mark {i : Instr} {tr : Trigger} (s : State) (h : triggerOf i = some tr) (hm : isMarkTrig tr.port = true) :
    exec i s = .next (runMark s s.cur (runTrigger s.cur tr.bus tr.src tr.keep tr.port tr.width tr.body)) ∨
      exec i s = .next (runMark s s.cur fun t => (runTrigger s.cur tr.bus tr.src tr.keep tr.port tr.width tr.body t).map (snapshot · s.cur)) := by
  cases i
  all_goals first
    | (obtain rfl := Option.some.inj h; exact .inl rfl)
    | (obtain rfl := Option.some.inj h; exact .inr rfl)
    | (obtain rfl := Option.some.inj h; exfalso; revert hm; simp [Trigger.ofMv, Trigger.ofVm, isMarkTrig, isAtomicTrig])
    | cases h

theorem sound_exec_trigger {r s t : State} {i : Instr} {tr : Trigger} (is : triggerOf i = some tr) (e : exec i s = .next t) (h : Sound r s) : Sound r t := by
  have body : SoundBody tr.body := soundBody_triggerOf is
  cases mark : isMarkTrig tr.port with
  | false =>
    rw [exec_trigger s is mark] at e
    exact sound_finish h (fun _ run => sound_runTrigger body h run) e
  | true =>
    rcases exec_mark s is mark with eq | eq
    · exact Host.Outcome.next.inj (eq.symm.trans e) ▸ sound_runMark (fun h run => sound_runTrigger body h run) h
    · refine Host.Outcome.next.inj (eq.symm.trans e) ▸ sound_runMark (fun h run => ?_) h
      obtain ⟨u, first, eq⟩ := map_ok.1 run
      exact eq ▸ sound_snapshot (sound_runTrigger body h first)

theorem sound_exec {r s t : State} {i : Instr} (power : i ≠ .powerLoss) (e : exec i s = .next t) (h : Sound r s) : Sound r t := by
  cases i with
  | bundleIssue => exact sound_execBundleIssue e h
  | lateResultArrival => exact sound_execLateResultArrival e h
  | xltWalkComplete => exact sound_execXltWalkComplete e h
  | publishEntryPerform => exact sound_execPublishEntryPerform e h
  | phaseBarrierComplete => exact sound_execPhaseBarrierComplete e h
  | watchdogExpiry => exact sound_execWatchdogExpiry e h
  | move => exact sound_execMove e h
  | meFollowOn => exact sound_execMeFollowOn e h
  | ceGranuleLand => exact sound_execCeGranuleLand e h
  | dxEntryDeliver => exact sound_execDxEntryDeliver e h
  | lend => exact sound_runSlot (f := slotLend _) (fun h run => sound_slotLend run h) h e
  | sbase => exact sound_runSlot (fun h run => sound_slotSbase run h) h e
  | sstr => exact sound_runSlot (fun h run => sound_slotSstr run h) h e
  | sstri => exact sound_runSlot (fun h run => sound_slotSstri run h) h e
  | sspace => exact sound_runSlot (fun h run => sound_slotSspace run h) h e
  | swlev => exact sound_runSlot (fun h run => sound_slotSwlev run h) h e
  | srst => exact sound_runSlot (fun h run => sound_slotSrst run h) h e
  | bankListStart => exact sound_execBankListStart e h
  | bload => exact sound_execBload e h
  | bmac => exact sound_execBmac e h
  | bmact => exact sound_execBmact e h
  | bmacq => exact sound_execBmacq e h
  | bscale => exact sound_execBscale e h
  | bstore => exact sound_execBstore e h
  | bsend => exact sound_execBsend e h
  | bzero => exact sound_execBzero e h
  | bjoin => exact sound_execBjoin e h
  | bfence => exact sound_execBfence e h
  | bred => exact sound_execBred e h
  | bsync => exact sound_execBsync e h
  | bend => exact sound_execBend e h
  | bankWaitRelease => exact sound_execBankWaitRelease e h
  | bankListComplete => exact sound_execBankListComplete e h
  | engineOpComplete => exact sound_execEngineOpComplete e h
  | engineOpResume => exact sound_execEngineOpResume e h
  | engineOpCancel => exact sound_execEngineOpCancel e h
  | coreFaultResume => exact sound_execCoreFaultResume e h
  | killGathering => exact sound_execKillGathering e h
  | shootdownGo => exact sound_execShootdownGo e h
  | shootdownAgentAck => exact sound_execShootdownAgentAck e h
  | migratingRewalk => exact sound_execMigratingRewalk e h
  | migratingTimeout => exact sound_execMigratingTimeout e h
  | cowDuplicate => exact sound_execCowDuplicate e h
  | pasidTeardown => exact sound_execPasidTeardown e h
  | fetcherTranslationReturn => exact sound_execFetcherTranslationReturn e h
  | atsInvalidation => exact sound_execAtsInvalidation e h
  | runReceive => exact sound_execRunReceive e h
  | shardHoldReread => exact sound_execShardHoldReread e h
  | shardHoldTimeout => exact sound_execShardHoldTimeout e h
  | shardMovedReceive => exact sound_execShardMovedReceive e h
  | shardRequesterReread => exact sound_execShardRequesterReread e h
  | shardRequesterTimeout => exact sound_execShardRequesterTimeout e h
  | eccUncorrectable => exact sound_execEccUncorrectable e h
  | hbmMapEffect => exact sound_execHbmMapEffect e h
  | folioPullComplete => exact sound_execFolioPullComplete e h
  | pullTimeout => exact sound_execPullTimeout e h
  | folioPushComplete => exact sound_execFolioPushComplete e h
  | backgroundPush => exact sound_execBackgroundPush e h
  | preemptRequest => exact sound_execPreemptRequest e h
  | contextRestore => exact sound_execContextRestore e h
  | debugAttach => exact sound_execDebugAttach e h
  | debugHalt => exact sound_execDebugHalt e h
  | singleStep => exact sound_execSingleStep e h
  | debugResume => exact sound_execDebugResume e h
  | notifyWrite => exact sound_execNotifyWrite e h
  | packetFetch => exact sound_execPacketFetch e h
  | launchPacket => exact sound_execLaunchPacket e h
  | jobPacket => exact sound_execJobPacket e h
  | graphPacket => exact sound_execGraphPacket e h
  | copyPacket => exact sound_execCopyPacket e h
  | signalPacket => exact sound_execSignalPacket e h
  | waitPacket => exact sound_execWaitPacket e h
  | energyPacket => exact sound_execEnergyPacket e h
  | checkpointPacket => exact sound_execCheckpointPacket e h
  | barrierPacket => exact sound_execBarrierPacket e h
  | gatheringPlace => exact sound_execGatheringPlace e h
  | gatheringRelease => exact sound_execGatheringRelease e h
  | tickLaunchTimeout => exact sound_execTickLaunchTimeout e h
  | queueAging => exact sound_execQueueAging e h
  | instanceComplete => exact sound_execInstanceComplete e h
  | blockHandout => exact sound_execBlockHandout e h
  | blockReport => exact sound_execBlockReport e h
  | dieFence => exact sound_execDieFence e h
  | kernelNode => exact sound_execKernelNode e h
  | condNode => exact sound_execCondNode e h
  | whileNode => exact sound_execWhileNode e h
  | joinNode => exact sound_execJoinNode e h
  | endNode => exact sound_execEndNode e h
  | energyWindowEnd => exact sound_execEnergyWindowEnd e h
  | energyPacing => exact sound_execEnergyPacing e h
  | pasidBind => exact sound_execPasidBind e h
  | qcbCreate => exact sound_execQcbCreate e h
  | qcbDestroy => exact sound_execQcbDestroy e h
  | hbmMap => exact sound_execHbmMap e h
  | slotTable => exact sound_execSlotTable e h
  | slotTableActivate => exact sound_execSlotTableActivate e h
  | circuit => exact sound_execCircuit e h
  | notifyBind => exact sound_execNotifyBind e h
  | sliceBind => exact sound_execSliceBind e h
  | window => exact sound_execWindow e h
  | identity => exact sound_execIdentity e h
  | fabricMembers => exact sound_execFabricMembers e h
  | checkpointPageCopy => exact sound_execCheckpointPageCopy e h
  | manifestCommit => exact sound_execManifestCommit e h
  | powerLoss => exact absurd rfl power
  | bringUp => exact sound_execBringUp e h
  | fullService => exact sound_execFullService e h
  | flitReceive => exact sound_execFlitReceive e h
  | lreq => exact sound_execLreq e h
  | supp => exact sound_execSupp e h
  | lost => exact sound_execLost e h
  | linkRetrain => exact sound_execLinkRetrain e h
  | flitRetentionExpiry => exact sound_execFlitRetentionExpiry e h
  | circuitSlotInject => exact sound_execCircuitSlotInject e h
  | fabricWrite => exact sound_execFabricWrite e h
  | fabricRead => exact sound_execFabricRead e h
  | rdata => exact sound_execRdata e h
  | atomic => exact sound_execAtomic e h
  | aresp => exact sound_execAresp e h
  | sack => exact sound_execSack e h
  | moved => exact sound_execMoved e h
  | nak => exact sound_execNak e h
  | fabricBarrier => exact sound_execFabricBarrier e h
  | ready => exact sound_execReady e h
  | sprayRetransmitTimer => exact sound_execSprayRetransmitTimer e h
  | hostBar4Access => exact sound_execHostBar4Access e h
  | linkRetrainDone => exact sound_execLinkRetrainDone e h
  | energyAllowanceWrite => exact sound_execEnergyAllowanceWrite e h
  | powerGating => exact sound_execPowerGating e h
  | hostLinkUncorrectableError => exact sound_execHostLinkUncorrectableError e h
  | _ => exact sound_exec_trigger rfl e h

theorem inv_exec {i : Instr} {s t : State} (e : exec i s = .next t) (ok : s.Inv) : t.Inv := by
  by_cases power : i = .powerLoss
  · subst power
    exact inv_execPowerLoss e ok
  · exact (sound_exec power e (.refl s)).inv ok

/-- Settles O57: each agent's turn keeps both memories canonical and the allowance within the budget, whatever it runs. -/
theorem stepKeepsInv : Obligations.StepKeepsInv := by
  intro s t ok e
  unfold step at e
  split at e
  · exact inv_exec e ok
  · rcases of_ite e with e | e
    · exact inv_exec e ok
    · cases e
  · rcases of_ite e with e | e
    · dsimp only at e
      split at e
      · exact Host.Outcome.next.inj e ▸ ok
      · exact Host.Outcome.next.inj e ▸ (sound_parkBank (.refl _)).inv ok
      · exact inv_exec e ok
    · cases e
  · rcases of_ite e with e | e
    · exact (sound_engineTurn e (.refl _)).inv ok
    · cases e
  · rcases of_ite e with e | e
    · exact inv_exec e ok
    · cases e
  · exact Host.Outcome.next.inj e ▸ (sound_commandTurn (.refl _)).inv ok
  · exact Host.Outcome.next.inj e ▸ (sound_passTime (.refl _)).inv ok
  · exact Host.Outcome.next.inj e ▸ (sound_softError (.refl _)).inv ok
  · exact (sound_hostAct e (.refl _)).inv ok
  · exact Host.Outcome.next.inj e ▸ (sound_policyAct (.refl _)).inv ok

end Sys2Proof.Machine
end

section
/-!
SUPPORT. O18: atomics of the scratchpad act in their bundle, those through a handle where they arrive (R142, R270 to R272).
-/

namespace Sys2Proof.Machine

/-! ### The bytes of a word -/

theorem leBytes_ofLeBytes (l : List Byte) : leBytes l.length (ofLeBytes l) = l := by
  induction l with
  | nil => rfl
  | cons b r ih =>
    have head := b.isLt
    have tail : (b.toNat + 256 * ofLeBytes r) / 256 = ofLeBytes r := by omega
    have byte : BitVec.ofNat 8 (b.toNat + 256 * ofLeBytes r) = b :=
      BitVec.eq_of_toNat_eq (by rw [BitVec.toNat_ofNat]; omega)
    rw [List.length_cons, leBytes, ofLeBytes, tail, ih, byte]

/-- The low word of a latch. -/
theorem bits_word (c : Vec) : bits c 63 0 = (c.setWidth 64).toNat := by
  rw [bits_eq_div, BitVec.toNat_setWidth, Nat.pow_zero, Nat.div_one]

theorem signed_word (x : Word) : signed 64 x.toNat = x.toInt := by
  have low := x.isLt
  simp only [signed, BitVec.toInt_eq_toNat_cond]
  split <;> split <;> omega

/-! ### Atomics of the scratchpad -/

/-- The core after an atomic of its own scratchpad: the new word where one is written, else as it was. -/
def Core.atomicWord (k : Core) (port size off old b cmp : Nat) : Core :=
  if atomicWrites port size old cmp then k.spadWrite off (leBytes size (atomicNew port size old b cmp)) else k

section Word

variable (k : Core) (port size off b cmp : Nat)

theorem atomicWord_eq (old : Nat) : ∃ m f, k.atomicWord port size off old b cmp = { k with scratch := m, folios := f } := by
  unfold Core.atomicWord
  split
  · exact ⟨_, _, Core.spadWrite_eq ..⟩
  · exact ⟨_, _, rfl⟩

theorem atomicWord_arch (old : Nat) : (k.atomicWord port size off old b cmp).arch = k.arch := by
  obtain ⟨m, f, eq⟩ := atomicWord_eq k port size off b cmp old
  rw [eq]

/-- Where nothing is written the new word of Table 12.9 is the old one. -/
theorem atomicNew_kept {port size old b cmp : Nat} (kept : atomicWrites port size old cmp = false) (acts : port ≠ 0x366) : atomicNew port size old b cmp = old := by
  have failed : port = 0x361 ∧ old ≠ cmp % 2 ^ (8 * size) := by simpa [atomicWrites, isArd, acts] using kept
  obtain ⟨rfl, differs⟩ := failed
  simp [atomicNew, differs]

theorem spadRead_atomicWord (acts : port ≠ 0x366) :
    (k.atomicWord port size off (ofLeBytes (k.spadRead off size)) b cmp).spadRead off size =
      leBytes size (atomicNew port size (ofLeBytes (k.spadRead off size)) b cmp) := by
  unfold Core.atomicWord
  split
  case isTrue =>
    have read := k.spadRead_spadWrite off (leBytes size (atomicNew port size (ofLeBytes (k.spadRead off size)) b cmp))
    rwa [length_leBytes] at read
  case isFalse kept =>
    have back := leBytes_ofLeBytes (k.spadRead off size)
    rw [length_spadRead] at back
    rw [atomicNew_kept (by simpa using kept) acts, back]

theorem scratch_atomicWord {old : Nat} (kept : port = 0x366 ∨ port = 0x361 ∧ old ≠ cmp % 2 ^ (8 * size)) :
    (k.atomicWord port size off old b cmp).scratch = k.scratch := by
  have reads : atomicWrites port size old cmp = false := by
    rcases kept with rfl | ⟨rfl, differs⟩
    · rfl
    · simp [atomicWrites, isArd, differs]
  rw [Core.atomicWord, if_neg (by simp [reads])]

theorem spad_atomicWord_other (old : Nat) {x : Nat} (outside : x < off ∨ off + size ≤ x) : (k.atomicWord port size off old b cmp).spad x = k.spad x := by
  unfold Core.atomicWord
  split
  · exact Core.spad_spadWrite_other _ _ (by rwa [length_leBytes])
  · rfl

end Word

/-- The token of an atomic is operand A of its unit, that of `ard` the value moved (Table 12.6). -/
def atomicToken (k : Core) (bus port : Nat) (b : Val) : Word := if port = 0x366 then b.lo else unitA k bus

/-- The word at that token before the atomic. -/
def Core.atomicOld (k : Core) (bus port size : Nat) (b : Val) : Nat := ofLeBytes (k.spadRead (atomicToken k bus port b).toNat size)

/-- The core after that atomic. -/
def Core.atomicDone (k : Core) (bus port size : Nat) (b : Val) : Core :=
  k.atomicWord port size (atomicToken k bus port b).toNat (k.atomicOld bus port size b) b.lo.toNat ((unitC k bus).setWidth 64).toNat

/-- A local atomic delivers the old word after 8 bundles and writes the new one into its core. -/
theorem atomic_local {x : Trig} {t : State} {size : Nat} (hc : x.c = t.cur) (sized : atomicSize x.port (unitC t.here x.bus) = size)
    (token : LocalToken (atomicToken t.here x.bus x.port x.b) size) (folios : Present t (spadFolios (atomicToken t.here x.bus x.port x.b).toNat size)) :
    ∃ w, atomic x t = .ok (deliver w t.cur x.bus (0x0B0 + x.bus) 8 (ofOld (t.here.atomicOld x.bus x.port size x.b)) 0) ∧
      w.here = t.here.atomicDone x.bus x.port size x.b ∧ SameModule t w ∧ SameOthers t w ∧ w.cur = t.cur := by
  obtain ⟨c, bus, port, b, w, pre⟩ := x
  obtain rfl : c = t.cur := hc
  simp only [State.here] at sized token folios ⊢
  have named : (if isArd port = true then b.lo else unitA (t.core t.cur) bus) = atomicToken (t.core t.cur) bus port b := by simp [isArd, atomicToken]
  simp only [atomic, named, sized, token.passes, token.kind, token.off, folios.folios, bits_word, bind, except_ok_bind, if_true, due, busResult,
    Core.atomicDone, Core.atomicOld, Core.atomicWord]
  by_cases writes : atomicWrites port size (ofLeBytes ((t.core t.cur).spadRead (atomicToken (t.core t.cur) bus port b).toNat size))
    ((unitC (t.core t.cur) bus).setWidth 64).toNat
  · simp only [writes, Bool.not_true, Bool.false_eq_true, if_false, if_true]
    exact ⟨_, rfl, State.core_setCore_same .., rfl, fun _ other => State.core_setCore_other _ _ other, rfl⟩
  · simp only [writes, Bool.not_false, Bool.false_eq_true, if_false, if_true]
    exact ⟨t, rfl, rfl, rfl, fun _ _ => rfl, rfl⟩

theorem runMark_ok {s t u : State} {c : Nat} {f : State → Res State} (first : markFirst s c = .ok t) (runs : f t = .ok u) :
    runMark s c f = u.modCore c fun k => { k with marked := false, freeze := .none, waitVa := none } := by
  simp only [runMark, first, runs]

/-- The state behind a mark whose snapshot is taken after its result. -/
def afterMark (s : State) (bus port lat : Nat) (v : Vec) (f : Word) : State :=
  (snapshot (deliver s s.cur bus port lat v f) s.cur).modCore s.cur fun k => { k with marked := false, freeze := .none, waitVa := none }

theorem here_afterMark (s : State) (bus port lat : Nat) (v : Vec) (f : Word) :
    (afterMark s bus port lat v f).here =
      { s.here with
        arch := s.here.arch.addDue (knownDue s.here.arch bus port lat v f), snap := s.here.arch.addDue (knownDue s.here.arch bus port lat v f), epoch := s.here.epoch + 1,
        popped := [], ops := dropStreams s.here, marked := false, phaseDone := false, arrived := none, freeze := .none, waitVa := none } := by
  have result : (deliver s s.cur bus port lat v f).core s.cur = { s.here with arch := s.here.arch.addDue (knownDue s.here.arch bus port lat v f) } := State.core_modCore_same ..
  refine (State.core_modCore_same ..).trans ?_
  rw [snapshot, State.core_modCore_same, result]
  rfl

theorem sameOthers_afterMark (s : State) (bus port lat : Nat) (v : Vec) (f : Word) : SameOthers s (afterMark s bus port lat v f) := fun d other => by
  rw [afterMark, State.core_modCore_other _ _ other, snapshot, State.core_modCore_other _ _ other, deliver, State.core_modArch_other _ _ other]

theorem SameModule.trans {s t u : State} (h : SameModule s t) (g : SameModule t u) : SameModule s u := by
  have first : { t with cores := s.cores, fresh := s.fresh } = s := h
  have second : { u with cores := t.cores, fresh := t.fresh } = t := g
  rw [← second] at first
  exact first

/-- An atomic of the scratchpad is its mark, its effect on the core, the result that it delivers and the snapshot after it. -/
theorem runAfterMarkMv_atomic {m : Mv} {s t u : State} {v : Val} {port size : Nat} (first : markFirst s s.cur = .ok t) (reads : Reads t m.bus m.src m.keep v u)
    (present : Present u [32]) (sized : atomicSize port (unitC u.here m.bus.val) = size) (token : LocalToken (atomicToken u.here m.bus.val port v) size)
    (folios : Present u (spadFolios (atomicToken u.here m.bus.val port v).toNat size)) :
    ∃ w, runAfterMarkMv m port atomic s = .next w ∧ w.here.scratch = (u.here.atomicDone m.bus.val port size v).scratch ∧
      w.here.arch = u.here.arch.addDue (knownDue u.here.arch m.bus.val (0x0B0 + m.bus.val) 8 (ofOld (u.here.atomicOld m.bus.val port size v)) 0) ∧
      w.here.snap = w.here.arch ∧ w.here.marked = false ∧ SameModule t w ∧ SameOthers t w := by
  have cur : t.cur = s.cur := (sound_markFirst first (Sound.refl s)).cur
  obtain ⟨y, runs, here, module, others, stands⟩ :=
    atomic_local (x := { c := t.cur, bus := m.bus.val, port := port, b := v, w := 1024, pre := t.here.arch }) reads.cur.symm sized token folios
  have run : runTrigger t.cur m.bus.val m.src.toNat m.keep port 1024 atomic t =
      .ok (deliver y u.cur m.bus.val (0x0B0 + m.bus.val) 8 (ofOld (u.here.atomicOld m.bus.val port size v)) 0) := by
    rw [runTrigger_eq reads, startTrigger_present present (by simp) reads.cur.symm, runs]
    rfl
  have home : u.cur = s.cur := reads.cur.trans cur
  have arch : y.here.arch = u.here.arch := by rw [here]; exact atomicWord_arch ..
  have step : runAfterMarkMv m port atomic s = .next (afterMark y m.bus.val (0x0B0 + m.bus.val) 8 (ofOld (u.here.atomicOld m.bus.val port size v)) 0) := by
    rw [runAfterMarkMv, runMark_ok first (by rw [← cur, run]; rfl), afterMark, stands, home, cur]
  refine ⟨_, step, ?_⟩
  rw [here_afterMark, arch, here]
  refine ⟨rfl, rfl, rfl, rfl, (reads.sameModule.trans module).trans rfl, fun d other => ?_⟩
  have elsewhere : d ≠ u.cur := reads.cur.symm ▸ other
  rw [sameOthers_afterMark _ _ _ _ _ _ d (stands.symm ▸ elsewhere), others d elsewhere, reads.sameOthers d other]

/-! ### Atomics through a handle -/

section Arrival

variable {s : State} {c : Nat} {d : Due} {p : Place} {port : Nat} {b cmp : Word}

/-- An atomic at its home, where its core has no entry for the granule and no job runs: its word is written as Table 12.9 says. -/
theorem performAtomic_plain (jobs : s.jobs = []) (old : Nat) :
    performAtomic s c p port 8 b cmp old =
      if atomicWrites port 8 old cmp.toNat then s.writeAt p (leBytes 8 (atomicNew port 8 old b.toNat cmp.toNat)) else s := by
  have none : raisedJob s p = none := by rw [raisedJob, jobs]; rfl
  simp only [performAtomic, none]
  split <;> cases atomicWrites port 8 old cmp.toNat <;> rfl

theorem lateArrival_atomic (one : (s.core c).arch.due = [d]) (tagged : d.tag ≠ 0) (only : dueAtomics (s.core c) (granuleOf p) = [d])
    (req : d.req = .atomic p port 8 b cmp) : lateArrival s c d.tag = atomicArrival s c d := by
  have first : ([d].takeWhile fun x => x.tag != d.tag) = [] := by simp
  simp only [lateArrival, findDue_one one tagged, req, only, first, List.nil_append, List.foldl_cons, List.foldl_nil]

/-- With nothing buffered, the granule's own entry changes no more than the buffer. -/
theorem performGranule_nothing (empty : (s.core c).pub = []) (g : Place) : performGranule s c g = s.modCore c fun k => { k with pub := [] } := by
  simp only [performGranule, State.modCore, empty, List.filter_nil, List.foldl_nil]

theorem toNat_read64 (s : State) (p : Place) : (s.read64 p).toNat = ofLeBytes (s.readAt p 8) := by
  have fits := ofLeBytes_lt (s.readAt p 8)
  rw [length_readAt] at fits
  rw [State.read64, BitVec.toNat_ofNat, Nat.mod_eq_of_lt (by omega)]

/-- A word written where it exists is read back. -/
theorem read64_writeAt (placed : p.host = true ∨ physMapped p.addr = true) (aligned : p.addr % 8 = 0) (s : State) (n : Nat) :
    (s.writeAt p (leBytes 8 n)).read64 p = BitVec.ofNat 64 n := by
  have place (i : Nat) (hi : i < 8) : p.host = true ∨ physMapped (p.add i).addr = true := placed.imp_right fun mapped => physMapped_word aligned mapped hi
  have bytes : (s.writeAt p (leBytes 8 n)).readAt p 8 = leBytes 8 n := by
    rw [State.readAt_writeAt_take _ _ _ (Nat.le_of_eq (length_leBytes ..).symm) place]
    exact List.take_of_length_le (Nat.le_of_eq (length_leBytes ..))
  rw [State.read64, bytes, ofLeBytes_leBytes]
  exact BitVec.eq_of_toNat_eq (by rw [BitVec.toNat_ofNat, BitVec.toNat_ofNat]; exact Nat.mod_mod ..)

theorem cores_writeAt (s : State) (p : Place) (l : List Byte) : (s.writeAt p l).cores = s.cores := by
  obtain ⟨m, h, x, eq⟩ := s.writeAt_eq p l
  rw [eq]

/-- What an atomic at its home leaves: the word it writes, every other byte, and the cores. -/
theorem performAtomic_leaves (jobs : s.jobs = []) (placed : p.host = true ∨ physMapped p.addr = true) (aligned : p.addr % 8 = 0) (old : Nat) :
    (performAtomic s c p port 8 b cmp old).read64 p =
        (if atomicWrites port 8 old cmp.toNat then BitVec.ofNat 64 (atomicNew port 8 old b.toNat cmp.toNat) else s.read64 p) ∧
      (∀ x : Place, x.host ≠ p.host ∨ x.addr < p.addr ∨ p.addr + 8 ≤ x.addr → (performAtomic s c p port 8 b cmp old).byteAt x = s.byteAt x) ∧
      (performAtomic s c p port 8 b cmp old).cores = s.cores := by
  rw [performAtomic_plain jobs]
  split
  · exact ⟨read64_writeAt placed aligned s _, fun x outside => State.byteAt_writeAt _ _ _ _ (by rwa [length_leBytes]), cores_writeAt ..⟩
  · exact ⟨rfl, fun _ _ => rfl, rfl⟩

theorem atomicArrival_eq (empty : (s.core c).pub = []) (req : d.req = .atomic p port 8 b cmp) :
    atomicArrival s c d = fillBoth (performAtomic (s.modCore c fun k => { k with pub := [] }) c p port 8 b cmp (s.read64 p).toNat) c d.tag
      (Due.arrived ((s.read64 p).setWidth 1024)) := by
  have old : ofOld (ofLeBytes (s.readAt p 8)) = (s.read64 p).setWidth 1024 := by rw [← toNat_read64]; exact BitVec.ofNat_toNat ..
  rw [← old, toNat_read64, atomicArrival, req]
  simp only [performGranule_nothing empty]
  rfl

/-- The arrival of the one atomic due: its word, its result, every other byte and every other core. -/
theorem atomicArrival_one (one : (s.core c).arch.due = [d]) (empty : (s.core c).pub = []) (jobs : s.jobs = []) (req : d.req = .atomic p port 8 b cmp)
    (placed : p.host = true ∨ physMapped p.addr = true) (aligned : p.addr % 8 = 0) :
    (atomicArrival s c d).read64 p =
        (if atomicWrites port 8 (s.read64 p).toNat cmp.toNat then BitVec.ofNat 64 (atomicNew port 8 (s.read64 p).toNat b.toNat cmp.toNat) else s.read64 p) ∧
      ((atomicArrival s c d).core c).arch.due = [{ d with val := some ((s.read64 p).setWidth 1024), req := .none }] ∧
      (∀ x : Place, x.host ≠ p.host ∨ x.addr < p.addr ∨ p.addr + 8 ≤ x.addr → (atomicArrival s c d).byteAt x = s.byteAt x) ∧
      ∀ e, e ≠ c → (atomicArrival s c d).core e = s.core e := by
  obtain ⟨word, bytes, cores⟩ := performAtomic_leaves (s := s.modCore c fun k => { k with pub := [] }) (c := c) (p := p) (port := port) (b := b) (cmp := cmp)
    jobs placed aligned (s.read64 p).toNat
  rw [atomicArrival_eq empty req]
  generalize performAtomic _ c p port 8 b cmp (s.read64 p).toNat = w at word bytes cores ⊢
  have core (e : Nat) : w.core e = (s.modCore c fun k => { k with pub := [] }).core e := by simp only [State.core, cores]
  have due : (w.core c).arch.due = [d] := by rw [core, State.core_modCore_same]; exact one
  obtain ⟨memory, value, -, others⟩ := fillBoth_one due (Due.arrived ((s.read64 p).setWidth 1024))
  refine ⟨(memory.read64 p).trans word, value, fun x outside => (memory x).trans (bytes x outside), fun e other => ?_⟩
  rw [others e other, core, State.core_modCore_other _ _ other]

end Arrival

/-- Table 12.9 over 64-bit words. -/
theorem atomicWord_table {q : Nat × (Word → Word → Word → Word)}
    (hq : q ∈ ([(0x35C, fun old b _ => old + b), (0x35D, fun old b _ => if old.toInt < b.toInt then b else old), (0x35F, fun old b _ => if b.toInt < old.toInt then b else old),
      (0x360, fun _ b _ => b), (0x361, fun old b cmp => if old = cmp then b else old), (0x362, fun old b _ => old &&& b), (0x363, fun old b _ => old ||| b),
      (0x366, fun old _ _ => old)] : List (Nat × (Word → Word → Word → Word)))) (old b cmp : Word) :
    (if atomicWrites q.1 8 old.toNat cmp.toNat then BitVec.ofNat 64 (atomicNew q.1 8 old.toNat b.toNat cmp.toNat) else old) = q.2 old b cmp := by
  have whole (x : Word) : x.toNat % 18446744073709551616 = x.toNat := Nat.mod_eq_of_lt x.isLt
  simp only [List.mem_cons, List.not_mem_nil, or_false] at hq
  rcases hq with rfl | rfl | rfl | rfl | rfl | rfl | rfl | rfl
  all_goals simp [atomicWrites, isArd, atomicNew, whole, signed_word, apply_ite (BitVec.ofNat 64), ← BitVec.toNat_inj]
  exact fun differs same => absurd same differs

section LocalAtomics

variable {q : (Mv → Instr) × Nat}
  (hq : q ∈ ([(.mAadd, 0x35C), (.mAmax, 0x35D), (.mAmaxf, 0x35E), (.mAmin, 0x35F), (.mAxchg, 0x360), (.mAcas, 0x361), (.mAand, 0x362), (.mAor, 0x363), (.mArd, 0x366)] :
    List ((Mv → Instr) × Nat)))
include hq

theorem exec_atomic (m : Mv) (s : State) : exec (q.1 m) s = runAfterMarkMv m q.2 atomic s := by
  simp only [List.mem_cons, List.not_mem_nil, or_false] at hq
  rcases hq with rfl | rfl | rfl | rfl | rfl | rfl | rfl | rfl | rfl <;> rfl

end LocalAtomics

/-- Settles O18: a local atomic is `runAfterMarkMv_atomic`, one through a handle the arrival of the one atomic due. -/
theorem atomicsPerform : Obligations.AtomicsPerform := by
  unfold Obligations.AtomicsPerform
  refine ⟨fun q hq m s t u v _ first reads present => ?scratchpad, fun q hq s c d p b cmp one only tagged empty jobs req placed aligned => ?handle⟩
  case scratchpad =>
    intro a c size off old bound aligned folios
    obtain ⟨w, runs, scratch, arch, snap, marked, module, others⟩ :=
      runAfterMarkMv_atomic (port := q.2) (size := size) first reads present rfl ⟨bound, aligned⟩ folios
    have bytes (x : Nat) : w.here.spad x = (u.here.atomicDone m.bus.val q.2 size v).spad x := by rw [Core.spad, Core.spad, scratch]
    refine ⟨w, (exec_atomic hq m s).trans runs, fun acts => ?_, fun kept => scratch.trans (scratch_atomicWord _ _ _ _ _ _ kept), fun x outside => ?_, arch, snap, marked,
      module, others⟩
    · have read : w.here.spadRead off size = (u.here.atomicDone m.bus.val q.2 size v).spadRead off size := by simp only [Core.spadRead, bytes]
      exact read.trans (spadRead_atomicWord _ _ _ _ _ _ acts)
    · exact (bytes x).trans (spad_atomicWord_other _ _ _ _ _ _ _ outside)
  case handle =>
    obtain ⟨word, due, bytes, others⟩ := atomicArrival_one one empty jobs req placed aligned
    rw [exec_lateArrival, lateArrival_atomic one tagged only req]
    exact ⟨_, rfl, word.trans (atomicWord_table hq _ _ _), due, bytes, others⟩

end Sys2Proof.Machine
end
